-- ==== Sys2Proof/Word.lean ====
section
/-! DEFINITION. The word types of the Eloabry E6: bytes, element codes and the internal format E8M31. -/

namespace Sys2Proof

/-- One byte, the smallest addressable unit of every memory (R4). -/
abbrev Byte := BitVec 8

/-- The code of one stored tensor element, 16 bits or narrower (Table 6.1). -/
abbrev Code := BitVec 16

/-- A value of the internal format E8M31: sign, 8 exponent bits, 31 fraction bits (R67). -/
abbrev E8M31 := BitVec 40

/-- A 32-bit word of the generator (R159) and of the CRC (R254). -/
abbrev W32 := BitVec 32

end Sys2Proof
end

