-- ==== Sys2Proof/Syntax.lean ====
section
/-! DEFINITION. The commands of the block: one constructor for each row of spec/opcode_table.json, with the operands the
rows' rules give them. -/

namespace Sys2Proof

/-- The path a dictionary request arrives on, which is its role (R388). -/
inductive Role where
  /-- Stavlink. -/
  | host
  /-- The CAN FD port. -/
  | mgmt
  deriving DecidableEq, Repr

/-- Where a table bundle stands: its table, the slot that holds it and the SEQ of the bundle whose CALL ran it (R60). -/
structure TblRef where
  table : Nat
  slotB : Bool
  callSeq : Nat
  deriving DecidableEq, Repr

/-- A command of the bundle stream but for its opcode (Tables 2.3 and 2.4): the opcode is the constructor's. -/
structure Issue where
  unit : Nat
  dur : Nat
  arg : BitVec 32
  ctx : Nat
  seq : Nat
  slot : Nat
  tbl : Option TblRef
  /-- The descriptors that the fetcher read for the command (R39): the one it names, then those that one names. A command that
  comes without a fetch has none, and its unit takes them from the directory. -/
  held : List Nat := []
  deriving DecidableEq, Repr

/-- A report to the fault collector with its stamp (R19) and the DETAIL bits of Table 13.7. `halt` marks the
LOCKET_SKEW that R320 gives the halt action; `replay` a report raised in a guilty-context replay (R357). -/
structure Report where
  code : Nat
  source : Nat
  die : Nat
  ctx : Nat
  frame : Nat
  cycle : Nat
  detail : Nat
  halt : Bool
  replay : Bool
  deriving DecidableEq, Repr

/-- A Nagauk message: a CAN FD frame (R394), or the request at the head of the in-band ring (R399). -/
inductive Message where
  | can (identifier : Nat) (payload : List Byte)
  | inBand
  deriving DecidableEq, Repr

/-- The attribute of the page of an access: as Table 9.3 has it, uncached, or uncached and strongly ordered (R226). -/
inductive Page where
  | pma
  | nc
  | io
  deriving DecidableEq, Repr

/-- The operations of Zicbom on a line (R226). -/
inductive CacheOp where
  | clean
  | flush
  | inval
  deriving DecidableEq, Repr

/-- What a core does at a physical address: an instruction fetch, a load, a store, an operation of the A extension, or one of Zicbom
(R220, R226, R227). -/
inductive MemAccess where
  | fetch (length : Nat)
  | load (length : Nat)
  | store (bytes : List Byte)
  | amo (op : Nat) (wide : Bool) (operand : BitVec 64)
  | loadReserved (wide : Bool)
  | storeConditional (wide : Bool) (value : BitVec 64)
  | cache (op : CacheOp)
  deriving DecidableEq, Repr

/-- A register of the cluster devices: a window, the oldest mailbox entry by its halves, the mailbox status, the registers of the
PLIC with their source or context, twice the core's number in its cluster and one more in supervisor mode, and the watchdog (R228,
R230, R235, R350; log 126). -/
inductive DeviceReg where
  | window (number : Nat)
  | mailEntry (half : Nat)
  | mailStatus
  | plicPriority (source : Nat)
  | plicPending
  | plicEnable (context : Nat)
  | plicThreshold (context : Nat)
  | plicClaim (context : Nat)
  | watchdog
  deriving DecidableEq, Repr

/-- One access of a Thallus core: to the board address space (R288, R227), or to a physical address (R225), a register of the cluster
devices or a CSR, which is also written where a value stands (log 126). -/
inductive CoreAccess where
  | load (length : Nat)
  | store (bytes : List Byte)
  | amo (op : Nat) (wide : Bool) (operand : BitVec 64)
  | physical (page : Page) (access : MemAccess)
  | device (register : DeviceReg) (write : Option (BitVec 64))
  | csr (number : Nat) (write : Option (BitVec 64))
  deriving DecidableEq, Repr

/-- One tensor of a stitch (R135): where its delta list and active index lie, where the stitcher puts the alternate index, its metadata
plane, and for E2M1 its scale plane with that of the active index; the alternate descriptors as directory entry, number and content;
and the alternate slots as schedule table, span and bundles. -/
structure StitchJob where
  tensor : Nat
  delta : Nat
  oldIndex : Nat
  newIndex : Nat
  metaPlane : Nat
  oldScales : Nat
  newScales : Nat
  descs : List (Nat × Nat × Nat)
  tables : List (Nat × Nat × List Nat)
  deriving DecidableEq, Repr

/-- The commands, in the order of spec/opcode_table.json. -/
inductive Instr where
  | nop (i : Issue)
  | call (i : Issue)
  | commitPoint (i : Issue)
  | halt (i : Issue)
  | mark (i : Issue)
  | arrayIdle (i : Issue)
  | matmul (i : Issue)
  | arrayHold (i : Issue)
  | sorusIdle (i : Issue)
  | spmm (i : Issue)
  | score (i : Issue)
  | sorusHold (i : Issue)
  | feederIdle (i : Issue)
  | loadw (i : Issue)
  | loadwT (i : Issue)
  | swap (i : Issue)
  | filigreeIdle (i : Issue)
  | kernel (i : Issue)
  | update (i : Issue)
  | prune (i : Issue)
  | regrow (i : Issue)
  | route (i : Issue)
  | mcIdle (i : Issue)
  | read (i : Issue)
  | write (i : Issue)
  | copy (i : Issue)
  | reduce (i : Issue)
  | portIdle (i : Issue)
  | portSend (i : Issue)
  | portRecv (i : Issue)
  | bcast (i : Issue)
  | stavlinkIdle (i : Issue)
  | stavlinkSend (i : Issue)
  | stavlinkRecv (i : Issue)
  | post (i : Issue)
  | seal (i : Issue)
  | phase (i : Issue)
  | floor (i : Issue)
  | fence (i : Issue)
  | pendingCommandStart (unit : Nat)
  | loadwComplete (die : Nat)
  | swapComplete (die : Nat)
  | matmulComplete (unit : Nat)
  | spmmComplete (die : Nat)
  | kernelComplete (die : Nat)
  | updatePartComplete (die : Nat)
  | routeComplete (die : Nat)
  | transferComplete (unit : Nat)
  | fenceComplete (ctx : Nat)
  | reduceWindowExpiry (unit : Nat)
  | sealComplete
  | frameTick
  | streamFetch
  | backgroundReserveStart
  | frameSyncEdge
  | syncLost
  | planFix (controllerReady : Bool)
  | bridgeFail (east : Bool) (eastward : Bool) (units : Nat) (address : Nat)
  | streamFlitReceive (port : Nat) (raw : List Byte)
  | bstoreReceive (port : Nat) (raw : List Byte)
  | breduceReceive (port : Nat) (raw : List Byte)
  | bloadReceive (port : Nat) (raw : List Byte)
  | bloadRspReceive (port : Nat) (raw : List Byte)
  | bamoReceive (port : Nat) (raw : List Byte)
  | bamoRspReceive (port : Nat) (raw : List Byte)
  | heartbeatReceive (port : Nat) (raw : List Byte)
  | censusReceive (port : Nat) (raw : List Byte)
  | poisonStepReceive (port : Nat) (raw : List Byte)
  | nakReceive (port : Nat) (raw : List Byte)
  | creditReceive (port : Nat) (raw : List Byte)
  | degradeReceive (port : Nat) (raw : List Byte)
  | retrainDoneReceive (port : Nat) (raw : List Byte)
  | linkDegraded (port : Nat)
  | portRetrainComplete (port : Nat) (trained : Bool)
  | portStall (port : Nat)
  | boardLoadTimeout (request : Nat)
  | streamUnmatched
  | heartbeatLost
  | censusClose
  | routingBankSwitch
  | locketDataReceive (port : Nat) (raw : List Byte)
  | locketAckReceive (port : Nat) (raw : List Byte)
  | locketCompare
  | deltaAckReceive (port : Nat) (raw : List Byte)
  | readySend
  | readyReceive (port : Nat) (raw : List Byte)
  | coordinatorDecision
  | commitTimeout
  | commitReceive (port : Nat) (raw : List Byte)
  | abortReceive (port : Nat) (raw : List Byte)
  | revertStart
  | revertDone
  | revertedReceive (port : Nat) (raw : List Byte)
  | restartReceive (port : Nat) (raw : List Byte)
  | outcomeReceive (port : Nat) (raw : List Byte)
  | outcomeDecision
  | fillReqReceive (port : Nat) (raw : List Byte)
  | fillDataReceive (port : Nat) (raw : List Byte)
  | locketReqReceive (port : Nat) (raw : List Byte)
  | faultReport (r : Report)
  | firstFaultLatch
  | frondHang (unit : Nat)
  | unitHang (unit : Nat)
  | thallusHang (core : Nat) (pc : BitVec 64) (cause : BitVec 64)
  | frondResetDone (die : Nat) (passed : Bool)
  | clusterResetDone (die : Nat) (imageMatches : Bool)
  | moduleReset
  | replayFrame
  | replayPass
  | guiltyContext
  | stitchLate
  | programStart (role : Role)
  | programStop (role : Role)
  | syncTrackingArm (role : Role) (value : Nat)
  | clearFirstFault (role : Role) (value : Nat)
  | frondResetRequest (role : Role) (value : Nat)
  | clusterResetRequest (role : Role) (value : Nat)
  | dumpRequest (role : Role) (value : Nat)
  | dumpHarvested (role : Role) (value : Nat)
  | storeSettings (role : Role) (value : Nat)
  | restoreDefaults (role : Role) (value : Nat)
  | maintenanceMode (role : Role) (value : Nat)
  | holdStep (role : Role) (value : Nat)
  | holdRelease (role : Role) (value : Nat)
  | updateVerify (role : Role)
  | updateInstall (role : Role)
  | installComplete
  | updateActivate (role : Role)
  | activateStep
  | updateRevert (role : Role)
  | updateCommit (role : Role)
  | updateAbandon (role : Role)
  | attestationNonce (role : Role) (nonce : List Byte)
  | quoteComplete
  | factoryToken (role : Role) (token : List Byte)
  | injectionRequest (role : Role) (request : List Byte)
  | injectionFire
  | repairRequest (role : Role) (request : List Byte)
  | repairEvacuationDone
  | repairSoft
  | repairRestoreDone
  | metadataAddress (role : Role) (value : Nat)
  | translateAddress (role : Role) (value : Nat)
  | portRestore (role : Role) (value : Nat)
  | configurationSwitchStep (role : Role) (value : Nat)
  | fenceRelease (role : Role) (value : Nat)
  | censusRequest (role : Role) (value : Nat)
  | resolve (role : Role) (value : Nat)
  | resume (role : Role) (value : Nat)
  | restoreRecord (role : Role) (record : List Byte)
  | reEncode (role : Role) (value : Nat)
  | exportStep (role : Role) (value : Nat)
  | exportDone (role : Role) (value : Nat)
  | mailboxPop (die : Nat)
  | registerWrite (role : Role) (index : Nat) (sub : Nat) (type : Nat) (value : List Byte)
  | nagaukRead (m : Message)
  | nagaukWrite (m : Message)
  | segInit (m : Message)
  | seg (m : Message)
  | nagaukAbort (m : Message)
  | identify (m : Message)
  | sessionTimeout (inBand : Bool) (key : Nat)
  | mgmtFlitReceive (port : Nat) (raw : List Byte)
  | canBusOffRecovery
  | map (core : Nat) (grant : Nat) (va : Nat)
  | unmap (core : Nat) (va : Nat)
  | mboxRecv (core : Nat) (buffer : Nat) (timeout : Nat)
  | mboxRecvTimeout (core : Nat)
  | mboxSend (core : Nat) (die : Nat) (message : BitVec 32)
  | slotSubmit (core : Nat) (table : Nat) (buffer : Nat) (count : Nat) (span : Nat)
  | slotStatus (core : Nat) (table : Nat)
  | yield (core : Nat)
  | log (core : Nat) (buffer : Nat) (length : Nat)
  | exit (core : Nat) (status : Nat)
  | quantumExpiry (core : Nat)
  | userContextException (core : Nat) (pc : BitVec 64) (cause : BitVec 64)
  | powerUp
  | inputRange (millivolts : Nat)
  | inputUndervoltage (millivolts : Nat)
  | inputOvervoltage (millivolts : Nat)
  | powerSample (millivolts : Nat) (milliamps : Nat) (rails : List (Nat × Nat))
  | inputLimiter
  | overcurrent (rail : Nat) (measured : Nat)
  | regulatorFault (rail : Nat) (measured : Nat)
  | droop (rail : Nat)
  | droopRecovery (rail : Nat)
  | thermalSample (sensor : Nat) (sixteenths : Int)
  | coefficientRecalibration (measured : List Nat)
  | ageingCheck (margins : List Nat)
  | refclkLoss
  | refclkReturn
  | extest (die : Nat)
  | idcode (die : Nat)
  | samplePreload (die : Nat) (data : BitVec 32)
  | clamp (die : Nat)
  | highz (die : Nat)
  | bypass (die : Nat)
  | maskOpComplete (unit : Nat)
  | stitchComplete (jobs : List StitchJob)
  | verifyComplete
  | storeSettingsComplete
  | repairComplete (spare : Bool) (repaired : Bool)
  | idleReceive (port : Nat) (raw : List Byte)
  | canBusOff
  | boardSpaceAccess (core : Nat) (address : Nat) (access : CoreAccess)
  deriving DecidableEq, Repr

end Sys2Proof
end

