-- ==== Sys2Proof/Machine/Code.lean ====
section
/-! DEFINITION. The codes that check and rebuild data: CRC-32C (R254), the field GF(2^8) (R262, R313), SHA-256
(FIPS 180-4) and RSASSA-PSS verification (RFC 8017), which the boot chapter cites. -/

namespace Sys2Proof.Machine

/-- One bit of the reflected CRC register: generator 0x1EDC_6F41, reflected 0x82F6_3B78. -/
def crcBit (c : W32) : W32 := if c.getLsbD 0 then (c >>> 1) ^^^ 0x82F63B78#32 else c >>> 1

/-- One byte of the CRC. -/
def crcByte (c : W32) (b : Byte) : W32 :=
  let x := c ^^^ b.setWidth 32
  crcBit (crcBit (crcBit (crcBit (crcBit (crcBit (crcBit (crcBit x)))))))

/-- CRC-32C of R254: initial value and final XOR 0xFFFF_FFFF. -/
def crc32c (l : List Byte) : W32 := l.foldl crcByte 0xFFFFFFFF#32 ^^^ 0xFFFFFFFF#32

/-- Multiplication by x in GF(2^8) with primitive polynomial 0x11D. -/
def gfDouble (a : Byte) : Byte := if a.getLsbD 7 then (a <<< 1) ^^^ 0x1D#8 else a <<< 1

/-- The product of the low `n` bits of `b` with `a`. -/
def gfMulBits : Nat → Byte → Byte → Byte
  | 0, _, _ => 0
  | n + 1, a, b => (if b.getLsbD 0 then a else 0) ^^^ gfMulBits n (gfDouble a) (b >>> 1)

/-- The product in GF(2^8) (R262). -/
def gfMul (a b : Byte) : Byte := gfMulBits 8 a b

/-- `a` to the power `n`. -/
def gfPow (a : Byte) : Nat → Byte
  | 0 => 1
  | n + 1 => gfMul a (gfPow a n)

/-- The inverse in GF(2^8): a^254. -/
def gfInv (a : Byte) : Byte := gfPow a 254

/-- The generator matrix of Table 12.3: the identity for the data places, the two parity rows after it. -/
def soredia (place i : Nat) : Byte :=
  if place < 8 then (if place = i then 1 else 0) else if place = 8 then 1 else 1#8 <<< i

/-- One row of a matrix minus a multiple of another. -/
def gfRowSub (a : List Byte) (c : Byte) (b : List Byte) : List Byte := List.zipWith (fun x y => x ^^^ gfMul c y) a b

/-- One column of Gauss elimination over GF(2^8), on rows that carry the identity beside the matrix. -/
def gfColumn (c : Nat) (rows : List (List Byte)) : List (List Byte) :=
  match (rows.drop c).find? (fun r => r.getD c 0 != 0) with
  | none => rows
  | some p =>
    let pn := p.map (gfMul (gfInv (p.getD c 0)))
    let others := rows.take c ++ (rows.drop c).erase p
    let cleared := others.map fun r => gfRowSub r (r.getD c 0) pn
    cleared.take c ++ [pn] ++ cleared.drop c

/-- The inverse of the square matrix `m` over GF(2^8). -/
def gfInvert (m : List (List Byte)) : List (List Byte) :=
  let n := m.length
  let aug := (List.range n).map fun r => m.getD r [] ++ (List.range n).map fun c => if r = c then 1 else 0
  ((List.range n).foldl (fun a c => gfColumn c a) aug).map (List.drop n)

/-- The coefficient of R330 for the lost place from source `k` of the eight source places. -/
def fillCoefficient (lost : Nat) (sources : List Nat) (k : Nat) : Byte :=
  let inv := gfInvert (sources.map fun p => (List.range 8).map (soredia p))
  ((List.range 8).map fun i => gfMul (soredia lost i) ((inv.getD i []).getD k 0)).foldl (· ^^^ ·) 0

/-- The round constants of SHA-256. -/
def shaK : List Nat :=
  [0x428a2f98, 0x71374491, 0xb5c0fbcf, 0xe9b5dba5, 0x3956c25b, 0x59f111f1, 0x923f82a4, 0xab1c5ed5,
   0xd807aa98, 0x12835b01, 0x243185be, 0x550c7dc3, 0x72be5d74, 0x80deb1fe, 0x9bdc06a7, 0xc19bf174] ++
  [0xe49b69c1, 0xefbe4786, 0x0fc19dc6, 0x240ca1cc, 0x2de92c6f, 0x4a7484aa, 0x5cb0a9dc, 0x76f988da,
   0x983e5152, 0xa831c66d, 0xb00327c8, 0xbf597fc7, 0xc6e00bf3, 0xd5a79147, 0x06ca6351, 0x14292967] ++
  [0x27b70a85, 0x2e1b2138, 0x4d2c6dfc, 0x53380d13, 0x650a7354, 0x766a0abb, 0x81c2c92e, 0x92722c85,
   0xa2bfe8a1, 0xa81a664b, 0xc24b8b70, 0xc76c51a3, 0xd192e819, 0xd6990624, 0xf40e3585, 0x106aa070] ++
  [0x19a4c116, 0x1e376c08, 0x2748774c, 0x34b0bcb5, 0x391c0cb3, 0x4ed8aa4a, 0x5b9cca4f, 0x682e6ff3,
   0x748f82ee, 0x78a5636f, 0x84c87814, 0x8cc70208, 0x90befffa, 0xa4506ceb, 0xbef9a3f7, 0xc67178f2]

/-- The initial hash value of SHA-256. -/
def shaH : List W32 :=
  [0x6a09e667#32, 0xbb67ae85#32, 0x3c6ef372#32, 0xa54ff53a#32, 0x510e527f#32, 0x9b05688c#32, 0x1f83d9ab#32, 0x5be0cd19#32]

/-- The message schedule, newest word first. -/
def shaSchedule : Nat → List W32 → List W32
  | 0, w => w
  | n + 1, w =>
    let s0 := fun (x : W32) => x.rotateRight 7 ^^^ x.rotateRight 18 ^^^ (x >>> 3)
    let s1 := fun (x : W32) => x.rotateRight 17 ^^^ x.rotateRight 19 ^^^ (x >>> 10)
    shaSchedule n ((w.getD 15 0 + s0 (w.getD 14 0) + w.getD 6 0 + s1 (w.getD 1 0)) :: w)

/-- One round on the eight working variables. -/
def shaRound (v : List W32) (kw : W32) : List W32 :=
  match v with
  | [a, b, c, d, e, f, g, h] =>
    let t1 := h + (e.rotateRight 6 ^^^ e.rotateRight 11 ^^^ e.rotateRight 25) + ((e &&& f) ^^^ (~~~e &&& g)) + kw
    let t2 := (a.rotateRight 2 ^^^ a.rotateRight 13 ^^^ a.rotateRight 22) + ((a &&& b) ^^^ (a &&& c) ^^^ (b &&& c))
    [t1 + t2, a, b, c, d + t1, e, f, g]
  | _ => v

/-- One 64-byte block. -/
def shaBlock (h : List W32) (block : List Byte) : List W32 :=
  let w := (List.range 16).map fun i => BitVec.ofNat 32 (beNat ((block.drop (4 * i)).take 4))
  let sched := (shaSchedule 48 w.reverse).reverse
  let kws := List.zipWith (fun k x => BitVec.ofNat 32 k + x) shaK sched
  List.zipWith (· + ·) h (kws.foldl shaRound h)

/-- The blocks of a message, `n` of them. -/
def shaBlocks : Nat → List W32 → List Byte → List W32
  | 0, h, _ => h
  | n + 1, h, m => shaBlocks n (shaBlock h (m.take 64)) (m.drop 64)

/-- SHA-256 of FIPS 180-4. -/
def sha256 (m : List Byte) : List Byte :=
  let zeros := (119 - m.length % 64) % 64
  let padded := m ++ [0x80#8] ++ List.replicate zeros 0 ++ beBytes 8 (8 * m.length)
  (shaBlocks (padded.length / 64) shaH padded).flatMap fun x => beBytes 4 x.toNat

/-- Modular exponentiation over the low `n` bits of the exponent. -/
def modPow : Nat → Nat → Nat → Nat → Nat
  | 0, _, _, m => 1 % m
  | n + 1, b, e, m => (if e % 2 = 1 then b else 1) * modPow n (b * b % m) (e / 2) m % m

/-- MGF1 with SHA-256 (RFC 8017). -/
def mgf1 (seed : List Byte) (n : Nat) : List Byte :=
  ((List.range (cdiv n 32)).flatMap fun i => sha256 (seed ++ beBytes 4 i)).take n

/-- RSASSA-PSS verification with RSA-3072, SHA-256, MGF1 with SHA-256 and a 32-byte salt (Table 15.9). -/
def pssVerify (modulus exponent : Nat) (message signature : List Byte) : Bool :=
  let s := beNat signature
  let em := beBytes 384 (modPow 32 s exponent modulus)
  let masked := em.take 351
  let h := (em.drop 351).take 32
  let db := List.zipWith (· ^^^ ·) masked (mgf1 h 351)
  let db := match db with
    | [] => []
    | b :: t => (b &&& 0x7F#8) :: t
  decide (signature.length = 384) && decide (s < modulus) && em.getD 383 0 == 0xBC#8 &&
  !(masked.getD 0 0).getLsbD 7 && (db.take 318).all (· == 0) && db.getD 318 0 == 1 &&
  sha256 (List.replicate 8 0 ++ sha256 message ++ db.drop 319) == h

end Sys2Proof.Machine
end

