-- ==== Sys2Proof/Machine/Objects.lean ====
section
/-! DEFINITION. The object dictionary: every object of the manual with its type, its access and its default (R386–R390 and
the object tables of the chapters). -/

namespace Sys2Proof.Machine

/-- The access an object gives each role (R388). -/
inductive Access where
  /-- CONST: fixed at manufacture. -/
  | const
  /-- FX: set in factory test mode only, RO otherwise (R8). -/
  | fx
  /-- RO for every role. -/
  | ro
  /-- RW for HOST and MGMT. -/
  | rwBoth
  /-- RW for HOST, RO otherwise. -/
  | rwHost
  /-- RWL for HOST, RO otherwise (R389). -/
  | rwlHost
  /-- RW for HOST (inactive bank), RO otherwise. -/
  | rwBank
  /-- RW for HOST, RO while a program runs. -/
  | rwIdle
  /-- WO for HOST and MGMT. -/
  | woBoth
  /-- WO for HOST. -/
  | woHost
  /-- WO for MGMT. -/
  | woMgmt
  /-- WO for FACTORY. -/
  | woFactory
  deriving DecidableEq, Repr

/-- A row of an object table: an index, its first and last subindex, its type code (Table 15.1), access and default. -/
structure ObjRow where
  index : Nat
  first : Nat
  last : Nat
  type : Nat
  access : Access
  default : Nat
  deriving DecidableEq, Repr

/-- Objects 0x1000.01 to 0x2002.01. -/
def objRows0 : List ObjRow :=
  [⟨0x1000, 0x01, 0x01, 8, .const, 0⟩,
   ⟨0x1000, 0x02, 0x02, 8, .const, 0⟩,
   ⟨0x1000, 0x03, 0x03, 2, .const, 177⟩,
   ⟨0x1000, 0x04, 0x04, 8, .const, 0⟩,
   ⟨0x1001, 0x01, 0x01, 4, .const, 0⟩,
   ⟨0x1001, 0x02, 0x02, 4, .ro, 0⟩,
   ⟨0x1001, 0x03, 0x03, 5, .ro, 0⟩,
   ⟨0x1002, 0x01, 0x01, 2, .ro, 0⟩,
   ⟨0x1002, 0x02, 0x02, 4, .ro, 0⟩,
   ⟨0x1002, 0x03, 0x03, 2, .ro, 0⟩,
   ⟨0x1003, 0x01, 0x01, 2, .ro, 127⟩,
   ⟨0x1003, 0x02, 0x02, 2, .rwBoth, 3⟩,
   ⟨0x1003, 0x03, 0x03, 2, .rwBoth, 3⟩,
   ⟨0x1003, 0x04, 0x04, 4, .ro, 0⟩,
   ⟨0x1004, 0x01, 0x01, 5, .ro, 0⟩,
   ⟨0x1004, 0x02, 0x02, 4, .ro, 0⟩,
   ⟨0x1005, 0x01, 0x01, 2, .ro, 0⟩,
   ⟨0x1005, 0x02, 0x02, 4, .ro, 0⟩,
   ⟨0x1005, 0x03, 0x03, 4, .ro, 0⟩,
   ⟨0x1006, 0x01, 0x01, 2, .ro, 255⟩,
   ⟨0x1010, 0x01, 0x01, 4, .woBoth, 0⟩,
   ⟨0x1010, 0x02, 0x02, 4, .woBoth, 0⟩,
   ⟨0x2001, 0x01, 0x01, 3, .rwBoth, 3000⟩,
   ⟨0x2001, 0x02, 0x02, 3, .ro, 3000⟩,
   ⟨0x2002, 0x01, 0x01, 3, .ro, 0⟩]

/-- Objects 0x2002.02 to 0x2041.01. -/
def objRows1 : List ObjRow :=
  [⟨0x2002, 0x02, 0x02, 3, .ro, 0⟩,
   ⟨0x2002, 0x03, 0x03, 3, .ro, 930⟩,
   ⟨0x2003, 0x01, 0x01, 4, .ro, 0⟩,
   ⟨0x2003, 0x02, 0x02, 5, .ro, 0⟩,
   ⟨0x2003, 0x03, 0x03, 5, .ro, 0⟩,
   ⟨0x2003, 0x04, 0x04, 4, .ro, 0⟩,
   ⟨0x2003, 0x05, 0x05, 4, .ro, 0⟩,
   ⟨0x2004, 0x01, 0x03, 3, .ro, 1250⟩,
   ⟨0x2004, 0x04, 0x06, 3, .ro, 2400⟩,
   ⟨0x2005, 0x01, 0x03, 3, .fx, 1400⟩,
   ⟨0x2005, 0x04, 0x06, 3, .ro, 1400⟩,
   ⟨0x2006, 0x01, 0x18, 3, .fx, 2400⟩,
   ⟨0x2006, 0x19, 0x30, 3, .ro, 2400⟩,
   ⟨0x2007, 0x01, 0x1B, 3, .ro, 0⟩,
   ⟨0x2008, 0x01, 0x01, 5, .ro, 0⟩,
   ⟨0x2009, 0x01, 0x01, 4, .ro, 0⟩,
   ⟨0x2010, 0x01, 0x12, 3, .ro, 0⟩,
   ⟨0x2011, 0x01, 0x12, 4, .ro, 0⟩,
   ⟨0x2012, 0x01, 0x12, 5, .ro, 0⟩,
   ⟨0x2020, 0x01, 0x09, 4, .ro, 0⟩,
   ⟨0x2021, 0x01, 0x09, 5, .ro, 0⟩,
   ⟨0x2030, 0x01, 0x24, 6, .ro, 0⟩,
   ⟨0x2031, 0x01, 0x03, 4, .ro, 0⟩,
   ⟨0x2040, 0x01, 0x01, 10, .ro, 0⟩,
   ⟨0x2041, 0x01, 0x01, 10, .rwlHost, 0⟩]

/-- Objects 0x2050.01 to 0x3050.01. -/
def objRows2 : List ObjRow :=
  [⟨0x2050, 0x01, 0x7F, 5, .ro, 0⟩,
   ⟨0x2051, 0x01, 0x10, 5, .ro, 0⟩,
   ⟨0x2051, 0x11, 0x11, 5, .ro, 0⟩,
   ⟨0x2051, 0x12, 0x12, 4, .ro, 0⟩,
   ⟨0x2051, 0x13, 0x13, 4, .ro, 0⟩,
   ⟨0x2060, 0x01, 0x01, 5, .ro, 0⟩,
   ⟨0x2060, 0x02, 0x02, 4, .ro, 0⟩,
   ⟨0x2061, 0x01, 0x06, 5, .ro, 0⟩,
   ⟨0x3001, 0x01, 0x01, 10, .ro, 0⟩,
   ⟨0x3001, 0x03, 0x03, 1, .woBoth, 0⟩,
   ⟨0x3002, 0x01, 0x01, 4, .ro, 0⟩,
   ⟨0x3002, 0x02, 0x02, 4, .woBoth, 0⟩,
   ⟨0x3002, 0x03, 0x03, 10, .ro, 0⟩,
   ⟨0x3002, 0x04, 0x04, 4, .ro, 0⟩,
   ⟨0x3002, 0x05, 0x05, 5, .ro, 0⟩,
   ⟨0x3030, 0x01, 0x01, 2, .rwBoth, 1⟩,
   ⟨0x3031, 0x01, 0x01, 2, .ro, 1⟩,
   ⟨0x3040, 0x01, 0x01, 1, .woBoth, 0⟩,
   ⟨0x3040, 0x02, 0x02, 2, .woHost, 0⟩,
   ⟨0x3040, 0x03, 0x03, 2, .woHost, 0⟩,
   ⟨0x3041, 0x01, 0x03, 4, .ro, 0⟩,
   ⟨0x3041, 0x04, 0x06, 4, .ro, 0⟩,
   ⟨0x3041, 0x07, 0x07, 4, .ro, 0⟩,
   ⟨0x3042, 0x01, 0x01, 4, .ro, 0⟩,
   ⟨0x3050, 0x01, 0x01, 3, .ro, 0⟩]

/-- Objects 0x3050.02 to 0x4020.03. -/
def objRows3 : List ObjRow :=
  [⟨0x3050, 0x02, 0x02, 3, .ro, 0⟩,
   ⟨0x3050, 0x03, 0x03, 3, .ro, 0⟩,
   ⟨0x3050, 0x04, 0x04, 5, .ro, 0⟩,
   ⟨0x3060, 0x01, 0x01, 1, .woHost, 0⟩,
   ⟨0x3060, 0x02, 0x02, 2, .woBoth, 0⟩,
   ⟨0x3060, 0x03, 0x03, 10, .ro, 0⟩,
   ⟨0x3060, 0x04, 0x04, 4, .ro, 0⟩,
   ⟨0x3060, 0x05, 0x05, 2, .woBoth, 0⟩,
   ⟨0x3060, 0x06, 0x06, 4, .ro, 0⟩,
   ⟨0x3061, 0x01, 0x01, 10, .ro, 0⟩,
   ⟨0x3070, 0x01, 0x01, 10, .ro, 0⟩,
   ⟨0x4002, 0x01, 0x01, 5, .ro, 1124000000000⟩,
   ⟨0x4010, 0x01, 0x0C, 5, .ro, 0⟩,
   ⟨0x4011, 0x01, 0x0C, 4, .ro, 0⟩,
   ⟨0x4012, 0x01, 0x0C, 5, .ro, 0⟩,
   ⟨0x4013, 0x01, 0x0C, 4, .ro, 0⟩,
   ⟨0x4014, 0x01, 0x0C, 4, .ro, 0⟩,
   ⟨0x4015, 0x01, 0x03, 5, .ro, 0⟩,
   ⟨0x4016, 0x01, 0x0C, 4, .ro, 0⟩,
   ⟨0x4018, 0x01, 0x0C, 5, .ro, 0⟩,
   ⟨0x4019, 0x01, 0x0C, 5, .ro, 0⟩,
   ⟨0x401A, 0x01, 0x0C, 5, .ro, 0⟩,
   ⟨0x4020, 0x01, 0x01, 3, .rwBoth, 1792⟩,
   ⟨0x4020, 0x02, 0x02, 3, .rwBoth, 1024⟩,
   ⟨0x4020, 0x03, 0x03, 3, .rwBoth, 512⟩]

/-- Objects 0x4020.04 to 0x4045.02. -/
def objRows4 : List ObjRow :=
  [⟨0x4020, 0x04, 0x04, 3, .rwBoth, 64⟩,
   ⟨0x4020, 0x05, 0x05, 3, .rwBoth, 128⟩,
   ⟨0x4020, 0x06, 0x06, 3, .rwBoth, 256⟩,
   ⟨0x4021, 0x01, 0x01, 3, .rwBoth, 256⟩,
   ⟨0x4021, 0x02, 0x02, 3, .rwBoth, 128⟩,
   ⟨0x4021, 0x03, 0x03, 3, .rwBoth, 64⟩,
   ⟨0x4021, 0x04, 0x04, 3, .rwBoth, 16⟩,
   ⟨0x4021, 0x05, 0x05, 3, .rwBoth, 64⟩,
   ⟨0x4021, 0x06, 0x06, 3, .rwBoth, 64⟩,
   ⟨0x4022, 0x01, 0x06, 5, .ro, 0⟩,
   ⟨0x4024, 0x01, 0x0C, 5, .ro, 0⟩,
   ⟨0x4025, 0x01, 0x0C, 5, .ro, 0⟩,
   ⟨0x4026, 0x01, 0x0C, 4, .ro, 0⟩,
   ⟨0x4030, 0x01, 0x01, 4, .rwBoth, 21600⟩,
   ⟨0x4031, 0x01, 0x0C, 4, .ro, 0⟩,
   ⟨0x4032, 0x01, 0x01, 4, .ro, 0⟩,
   ⟨0x4032, 0x02, 0x02, 4, .ro, 0⟩,
   ⟨0x4040, 0x01, 0x01, 9, .woBoth, 0⟩,
   ⟨0x4041, 0x01, 0x01, 2, .ro, 0⟩,
   ⟨0x4042, 0x01, 0x0C, 2, .ro, 16⟩,
   ⟨0x4043, 0x01, 0x0C, 3, .ro, 0⟩,
   ⟨0x4044, 0x01, 0x01, 5, .woBoth, 0⟩,
   ⟨0x4044, 0x02, 0x02, 5, .ro, 0⟩,
   ⟨0x4045, 0x01, 0x01, 5, .woBoth, 0⟩,
   ⟨0x4045, 0x02, 0x02, 5, .ro, 0⟩]

/-- Objects 0x4050.01 to 0x5040.03. -/
def objRows5 : List ObjRow :=
  [⟨0x4050, 0x01, 0x0C, 2, .ro, 1⟩,
   ⟨0x4051, 0x01, 0x0C, 6, .ro, 0⟩,
   ⟨0x5001, 0x01, 0x01, 3, .rwIdle, 4095⟩,
   ⟨0x5001, 0x02, 0x02, 3, .rwIdle, 0⟩,
   ⟨0x5001, 0x03, 0x03, 2, .ro, 255⟩,
   ⟨0x5002, 0x01, 0x01, 10, .rwBank, 0⟩,
   ⟨0x5003, 0x01, 0x01, 10, .rwBank, 0⟩,
   ⟨0x5004, 0x01, 0x01, 3, .ro, 65535⟩,
   ⟨0x5010, 0x01, 0x11, 10, .rwBank, 0⟩,
   ⟨0x5011, 0x01, 0x10, 5, .rwBank, 0⟩,
   ⟨0x5012, 0x01, 0x01, 5, .woHost, 0⟩,
   ⟨0x5012, 0x02, 0x02, 2, .ro, 0⟩,
   ⟨0x5012, 0x03, 0x03, 2, .ro, 0⟩,
   ⟨0x5013, 0x01, 0x01, 10, .rwBank, 0⟩,
   ⟨0x5020, 0x01, 0x11, 2, .ro, 0⟩,
   ⟨0x5021, 0x01, 0x11, 5, .ro, 0⟩,
   ⟨0x5022, 0x01, 0x11, 5, .ro, 0⟩,
   ⟨0x5023, 0x01, 0x11, 5, .ro, 0⟩,
   ⟨0x5024, 0x01, 0x11, 5, .ro, 0⟩,
   ⟨0x5025, 0x01, 0x01, 2, .woBoth, 0⟩,
   ⟨0x5026, 0x01, 0x11, 4, .ro, 0⟩,
   ⟨0x5030, 0x01, 0x01, 4, .ro, 0⟩,
   ⟨0x5040, 0x01, 0x01, 3, .ro, 0⟩,
   ⟨0x5040, 0x02, 0x02, 3, .ro, 0⟩,
   ⟨0x5040, 0x03, 0x03, 1, .woHost, 0⟩]

/-- Objects 0x5040.04 to 0x6042.06. -/
def objRows6 : List ObjRow :=
  [⟨0x5040, 0x04, 0x04, 1, .woHost, 0⟩,
   ⟨0x5040, 0x05, 0x05, 1, .ro, 0⟩,
   ⟨0x5040, 0x06, 0x06, 7, .ro, 0⟩,
   ⟨0x5050, 0x01, 0x01, 10, .ro, 0⟩,
   ⟨0x5060, 0x01, 0x01, 4, .rwBoth, 100⟩,
   ⟨0x6001, 0x01, 0x01, 4, .ro, 65536⟩,
   ⟨0x6001, 0x02, 0x02, 3, .rwBoth, 15⟩,
   ⟨0x6002, 0x01, 0x01, 1, .woBoth, 0⟩,
   ⟨0x6002, 0x02, 0x02, 7, .ro, 0⟩,
   ⟨0x6010, 0x01, 0x01, 5, .rwHost, 0⟩,
   ⟨0x6010, 0x02, 0x02, 2, .woHost, 0⟩,
   ⟨0x6010, 0x03, 0x03, 2, .ro, 0⟩,
   ⟨0x6010, 0x04, 0x04, 3, .ro, 0⟩,
   ⟨0x6020, 0x01, 0x01, 2, .rwlHost, 1⟩,
   ⟨0x6020, 0x02, 0x02, 2, .rwlHost, 0⟩,
   ⟨0x6020, 0x03, 0x03, 2, .rwlHost, 1⟩,
   ⟨0x6030, 0x01, 0x01, 3, .rwlHost, 4095⟩,
   ⟨0x6030, 0x02, 0x02, 3, .rwlHost, 2336⟩,
   ⟨0x6030, 0x03, 0x03, 3, .rwlHost, 2528⟩,
   ⟨0x6030, 0x04, 0x04, 3, .rwlHost, 2464⟩,
   ⟨0x6030, 0x05, 0x10, 3, .rwlHost, 0⟩,
   ⟨0x6040, 0x01, 0x80, 4, .ro, 0⟩,
   ⟨0x6041, 0x01, 0x01, 5, .ro, 0⟩,
   ⟨0x6041, 0x02, 0x02, 4, .ro, 0⟩,
   ⟨0x6042, 0x01, 0x06, 5, .ro, 0⟩]

/-- Objects 0x6043.01 to 0x6059.03. -/
def objRows7 : List ObjRow :=
  [⟨0x6043, 0x01, 0x06, 5, .ro, 0⟩,
   ⟨0x6044, 0x01, 0x06, 5, .ro, 0⟩,
   ⟨0x6045, 0x01, 0x06, 4, .ro, 0⟩,
   ⟨0x6046, 0x01, 0x06, 4, .rwHost, 0⟩,
   ⟨0x6047, 0x01, 0x06, 5, .ro, 0⟩,
   ⟨0x6048, 0x01, 0x03, 5, .ro, 0⟩,
   ⟨0x6049, 0x01, 0x03, 5, .ro, 0⟩,
   ⟨0x604A, 0x01, 0x03, 5, .ro, 0⟩,
   ⟨0x604B, 0x01, 0x03, 4, .ro, 0⟩,
   ⟨0x604C, 0x01, 0x03, 4, .rwHost, 0⟩,
   ⟨0x604D, 0x01, 0x03, 5, .ro, 0⟩,
   ⟨0x604E, 0x01, 0x03, 5, .ro, 0⟩,
   ⟨0x604F, 0x01, 0x03, 5, .ro, 0⟩,
   ⟨0x6050, 0x01, 0x01, 4, .rwHost, 8192⟩,
   ⟨0x6050, 0x02, 0x02, 4, .ro, 0⟩,
   ⟨0x6050, 0x03, 0x03, 1, .ro, 0⟩,
   ⟨0x6050, 0x04, 0x04, 1, .ro, 0⟩,
   ⟨0x6050, 0x05, 0x05, 4, .ro, 0⟩,
   ⟨0x6050, 0x06, 0x06, 4, .ro, 0⟩,
   ⟨0x6050, 0x07, 0x07, 4, .ro, 0⟩,
   ⟨0x6050, 0x08, 0x08, 4, .ro, 0⟩,
   ⟨0x6050, 0x09, 0x09, 4, .ro, 0⟩,
   ⟨0x6050, 0x0A, 0x0A, 1, .ro, 0⟩,
   ⟨0x6058, 0x01, 0x03, 5, .ro, 0⟩,
   ⟨0x6059, 0x01, 0x03, 5, .ro, 0⟩]

/-- Objects 0x605A.01 to 0x7030.03. -/
def objRows8 : List ObjRow :=
  [⟨0x605A, 0x01, 0x03, 5, .ro, 0⟩,
   ⟨0x605B, 0x01, 0x03, 5, .ro, 0⟩,
   ⟨0x6060, 0x01, 0x01, 4, .ro, 204547⟩,
   ⟨0x6061, 0x05, 0x10, 1, .rwlHost, 0⟩,
   ⟨0x6062, 0x05, 0x10, 5, .rwlHost, 0⟩,
   ⟨0x6063, 0x05, 0x10, 4, .rwlHost, 0⟩,
   ⟨0x6064, 0x05, 0x10, 4, .rwlHost, 256⟩,
   ⟨0x6065, 0x05, 0x10, 5, .rwlHost, 0⟩,
   ⟨0x6066, 0x05, 0x10, 10, .rwlHost, 0⟩,
   ⟨0x6067, 0x05, 0x10, 2, .ro, 0⟩,
   ⟨0x6068, 0x01, 0x03, 4, .ro, 0⟩,
   ⟨0x6069, 0x05, 0x10, 5, .ro, 0⟩,
   ⟨0x606A, 0x05, 0x10, 4, .ro, 0⟩,
   ⟨0x7010, 0x01, 0x06, 5, .ro, 0⟩,
   ⟨0x7011, 0x01, 0x06, 5, .ro, 0⟩,
   ⟨0x7012, 0x01, 0x06, 4, .ro, 0⟩,
   ⟨0x7013, 0x01, 0x03, 4, .ro, 0⟩,
   ⟨0x7014, 0x01, 0x03, 4, .ro, 0⟩,
   ⟨0x7020, 0x01, 0x03, 5, .ro, 0⟩,
   ⟨0x7021, 0x01, 0x03, 5, .ro, 0⟩,
   ⟨0x7022, 0x01, 0x03, 5, .ro, 0⟩,
   ⟨0x7023, 0x01, 0x03, 4, .ro, 0⟩,
   ⟨0x7030, 0x01, 0x01, 5, .rwlHost, 0⟩,
   ⟨0x7030, 0x02, 0x02, 2, .rwlHost, 16⟩,
   ⟨0x7030, 0x03, 0x03, 2, .rwlHost, 1⟩]

/-- Objects 0x7030.04 to 0x8020.01. -/
def objRows9 : List ObjRow :=
  [⟨0x7030, 0x04, 0x04, 5, .rwlHost, 0⟩,
   ⟨0x7030, 0x05, 0x05, 3, .rwlHost, 0⟩,
   ⟨0x7031, 0x01, 0x03, 5, .ro, 0⟩,
   ⟨0x7032, 0x01, 0x03, 5, .ro, 0⟩,
   ⟨0x7033, 0x01, 0x01, 4, .ro, 0⟩,
   ⟨0x7033, 0x02, 0x02, 5, .ro, 0⟩,
   ⟨0x7034, 0x01, 0x01, 10, .ro, 0⟩,
   ⟨0x7040, 0x01, 0x01, 2, .rwlHost, 4⟩,
   ⟨0x7041, 0x01, 0x01, 3, .rwlHost, 16512⟩,
   ⟨0x7041, 0x02, 0x02, 3, .rwlHost, 16768⟩,
   ⟨0x7042, 0x01, 0x01, 5, .ro, 0⟩,
   ⟨0x7042, 0x02, 0x02, 5, .ro, 0⟩,
   ⟨0x7042, 0x03, 0x03, 4, .ro, 0⟩,
   ⟨0x7043, 0x01, 0x01, 10, .ro, 0⟩,
   ⟨0x7044, 0x01, 0x03, 5, .ro, 0⟩,
   ⟨0x7045, 0x01, 0x03, 5, .ro, 0⟩,
   ⟨0x7046, 0x01, 0x01, 5, .ro, 0⟩,
   ⟨0x7046, 0x02, 0x02, 4, .ro, 0⟩,
   ⟨0x7046, 0x03, 0x03, 4, .ro, 0⟩,
   ⟨0x7047, 0x01, 0x01, 2, .ro, 0⟩,
   ⟨0x7048, 0x01, 0x03, 5, .ro, 0⟩,
   ⟨0x8010, 0x01, 0x01, 10, .rwlHost, 0⟩,
   ⟨0x8011, 0x01, 0x01, 5, .ro, 0⟩,
   ⟨0x8011, 0x02, 0x02, 5, .ro, 0⟩,
   ⟨0x8020, 0x01, 0x01, 5, .ro, 0⟩]

/-- Objects 0x8020.02 to 0x9002.02. -/
def objRows10 : List ObjRow :=
  [⟨0x8020, 0x02, 0x02, 2, .ro, 0⟩,
   ⟨0x8020, 0x03, 0x03, 2, .woHost, 0⟩,
   ⟨0x8021, 0x01, 0x01, 5, .ro, 0⟩,
   ⟨0x8021, 0x02, 0x02, 4, .ro, 0⟩,
   ⟨0x8021, 0x03, 0x03, 4, .ro, 0⟩,
   ⟨0x8021, 0x04, 0x04, 4, .ro, 0⟩,
   ⟨0x8021, 0x05, 0x05, 5, .ro, 0⟩,
   ⟨0x8021, 0x06, 0x06, 4, .ro, 0⟩,
   ⟨0x8030, 0x01, 0x01, 10, .ro, 0⟩,
   ⟨0x8030, 0x02, 0x03, 10, .ro, 0⟩,
   ⟨0x8031, 0x01, 0x01, 5, .rwlHost, 0⟩,
   ⟨0x8041, 0x01, 0x01, 1, .woHost, 0⟩,
   ⟨0x8041, 0x02, 0x02, 5, .rwHost, 0⟩,
   ⟨0x8041, 0x03, 0x03, 10, .woHost, 0⟩,
   ⟨0x8041, 0x04, 0x04, 10, .ro, 0⟩,
   ⟨0x8041, 0x05, 0x05, 1, .woHost, 0⟩,
   ⟨0x8042, 0x01, 0x01, 3, .ro, 0⟩,
   ⟨0x8042, 0x02, 0x02, 4, .ro, 0⟩,
   ⟨0x8050, 0x01, 0x01, 5, .woHost, 0⟩,
   ⟨0x8050, 0x02, 0x02, 2, .ro, 0⟩,
   ⟨0x8050, 0x03, 0x03, 1, .woHost, 0⟩,
   ⟨0x8050, 0x04, 0x04, 4, .ro, 0⟩,
   ⟨0x9001, 0x01, 0x01, 1, .rwBoth, 0⟩,
   ⟨0x9002, 0x01, 0x01, 5, .woHost, 0⟩,
   ⟨0x9002, 0x02, 0x02, 1, .woHost, 0⟩]

/-- Objects 0x9002.03 to 0xF010.02. -/
def objRows11 : List ObjRow :=
  [⟨0x9002, 0x03, 0x03, 2, .ro, 0⟩,
   ⟨0x9010, 0x01, 0x01, 5, .rwHost, 0⟩,
   ⟨0x9010, 0x02, 0x02, 4, .rwHost, 0⟩,
   ⟨0x9010, 0x03, 0x03, 2, .woBoth, 0⟩,
   ⟨0x9010, 0x04, 0x04, 2, .ro, 0⟩,
   ⟨0x9010, 0x05, 0x05, 4, .ro, 0⟩,
   ⟨0x9011, 0x01, 0x01, 10, .woMgmt, 0⟩,
   ⟨0x9012, 0x01, 0x01, 2, .ro, 0⟩,
   ⟨0xA001, 0x01, 0x01, 10, .ro, 0⟩,
   ⟨0xA001, 0x02, 0x02, 2, .ro, 0⟩,
   ⟨0xA002, 0x01, 0x01, 2, .ro, 0⟩,
   ⟨0xA003, 0x01, 0x01, 10, .ro, 0⟩,
   ⟨0xA004, 0x01, 0x01, 9, .woBoth, 0⟩,
   ⟨0xA004, 0x02, 0x02, 10, .ro, 0⟩,
   ⟨0xA004, 0x03, 0x03, 2, .ro, 0⟩,
   ⟨0xA005, 0x01, 0x01, 9, .ro, 0⟩,
   ⟨0xA005, 0x02, 0x02, 10, .ro, 0⟩,
   ⟨0xA006, 0x01, 0x01, 10, .woBoth, 0⟩,
   ⟨0xA006, 0x02, 0x02, 2, .ro, 0⟩,
   ⟨0xF010, 0x01, 0x01, 9, .woFactory, 0⟩,
   ⟨0xF010, 0x02, 0x02, 2, .ro, 0⟩]

/-- All rows, but for the action and occurrence objects of the fault codes, which Table 13.2 gives. -/
def objRows : List ObjRow :=
  objRows0 ++ objRows1 ++ objRows2 ++ objRows3 ++ objRows4 ++ objRows5 ++ objRows6 ++ objRows7 ++ objRows8 ++ objRows9 ++ objRows10 ++ objRows11

/-- A fault code of Table 13.2: its default action and its lowest action, none where the action is fixed. -/
structure FaultRow where
  code : Nat
  action : Nat
  lowest : Option Nat
  deriving DecidableEq, Repr

/-- Classes A and B of Table 13.2. -/
def faultRowsAB : List FaultRow :=
  [⟨0x101, 1, some 1⟩,
   ⟨0x102, 1, some 1⟩,
   ⟨0x103, 1, some 1⟩,
   ⟨0x104, 4, none⟩,
   ⟨0x201, 1, some 1⟩,
   ⟨0x202, 1, some 1⟩,
   ⟨0x203, 1, some 1⟩,
   ⟨0x204, 1, some 1⟩,
   ⟨0x205, 5, some 4⟩,
   ⟨0x206, 4, none⟩,
   ⟨0x207, 1, some 1⟩,
   ⟨0x208, 1, some 1⟩,
   ⟨0x209, 0, some 0⟩,
   ⟨0x20A, 0, some 0⟩,
   ⟨0x20B, 1, some 1⟩,
   ⟨0x20C, 0, some 0⟩,
   ⟨0x20D, 1, some 1⟩,
   ⟨0x20E, 1, some 0⟩,
   ⟨0x20F, 0, some 0⟩,
   ⟨0x210, 1, some 1⟩]

/-- Classes C and D of Table 13.2. -/
def faultRowsCD : List FaultRow :=
  [⟨0x301, 1, some 0⟩,
   ⟨0x302, 0, some 0⟩,
   ⟨0x303, 1, some 1⟩,
   ⟨0x304, 2, some 2⟩,
   ⟨0x305, 5, some 4⟩,
   ⟨0x306, 3, some 3⟩,
   ⟨0x307, 0, some 0⟩,
   ⟨0x308, 1, some 0⟩,
   ⟨0x309, 0, some 0⟩,
   ⟨0x30A, 4, none⟩,
   ⟨0x30B, 1, some 1⟩,
   ⟨0x30C, 1, some 1⟩,
   ⟨0x30D, 0, some 0⟩,
   ⟨0x30E, 1, some 1⟩,
   ⟨0x30F, 1, some 1⟩,
   ⟨0x310, 4, none⟩,
   ⟨0x311, 1, some 1⟩,
   ⟨0x312, 1, none⟩,
   ⟨0x313, 1, none⟩,
   ⟨0x314, 4, none⟩,
   ⟨0x315, 4, none⟩,
   ⟨0x316, 1, none⟩,
   ⟨0x317, 0, none⟩,
   ⟨0x401, 6, some 6⟩,
   ⟨0x402, 6, some 5⟩,
   ⟨0x403, 4, some 1⟩,
   ⟨0x404, 6, some 6⟩,
   ⟨0x405, 0, some 0⟩]

/-- Table 13.2. -/
def faultRows : List FaultRow := faultRowsAB ++ faultRowsCD

/-- The row of a fault code. -/
def faultRow (code : Nat) : Option FaultRow := faultRows.find? fun (r : FaultRow) => r.code == code

/-- The code whose action object 0x3011–0x3014 or occurrence object 0x3021–0x3024 this is, for base 0x3010 or 0x3020. -/
def faultOfObject (base index sub : Nat) : Option FaultRow :=
  if base < index ∧ index ≤ base + 4 then faultRow ((index - base) * 256 + sub) else none

/-- The row of an object, subindex 0x00 apart (R386). -/
def objRow (index sub : Nat) : Option ObjRow :=
  match faultOfObject 0x3010 index sub, faultOfObject 0x3020 index sub with
  | some f, _ => some ⟨index, sub, sub, 2, .rwBoth, f.action⟩
  | none, some _ => some ⟨index, sub, sub, 4, .ro, 0⟩
  | none, none => objRows.find? fun (r : ObjRow) => r.index == index && decide (r.first ≤ sub) && decide (sub ≤ r.last)

/-- The highest subindex in use at an index, 0 where the index is not in use (R386). -/
def objHighest (index : Nat) : Nat :=
  let f := faultRows.filter fun (r : FaultRow) => r.code / 256 + 0x3010 == index || r.code / 256 + 0x3020 == index
  ((objRows.filter fun (r : ObjRow) => r.index == index).map ObjRow.last ++ f.map fun (r : FaultRow) => r.code % 256).foldl max 0

/-- The key of an object in the table of values. -/
def objKey (index sub : Nat) : Nat := index * 256 + sub

/-- The default of an object by its key. -/
def objDefault (key : Nat) : Nat := ((objRow (key / 256) (key % 256)).map (·.default)).getD 0

/-- The bytes of a number of a type code, 0 for the types whose length is the object's own (Table 15.1). -/
def typeLen (type : Nat) : Nat :=
  match type with
  | 1 => 1 | 2 => 1 | 3 => 2 | 4 => 4 | 5 => 8 | 6 => 2 | 7 => 4 | _ => 0

end Sys2Proof.Machine
end

