-- ==== Sys2Proof/Config.lean ====
section
/-! DEFINITION. What the manual leaves open: free values without a body (log 2), so that no proof can see what they are. -/

namespace Sys2Proof.Config

/-- The free value number `n` the machine draws, 64 bits of it (log 2). -/
opaque freeBits : Nat → BitVec 64

/-- The byte that address `a` of a region of unspecified contents reads as, for the region made by draw `n`
(R260, R307; log 2). -/
opaque freeByte : Nat → Nat → Byte

/-- What a counter (by object key) reads after it passes its largest value, the exact count being the second
argument: the manual gives counters a width and no rule for their end (log 2). -/
opaque freeCounter : Nat → Nat → Nat

/-- The error, in units of the last place, of an operation that R189 bounds to 2^-22 relative: by operation code and
operand bits (log 2). The model keeps the bound whatever this value is. -/
opaque freeUlp : Nat → Nat → Int

/-- The identity certificates of object 0xA003.01 (R407): the manual gives their form, not their bytes (log 2). -/
opaque certificates : List Byte

/-- The scan image of a unit at a dump (R362): its layout is in the scan map, not in the manual (log 2). -/
opaque scanImage : Nat → Nat → List Byte

/-- The scan map of stepping B1, object 0x3061.01 (R362; log 2). -/
opaque scanMap : List Byte

/-- The boot ROM version of object 0x1001.01 (Table 15.7 gives none; log 2). -/
opaque bootRomVersion : BitVec 32

/-- The signature of a quote: made with a key no path reads and a random salt (R407, R408; log 2). -/
opaque quoteSignature : Nat → List Byte

/-- The scale-directory entry that the activations at an operand-store address of a die belong to: the manual's tile names
no tensor for them (R167; log 13). -/
opaque activationEntry : Nat → Nat → Nat

/-- The tensor id of a score plane that no tensor descriptor covers, by its address: it addresses SCORE's random bits
(R131; log 18). -/
opaque scoreTensor : Nat → Nat

/-- The fuse slots of the key hashes, object 0xA001.01 (log 5). -/
opaque keyHash : Nat → List Byte

/-- The fused voltage offset of Frond 0 to 2 and cluster 3 to 5, in mV above −30 (R372; log 5). -/
opaque fusedOffset : Nat → Nat

/-- Modulus and exponent of the directory's public keys (R401; log 5). -/
opaque keyModulus : Nat → Nat

opaque keyExponent : Nat → Nat

/-- The set of manufacture: TYPE and digest of each image, the manifest first, its IMGVER and its SVN (R434; log 5). -/
opaque madeImages : List (Nat × List Byte)

opaque madeVersion : BitVec 32

opaque madeSvn : Nat

/-- What the identity CSRs of a core read, by their number: misa, mvendorid, marchid, mimpid and mconfigptr (R220 gives no value;
log 2). -/
opaque coreIdentity : Nat → BitVec 64

/-- The energy a unit or context object reads after so many frames: the activity model's events and coefficients are not
in the manual (R370; log 2). -/
opaque freeEnergy : Nat → Nat → Nat

/-- Whether the access of a number, of those that the counter object of a key watches, meets the random error that it counts: a
corrected severity of on-die ECC, a single-bit correction, a retry of command parity; or, by object 0x9010.05, a unit's microcode
that reads back wrong. Where errors occur is not in the manual (R242, R255, R256, R413; log 102). -/
opaque freeErrors : Nat → Nat → Bool

/-- The resends of the 64 bytes of a number that a direction of a bridge sends: when a CRC check fails is not in the manual (R17;
log 100). -/
opaque freeResends : Nat → Nat → Nat

/-- Whether the segment read of a job loses its slab-buffer bank to another lane in a cycle, by the engine's die and cycle and the
lane: the manual does not give the banks of a slab buffer (R109; log 115). -/
opaque freeSegment : Nat → Nat → Nat → Bool

/-- Whether the running work of a die's Filigree accesses an operand-store bank in a Frond cycle, by die, frame, cycle and bank: the
manual gives the length of that work and not the cycles of its accesses (R188, R248; log 122). -/
opaque freeAccess : Nat → Nat → Nat → Nat → Bool

end Sys2Proof.Config
end

