-- ==== Sys2Proof/Machine/KMap.lean ====
section
/-! DEFINITION. Sparse tables: lists of (key, value) pairs in one canonical form, keys strictly rising and no entry
equal to the default that an unlisted key reads as. Every table and every memory of the machine is one. -/

namespace Sys2Proof.Machine

/-- A table from numbers to values. -/
abbrev KMap (α : Type) := List (Nat × α)

/-- The value at key `i`, `d` where the key is not listed. -/
def kget {α : Type} (d : α) : KMap α → Nat → α
  | [], _ => d
  | (k, v) :: t, i => if k = i then v else kget d t i

/-- Lists `v` at key `i`, in key order. -/
def kput {α : Type} (i : Nat) (v : α) : KMap α → KMap α
  | [] => [(i, v)]
  | (k, w) :: t => if i < k then (i, v) :: (k, w) :: t else if i = k then (i, v) :: t else (k, w) :: kput i v t

/-- Takes key `i` out of the table. -/
def kdel {α : Type} (i : Nat) (m : KMap α) : KMap α := m.filter fun p => p.1 != i

/-- Writes `v` at key `i` and keeps the canonical form over the default `d`. -/
def kset {α : Type} [DecidableEq α] (d : α) (m : KMap α) (i : Nat) (v : α) : KMap α :=
  if v = d then kdel i m else kput i v m

/-- Keys strictly rising. -/
def krising {α : Type} : KMap α → Bool
  | [] => true
  | [_] => true
  | (k, _) :: (j, w) :: t => decide (k < j) && krising ((j, w) :: t)

/-- The canonical form over the default `d`. -/
def kwf {α : Type} [DecidableEq α] (d : α) (m : KMap α) : Bool := krising m && m.all fun p => decide (p.2 ≠ d)

end Sys2Proof.Machine
end

