-- ==== Sys2Proof/Machine/Numerics.lean ====
section
/-! DEFINITION. The numbers of the module: exact values, the internal format E8M31, the storage formats, stochastic
rounding and the generator of its random bits (R67, R151–R159, R189). -/

namespace Sys2Proof.Machine

/-- An exact value: a NaN, an infinity, or (−1)^neg · m · 2^e. -/
inductive Num where
  | nan
  | inf (neg : Bool)
  | fin (neg : Bool) (m : Nat) (e : Int)
  deriving DecidableEq, Repr

/-- The value +0. -/
def Num.zero : Num := .fin false 0 0

/-- A natural number as an exact value. -/
def Num.ofNat (n : Nat) : Num := .fin false n 0

/-- The power 2^e. -/
def Num.pow2 (e : Int) : Num := .fin false 1 e

/-- The value is neither an infinity nor a NaN. -/
def Num.finite : Num → Bool
  | .fin _ _ _ => true
  | _ => false

/-- The value is a zero of either sign. -/
def Num.isZero : Num → Bool
  | .fin _ m _ => m == 0
  | _ => false

/-- The value with its sign changed. -/
def Num.neg : Num → Num
  | .nan => .nan
  | .inf s => .inf !s
  | .fin s m e => .fin (!s) m e

/-- The magnitude. -/
def Num.abs : Num → Num
  | .nan => .nan
  | .inf _ => .inf false
  | .fin _ m e => .fin false m e

/-- The value times 2^k, exactly. -/
def Num.scale (k : Int) : Num → Num
  | .fin s m e => .fin s m (e + k)
  | x => x

/-- The exact sum; a zero sum is +0 unless both addends are −0 (R67). -/
def Num.add : Num → Num → Num
  | .nan, _ => .nan
  | _, .nan => .nan
  | .inf s, .inf r => if s = r then .inf s else .nan
  | .inf s, _ => .inf s
  | _, .inf r => .inf r
  | .fin s m e, .fin r n f =>
    if m = 0 ∧ n = 0 then .fin (s && r) 0 0
    else
      let g := min e f
      let a : Int := (if s then -1 else 1) * (m * 2 ^ (e - g).toNat)
      let b : Int := (if r then -1 else 1) * (n * 2 ^ (f - g).toNat)
      let c := a + b
      if c = 0 then Num.zero else .fin (decide (c < 0)) c.natAbs g

/-- The exact product; 0 × ∞ is a NaN (R67). -/
def Num.mul : Num → Num → Num
  | .nan, _ => .nan
  | _, .nan => .nan
  | .inf s, .inf r => .inf (s != r)
  | .inf s, .fin r n _ => if n = 0 then .nan else .inf (s != r)
  | .fin s m _, .inf r => if m = 0 then .nan else .inf (s != r)
  | .fin s m e, .fin r n f => .fin (s != r) (m * n) (e + f)

/-- The signed numerator of a finite value over 2^g, for g at most its exponent. -/
def Num.over (g : Int) : Num → Int
  | .fin s m e => (if s then -1 else 1) * (m * 2 ^ (e - g).toNat)
  | _ => 0

/-- The exponent of a finite value. -/
def Num.expo : Num → Int
  | .fin _ _ e => e
  | _ => 0

/-- `a < b`; false when either is a NaN. -/
def Num.lt (a b : Num) : Bool :=
  match a, b with
  | .nan, _ => false
  | _, .nan => false
  | .inf s, .inf r => s && !r
  | .inf s, _ => s
  | _, .inf r => !r
  | a, b => let g := min a.expo b.expo; decide (a.over g < b.over g)

/-- ⌊log₂ |v|⌋ of a finite non-zero value. -/
def Num.log2 : Num → Int
  | .fin _ m e => (Nat.log2 m : Int) + e
  | _ => 0

/-- Round to nearest, ties to even, of m / 2^s. -/
def rne (m s : Nat) : Nat :=
  let q := m >>> s
  let r := m % 2 ^ s
  if 2 * r > 2 ^ s ∨ (2 * r = 2 ^ s ∧ q % 2 = 1) then q + 1 else q

/-- The magnitude code of m · 2^e rounded to nearest, ties to even, in a binary format of fraction width `mb` whose
smallest subnormal is 2^emin; the caller compares it with the infinity code. -/
def rneCode (mb : Nat) (emin : Int) (m : Nat) (e : Int) : Nat :=
  if m = 0 then 0 else
  let q := max ((Nat.log2 m : Int) + e - mb) emin
  let r := if q ≤ e then m * 2 ^ (e - q).toNat else rne m (q - e).toNat
  (q - emin).toNat * 2 ^ mb + r

/-- The E8M31 code of a value, rounded to nearest, ties to even, overflowing to an infinity (R67). -/
def toE8 : Num → E8M31
  | .nan => 0x7FC0000000#40
  | .inf s => if s then 0xFF80000000#40 else 0x7F80000000#40
  | .fin s m e =>
    let c := min (rneCode 31 (-157) m e) (255 * 2 ^ 31)
    BitVec.ofNat 40 (b2n s * 2 ^ 39 + c)

/-- The value of a minifloat code with exponent width `eb`, fraction width `mb` and smallest subnormal 2^emin, with no
infinities and no NaNs. -/
def miniVal (eb mb : Nat) (emin : Int) (c : Nat) : Num :=
  let ex := bits c (mb + eb - 1) mb
  let f := c % 2 ^ mb
  let s := bit c (mb + eb)
  if ex = 0 then .fin s f emin else .fin s (2 ^ mb + f) ((ex : Int) - 1 + emin)

/-- The value of a code whose all-ones exponent holds infinities and NaNs. -/
def ieeeVal (eb mb : Nat) (emin : Int) (c : Nat) : Num :=
  if bits c (mb + eb - 1) mb = 2 ^ eb - 1 then (if c % 2 ^ mb = 0 then .inf (bit c (mb + eb)) else .nan)
  else miniVal eb mb emin c

/-- The value an E8M31 code holds. -/
def ofE8 (x : E8M31) : Num := ieeeVal 8 31 (-157) x.toNat

/-- The bits of an element of a format code of Table 2.8. -/
def fmtBits (fmt : Nat) : Nat :=
  if fmt = 0 ∨ fmt = 1 ∨ fmt = 5 then 16 else if fmt = 4 then 4 else 8

/-- The fraction width of a format code. -/
def fmtFrac (fmt : Nat) : Nat :=
  match fmt with
  | 0 => 7
  | 1 => 10
  | 2 => 3
  | 3 => 2
  | _ => 1

/-- The exponent of the smallest subnormal of a format code. -/
def fmtEmin (fmt : Nat) : Int :=
  match fmt with
  | 0 => -133
  | 1 => -24
  | 2 => -9
  | 3 => -16
  | _ => -1

/-- The magnitude code of the largest finite value of a format code (Table 6.1). -/
def fmtMax (fmt : Nat) : Nat :=
  match fmt with
  | 0 => 0x7F7F
  | 1 => 0x7BFF
  | 2 => 0x7E
  | 3 => 0x7B
  | _ => 0x7

/-- The top exponent E_F of a scaled format (R157). -/
def fmtTop (fmt : Nat) : Int :=
  match fmt with
  | 0 => 127
  | 1 => 15
  | 2 => 8
  | 3 => 15
  | _ => 2

/-- The value a stored code of a floating format holds (R152). -/
def ofCode (fmt : Nat) (c : Nat) : Num :=
  match fmt with
  | 0 => ieeeVal 8 7 (-133) c
  | 1 => ieeeVal 5 10 (-24) c
  | 2 => if c % 0x80 = 0x7F then .nan else miniVal 4 3 (-9) c
  | 3 => ieeeVal 5 2 (-16) c
  | 5 => let v := signed 16 c; .fin (decide (v < 0)) v.natAbs 0
  | _ => miniVal 2 1 (-1) c

/-- The value of an E2M1 element under its E8M0 block scale (R154). -/
def ofScaled (fmt c scale : Nat) : Num := if scale = 0xFF then .nan else (ofCode fmt c).scale ((scale : Int) - 127)

/-- The code of the canonical NaN of a format (Table 6.1). -/
def fmtNaN (fmt : Nat) : Nat :=
  match fmt with
  | 0 => 0x7FC0
  | 1 => 0x7E00
  | 2 => 0x7F
  | _ => 0x7E

/-- The code of +∞ of a format that has one. -/
def fmtInf (fmt : Nat) : Nat :=
  match fmt with
  | 0 => 0x7F80
  | 1 => 0x7C00
  | _ => 0x7C

/-- What a conversion into storage gives: the code, and whether it is counted as a saturation or as a non-finite result
(R156). -/
structure Stored where
  code : Nat
  sat : Bool
  nonfinite : Bool
  deriving DecidableEq, Repr

/-- The sign bit of a format's code. -/
def fmtSign (fmt : Nat) (neg : Bool) : Nat := if neg then 2 ^ (fmtBits fmt - 1) else 0

/-- The procedure sr of R155 with the saturations of Table 6.2: `r` is the 16 random bits. -/
def sr (v : Num) (fmt r : Nat) : Stored :=
  match v with
  | .nan => ⟨fmtNaN fmt, false, true⟩
  | .inf s => if fmt = 2 then ⟨fmtNaN fmt + fmtSign fmt s, false, true⟩ else ⟨fmtInf fmt + fmtSign fmt s, false, true⟩
  | .fin s m e =>
    if m = 0 then ⟨fmtSign fmt s, false, false⟩ else
    let mb := fmtFrac fmt
    let emin := fmtEmin fmt
    let q := max ((Nat.log2 m : Int) + e - mb) emin
    let sh := (q - e).toNat
    let lo := if q ≤ e then m * 2 ^ (e - q).toNat else m >>> sh
    let rem := if q ≤ e then 0 else m % 2 ^ sh
    let code := (q - emin).toNat * 2 ^ mb + lo
    if code > fmtMax fmt ∨ (code = fmtMax fmt ∧ rem ≠ 0) then ⟨fmtMax fmt + fmtSign fmt s, true, false⟩
    else
      let f := (rem * 65536) >>> sh
      ⟨(if rem ≠ 0 ∧ r < f then code + 1 else code) + fmtSign fmt s, false, false⟩

/-- The E8M7 code of a value rounded to nearest, ties to even, beyond the range the infinity of its sign (R88). -/
def toE8M7 : Num → Nat
  | .nan => 0x7FC0
  | .inf s => 0x7F80 + fmtSign 0 s
  | .fin s m e => min (rneCode 7 (-133) m e) 0x7F80 + fmtSign 0 s

/-- The value a unit holds after one operation: rounded into E8M31 (R67). -/
def rnd (v : Num) : Num := ofE8 (toE8 v)

/-- One E8M31 addition. -/
def eAdd (a b : Num) : Num := rnd (a.add b)

/-- One E8M31 subtraction. -/
def eSub (a b : Num) : Num := rnd (a.add b.neg)

/-- One E8M31 multiplication. -/
def eMul (a b : Num) : Num := rnd (a.mul b)

/-- One cell step: the exact product added to the partial sum and rounded (R67). -/
def eMac (acc a b : Num) : Num := rnd (acc.add (a.mul b))

/-- The sum in order of a list, from +0 (R63, R87). -/
def eSum (l : List Num) : Num := l.foldl eAdd Num.zero

/-- The scaled value of R158 step 3 and R167: exact, or rounded to nearest even where it leaves the range. -/
def eScale (k : Int) (v : Num) : Num := rnd (v.scale k)

/-- The larger of two values; a NaN operand gives a NaN (R67). -/
def numMax (a b : Num) : Num :=
  match a, b with
  | .nan, _ => .nan
  | _, .nan => .nan
  | a, b => if a.lt b then b else a

/-- The block scale byte of a block under R158. -/
def blockScale (fmt : Nat) (vs : List Num) : Nat :=
  if vs.any (fun v => !v.finite) then 0xFF
  else
    let a := (vs.map Num.abs).foldl numMax Num.zero
    if a.isZero then 0 else (max (-127) (min 127 (a.log2 - fmtTop fmt)) + 127).toNat

/-- One element of a block-scaled write (R158). -/
def blockElem (fmt scale : Nat) (v : Num) (r : Nat) : Nat :=
  if scale = 0xFF then 0 else (sr (eScale (127 - (scale : Int)) v) fmt r).code

/-- 2^⌈log₂ a⌉ as an exponent, at most 127, of a finite non-zero magnitude (R165). -/
def ceilLog2 (v : Num) : Int :=
  match v with
  | .fin _ m e => min 127 ((if m = 2 ^ Nat.log2 m then (Nat.log2 m : Int) else Nat.log2 m + 1) + e)
  | _ => 127

/-- The function mix of R159. -/
def mix (x : W32) : W32 :=
  let x := x ^^^ (x >>> 16)
  let x := x * 0x7FEB352D#32
  let x := x ^^^ (x >>> 15)
  let x := x * 0x846CA68B#32
  x ^^^ (x >>> 16)

/-- The function draw of R159: the 16 random bits of one rounding. -/
def draw (s : Nat) (tau n e delta : Nat) : Nat :=
  let k := mix (BitVec.ofNat 32 s ^^^ BitVec.ofNat 32 tau) + BitVec.ofNat 32 (s / 2 ^ 32)
  let c := mix (k ^^^ BitVec.ofNat 32 n)
  let w := BitVec.ofNat 32 (delta * 2 ^ 16) ||| BitVec.ofNat 32 (e / 2 ^ 32 % 2 ^ 16)
  (mix ((c ^^^ BitVec.ofNat 32 e) + w * 0x9E3779B9#32)).toNat / 2 ^ 16

/-- The integer square root, `n` bits of it, from the top. -/
def isqrtBits : Nat → Nat → Nat → Nat
  | 0, _, acc => acc
  | n + 1, x, acc => let t := acc + 2 ^ n; isqrtBits n x (if t * t ≤ x then t else acc)

/-- The integer square root of a number below 2^640. -/
def isqrt (x : Nat) : Nat := isqrtBits 320 x 0

/-- p / q · 2^e with a sticky bit: the exact quotient to 120 bits or more. -/
def quotient (s : Bool) (p q : Nat) (e : Int) : Num :=
  let k := 160 + Nat.log2 q
  let n := p * 2 ^ k
  .fin s (2 * (n / q) + (if n % q = 0 then 0 else 1)) (e - k - 1)

/-- ln 2 in units of 2^-160. -/
def ln2Fixed : Nat := 1013035739299659071135698605846798551586536899366

/-- Taylor terms of exp over units of 2^-160, `n` of them from term `i`. -/
def expSeries : Nat → Nat → Nat → Nat → Nat
  | 0, _, _, _ => 0
  | n + 1, i, term, x => term + expSeries n (i + 1) (term * x / 2 ^ 160 / i) x

/-- Terms of the series of artanh over units of 2^-160. -/
def artanhSeries : Nat → Nat → Nat → Nat → Nat
  | 0, _, _, _ => 0
  | n + 1, i, p, z2 => p / i + artanhSeries n (i + 2) (p * z2 / 2 ^ 160) z2

/-- A value within 2^-22 relative of the value `v` rounded, as R189 allows: the error is the free value of Config
(log 2), and an error outside the bound is none. -/
def near (op arg : Nat) (v : Num) : Num :=
  let c := toE8 v
  match ofE8 c with
  | .fin s m e =>
    let k := Config.freeUlp op arg
    let m2 := ((m : Int) + k).toNat
    if m = 0 ∨ 2 ^ 22 * k.natAbs > m ∨ (m : Int) + k ≤ 0 then .fin s m e else rnd (.fin s m2 e)
  | x => x

/-- The reciprocal (R189); 1/±0 is an infinity of the sign and 1/±∞ a zero of the sign, as IEEE 754 has them. -/
def eRecip (x : Num) : Num :=
  match x with
  | .nan => .nan
  | .inf s => .fin s 0 0
  | .fin s m e => if m = 0 then .inf s else near 0 (toE8 x).toNat (quotient s 1 m (-e))

/-- The quotient a / b, by the same unit. -/
def eDiv (a b : Num) : Num :=
  match a, b with
  | .nan, _ => .nan
  | _, .nan => .nan
  | .inf _, .inf _ => .nan
  | .inf s, .fin r _ _ => .inf (s != r)
  | .fin s _ _, .inf r => .fin (s != r) 0 0
  | .fin s m e, .fin r n f =>
    if n = 0 then (if m = 0 then .nan else .inf (s != r))
    else if m = 0 then .fin (s != r) 0 0
    else near 1 ((toE8 a).toNat * 2 ^ 40 + (toE8 b).toNat) (quotient (s != r) m n (e - f))

/-- The reciprocal square root (R189). -/
def eRsqrt (x : Num) : Num :=
  match x with
  | .nan => .nan
  | .inf s => if s then .nan else Num.zero
  | .fin s m e =>
    if m = 0 then .inf s
    else if s then .nan
    else
      let m2 := if e % 2 = 0 then m else 2 * m
      let e2 := if e % 2 = 0 then e else e - 1
      near 2 (toE8 x).toNat (.fin false (2 * isqrt (2 ^ 480 / m2) + 1) (-(e2 / 2) - 241))

/-- The exponential (R189): exp(−∞) is +0. -/
def eExp (x : Num) : Num :=
  match x with
  | .nan => .nan
  | .inf s => if s then Num.zero else .inf false
  | .fin s m e =>
    if m = 0 then Num.ofNat 1
    else if (Nat.log2 m : Int) + e ≥ 8 then (if s then near 3 (toE8 x).toNat (.fin false 1 (-400)) else .inf false)
    else
      let f : Int := (if s then -1 else 1) * (if e + 160 ≥ 0 then (m * 2 ^ (e + 160).toNat : Nat) else (m / 2 ^ (-(e + 160)).toNat : Nat))
      let n := f / (ln2Fixed : Int)
      let r := (f % (ln2Fixed : Int)).toNat
      near 3 (toE8 x).toNat (.fin false (2 * expSeries 60 1 (2 ^ 160) r + 1) (n - 161))

/-- The natural logarithm (R189). -/
def eLn (x : Num) : Num :=
  match x with
  | .nan => .nan
  | .inf s => if s then .nan else .inf false
  | .fin s m e =>
    if m = 0 then .inf true
    else if s then .nan
    else
      let l := Nat.log2 m
      let f := m * 2 ^ 160 / 2 ^ l
      let z := (f - 2 ^ 160) * 2 ^ 160 / (f + 2 ^ 160)
      let lf : Int := 2 * (artanhSeries 60 1 z (z * z / 2 ^ 160) : Nat) + ((l : Int) + e) * (ln2Fixed : Int)
      near 4 (toE8 x).toNat (.fin (decide (lf < 0)) lf.natAbs (-160))

end Sys2Proof.Machine
end

