-- ==== Sys2Proof/Machine/State.lean ====
section
/-! DEFINITION. The state of the module: every register, memory, queue and mode the manual gives it, as plain data. The
default of a field is its value in State.reset; INVENTORY.md gives each with its rule and its log entry. -/

namespace Sys2Proof.Machine

/-- A byte memory in canonical form. `holes` are the regions of unspecified contents, newest first: base, length and
the number of the draw that made them (R260, R307). -/
structure Mem where
  cells : List Host.Cell := []
  holes : List (Nat × Nat × Nat) := []
  deriving DecidableEq, Repr

/-- A command of the stream with its opcode (Table 2.5). -/
structure Cmd where
  op : Nat
  issue : Issue
  /-- The cycle at which it reached its unit. -/
  at_ : Nat := 0
  deriving DecidableEq, Repr

/-- One output row of a product before the drain: skipped or not, the column sums, and the witness sums z and u (R87). -/
structure Row where
  skip : Bool
  y : List E8M31
  z : E8M31
  u : E8M31
  deriving DecidableEq, Repr

/-- A row group in an array and its drain (R63, R73, R76): its rows by number, with the skipped ones between them; the unfrozen
cycles until it leaves the drain; the Frond cycles until the drain has compared its rows (R88); the lanes that it leaves ungated, by
the cycles since it entered (R68); and what of it the drain has still to pass: bytes, or elements of its first row for a kernel. -/
structure Group where
  rows : List (Nat × Row)
  left : Nat
  check : Nat
  opened : List Nat
  need : Nat
  deriving DecidableEq, Repr

/-- A place of the job list of a Sorus (R106, R107): slab, lane, output line, and the place of its block in the walk of the index;
for SCORE the candidate's index and its block row · 65,536 + column (R131). -/
structure Place where
  slab : Nat
  lane : Nat
  line : Nat
  place : Nat
  deriving DecidableEq, Repr

/-- The work of a Sorus on one tile (R106–R116): the number it goes by in lanes and buffers; its index header as read; the job list
not yet dispatched; the lanes to which the list gives jobs; the next slab to stage; the lines of slabs whose outputs have not gone to
the drain; whether its mask plane is used; and whether it read poison. -/
structure Sparse where
  serial : Nat
  head : Nat
  todo : List Place
  used : List Nat
  next : Nat
  lines : List (Nat × Nat)
  masked : Bool
  poison : Bool
  deriving DecidableEq, Repr

/-- A job in a lane's queue (R108, R109): its tile and place, the ordinal and word of its block's entry, its live rows, the cycles
it still decodes and executes, the block in the orientation of the tile, and its stored positions. -/
structure LaneJob where
  serial : Nat
  slot : Place
  ordinal : Nat
  word : Nat
  live : List Nat
  decode : Nat
  left : Nat
  begun : Bool
  block : List (List E8M31)
  places : List (Nat × Nat)
  deriving DecidableEq, Repr

/-- A slab buffer (R110): the tile and the slab it holds, the bytes staged so far, and the rows of activations, and of the gradient of
a sampled product, that they complete. -/
structure Slab where
  serial : Nat
  slab : Nat
  done : Nat
  xs : List (List E8M31)
  gs : List (List E8M31)
  deriving DecidableEq, Repr

/-- An accumulator of a lane (R112): its tile, slab and line, its lane, whether the lane has handed it over, and its values by row.
A sampled block keeps its sums by ordinal, and a candidate of SCORE by its index, both under row 0. -/
structure Accum where
  serial : Nat
  slab : Nat
  line : Nat
  lane : Nat
  full : Bool
  rows : KMap (List E8M31)
  deriving DecidableEq, Repr

/-- Outputs that wait for the drain of a Sorus: tile, slab and line, and the bytes left to write; for a tile with TOKERN the line is
the next row of the slab, and `need` its elements left (R112, R185). -/
structure Handed where
  serial : Nat
  slab : Nat
  line : Nat
  need : Nat
  deriving DecidableEq, Repr

/-- The lanes, slab buffers, accumulators and drain of a Sorus (R109–R112); `serial` numbers its tiles, `cycles` its cycles. -/
structure Sorus where
  serial : Nat := 0
  cycles : Nat := 0
  lanes : KMap (List LaneJob) := []
  slabs : List Slab := []
  accs : List Accum := []
  drain : List Handed := []
  deriving DecidableEq, Repr

/-- A transfer with HDR that arrives: its bytes so far, its check (0 not made, 1 passed, 2 failed, 3 passed but for the mask), and
whether its header, mask or scales, or the block in progress, came poisoned (R216, R257). -/
structure Part where
  data : List Byte
  check : Nat
  headPoison : Bool
  poison : Bool
  deriving DecidableEq, Repr

/-- What a unit's work still has to deliver when it completes. -/
inductive Load where
  /-- Nothing. -/
  | none
  /-- The row groups of a MATMUL that still have to enter, each row with whether it is skipped; those in the array; those in the
drain's FIFO; and whether poison was read (R73, R76). -/
  | stream (todo : List (List (Nat × Bool))) (flight : List Group) (fifo : List Group) (poison : Bool)
  /-- The jobs of a tile on the Sorus (R106). -/
  | sparse (x : Sparse)
  /-- Rows a drain-fed kernel has accepted, per source: array A, array B, Sorus; and the granules of DST that it has written (R188). -/
  | kernel (a : Nat) (b : Nat) (s : Nat) (written : List Nat)
  /-- Bytes to write at an operand-store offset on completion, and whether they are poisoned (R149, R257). -/
  | bytes (at_ : Nat) (data : List Byte) (poison : Bool)
  /-- The copies of a SEND or BCAST, by destination, TAG and SERIAL, whose flits wait for the first hop (R291). -/
  | flits (copies : List (Nat × Nat))
  /-- A transfer that moves its blocks: how many have been asked for, how many have landed, and of one with HDR the blocks that
  have come by number, how many of them are taken, and the header with what follows it (R250, R251). -/
  | moving (issued : Nat) (landed : Nat) (come : KMap (List Byte × Bool)) (taken : Nat) (part : Part)
  /-- The blocks of a SEND or BCAST on their way to the port: how many have been asked for, and those that have come, by number
  (R291, R292). -/
  | gathering (issued : Nat) (come : KMap (List Byte × Bool))
  deriving DecidableEq, Repr

/-- Work in a unit: its command, the cycles of the unit's clock it still has (none: it ends by an event of its own), and
what it delivers. -/
structure Work where
  cmd : Cmd
  left : Option Nat
  load : Load
  /-- Cycles of the tail that follows the phase R44 waits for (R73), of a tile in a Sorus all that it still needs (R111; log 106), and
the block jobs, or the blocks, of the work; of a part of an UPDATE the bytes it has yet to move on each stack (R204). -/
  tail : Nat := 0
  jobs : Nat := 0
  /-- Cycles of the unit's clock since the work took effect. -/
  age : Nat := 0
  /-- The latency of a transfer's first block (Table 10.5); of a part of an UPDATE the cycles in which no bytes move (R204). -/
  head : Nat := 0
  /-- An injection keeps the work from making progress (R364). -/
  stuck : Bool := false
  deriving DecidableEq, Repr

/-- A unit of Table 1.2 (R44, R45, R349, R361). -/
structure UnitState where
  /-- The opcode of the standing mode, 0 for IDLE, and the cycles it still holds. -/
  mode : Nat := 0
  modeLeft : Option Nat := none
  /-- The work whose end R44 waits for, and the drain tails behind it (R73). -/
  work : Option Work := none
  tails : List Work := []
  /-- Pending commands, oldest first, at most two (R44). -/
  waiting : List Cmd := []
  /-- Frozen in the last cycle. -/
  frozen : Bool := false
  /-- Consecutive ticks at which the same work has been unfinished, and whether its hang was raised (R349). -/
  ticks : Nat := 0
  hung : Bool := false
  /-- Rows, jobs, blocks or flits completed by the current command (Table 13.14). -/
  progress : Nat := 0
  /-- The current command, for the snapshot. -/
  last : Option Cmd := none
  /-- Held in reset (R351). -/
  inReset : Bool := false
  /-- Makes no progress on its next work (R364). -/
  stalled : Bool := false
  /-- Unplanned freezes and slip of the running frame (R84, R117). -/
  debt : Nat := 0
  /-- Cycles of the running frame's reserve that work of another context held (R59). -/
  intrusion : Nat := 0
  deriving DecidableEq, Repr

/-- Weight registers with their tag and witness sums (R69, R71, R86); `bad` marks a load that failed R89. -/
structure Weights where
  tag : Option (Nat × Nat) := none
  rows : List (List Num) := []
  h : List E8M31 := []
  a : List E8M31 := []
  v : List E8M31 := []
  bad : Bool := false
  deriving DecidableEq, Repr

/-- One dense array: active and shadow weights (R69–R71). -/
structure ArrayRegs where
  active : Weights := {}
  shadow : Weights := {}
  /-- Gated lane-cycles beyond the last whole 4,096 (R68). -/
  gatedRest : Nat := 0
  deriving DecidableEq, Repr

/-- The registers of one Filigree: row memory (a, b), column memory (R187), and the layer in progress: its ledger sums
‖W‖², ‖g‖², ‖ΔW‖², the parts done, and whether it withholds (R203, R209, R211). -/
structure Filigree where
  rowMem : KMap (E8M31 × E8M31) := []
  colMem : KMap E8M31 := []
  /-- The elements that the running drain-fed kernel still accepts in this Frond cycle (R188). -/
  room : Nat := 0
  sumW : E8M31 := 0
  sumG : E8M31 := 0
  sumD : E8M31 := 0
  layer : Nat := 0
  withholding : Bool := false
  deriving DecidableEq, Repr

/-- Time (R14, R15, R31–R36). Offsets are in cycle-times. -/
structure Clock where
  /-- The cycle within the frame. -/
  cycle : Nat := 0
  frame : Nat := 0
  /-- The part of a Frond cycle each Frond has gained, in units of 1/1,250. -/
  phase : List Nat := [0, 0, 0]
  tracking : Bool := false
  freeRun : Bool := false
  /-- Re-armed: the offset is measured at the next edge (R36). -/
  arming : Bool := false
  /-- START waits for the first edge (R33). -/
  placing : Bool := false
  /-- The cycles from the last tick to the sync point of an edge of this frame. -/
  syncPoint : Option Nat := none
  /-- Consecutive ticks without an edge. -/
  quiet : Nat := 0
  /-- Cycle-times by which this frame ends earlier (positive) or later (R34). -/
  advance : Int := 0
  /-- Cycle-times added to this frame (R379). -/
  stretch : Nat := 0
  /-- Frame and cycle at which the last edge was sampled (R423), and the cycles to a tick placed on a sync point (R33). -/
  lastEdge : Option (Nat × Nat) := none
  /-- Reference cycles since reset, eight to a cycle of REFCLK (R222). -/
  uptime : Nat := 0
  tickIn : Option Nat := none
  deriving DecidableEq, Repr

/-- A fetched bundle: the frame's issue cycle, context, SEQ, the table it came from, and its command words. -/
structure Bundle where
  issue : Nat
  ctx : Nat
  seq : Nat
  tbl : Option TblRef
  words : List Nat
  /-- By slot, the descriptors read with the command (R39). -/
  descs : List (List Nat) := []
  deriving DecidableEq, Repr

/-- What the fetcher has read for the next frame (R39): the frame of the stream, none for a wait frame; its bundles with those
of its tables; where the following frame lies and its SEQ; the tables called with the SEQ of their CALL; and whether the
export hold of R333 stands before it. -/
structure Fetched where
  index : Option Nat
  bundles : List Bundle
  next : Nat
  seq : Nat
  calls : List (Nat × Nat)
  exports : Bool
  deriving DecidableEq, Repr

/-- A fence in progress (R22): its context, its set of dies, the frame and cycle of its issue, the cycles to its planned completion,
and whether it is extended and then over. -/
structure Fence where
  ctx : Nat
  mask : Nat
  frame : Nat
  cycle : Nat
  left : Nat
  late : Bool := false
  ended : Bool := false
  deriving DecidableEq, Repr

/-- The program (R37–R39, R45, R57–R60). -/
structure Program where
  /-- 0 none, 1 training, 2 inference. -/
  kind : Nat := 0
  /-- The RESERVE field of the header, 0 where object 0x6001.02 sets the fraction (R58). -/
  reserve : Nat := 0
  flen : Nat := 65536
  steadyFrames : Nat := 0
  steadyBase : Nat := 0
  firstFrames : Nat := 0
  firstBase : Nat := 0
  /-- FLAGS[0]: FRAME_SYNC tracking is enabled (R33). -/
  tracked : Bool := false
  descDir : Nat := 0
  tableDir : Nat := 0
  /-- START accepted, the first frame opens at the next tick or placed edge (R33). -/
  opening : Bool := false
  /-- The program ends at the next tick, with the reason to report and whether the member halts (R45, R340). -/
  stopping : Option (Nat × Bool) := none
  /-- The program has ended and work of it still runs: the tags clear when the last is done (R45). -/
  clearing : Bool := false
  /-- Frame of the stream that runs, none in a wait frame; frames of the stream; where the next frame's bundles lie. -/
  at_ : Option Nat := none
  frames : Nat := 0
  next : Nat := 0
  seq : Nat := 0
  /-- The running frame's undispatched bundles, and what is fetched for the next frame. -/
  bundles : List Bundle := []
  fetched : Option Fetched := none
  /-- Tables whose bundles the running frame holds: table id and SEQ of the CALL. -/
  calls : List (Nat × Nat) := []
  /-- The commands to Frond units of the frame that runs, with their issue cycles, for replay (R356, R357). -/
  dispatched : List (Nat × Cmd) := []
  /-- COMMIT_POINT was given in this step, in this frame, with ARG[0] (R139). -/
  pointStep : Bool := false
  pointFrame : Option Bool := none
  phaseId : Nat := 0
  /-- Phases in force in the running frame, rising (R376). -/
  phases : List Nat := [0]
  /-- Fences in progress (R22). -/
  fences : List Fence := []
  /-- Floors of the frame, MHz per Frond (R57). -/
  floors : List Nat := [1250, 1250, 1250]
  /-- Frames since the step's opening tick, wait frames included (R297). -/
  stepFrame : Nat := 0
  /-- A REGROW ran its work in this step (R126), and the step last counted as a skipped mask epoch. -/
  regrew : Bool := false
  skippedStep : Option Nat := none
  deriving DecidableEq, Repr

/-- A guilty-context replay (R356–R358): the die of the Frond, the suspects left, all of them, the guilty, the hung frame,
its commands, and the phase: 0 the clear frame is next, 1 it runs, 2 the replay frame is due, n + 3 after n of its ticks. -/
structure Replay where
  die : Nat
  left : List Nat
  suspects : List Nat
  guilty : List Nat
  frame : Nat
  cmds : List (Nat × Cmd)
  phase : Nat
  deriving DecidableEq, Repr

/-- The fault collector (R342–R348) and the replay of R356–R358. -/
structure Faults where
  /-- Reports on their way to the collector, with the cycles they still need (R16). -/
  inFlight : List (Nat × Report) := []
  /-- Reports competing for the record, each with its action + 8 · step, and the cycles to the decision (R25). -/
  competing : List (Report × Nat) := []
  deadline : Option Nat := none
  /-- The record of Table 13.5. -/
  record : Option (Report × Nat × Nat) := none
  overflow : Bool := false
  /-- The error log, newest first, and the entries per code of the running frame (R347). -/
  log : List Nat := []
  perFrame : KMap Nat := []
  /-- Actions in force, and those before the last tick; the dictionary holds the values written (R341). -/
  actions : KMap Nat := []
  actionsBefore : KMap Nat := []
  /-- Snapshots of the last tick per unit (R361). -/
  snapshots : KMap Nat := []
  /-- Crash-dump slots: bytes, status and age order (R363). -/
  dumps : List (List Byte × Nat × Nat) := [([], 0, 0), ([], 0, 0), ([], 0, 0)]
  /-- The shutdown log in the boot flash, newest first (R365). -/
  shutdown : List Nat := []
  /-- Work found unfinished at a tick, by Frond unit: the hung frame and the commands of its Frond in it (R356). -/
  hung : KMap (Nat × List (Nat × Cmd)) := []
  /-- A replay that waits for the revert and the Frond, and the one that runs (R357). -/
  replayNext : Option Replay := none
  replay : Option Replay := none
  /-- Injected corruptions that their detector has not met yet: fault code and source (R364). -/
  corrupt : List (Nat × Nat) := []
  /-- Fronds and clusters in reset, by die; a module reset decided, with the fault code (R353). -/
  frondReset : List Nat := []
  clusterReset : List Nat := []
  moduleReset : Option Nat := none
  /-- Injection: code, source, kind, frames of delay left, injections left (R364). -/
  injection : Option (Nat × Nat × Nat × Nat × Nat) := none
  deriving DecidableEq, Repr

/-- A line of the Clasp: block number in the stack, kind (0 ordinary, 1 protected), the uses left of a counted line,
dirty, and when it was last used (R258–R261). -/
structure Line where
  block : Nat
  protect : Bool
  uses : Option Nat
  dirty : Bool
  /-- CRC of the HBM copy, which a dirty line leaves behind (R254, R258). -/
  oldCrc : Nat
  age : Nat
  deriving DecidableEq, Repr

/-- What a reduction is told: its operation, its rounding address, its coefficient, the format of its source, and how the
slice treats its line (R262). -/
structure Reducer where
  op : Nat
  tensor : Nat
  origin : Nat
  delta : Nat
  coef : Byte
  sfmt : Nat
  hint : Nat
  uses : Nat
  ctx : Nat
  deriving DecidableEq, Repr

/-- What a packet asks of a stack. -/
inductive Ask where
  /-- The bytes from an address, under a hint, which it then carries on. -/
  | read (a n hint uses : Nat)
  /-- To take what it carries. -/
  | put
  /-- An atomic operation of `n` bytes, whose old value it then carries on (R227, R273). -/
  | amo (a op n x : Nat)
  /-- The scrub read of a block, which goes past the Clasp (R266). -/
  | scrub (b : Nat)
  deriving DecidableEq, Repr

/-- What a packet does where it arrives. -/
inductive Deed where
  /-- Its bytes are stored at an offset of the operand store of die `d`. -/
  | store (d off : Nat)
  /-- Its bytes are written to HBM from address `a` upward under a hint, as part of a tensor. -/
  | write (a tensor hint uses : Nat)
  /-- Its bytes, number `off` of the transfer being the first, are reduced into the region at `base` (R262). -/
  | reduce (r : Reducer) (base off : Nat)
  /-- It is block `j` of its unit's transfer with HDR, whose landing region begins at `a` (R216, R251). -/
  | header (a j : Nat)
  /-- Its bytes come from a STREAM flit of module `src`, from byte `off` of the transfer with HDR numbered `serial`, for the
  receive entry of its port whose landing region begins at `a` (R216, R293). -/
  | piece (a src serial off : Nat)
  /-- It is block `j` that its unit has asked for. -/
  | home (j : Nat)
  /-- Its bytes answer the load or the atomic operation of a core. -/
  | core (c : Nat)
  /-- Its bytes are the line that a core's access at address `a` missed (R224). -/
  | fill (c a : Nat) (access : MemAccess)
  /-- Its bytes answer a request that port `p` took, with the answer's type, class, destination and request id (R290). -/
  | answer (p type cls dst id : Nat)
  /-- It is a request that port `p` took, on its way to its stack (R286). -/
  | request (ask : Ask) (p type cls dst id : Nat)
  /-- Its bytes answer a FILL_REQ of module `dst` for its tensor, from byte `off` of it (R330). -/
  | fillData (dst tensor off : Nat)
  /-- It is an entry for the mailbox of die `d` (R235, R236). -/
  | mail (d entry : Nat)
  /-- A block of its unit's work has landed. -/
  | landed
  deriving DecidableEq, Repr

/-- Data between a unit and the place it goes to: the unit, or the source code of a core (Table 13.6), that sends it; its context
and traffic class; its stamp (R19); whether it is a block of its unit's work; the dies it is at and goes to; its bytes and the
poison that moves with them (R257). -/
structure Packet where
  unit : Nat
  ctx : Nat
  cls : Nat
  frame : Nat
  cycle : Nat
  die : Nat
  own : Bool
  at_ : Nat
  to_ : Nat
  data : List Byte
  poison : Bool
  deed : Deed
  deriving DecidableEq, Repr

/-- A request to a stack. -/
structure StackRequest where
  ask : Ask
  packet : Packet
  deriving DecidableEq, Repr

/-- One direction of a bridge (R16–R18): by sending unit the packets that wait with the 64-byte units each still has to send; the
unit served last; what has left, with the cycles until its last 64 bytes are visible; by unit what resends have added to its
transfer; and the 64-byte units that have left. -/
structure BridgeLane where
  queues : KMap (List (Packet × Nat)) := []
  last : Nat := 0
  wire : List (Nat × Packet) := []
  delays : KMap Nat := []
  sent : Nat := 0
  deriving DecidableEq, Repr

/-- Data on its way (R16–R21, R244, R263, R265): the directions of the bridges by number (W to C, C to W, C to E, E to C); the
requests that wait at each stack by stack · 8 + class; those its slice has admitted, with the cycles until they take effect; what
is under way within a die, with the cycles until it arrives; and by stack the cycles its reducer is taken. -/
structure Traffic where
  lanes : KMap BridgeLane := []
  requests : KMap (List StackRequest) := []
  admitted : List (Nat × StackRequest) := []
  transit : List (Nat × Packet) := []
  /-- The operand-store banks that controllers have taken in this cycle, as die · 64 + bank (R248). -/
  claims : List Nat := []
  reducing : KMap Nat := []
  deriving DecidableEq, Repr

/-- An armed reduction window of a memory controller (R264). -/
structure Window where
  base : Nat
  bytes : Nat
  op : Nat
  sfmt : Nat
  coef : Nat
  coefTab : Nat
  tensor : Nat
  origin : Nat
  hint : Nat
  uses : Nat
  cls : Nat
  ctx : Nat
  deriving DecidableEq, Repr

/-- A repair that runs: the row range and its kind (Table 10.11). -/
structure Repair where
  stack : Nat
  pc : Nat
  bank : Nat
  row : Nat
  rows : Nat
  hard : Bool
  live : Bool
  deriving DecidableEq, Repr

/-- An entry of a revert log (R311): a range of state and how to undo it, by the record plane at an HBM address, or from the
committed Locket record where there is none. -/
structure Undo where
  tensor : Nat
  base : Nat
  length : Nat
  record : Option Nat
  deriving DecidableEq, Repr

/-- The memory system (chapters 10 and 12). HBM is the coherent content a read through the Clasp returns; `lines` says
which blocks are cached, by stack. -/
structure Memory where
  hbm : Mem := {}
  ops : List Mem := [{}, {}, {}]
  /-- Poisoned HBM blocks (local address / 512) and operand-store granules (die, offset / 512), rising (R257). -/
  poison : List Nat := []
  opPoison : List (Nat × Nat) := []
  /-- Poisoned blocks consumed this frame, by unit (R257). -/
  consumed : List Nat := []
  /-- Blocks whose row is evacuated (Table 10.6), and rows under soft repair: stack, pseudo-channel, bank, row (R267). -/
  evacuated : List Nat := []
  repaired : List (Nat × Nat × Nat × Nat) := []
  repair : Option Repair := none
  /-- HBM blocks whose stored CRC is wrong or whose bits read wrong, with whether a re-read mends it (R255). -/
  flawed : List (Nat × Bool) := []
  lines : KMap (List Line) := []
  age : Nat := 0
  /-- Accesses in which a random error may occur, by the key of the object that counts it: so far, and before the last module
  reset (R242, R255, R256; log 102). -/
  chances : KMap Nat := []
  chancesBefore : KMap Nat := []
  /-- Armed windows by controller (R264), and the bytes missing from each full bucket by controller · 8 + class
  (R265; log 23). -/
  windows : KMap (List Window) := []
  tokens : KMap Int := []
  /-- Regulator rates and bursts in force, by object key; the dictionary holds the values written (R265). -/
  regulators : KMap Nat := []
  /-- Revert log entries by controller, newest first (R311). -/
  revert : KMap (List Undo) := []
  /-- Retraining of R243: cycles to the next due channel of every stack, stacks that are due, cycles of the running 250 ms
  interval, and whether a frame of it had room (R384). -/
  retrainNext : Nat := 9765625
  /-- The channel that is due, and the channels that a retraining holds: stack, channel, cycles left (R243). -/
  retrainChannel : Nat := 31
  retraining : List (Nat × Nat × Nat) := []
  /-- A pseudo-channel that a soft repair holds: stack, pseudo-channel, cycles left (R268). -/
  repairHold : Option (Nat × Nat × Nat) := none
  retrainDue : List Nat := []
  retrainLeft : Nat := 312500000
  retrainRoom : Bool := false
  /-- Cycles of the running scrub pass, by stack (R266). -/
  scrubTime : KMap Nat := []
  deriving DecidableEq, Repr

/-- A port of the fabric or Stavlink (R270–R280). The port's state is object 0x5020. -/
structure Port where
  /-- Next SEQ to send; the replay buffer holds what the far end has not acknowledged. -/
  txSeq : Nat := 0
  /-- SEQ expected next, and whether a NAK for it is out. -/
  rxSeq : Nat := 0
  nakSent : Bool := false
  /-- Flits sent and not acknowledged, oldest first (R275). -/
  replay : List (List Byte) := []
  /-- Credits to send, input places freed and not yet returned (R276). -/
  credits : Nat := 64
  freed : Nat := 0
  /-- Flits waiting for the link, oldest first (R277), and flits put on the wire, oldest first. -/
  queue : List (List Byte) := []
  wire : List (List Byte) := []
  /-- Flits to send again, in order (R275), and the consecutive resends (R278). -/
  resend : List (List Byte) := []
  resends : Nat := 0
  /-- What the link could have carried since it was last taken, in tenths of a byte; a flit takes 2,560 (R271). -/
  pace : Nat := 2560
  /-- Cycles the port has held a flit it cannot send (R285). -/
  stuck : Nat := 0
  /-- Retraining: toward full width (restore) or half width (degrade). -/
  retraining : Option Bool := none
  /-- Egress ranks whose last flit sent was in transit (R277). -/
  transit : List Nat := []
  restoreAsked : Bool := false
  deriving DecidableEq, Repr

/-- One bank of the routing configuration (R282). -/
structure Bank where
  /-- Routing tables by sub · 4096 + module id; default 0x03FF. -/
  routes : KMap Nat := []
  /-- Permitted tags by port, four U16. -/
  tags : KMap Nat := []
  /-- Board map, 16 ids; default 0xFFFF. -/
  board : KMap Nat := []
  /-- Membership entries in ring order (R296). -/
  members : List Nat := []
  /-- Multicast groups by group · 16 + place; default 0xFFFF. -/
  groups : KMap Nat := []
  deriving DecidableEq, Repr

/-- An armed receive entry (R293): its command, the bytes landed, the last SERIAL seen and its module, and for HDR each transfer
that arrives, by source · 16 + SERIAL. -/
structure Recv where
  cmd : Cmd
  landed : Nat
  serial : Nat
  source : Nat
  parts : KMap Part
  deriving DecidableEq, Repr

/-- An outstanding board access of a core (R290): request id, core, bytes asked, cycles left, AMO or load. -/
structure BoardReq where
  id : Nat
  core : Nat
  length : Nat
  left : Nat
  amo : Bool
  dst : Nat
  address : Nat
  deriving DecidableEq, Repr

/-- The fabric (chapter 11). -/
structure Fabric where
  ports : KMap Port := []
  bank0 : Bank := {}
  bank1 : Bank := {}
  /-- A switch is pending at this step (R283). -/
  switchAt : Option Nat := none
  /-- Flits on their way from the port they came by to the one they leave by: cycles left, that port, the flit (R286). -/
  hops : List (Nat × Nat × List Byte) := []
  recvs : List Recv := []
  /-- Flits the module sends to itself, on their way (R284). -/
  loop : List (List Byte) := []
  /-- Unmatched STREAM flits with arrival port and frame, oldest first (R294). -/
  unmatched : List (Nat × Nat × List Byte) := []
  /-- SERIAL counters by peer · 65536 + tag (R291). -/
  serials : KMap Nat := []
  boardReqs : List BoardReq := []
  nextReq : Nat := 0
  /-- Frame of the last HEARTBEAT from the successor and the predecessor (R297). -/
  beatNext : Option Nat := none
  beatPrev : Option Nat := none
  lossRaised : Bool := false
  /-- The open census: frame of joining. The bitmap is kept after the close (R298). -/
  census : Option Nat := none
  bitmap : List Nat := []
  poisonSeen : Option Nat := none
  /-- The lowest LIVE member index at the last committed step (R296). -/
  anchor : Option Nat := none
  deriving DecidableEq, Repr

/-- A request of a filling module still outstanding (R330): the source module, its tensor, the tensor that is rebuilt, the
coefficient (0 a plain store) and the bytes still to come. -/
structure Fill where
  source : Nat
  tensor : Nat
  dest : Nat
  coef : Nat
  left : Nat
  deriving DecidableEq, Repr

/-- Step commit and recovery (chapter 12). The state is object 0x8020.02. -/
structure Commit where
  /-- Frame f of the COMMIT_POINT, its ARG[0], and the flip vote of R139 with whether entries are armed. -/
  frame : Option Nat := none
  flipAsked : Bool := false
  vote : Bool := false
  armed : Bool := false
  /-- SEAL has taken effect in the step; its copies have been sent (R319). -/
  sealed : Bool := false
  sealSent : Bool := false
  /-- LOCKET_ACKs received, DELTA_ACKs awaited (holder, TAG + 65536 · SERIAL), comparison made and passed. -/
  acks : List Nat := []
  deltas : List (Nat × Nat) := []
  compareDone : Bool := false
  compared : Bool := false
  /-- READYs received: member, vote, armed. -/
  readys : List (Nat × Bool × Bool) := []
  /-- The coordinator has sent COMMIT or ABORT. -/
  decided : Bool := false
  /-- A fault with step poison arose while READY: its code (R326). -/
  readyFault : Option Nat := none
  /-- The revert runs: reference cycles left, and frames it has taken (R327). -/
  reverting : Bool := false
  revertLeft : Nat := 0
  revertFrames : Nat := 0
  /-- REVERTEDs the coordinator has (R328); RESTART has come and the step reopens at the next tick. -/
  reverteds : List Nat := []
  reopen : Bool := false
  /-- Outcomes reported after a census: member, 0 committed, 1 READY not sent, 2 READY sent; the frame the census closed. -/
  outcomes : List (Nat × Nat) := []
  censusFrame : Option Nat := none
  /-- HALTED after COMMIT_UNKNOWN (R329). -/
  unknown : Bool := false
  /-- A HALT found the step aborting, so the revert goes on in HALTED (R340; log 47). -/
  haltRevert : Bool := false
  /-- The next step is poisoned at its opening tick, with this code (R141, R326). -/
  poisonNext : Option Nat := none
  /-- Fill: requests outstanding, bytes to do and done, step counters of FILL_DATA; the record came (R330); RESUME has passed
  (R332). -/
  fills : List Fill := []
  fillTotal : Nat := 0
  fillDone : Nat := 0
  fillSteps : List Nat := []
  resumed : Bool := false
  /-- A hold of R414 armed at a step, and holding; an export armed at a step (R333). -/
  holdAt : Option Nat := none
  holding : Bool := false
  exportAt : Option Nat := none
  exportRelease : Bool := false
  deriving DecidableEq, Repr

/-- What an update part stages for its layer's ledger record (R209, R210): the watch outcome, the sums ‖W‖², ‖g‖², ‖ΔW‖² in
E8M7 where the update has them, and the update factor. -/
structure Staged where
  watch : Bool := false
  withheld : Bool := false
  sums : Option (Nat × Nat × Nat) := none
  factor : Option Nat := none
  deriving DecidableEq, Repr

/-- The Locket unit (R317–R320): OWN_COMMITTED, OWN_SEALED, the committed and sealed copies of the nearest and the
second predecessor; the scale directory; what is staged for the seal. -/
structure Locket where
  ownCommitted : Mem := {}
  ownSealed : Mem := {}
  pred1Committed : Mem := {}
  pred1Sealed : Mem := {}
  pred2Committed : Mem := {}
  pred2Sealed : Mem := {}
  /-- Lengths of the six records in use, in the same order. -/
  lengths : List Nat := [0, 0, 0, 0, 0, 0]
  /-- The copied scale directory: 16-byte entries (R163). -/
  scaleDir : List Nat := []
  /-- Write and read exponents of the step by directory entry, fixed at its opening tick (R164). -/
  exps : List (Int × Int) := []
  /-- Maxima of this step by directory entry: 0 for a maximum of zero, else the exponent + 200 (R165). -/
  maxima : KMap Nat := []
  /-- Directory entries of the tensors that the step has written (R164). -/
  wrote : List Nat := []
  /-- The step whose tensors without history were counted last (R166). -/
  coldStep : Option Nat := none
  /-- Norm ledger entries staged by layer (R209). -/
  ledger : KMap Staged := []
  deriving DecidableEq, Repr

/-- A thread of a user context: the registers in which a call answers, and what it waits for in MBOX_RECV, the buffer and the
cycles left (R234); its program counter and its other registers (R220, R231). -/
structure Thread where
  a0 : BitVec 64 := 0
  a1 : BitVec 64 := 0
  waiting : Option (Nat × Nat) := none
  pc : BitVec 64 := 0
  x : KMap (BitVec 64) := []
  f : KMap (BitVec 64) := []
  v : KMap (BitVec 512) := []
  deriving DecidableEq, Repr

/-- A user context (R231–R238). Its state is object 0x6067. -/
structure UserCtx where
  /-- Receive queue, oldest first (R235). -/
  queue : List Nat := []
  /-- Grants of its list: base, length, writable; mappings: virtual address, grant. -/
  grants : List (Nat × Nat × Bool) := []
  maps : List (Nat × Nat) := []
  /-- Slot submissions: table, buffer, count, span, status (R238). -/
  slots : List (Nat × Nat × Nat × Nat × Nat) := []
  /-- Private memory by virtual address, and the entry point of its image (R231; log 51). -/
  priv : Mem := {}
  entry : Nat := 0
  /-- The loaded segments, and the pages of 4 KiB that private memory has taken beside them (R231, R233; log 51). -/
  segs : List (Nat × Nat) := []
  pages : List Nat := []
  /-- Threads by core (R231). -/
  threads : KMap Thread := []
  deriving DecidableEq, Repr

/-- A line of the L2 of a cluster: its number, the address by 64; its bytes; and whether HBM lacks them (R224, R226). -/
structure CoreLine where
  line : Nat
  data : List Byte
  dirty : Bool
  deriving DecidableEq, Repr

/-- A Thallus core (R220–R228, R350). -/
structure CoreState where
  tctx : Nat := 0
  /-- The privilege mode: 0 user, 1 supervisor, 3 machine (R220, R229; log 127). -/
  mode : Nat := 1
  /-- The program counter and the registers of what runs outside user contexts (R220). -/
  pc : BitVec 64 := 0
  x : KMap (BitVec 64) := []
  f : KMap (BitVec 64) := []
  v : KMap (BitVec 512) := []
  /-- CSRs that hold what is written to them, PMP entries, satp and event selectors among them (R220, R222). -/
  csrs : KMap (BitVec 64) := []
  /-- What `cycle` reads beyond the cycles of the cluster, the instructions retired, and the events counted by counter 3 to 6 (R222). -/
  cycleBase : Nat := 0
  retired : Nat := 0
  events : KMap Nat := []
  /-- The range that a load reserved (R227). -/
  reservation : Option (Nat × Nat) := none
  /-- Window accesses that wait for their bank: offset, length, and the bytes to write (R228). -/
  window : List (Nat × Nat × Option (List Byte)) := []
  /-- The last access raised an address-misaligned or an illegal-instruction exception (R221, R222). -/
  misaligned : Bool := false
  illegal : Bool := false
  /-- The watchdog register has been written since the last tick, and the ticks in a row it was not (R350). -/
  watchdog : Bool := true
  missed : Nat := 0
  accessFault : Bool := false
  /-- Reference cycles of the running quantum (R231). -/
  quantum : Nat := 0
  /-- Last data a board access returned. -/
  data : List Byte := []
  deriving DecidableEq, Repr

/-- A mailbox ring and its status register (R235). -/
structure Mailbox where
  ring : List Nat := []
  /-- Entries that have come in this cycle and are readable from the next, a POST first. -/
  landing : List Nat := []
  head : Nat := 0
  pushed : Bool := true
  overflow : Bool := false
  deriving DecidableEq, Repr

/-- The Thallus clusters (chapter 9). -/
structure Thallus where
  cores : KMap CoreState := []
  boxes : KMap Mailbox := []
  ctxs : KMap UserCtx := []
  /-- Operand-store windows by cluster · 4 + number (R228), PLIC sources by cluster (R230). -/
  windows : KMap Nat := []
  plic : KMap Nat := []
  /-- The PLIC's sources in service and those raised meanwhile by cluster, priorities by cluster · 16 + source, enables and thresholds
  by core · 2, one more in supervisor mode (R230). -/
  plicServing : KMap Nat := []
  plicHeld : KMap Nat := []
  plicPriority : KMap Nat := []
  plicEnable : KMap Nat := []
  plicThreshold : KMap Nat := []
  /-- The L1s by (core · 2, one more for instructions) · 128 + set, as line numbers, and the L2s by cluster · 8,192 + set (R224). -/
  l1 : KMap (List Nat) := []
  l2 : KMap (List CoreLine) := []
  /-- The cycles of each cluster's cores since its reset, and the part of one gained, in units of 1/1,250 (R222). -/
  cycles : KMap Nat := []
  phase : KMap Nat := []
  /-- Tables whose READY and ARMED bits the stitcher has set in this epoch, and a restart of the stitch that waits for the
  vote window (R135, R240). -/
  stitching : List Nat := []
  stitchAgain : Bool := false
  /-- STITCH_LATE was raised in this epoch (R138). -/
  late : Bool := false
  /-- Telemetry buffer, newest first (R46, R234). -/
  telemetry : List (List Nat) := []
  /-- Mailbox entries delivered to the firmware destinations 0 to 3, by die · 4 + destination, newest first (R235). -/
  agent : KMap (List Nat) := []
  deriving DecidableEq, Repr

/-- Power, thermal control and background work (chapter 14). -/
structure Power where
  /-- The rails are on; the input stage is latched off until the input is removed (R421). -/
  on : Bool := true
  latched : Bool := false
  /-- Rails their regulators turned off (R368), rails in droop, and rails in the 64 cycles after it (R382). -/
  railsOff : List Nat := []
  drooping : List Nat := []
  recovering : List (Nat × Nat) := []
  /-- The last hundred input samples in mW, newest first, and samples in a row with the mean over the cap (R369, R381). -/
  samples : List Nat := []
  overCap : Nat := 0
  /-- The frame's samples: input mW and rail mW summed, and their number; the same of the last 1,024 frames (R374). -/
  frameIn : Nat := 0
  frameRails : Nat := 0
  frameSamples : Nat := 0
  history : List (Nat × Nat) := []
  /-- Rail energy short of a whole mJ, in units of 10 pJ, by rail. -/
  energyRest : KMap Nat := []
  /-- The plan fixed for the next frame: Frond MHz, cluster MHz, stretch (R375). -/
  plan : Option (List Nat × List Nat × Nat) := none
  /-- Stretch of the last fixed plan, of the limiter in this frame, and of throttling; the throttled dies (R379–R383). -/
  lastStretch : Nat := 0
  limiter : Nat := 0
  thermal : Nat := 0
  throttled : List Nat := []
  /-- Learned power by domain · 256 + phase plus 1 (R376); the static table as written, 14 × 3 values (R377); static shares
  measured, by domain (R384). -/
  learned : KMap Nat := []
  static : List Nat := [435, 50, 40, 435, 50, 40, 435, 50, 40, 125, 30, 25, 125, 30, 25, 125, 30, 25, 230, 40, 12, 230, 40, 12,
    230, 40, 12, 20, 8, 4, 20, 8, 4, 20, 8, 4, 80, 30, 7, 10, 10, 0]
  shares : KMap Nat := []
  /-- Gain of the energy coefficients by rail, as numerator and denominator (R371). -/
  gains : KMap (Nat × Nat) := []
  /-- Ageing records: offsets raised in mV by Frond 0 to 2 and cluster 3 to 5, and current maximums that wait for START, by
  object key (R373). -/
  offsets : KMap Nat := []
  maxima : KMap Nat := []
  /-- REFCLK is back and the PLLs wait for a wait frame; cycles on the holdover oscillator short of a ms (R422). -/
  returning : Bool := false
  holdRest : Nat := 0
  deriving DecidableEq, Repr

/-- A Nagauk session (R397): in band or on CAN FD, its key, the role, the object, writing or reading, the value or buffer,
its total length, the SEQ expected, the previous answer, and the cycles since the last SEG. -/
structure Session where
  inBand : Bool
  key : Nat
  role : Role
  index : Nat
  sub : Nat
  writing : Bool
  data : List Byte
  total : Nat
  seq : Nat
  prev : Option (List Byte)
  idle : Nat
  deriving DecidableEq, Repr

/-- The dictionary server and its paths (R386–R399). -/
structure Server where
  sessions : List Session := []
  /-- Requests of the in-band ring, oldest first, at most 64: the ADDR field and the payload. -/
  ring : List (Nat × List Byte) := []
  /-- CAN FD frames sent, oldest first: identifier and payload. -/
  canOut : List (Nat × List Byte) := []
  busOff : Bool := false
  /-- The CAN rates in force (R392). -/
  rates : Nat × Nat := (3, 3)
  /-- A settings write in progress: the record it leaves in the settings area, none for Restore defaults; and the answer it
  owes: in band, identifier or ADDR, payload. -/
  saving : Option (Option (KMap Nat) × Option (Bool × Nat × List Byte)) := none
  /-- The persistent values in the settings area (R390), none where it holds no record. -/
  stored : Option (KMap Nat) := none
  deriving DecidableEq, Repr

/-- An image set that passed R403: the manifest's IMGVER, SVN and KEY; TYPE and SHA-256 of every image, the manifest first;
the keys a TYPE 0x07 image revokes; its bytes; and whether it has been committed. `made` marks the set of manufacture,
whose images the manual does not give (R434; log 5). -/
structure ImageSet where
  version : Nat
  svn : Nat
  key : Nat
  images : List (Nat × List Byte)
  revoke : Nat
  bytes : List Byte
  committed : Bool
  made : Bool
  deriving DecidableEq, Repr

/-- Boot flash, keys, update and security (chapter 15), straps and JTAG (chapter 16). -/
structure Security where
  /-- Image slots A and B, the two copies of the directory, each its generation, active slot and whether its CRC is valid (R401), and
  the slot whose set is in use. -/
  slotA : Option ImageSet := some { version := 0, svn := 0, key := 0, images := [], revoke := 0, bytes := [], committed := true, made := true }
  slotB : Option ImageSet := none
  directories : List (Nat × Nat × Bool) := [(0, 0, true), (0, 0, false)]
  inUse : Nat := 0
  recovery : Bool := false
  /-- The serial number's fuses (R434). -/
  serial : List Byte := [0x45, 0x36, 0x42, 0x31, 0x32, 0x34, 0x31, 0x39, 0x30, 0x30, 0x30, 0x30, 0x33, 0x31, 0x37, 0x30]
  /-- Measurement register, log newest first, and entries measured (R405). -/
  mreg : List Byte := List.replicate 32 0
  mlog : List (List Byte) := []
  mcount : Nat := 0
  /-- The quote, and bytes 0 to 255 of one that is forming (R408). -/
  quote : List Byte := []
  forming : Option (List Byte) := none
  /-- Image data staged over CAN FD, the bytes under VERIFY or INSTALL, the verified set, and whether INSTALL wrote the
  inactive slot (R411). -/
  stagedCan : List Byte := []
  checking : Option (List Byte) := none
  verified : Option ImageSet := none
  written : Bool := false
  /-- Activation: the next step of Table 15.12, the slot taken into use, and whether it is a REVERT (R412). -/
  activating : Option (Nat × Nat × Bool) := none
  /-- Units whose microcode is still to be switched (R412). -/
  loading : List Nat := []
  /-- Units that go back to their previous bank after a read-back mismatch (R413). -/
  returning : List Nat := []
  /-- Active microcode bank of each unit (Table 15.12), 0 at reset. -/
  microcode : KMap Nat := []
  /-- The images of the firmware region, by slot (R404, R412). -/
  firmware : Nat := 0
  /-- The slots whose calibration and frequency tables are in use, and of that whose tables are taken next (R412). -/
  calibration : Nat := 0
  frequency : Nat := 0
  tables : Nat := 0
  /-- Strap levels NODE6 to NODE0 and FACTORY_N at the pins (R425). -/
  straps : Nat := 0xFF
  /-- JTAG instruction of dies W, C, E, the data register each shifts out, and die C's boundary register (R427). -/
  jtag : List Nat := [1, 1, 1]
  shift : List Nat := [0xB0E60C51, 0xB0E61C51, 0xB0E62C51]
  boundary : BitVec 32 := 0
  deriving DecidableEq, Repr

/-- DOMAIN objects that have no home of their own: the contexts' table sets (R238), the group table (R313), the restore
record and what a failed restore check found (R332). -/
structure Domains where
  tableSets : KMap (List Byte) := []
  groupTable : List Byte := []
  restoreRecord : List Byte := []
  mismatch : List Byte := []
  deriving DecidableEq, Repr

/-- The module. -/
structure State where
  clock : Clock
  /-- Values of the dictionary objects by key, over the defaults of the object table. -/
  dict : KMap Nat
  units : KMap UnitState
  arrays : KMap ArrayRegs
  sorus : KMap Sorus
  filigrees : KMap Filigree
  program : Program
  faults : Faults
  mem : Memory
  traffic : Traffic
  fabric : Fabric
  commit : Commit
  locket : Locket
  thallus : Thallus
  power : Power
  server : Server
  security : Security
  domains : Domains
  /-- Draws of free values so far (log 2). -/
  freeCount : Nat
  /-- The commands that wait, first in first out. -/
  pending : List Instr
  deriving DecidableEq, Repr

/-- The reasons a step can stop with a fault: none, since every event of the module has an effect (log 8). -/
inductive Fault where
  /-- Raised by no command; it keeps the type inhabited. Safe. -/
  | never
  deriving DecidableEq, Repr

/-- The reasons a step can be refused. -/
inductive Refusal where
  /-- Raised by an arm of Dispatch.lean without a meaning. Safe. -/
  | notModelled (mnemonic : String)
  deriving DecidableEq, Repr

/-- The service cores and their contexts (Table 9.5), in supervisor mode. -/
def serviceCores : KMap CoreState :=
  [(0, 2), (1, 1), (8, 2), (9, 3), (10, 2), (11, 2), (12, 1), (16, 2), (17, 1)].map fun p => (p.1, { tctx := p.2 })

/-- The module right after power-up, ready for a program (R428; logs 3 to 6 name the values the manual does not give). -/
def State.reset : State where
  clock := {}
  dict := []
  units := []
  arrays := []
  sorus := []
  filigrees := []
  program := {}
  faults := {}
  mem := {}
  traffic := {}
  fabric := {}
  commit := {}
  locket := {}
  thallus := { cores := serviceCores }
  power := {}
  server := {}
  security := {}
  domains := {}
  freeCount := 0
  pending := []

end Sys2Proof.Machine
end

