-- ==== Sys2Proof/Machine/Ops.lean ====
section
/-! DEFINITION. The named operations on the state: memories, dictionary values, units, reports of faults, poison and
the Clasp. -/

namespace Sys2Proof.Machine

/-! ### Byte memories -/

/-- What an address that is not listed reads as: the free byte of the newest hole that covers it, else zero (R428). -/
def Mem.unlisted (m : Mem) (a : Nat) : Byte :=
  match m.holes.find? fun h => decide (h.1 ≤ a) && decide (a < h.1 + h.2.1) with
  | some h => Config.freeByte h.2.2 a
  | none => 0

/-- The byte at an address. -/
def Mem.read (m : Mem) (a : Nat) : Byte := kget (m.unlisted a) m.cells a

/-- Writes one byte and keeps the canonical form. -/
def Mem.write (m : Mem) (a : Nat) (b : Byte) : Mem :=
  { m with cells := if b = m.unlisted a then kdel a m.cells else kput a b m.cells }

/-- `n` bytes from an address. -/
def Mem.readN (m : Mem) (a : Nat) : Nat → List Byte
  | 0 => []
  | n + 1 => m.read a :: m.readN (a + 1) n

/-- Writes bytes from an address upward. -/
def Mem.writeN (m : Mem) (a : Nat) : List Byte → Mem
  | [] => m
  | b :: t => (m.write a b).writeN (a + 1) t

/-- Makes the contents of a region unspecified, under the draw numbered `epoch`. -/
def Mem.havoc (m : Mem) (base len epoch : Nat) : Mem :=
  { cells := m.cells.filter fun c => decide (c.1 < base) || decide (base + len ≤ c.1)
    holes := (base, len, epoch) :: m.holes }

/-- The canonical form: addresses strictly rising, no entry equal to what an unlisted address reads as. -/
def Mem.wf (m : Mem) : Bool := krising m.cells && m.cells.all fun c => decide (c.2 ≠ m.unlisted c.1)

/-- A number of `n` bytes from an address, least significant byte first (R4). -/
def Mem.readLE (m : Mem) (a n : Nat) : Nat := leNat (m.readN a n)

/-- Every byte memory of the machine is in canonical form. -/
def Memory.wf (m : Memory) : Bool := m.hbm.wf && m.ops.all Mem.wf

/-! ### Numbers in lists -/

/-- Puts a number into a strictly rising list. -/
def insertNat (n : Nat) : List Nat → List Nat
  | [] => [n]
  | a :: t => if n < a then n :: a :: t else if n = a then a :: t else a :: insertNat n t

/-- Puts a pair into a list ordered by both parts. -/
def insertPair (p : Nat × Nat) : List (Nat × Nat) → List (Nat × Nat)
  | [] => [p]
  | a :: t => if p.1 < a.1 ∨ (p.1 = a.1 ∧ p.2 < a.2) then p :: a :: t else if p = a then a :: t else a :: insertPair p t

/-! ### Dictionary values -/

/-- The value of a dictionary object. -/
def State.get (s : State) (index sub : Nat) : Nat := kget (objDefault (objKey index sub)) s.dict (objKey index sub)

/-- Sets the value of a dictionary object. -/
def State.put (s : State) (index sub v : Nat) : State :=
  { s with dict := kset (objDefault (objKey index sub)) s.dict (objKey index sub) v }

/-- The largest value of an object, by its type. -/
def objLimit (index sub : Nat) : Nat := 256 ^ typeLen ((objRow index sub).map (·.type) |>.getD 5)

/-- A counter that has gained: at its end it takes the free value (log 2). -/
def counted (key limit total : Nat) : Nat := if total < limit then total else Config.freeCounter key total % limit

/-- Adds to a counter object. -/
def State.count (s : State) (index sub n : Nat) : State :=
  s.put index sub (counted (objKey index sub) (objLimit index sub) (s.get index sub + n))

/-- Adds one to a counter object if `c`. -/
def State.countIf (s : State) (c : Bool) (index sub : Nat) : State := if c then s.count index sub 1 else s

/-- Draws the next free value (log 2). -/
def State.draw (s : State) : BitVec 64 × State := (Config.freeBits s.freeCount, { s with freeCount := s.freeCount + 1 })

/-- An access in which an error that a counter object counts may occur (log 102). -/
def State.chance (s : State) (index sub : Nat) : State :=
  let key := objKey index sub
  { s with mem := { s.mem with chances := kset 0 s.mem.chances key (kget 0 s.mem.chances key + 1) } }

/-- The errors that such a counter has counted since the last module reset: each access has one or not (log 102). -/
def State.errors (s : State) (index sub : Nat) : Nat :=
  let key := objKey index sub
  let first := kget 0 s.mem.chancesBefore key
  ((span first (kget 0 s.mem.chances key - first)).filter (Config.freeErrors key)).length

/-! ### Named values of the dictionary -/

/-- The frame length in force (R31). -/
def State.flen (s : State) : Nat := s.get 0x6001 1

/-- Program status: 0 idle, 1 running, 2 waiting for commit, 0x80 refused. -/
def State.status (s : State) : Nat := s.get 0x6010 3

/-- A program runs. -/
def State.running (s : State) : Bool := s.status == 1 || s.status == 2

/-- The commit state of R325: 0 IDLE … 7 HALTED. -/
def State.commitState (s : State) : Nat := s.get 0x8020 2

/-- A training program runs. -/
def State.training (s : State) : Bool := s.running && s.program.kind == 1

/-- The step counter of the Locket (R160): STEP of OWN_COMMITTED. -/
def State.stepCount (s : State) : Nat := s.locket.ownCommitted.readLE 24 8

/-- The run seed of the Locket (R160). -/
def State.seed (s : State) : Nat := s.locket.ownCommitted.readLE 32 8

/-- The module's id and slice tag (R281). -/
def State.moduleId (s : State) : Nat := s.get 0x5001 1

/-- Maintenance mode (R409) and factory test mode (R410). -/
def State.maintenance (s : State) : Bool := s.get 0x9001 1 == 1

def State.factory (s : State) : Bool := s.get 0xA006 2 == 1

/-- Frond d has role forward, backward or inference (Table 1.4). -/
def State.role (s : State) (d : Nat) : Nat := s.get 0x6020 (d + 1)

/-! ### Units -/

/-- The record of a unit. -/
def State.unit (s : State) (u : Nat) : UnitState := kget {} s.units u

/-- Sets the record of a unit. -/
def State.setUnit (s : State) (u : Nat) (x : UnitState) : State := { s with units := kset {} s.units u x }

/-- The lanes and buffers of the Sorus of a die. -/
def State.engine (s : State) (d : Nat) : Sorus := kget {} s.sorus d

/-- The weight registers of an array. -/
def State.array (s : State) (u : Nat) : ArrayRegs := kget {} s.arrays u

def State.setSorus (s : State) (d : Nat) (x : Sorus) : State := { s with sorus := kset {} s.sorus d x }

def State.setArray (s : State) (u : Nat) (x : ArrayRegs) : State := { s with arrays := kset {} s.arrays u x }

/-- The registers of a Filigree, by die. -/
def State.filigree (s : State) (d : Nat) : Filigree := kget {} s.filigrees d

def State.setFiligree (s : State) (d : Nat) (x : Filigree) : State := { s with filigrees := kset {} s.filigrees d x }

/-- A port of the fabric: 0 to 15 Blukor, 16 Stavlink. -/
def State.port (s : State) (p : Nat) : Port := kget {} s.fabric.ports p

def State.setPort (s : State) (p : Nat) (x : Port) : State :=
  { s with fabric := { s.fabric with ports := kset {} s.fabric.ports p x } }

/-- A Thallus core. -/
def State.core (s : State) (c : Nat) : CoreState := kget {} s.thallus.cores c

def State.setCore (s : State) (c : Nat) (x : CoreState) : State :=
  { s with thallus := { s.thallus with cores := kset {} s.thallus.cores c x } }

/-- A mailbox ring, by die. -/
def State.box (s : State) (d : Nat) : Mailbox := kget {} s.thallus.boxes d

def State.setBox (s : State) (d : Nat) (x : Mailbox) : State :=
  { s with thallus := { s.thallus with boxes := kset {} s.thallus.boxes d x } }

/-- A user context. -/
def State.uctx (s : State) (c : Nat) : UserCtx := kget {} s.thallus.ctxs c

def State.setUctx (s : State) (c : Nat) (x : UserCtx) : State :=
  { s with thallus := { s.thallus with ctxs := kset {} s.thallus.ctxs c x } }

/-- The die of a unit (Table 1.2) or of the source code of a core or an operand store (Table 13.6); module-wide units count as die C. -/
def unitDie (u : Nat) : Nat :=
  if 0x10 ≤ u ∧ u ≤ 0x32 then u % 8
  else if 0x40 ≤ u ∧ u ≤ 0x4B then (u - 0x40) / 4
  else if 0x50 ≤ u ∧ u ≤ 0x55 then 0
  else if 0x5A ≤ u ∧ u ≤ 0x5F then 2
  else if 0x70 ≤ u ∧ u ≤ 0x72 then u - 0x70
  else if 0x84 ≤ u ∧ u ≤ 0x86 then u - 0x84
  else if 0x88 ≤ u ∧ u ≤ 0x9F then (u - 0x88) / 8
  else 1

/-- The unit counts Frond cycles (Table 1.2). -/
def frondUnit (u : Nat) : Bool := decide (0x10 ≤ u ∧ u ≤ 0x32)

/-- The id names a unit of Table 1.2. -/
def validUnit (u : Nat) : Bool :=
  u == 0 || [0x10, 0x11, 0x12, 0x18, 0x19, 0x1A, 0x20, 0x21, 0x22, 0x28, 0x29, 0x2A, 0x30, 0x31, 0x32].contains u ||
  decide (0x40 ≤ u ∧ u ≤ 0x4B) || decide (0x50 ≤ u ∧ u ≤ 0x60) || decide (0x70 ≤ u ∧ u ≤ 0x72) ||
  u == 0x78 || u == 0x7C || u == 0x7F

/-- The unit ids of Table 1.2, ascending. -/
def unitIds : List Nat := (List.range 128).filter validUnit

/-- The class bit of a unit (R56). -/
def unitClass (u : Nat) : Nat :=
  if u = 0 then 0 else if u < 0x20 then 1 else if u < 0x28 then 2 else if u < 0x30 then 3 else if u < 0x38 then 4
  else if u < 0x50 then 5 else if u < 0x60 then 6 else if u = 0x60 then 7 else if u < 0x78 then 8 else if u = 0x78 then 9
  else if u = 0x7C then 10 else 11

/-- The array subindex of Table 3.5. -/
def arraySub (u : Nat) : Nat := if u < 0x18 then u - 0x10 + 1 else u - 0x18 + 4

/-- Does `f` to the record of a unit. -/
def State.onUnit (s : State) (u : Nat) (f : UnitState → UnitState) : State := s.setUnit u (f (s.unit u))

/-- The unit has work that R44 waits for. -/
def State.busy (s : State) (u : Nat) : Bool := (s.unit u).work.isSome

/-- The unit has work unfinished for R45 and R61: work or a drain tail. -/
def State.unfinished (s : State) (u : Nat) : Bool := (s.unit u).work.isSome || !(s.unit u).tails.isEmpty

/-- Of the blocks of a unit's transfer that are not in a bridge, the cycles each still takes; one that waits or is at its slice takes
the latency of the transfer's first block at the most (R61, R252; log 106). -/
def State.blockTimes (s : State) (u latency : Nat) : List Nat :=
  ((s.traffic.requests.flatMap fun q => q.2.filter fun r => r.packet.own && r.packet.unit == u).map fun _ => latency) ++
  ((s.traffic.admitted.filter fun r => r.2.packet.own && r.2.packet.unit == u).map fun _ => latency) ++
  (s.traffic.transit.filter fun p => p.2.own && p.2.unit == u).map fun p => p.1

/-- The cycles a work still has. Those of a transfer follow from R252; one that has only bytes in a bridge left has none (R61). -/
def State.workLeft (s : State) (u : Nat) (w : Work) : Nat :=
  let blocks := fun (issued : Nat) =>
    if issued < w.jobs then w.head + cdiv (512 * (w.jobs - issued)) 1792 else (s.blockTimes u w.head).foldl max 0
  match w.load with
  | .moving issued _ _ _ _ => blocks issued
  | .gathering issued _ => blocks issued
  | _ => w.left.getD 0 + w.tail

/-- The cycles of work a unit still has, a phase with the tail that follows it. -/
def State.remaining (s : State) (u : Nat) : Nat :=
  (((s.unit u).work.toList.map fun w => s.workLeft u w) ++ (s.unit u).tails.map fun w => s.workLeft u w).foldl max 0

/-! ### Reports -/

/-- A report at a stamp, on its way to the collector: 48 cycles from another die, none from die C (R16, R25). -/
def State.raiseAt (s : State) (frame cycle code source die ctx detail : Nat) : State :=
  let r : Report := { code, source, die, ctx, frame, cycle, detail, halt := false, replay := s.faults.replay.isSome }
  { s with faults := { s.faults with inFlight := s.faults.inFlight ++ [(if die = 1 then 0 else 48, r)] } }

/-- A report of an event that lies `delay` cycles ahead, at most in the next frame. -/
def State.raiseIn (s : State) (delay code source die ctx detail : Nat) : State :=
  let at_ := s.clock.cycle + delay
  let over_ := decide (s.flen ≤ at_)
  let cyc := if over_ then at_ - s.flen else at_
  let r : Report :=
    { code, source, die, ctx, frame := s.clock.frame + b2n over_, cycle := cyc, detail, halt := false,
      replay := s.faults.replay.isSome }
  { s with faults := { s.faults with inFlight := s.faults.inFlight ++ [(delay + if die = 1 then 0 else 48, r)] } }

/-- A report stamped now (R19). -/
def State.raise (s : State) (code source die ctx detail : Nat) : State :=
  s.raiseAt s.clock.frame s.clock.cycle code source die ctx detail

/-- A report stamped at the last cycle of the frame that a tick ends (R61). -/
def State.raiseTick (s : State) (code source die ctx detail : Nat) : State :=
  s.raiseAt s.clock.frame (s.flen - 1) code source die ctx detail

/-- The detail of BUNDLE_INVALID (Table 13.7); `unit` 0xFF for a header. -/
def bundleDetail (i : Issue) (atUnit : Bool) : Nat :=
  match i.tbl with
  | none => packFields [(16, i.seq), (3, i.slot), (1, b2n atUnit), (8, i.unit)]
  | some t => packFields [(16, i.seq), (3, i.slot), (1, b2n atUnit), (8, i.unit), (1, 1), (8, t.table), (1, b2n t.slotB),
      (16, t.callSeq)]

/-- BUNDLE_INVALID at the unit (R60); it is not raised while the member is ABORTING or REVERTED (R343). -/
def State.invalid (s : State) (i : Issue) : State :=
  if s.commitState = 4 ∨ s.commitState = 5 then s else s.raise 0x303 i.unit (unitDie i.unit) i.ctx (bundleDetail i true)

/-! ### Poison -/

/-- The granules (die, number) a range of an operand store touches. -/
def granules (d off len : Nat) : List (Nat × Nat) :=
  if len = 0 then [] else (span (off / 512) ((off + len - 1) / 512 + 1 - off / 512)).map fun g => (d, g)

/-- The blocks of HBM a range touches. -/
def blocks (a len : Nat) : List Nat := if len = 0 then [] else span (a / 512) ((a + len - 1) / 512 + 1 - a / 512)

/-- Some granule of the range is poisoned. -/
def State.opPoisoned (s : State) (d off len : Nat) : Bool := (granules d off len).any s.mem.opPoison.contains

/-- Some block of the range is poisoned. -/
def State.hbmPoisoned (s : State) (a len : Nat) : Bool := (blocks a len).any s.mem.poison.contains

/-- Marks granules as poisoned. -/
def State.poisonOp (s : State) (d off len : Nat) : State :=
  { s with mem := { s.mem with opPoison := (granules d off len).foldl (fun l g => insertPair g l) s.mem.opPoison } }

/-- Marks blocks of HBM as poisoned. -/
def State.poisonHbm (s : State) (a len : Nat) : State :=
  { s with mem := { s.mem with poison := (blocks a len).foldl (fun l b => insertNat b l) s.mem.poison } }

/-! ### Operand stores -/

/-- An operand store. -/
def State.opStore (s : State) (d : Nat) : Mem := s.mem.ops.getD d {}

/-- Bytes of an operand store. -/
def State.opRead (s : State) (d off n : Nat) : List Byte := (s.opStore d).readN off n

/-- Writes bytes to an operand store. Data that is not poisoned clears the mark of every granule it covers whole;
poisoned data marks every granule it touches (R257). -/
def State.opWrite (s : State) (d off : Nat) (bytes : List Byte) (poisoned : Bool) : State :=
  let s := { s with mem := { s.mem with ops := s.mem.ops.set d ((s.opStore d).writeN off bytes) } }
  if poisoned then s.poisonOp d off bytes.length
  else { s with mem := { s.mem with opPoison := s.mem.opPoison.filter fun g =>
    !(g.1 == d && decide (off ≤ g.2 * 512) && decide (g.2 * 512 + 512 ≤ off + bytes.length)) } }

/-! ### HBM and the Clasp -/

/-- Stack of a local address, and its offset there (R245). -/
def stackOf (a : Nat) : Nat := a / 2 ^ 37

def stackOffset (a : Nat) : Nat := a % 2 ^ 37

/-- Bytes of a stack. -/
def stackBytes : Nat := 96000000000

/-- The range lies in populated memory of one stack (R245, R252). -/
def populated (a len : Nat) : Bool :=
  decide (stackOf a < 12) && decide (stackOffset a + len ≤ stackBytes)

/-- The range touches a reserved region (Table 10.2). -/
def reservedRange (a len : Nat) : Bool :=
  let k := stackOf a
  let last := stackOffset a + len
  ((k == 3 || k == 7 || k == 11) && decide (88000000000 < last)) || (k == 4 && decide (92000000000 < last))

/-- The range lies wholly in the program area of one stack (R249). -/
def programArea (a len : Nat) : Bool := populated a len && !reservedRange a len

/-- The die of a local address. -/
def addressDie (a : Nat) : Nat := stackOf a / 4

/-- Bytes of HBM as every unit reads them through the Clasp (R258). -/
def State.hbmRead (s : State) (a n : Nat) : List Byte := s.mem.hbm.readN a n

/-- A number in HBM. -/
def State.hbmLE (s : State) (a n : Nat) : Nat := leNat (s.hbmRead a n)

/-- The CRC of a block's 512 bytes (R253). -/
def State.blockCrc (s : State) (b : Nat) : Nat := (crc32c (s.hbmRead (b * 512) 512)).toNat

/-- Writes bytes to what units read of HBM: a whole block of data that is not poisoned clears the mark, poisoned data sets it
(R257). -/
def State.hbmWrite (s : State) (a : Nat) (bytes : List Byte) (poisoned : Bool) : State :=
  let covered := fun (b : Nat) => decide (a ≤ b * 512) && decide (b * 512 + 512 ≤ a + bytes.length)
  let s := { s with mem := { s.mem with hbm := s.mem.hbm.writeN a bytes } }
  if poisoned then s.poisonHbm a bytes.length
  else { s with mem := { s.mem with poison := s.mem.poison.filter fun b => !covered b } }

/-- The lines of a stack's slice. -/
def State.slice (s : State) (k : Nat) : List Line := kget [] s.mem.lines k

def State.setSlice (s : State) (k : Nat) (l : List Line) : State :=
  { s with mem := { s.mem with lines := kset [] s.mem.lines k l } }

/-- The rank in which a line of a full set is replaced: clean ordinary, dirty ordinary, counted; a protected line is
never evicted (R261). -/
def Line.rank (l : Line) : Nat :=
  if l.protect then 3 else if l.uses.isSome then 2 else if l.dirty then 1 else 0

/-- The line of a set that goes first. -/
def victim (set : List Line) : Option Line :=
  (set.filter fun l => !l.protect).foldl (fun (best : Option Line) (l : Line) =>
    match best with
    | none => some l
    | some b => if l.rank < b.rank ∨ (l.rank = b.rank ∧ l.age < b.age) then some l else some b) none

/-- The lines of the set of block `b` of a stack (R258). -/
def claspSet (b : Nat) (l : List Line) : List Line := l.filter fun x => x.block % 2 ^ 28 % 1536 == b % 2 ^ 28 % 1536

/-- The lines with a new line in its set, and the line evicted for it (R261). -/
def allocate (n : Line) (l : List Line) : List Line × Option Line :=
  let set := claspSet n.block l
  if set.length < 16 then (n :: l, none)
  else match victim set with
    | some v => (n :: l.filter fun x => x.block != v.block, some v)
    | none => (l, none)

/-- The block is written whole to HBM, with a CRC formed over what it holds (R254, R260). -/
def State.mend (s : State) (b : Nat) : State :=
  { s with mem := { s.mem with flawed := s.mem.flawed.filter fun f => f.1 != b } }

/-- A line joins a slice; a dirty line that it evicts is written to HBM (R258, R261). -/
def State.addLine (s : State) (k : Nat) (l : Line) : State :=
  let r := allocate l (s.slice k)
  let s := s.setSlice k r.1
  match r.2 with
  | some v => if v.dirty then s.mend v.block else s
  | none => s

/-- The line of a block takes the place of the one its slice holds. -/
def State.putLine (s : State) (k : Nat) (l : Line) : State :=
  s.setSlice k (l :: (s.slice k).filter fun x => x.block != l.block)

/-- The block lies in the retention region, which is written through (R259, Table 10.2). -/
def retention (b : Nat) : Bool := b / 2 ^ 28 == 4 && decide (95000000000 ≤ b % 2 ^ 28 * 512)

/-- An access that hits line `l` of a slice: Table 10.8 by hint, R261 for protection. -/
def State.claspHit (s : State) (k hint uses : Nat) (wr full : Bool) (l : Line) : State :=
  if hint = 2 then
    let l := if wr then { l with uses := none } else l
    if l.protect || (!wr && l.uses.isSome) then s.putLine k l
    else if full then (s.putLine k l).count 0x4024 (k + 1) 1 else s.putLine k { l with protect := true, uses := none }
  else if hint = 3 then
    if wr then s.putLine k { l with uses := some uses, protect := false }
    else match l.uses with
      | some n =>
        if n ≤ 1 then
          let b := l.block
          let s := (s.setSlice k ((s.slice k).filter fun x => x.block != b)).count 0x401A (k + 1) 1
          { s with
            mem := { s.mem with hbm := s.mem.hbm.havoc (b * 512) 512 s.freeCount }
            freeCount := s.freeCount + 1 }
        else s.putLine k { l with uses := some (n - 1) }
      | none => s.putLine k l
  else if wr then s.putLine k { l with uses := none, protect := if hint = 1 then false else l.protect }
  else s.putLine k { l with protect := if hint = 1 then false else l.protect }

/-- An access that misses; `line` is what it would allocate (Table 10.8). -/
def State.claspMiss (s : State) (k hint uses : Nat) (wr full : Bool) (line : Line) : State :=
  let s := if wr && (hint == 1 || !line.dirty) then s.mend line.block else s
  if hint = 1 then s
  else if hint = 2 then
    if full then (s.addLine k line).count 0x4024 (k + 1) 1 else s.addLine k { line with protect := true }
  else if hint = 3 then (if wr then s.addLine k { line with uses := some uses } else s)
  else s.addLine k line

/-- An access of one block through the slice of its stack, under a hint of Table 10.8; `wr` for a write, `uses` for
DROP-AFTER-LAST. It moves lines and counters; the data is the coherent content of HBM. -/
def State.clasp (s : State) (b hint uses : Nat) (wr : Bool) : State :=
  let k := b / 2 ^ 28
  let lines := s.slice k
  let age := s.mem.age + 1
  let crc := s.blockCrc b
  let back := wr && !retention b
  let full := decide (12 ≤ ((claspSet b lines).filter fun (x : Line) => x.protect).length)
  let s := { s with mem := { s.mem with age := age } }
  match lines.find? fun l => l.block == b with
  | some l =>
    let s := s.count 0x4018 (k + 1) 1
    let l := { l with age := age }
    let l := if back then { l with dirty := true, oldCrc := if l.dirty then l.oldCrc else crc } else l
    (if wr && retention b then s.mend b else s).claspHit k hint uses wr full l
  | none =>
    let line : Line := { block := b, protect := false, uses := none, dirty := back, oldCrc := crc, age := age }
    (s.count 0x4019 (k + 1) 1).claspMiss k hint uses wr full line

/-- Accesses of every block of a range. -/
def State.claspRange (s : State) (a len hint uses : Nat) (wr : Bool) : State :=
  (blocks a len).foldl (fun s b => s.clasp b hint uses wr) s

/-! ### Thallus interrupts -/

/-- Raises a PLIC source of a cluster; one in service waits for its completion (R230; log 129). -/
def State.plic (s : State) (d source : Nat) : State :=
  let t := s.thallus
  { s with thallus :=
      if bit (kget 0 t.plicServing d) source then { t with plicHeld := kset 0 t.plicHeld d (kget 0 t.plicHeld d ||| 2 ^ source) }
      else { t with plic := kset 0 t.plic d (kget 0 t.plic d ||| 2 ^ source) } }

/-- Raises a PLIC source of all clusters. -/
def State.plicAll (s : State) (source : Nat) : State := ((s.plic 0 source).plic 1 source).plic 2 source

end Sys2Proof.Machine
end

