-- ==== Sys2Proof/Machine/Operands.lean ====
section
/-! DEFINITION. The operands of stream commands: the descriptor directory, every descriptor's fields, and what a
descriptor itself fixes as legal (R47–R52, R65, R104, R127, R145, R181–R186, R195, R249, R252, R291–R293, R436). -/

namespace Sys2Proof.Machine

/-! ### Addresses (R50) -/

/-- The field holds an operand-store offset: bit 63 set, [62:27] zero, a multiple of 512. -/
def isOpAddr (a : Nat) : Bool := bit a 63 && bits a 62 27 == 0 && a % 512 == 0

/-- The field holds a local HBM address, a multiple of 512 (R252). -/
def isHbmAddr (a : Nat) : Bool := a / 2 ^ 41 == 0 && a % 512 == 0

/-- The field holds a board address, a multiple of 512. -/
def isBoardAddr (a : Nat) : Bool := bits a 63 62 == 1 && bits a 61 45 == 0 && a % 512 == 0

/-- A field that may hold a local HBM address or an operand-store address, with its unused bits zero (R50). -/
def isLocalAddr (a : Nat) : Bool := if bit a 63 then isOpAddr a else a / 2 ^ 41 == 0

/-- The offset of an operand-store address. -/
def opOffset (a : Nat) : Nat := a % 2 ^ 27

/-- Bytes of `n` elements of a format. -/
def fmtBytes (fmt n : Nat) : Nat := cdiv (n * fmtBits fmt) 8

/-- A range of `len` bytes at an offset lies in the operand store (R436). -/
def inStore (off len : Nat) : Bool := decide (off + len ≤ 2 ^ 27)

/-! ### The directory (R49) -/

/-- The descriptor directory entry's table address. -/
def State.dirBase (s : State) (e : Nat) : Nat := s.hbmLE (s.program.descDir + 16 * e) 8

/-- The descriptor directory entry's count. -/
def State.dirCount (s : State) (e : Nat) : Nat := s.hbmLE (s.program.descDir + 16 * e + 8) 4

/-- The reserved bytes of a directory entry are zero, and an entry of no kind has no descriptors. -/
def State.dirOk (s : State) (e : Nat) : Bool :=
  s.hbmLE (s.program.descDir + 16 * e + 12) 4 == 0 && (decide (e < 7) || s.dirCount e == 0)

/-- Every entry of the descriptor directory is legal. -/
def State.dirsOk (s : State) : Bool := (List.range 16).all s.dirOk

/-- Descriptor `i` of entry `e`, 512 bits. -/
def State.desc (s : State) (e i : Nat) : Nat := s.hbmLE (s.dirBase e + 64 * i) 64

/-- The descriptor a command's argument names, as the fetcher read it (R39, R47). -/
def State.descOf (s : State) (i : Issue) : Nat :=
  match i.held with
  | d :: _ => d
  | [] => s.desc (bits i.arg.toNat 27 24) (bits i.arg.toNat 23 0)

/-- The argument names an entry of the kind and a descriptor within it, whose header is of that kind and layout. -/
def State.refOk (s : State) (i : Issue) (e : Nat) : Bool :=
  let a := i.arg.toNat
  bits a 31 28 == 0 && bits a 27 24 == e && decide (bits a 23 0 < s.dirCount e) &&
  bits (s.descOf i) 7 0 == e + 1 && bits (s.descOf i) 15 8 == 1

/-! ### Tile descriptors (Table 2.7, R90, R115, R148, R161, R176, R181, R185) -/

/-- The fields of a tile descriptor. -/
structure Tile where
  d : Nat
  tensor : Nat
  wsrc : Nat
  asrc : Nat
  dst : Nat
  m : Nat
  k : Nat
  n : Nat
  wfmt : Nat
  afmt : Nat
  ofmt : Nat
  apitch : Nat
  ksIndex : Nat
  ksCount : Nat
  sorus : Bool
  wt : Bool
  at_ : Bool
  acc : Bool
  maskOut : Bool
  maskIn : Bool
  gather : Bool
  scatter : Bool
  spill : Nat
  otensor : Nat
  route : Nat
  sidx : Nat
  expert : Nat
  pairOut : Bool
  sampled : Bool
  drawIx : Nat
  defer : Bool
  toKern : Bool
  origin : Nat
  /-- The route descriptor that the fetcher read with the tile (R39). -/
  routed : Option Nat := none
  deriving DecidableEq, Repr

/-- Reads a tile descriptor. -/
def tileOf (d : Nat) : Tile where
  d := d
  tensor := bits d 63 32
  wsrc := bits d 127 64
  asrc := bits d 191 128
  dst := bits d 255 192
  m := bits d 279 256
  expert := bits d 287 280
  k := bits d 303 288
  n := bits d 319 304
  wfmt := bits d 323 320
  afmt := bits d 327 324
  ofmt := bits d 331 328
  apitch := bits d 335 332
  ksIndex := bits d 339 336
  ksCount := bits d 343 340
  sorus := bit d 344
  wt := bit d 345
  at_ := bit d 346
  acc := bit d 347
  maskOut := bit d 348
  maskIn := bit d 349
  gather := bit d 350
  scatter := bit d 351
  spill := bits d 359 352
  otensor := bits d 415 384
  route := bits d 447 416
  sidx := bits d 479 448
  pairOut := bit d 16
  sampled := bit d 17
  drawIx := bits d 25 18
  defer := bit d 26
  toKern := bit d 27
  origin := bits d 511 480

/-- The tile a command names. -/
def State.tile (s : State) (i : Issue) : Tile := { tileOf (s.descOf i) with routed := i.held[1]? }

/-- The stored row length of the activation operand, and its pitch (R181). -/
def Tile.rowLen (t : Tile) : Nat := if t.at_ then t.m else t.k

def Tile.pitch (t : Tile) : Nat := if t.apitch = 0 then t.rowLen else 2 ^ (t.apitch + 5)

/-- Route descriptor fields (Table 5.5). -/
structure Route where
  tensor : Nat
  logits : Nat
  table : Nat
  tok : Nat
  experts : Nat
  k : Nat
  lfmt : Nat
  cap : Nat
  spillCap : Nat
  policy : Bool
  gate : Nat
  final : Bool
  tsize : Nat
  deriving DecidableEq, Repr

/-- Reads a route descriptor: T and E are stored minus one. -/
def routeOf (d : Nat) : Route where
  tensor := bits d 63 32
  logits := bits d 127 64
  table := bits d 191 128
  tok := bits d 207 192 + 1
  experts := bits d 215 208 + 1
  k := bits d 219 216
  lfmt := bits d 223 220
  cap := bits d 239 224
  spillCap := bits d 255 240
  policy := bit d 256
  gate := bits d 258 257
  final := bit d 259
  tsize := bits d 319 288

/-- Bytes of the slot lists and where the token table starts (R147). -/
def Route.tokenTable (r : Route) : Nat := roundUp (64 + 4 * (r.experts * (r.cap + r.spillCap))) 64

/-- Bytes a route buffer needs (R147). -/
def Route.size (r : Route) : Nat := r.tokenTable + 8 * (r.tok * r.k)

/-- What a route descriptor fixes as legal (R145, R436). The manual gives K 1 to 8 and C + S at least 1. -/
def routeOk (d : Nat) : Bool :=
  let r := routeOf d
  bits d 31 16 == 0 && bits d 287 260 == 0 && bits d 511 320 == 0 &&
  decide (1 ≤ r.k ∧ r.k ≤ 8 ∧ r.k ≤ r.experts) && decide (r.lfmt ≤ 1) && r.gate != 3 &&
  decide (1 ≤ r.cap + r.spillCap) && decide (r.size ≤ r.tsize) && r.tsize % 512 == 0 &&
  isOpAddr r.logits && isOpAddr r.table &&
  inStore (opOffset r.logits) (2 * r.tok * r.experts) && inStore (opOffset r.table) (2 * r.tsize)

/-- The route a gathering or scattering tile names. -/
def State.tileRoute (s : State) (t : Tile) : Route := routeOf (t.routed.getD (s.desc 5 t.route))

/-- Rows of the activation region: 2T rows under GATHER (R147, R436). -/
def State.actRows (s : State) (t : Tile) : Nat := if t.gather then 2 * (s.tileRoute t).tok else t.m

/-- Elements from the first to the last activation element (R436). -/
def State.actSpan (s : State) (t : Tile) : Nat :=
  if t.at_ then (t.k - 1) * t.pitch + t.m else (s.actRows t - 1) * t.pitch + t.k

/-- Rows of the output region: 2T rows under SCATTER. -/
def State.outRows (s : State) (t : Tile) : Nat := if t.scatter then 2 * (s.tileRoute t).tok else t.m

/-- Bytes of one output plane, and where the plane after it starts: the lo plane of R90, or the mask plane of R143. -/
def State.outBytes (s : State) (t : Tile) : Nat := fmtBytes t.ofmt (s.outRows t * t.n)

def State.loPlane (s : State) (t : Tile) : Nat := opOffset t.dst + roundUp (2 * (s.outRows t * t.n)) 512

/-- Where the E8M0 scales of a plane of E2M1 elements lie: at the first 512-byte boundary after the elements
(DESIGN CHOICE, log 7: the manual gives them no place). -/
def scalePlane (off elems : Nat) : Nat := roundUp (off + fmtBytes 4 elems) 512

/-- Bytes of the scale plane of `rows` rows of `cols` E2M1 elements. -/
def scaleBytes (rows cols : Nat) : Nat := rows * cdiv cols 32

/-- Where a plane of `elems` elements of a format ends, the scale plane of `rows` rows of `cols` of them included. -/
def planeEnd (off fmt elems rows cols : Nat) : Nat :=
  if fmt = 4 then scalePlane off elems + scaleBytes rows cols else off + fmtBytes fmt elems

/-- The first 512-byte boundary after the last output plane (R143). -/
def State.maskOutPlane (s : State) (t : Tile) : Nat :=
  if t.pairOut then roundUp (s.loPlane t + 2 * (s.outRows t * t.n)) 512
  else roundUp (planeEnd (opOffset t.dst) t.ofmt (s.outRows t * t.n) (s.outRows t) t.n) 512

/-- Bytes of a mask plane of `g` row groups and `c` column blocks (R143). -/
def maskBytes (g c : Nat) : Nat := roundUp (16 + cdiv (g * c) 8) 512

/-- Where the mask plane lies that MASK_IN reads: at the first 512-byte boundary after the M × K activation elements, their scales
included (R144; log 7). -/
def Tile.maskInPlane (t : Tile) : Nat := roundUp (planeEnd (opOffset t.asrc) t.afmt (t.m * t.k) t.m t.k) 512

/-- The operand-store ranges a tile fixes lie in the store, those of E2M1 elements with their scales (R436; log 7). -/
def State.tileRanges (s : State) (t : Tile) : Bool :=
  let holds := fun (off fmt elems rows cols : Nat) => decide (planeEnd off fmt elems rows cols ≤ 2 ^ 27)
  holds (opOffset t.asrc) t.afmt (s.actSpan t) (s.actRows t) t.k &&
  (if t.sampled then holds (opOffset t.wsrc) t.afmt (t.m * t.n) t.m t.n
   else (t.sorus || holds (opOffset t.wsrc) t.wfmt (t.k * t.n) (cdiv t.k 32) (32 * t.n)) &&
     holds (opOffset t.dst) t.ofmt (s.outRows t * t.n) (s.outRows t) t.n && (!t.pairOut || inStore (s.loPlane t) (2 * (s.outRows t * t.n))) &&
     (!t.maskOut || inStore (s.maskOutPlane t) (maskBytes (cdiv t.m 32) (cdiv t.n 32)))) &&
  (!t.maskIn || inStore t.maskInPlane (maskBytes (cdiv t.m 32) (cdiv t.k 32)))

/-- What a tile descriptor fixes as legal for either engine (R65, R90, R104, R144, R148, R181, R185). -/
def State.tileOk (s : State) (t : Tile) : Bool :=
  let routed := t.gather || t.scatter
  bits t.d 31 28 == 0 && bits t.d 367 366 == 0 && isOpAddr t.wsrc && isOpAddr t.asrc && isOpAddr t.dst &&
  decide (t.wfmt ≤ 4 ∧ t.afmt ≤ 4 ∧ t.ofmt ≤ 4) && decide (t.apitch ≤ 10) && decide (t.rowLen ≤ t.pitch) &&
  (t.spill == 0 || decide (2 ≤ t.spill ∧ t.spill ≤ 16)) &&
  (!t.pairOut || t.ofmt == 0) && (!t.toKern || (t.ofmt == 0 && !t.pairOut && !t.maskOut && !t.scatter)) &&
  !(t.maskIn && (t.gather || t.at_)) && !(t.maskOut && t.scatter) && !(t.at_ && t.afmt == 4) &&
  (if routed then
     let r := s.tileRoute t
     decide (t.route < s.dirCount 5) && bits (s.desc 5 t.route) 15 0 == 0x106 && routeOk (s.desc 5 t.route) &&
     decide (t.expert < r.experts) && t.m == r.cap + r.spillCap
   else t.route == 0 && t.expert == 0) &&
  s.tileRanges t

/-- A tile of the dense arrays (R65, R66, R72, R182). -/
def State.denseOk (s : State) (t : Tile) : Bool :=
  s.tileOk t && !t.sorus && !t.sampled && decide (1 ≤ t.k ∧ t.k ≤ 512 ∧ 1 ≤ t.n ∧ t.n ≤ 512) && t.sidx == 0 &&
  !((t.wfmt == 4 || t.afmt == 4) && t.k % 32 != 0)

/-- A tile of the Sorus (R104, R115). -/
def State.sparseOk (s : State) (t : Tile) : Bool :=
  s.tileOk t && t.sorus && t.k % 32 == 0 && t.n % 32 == 0 && decide (32 ≤ t.k ∧ t.k ≤ 8192 ∧ 32 ≤ t.n ∧ t.n ≤ 8192) &&
  !t.at_ && t.ksCount == 0 && !(t.sampled && t.wt) && t.sidx % 512 == 0 && decide (t.sidx < 2 ^ 27)

/-! ### Transfer descriptors (Table 2.9, R161, R251, R315) -/

/-- The fields of a transfer descriptor. -/
structure Transfer where
  d : Nat
  flags : Nat
  tensor : Nat
  src : Nat
  dst : Nat
  blocks : Nat
  cls : Nat
  redop : Nat
  gfcoef : Nat
  hint : Nat
  peer : Nat
  bmask : Nat
  origin : Nat
  coefTab : Nat
  sfmt : Nat
  hdr : Bool
  uses : Nat
  dsrc : Nat
  dblocks : Nat
  tag : Nat
  deriving DecidableEq, Repr

/-- Reads a transfer descriptor. -/
def transferOf (d : Nat) : Transfer where
  d := d
  flags := bits d 31 16
  tensor := bits d 63 32
  src := bits d 127 64
  dst := bits d 191 128
  blocks := bits d 223 192
  cls := bits d 231 224
  redop := bits d 239 232
  gfcoef := bits d 247 240
  hint := bits d 249 248
  peer := bits d 267 256
  tag := bits d 283 268
  bmask := bits d 319 288
  origin := bits d 351 320
  coefTab := bits d 423 360
  sfmt := bits d 19 16
  hdr := bit d 20
  uses := bits d 31 24
  dsrc := bits d 487 424
  dblocks := bits d 511 488

/-- The transfer a command names. -/
def State.transfer (s : State) (i : Issue) : Transfer := transferOf (s.descOf i)

/-- The width in bits of the stored element of a reduction, 0 for byte operations (Table 10.9). -/
def redWidth (op : Nat) : Nat := if op = 4 then 32 else if op = 6 ∨ op = 7 then 8 else 16

/-- The stored bytes at DST of a transfer's BLOCKS (R252). -/
def Transfer.storedBytes (x : Transfer) : Nat :=
  if (x.redop = 1 ∨ x.redop = 2) ∧ !x.hdr then x.blocks * 512 * 16 / fmtBits x.sfmt else x.blocks * 512

/-- The protection class of a tensor, by the tensor descriptors of entry 0 (R249, R307). -/
def State.tensorDesc (s : State) (tensor : Nat) : Option Nat :=
  ((List.range (s.dirCount 0)).map fun j => s.desc 0 j).find? fun d => bits d 63 32 == tensor

def State.pclass (s : State) (tensor : Nat) : Nat := ((s.tensorDesc tensor).map fun d => bits d 207 200).getD 0

/-- The reduction fields agree (R252). -/
def Transfer.redOk (x : Transfer) : Bool :=
  decide (x.redop ≤ 7) && decide (x.cls ≤ 5) && (x.redop == 7 || x.gfcoef == 0) &&
  (if (x.redop = 1 ∨ x.redop = 2) ∧ !x.hdr then decide (x.sfmt ≤ 3) else x.sfmt == 0) &&
  (if x.redop = 7 ∧ x.gfcoef = 0 then x.coefTab != 0 && isHbmAddr x.coefTab && populated x.coefTab 4096 else x.coefTab == 0)

/-- What a memory-controller transfer fixes as legal (R252, R436): `op` 1 READ, 2 WRITE, 3 COPY, 4 REDUCE. -/
def State.mcOk (s : State) (u op dur : Nat) (x : Transfer) : Bool :=
  let hbmSide := fun (a len : Nat) => isHbmAddr a && populated a len
  let writes := op != 1
  bits x.d 23 21 == 0 && bits x.d 287 284 == 0 && x.bmask == 0 && x.blocks != 0 && bits x.d 255 250 == 0 && x.redOk &&
  (op != 1 || x.redop == 0) && bits x.d 511 424 == 0 &&
  !(writes && x.hint == 3 && (x.uses == 0 || s.pclass x.tensor != 0)) && (writes && x.hint == 3 || x.uses == 0) &&
  (match op with
   | 1 => hbmSide x.src (x.blocks * 512) && isOpAddr x.dst && inStore (opOffset x.dst) (x.blocks * 512)
   | 2 => isOpAddr x.src && inStore (opOffset x.src) (x.blocks * 512) && hbmSide x.dst x.storedBytes
   | 3 => hbmSide x.src (x.blocks * 512) &&
       (hbmSide x.dst x.storedBytes || (isBoardAddr x.dst && populated (x.dst % 2 ^ 41) x.storedBytes))
   | _ => x.src == 0 && dur != 0 && hbmSide x.dst x.storedBytes && stackOf x.dst == u - 0x40)

/-! ### Kernel descriptors (Table 7.4) -/

/-- The fields of a kernel descriptor; rows and columns are stored minus one. -/
structure Kernel where
  d : Nat
  tensor : Nat
  code : Nat
  ofmt : Nat
  ifmt : Nat
  feed : Nat
  acc2 : Bool
  clear : Bool
  pairIn : Bool
  rows : Nat
  cols : Nat
  rowA : Nat
  rowB : Nat
  col0 : Nat
  drawIx : Nat
  src0 : Nat
  src1 : Nat
  src2 : Nat
  src3 : Nat
  dst : Nat
  dst2 : Nat
  p0 : Nat
  p1 : Nat
  tensor2 : Nat
  origin : Nat
  deriving DecidableEq, Repr

/-- Reads a kernel descriptor. -/
def kernelOf (d : Nat) : Kernel where
  d := d
  tensor := bits d 63 32
  code := bits d 71 64
  ofmt := bits d 75 72
  ifmt := bits d 79 76
  feed := bits d 82 80
  acc2 := bit d 83
  clear := bit d 84
  pairIn := bit d 85
  rows := bits d 111 96 + 1
  cols := bits d 127 112 + 1
  rowA := bits d 143 128
  rowB := bits d 159 144
  col0 := bits d 175 160
  drawIx := bits d 183 176
  src0 := bits d 223 192
  src1 := bits d 255 224
  src2 := bits d 287 256
  src3 := bits d 319 288
  dst := bits d 351 320
  dst2 := bits d 383 352
  p0 := bits d 399 384
  p1 := bits d 415 400
  tensor2 := bits d 447 416
  origin := bits d 479 448

/-- The kernel a command names. -/
def State.kernel (s : State) (i : Issue) : Kernel := kernelOf (s.descOf i)

/-- Lane-ops per element of a kernel code, none for a code that is not defined (Table 7.5, R212). -/
def kernelOps (code : Nat) : Option Nat :=
  match code with
  | 0x01 => some 2 | 0x02 => some 3 | 0x03 => some 5 | 0x04 => some 4 | 0x05 => some 4 | 0x06 => some 4 | 0x07 => some 2
  | 0x08 => some 3 | 0x09 => some 3 | 0x0A => some 2 | 0x0B => some 3 | 0x0C => some 1 | 0x0D => some 3
  | 0x40 => some 3 | 0x41 => some 2 | _ => none

/-- A code fed by drains (Table 7.5). -/
def kernelFed (code : Nat) : Bool := [0x01, 0x03, 0x05, 0x08, 0x09].contains code

/-- Where the lo plane of a kernel's split-word pair of `rows` by `cols` lies (R186). -/
def pairLo (off rows cols : Nat) : Nat := off + roundUp (2 * (rows * cols)) 512

/-- Rows of the plane of DST and of full-width operands: row r lies at r − ROWA, and array B's rows start at ROWB. -/
def Kernel.span (k : Kernel) : Nat := if bit k.feed 1 then max k.rowA k.rowB + k.rows - k.rowA else k.rows

/-- Bytes of the planes a kernel's code names: SRC0, SRC1, SRC2, SRC3, DST, DST2, 0 where the operand takes no address
(Table 7.5, R186). -/
def Kernel.planes (k : Kernel) : List Nat :=
  let rows := k.span
  let f := rows * k.cols
  let full := 2 * f
  let pair := fun (r c : Nat) => pairLo 0 r c + 2 * (r * c)
  let src0 := if k.pairIn then pair rows k.cols else fmtBytes k.ifmt f
  let word := fun (r c : Nat) => if k.pairIn then pair r c else 2 * (r * c)
  let pairRow := pair rows 1
  let out := fmtBytes k.ofmt f
  match k.code with
  | 0x01 => [0, 0, 0, 0, full, 0]
  | 0x02 => [src0, 0, word 1 k.cols, 0, out, 2 * rows]
  | 0x03 => [src0, word rows 1, word 1 k.cols, 0, full, 0]
  | 0x04 => [src0, word rows 1, 0, full, out, 2 * k.cols]
  | 0x05 => [0, 0, word rows k.cols, 0, full, 0]
  | 0x06 => [src0, 0, 0, 0, out, pairRow]
  | 0x07 => [src0, word rows k.cols, 0, 0, 0, 0]
  | 0x08 => [0, pairRow, word rows k.cols, 0, full, 0]
  | 0x09 => [src0, 0, 0, 0, out, 0]
  | 0x0A => [src0, 0, 0, 0, pair rows k.cols, 0]
  | 0x0B => [src0, word rows k.cols, word rows k.cols, 0, out, 0]
  | 0x0C => [src0, word rows k.cols, 0, 0, out, 0]
  | 0x0D => [src0, word rows k.cols, word rows k.cols, 0, out, out]
  | _ => [0, 0, 0, 0, 0, 0]

/-- Operands that may be given as 0 (SRC2 bias, DST2 of NORM_BWD_B and of the row statistics). -/
def Kernel.optional (k : Kernel) (j : Nat) : Bool :=
  (j == 2 && (k.code == 0x05 || k.code == 0x08)) || (j == 5 && (k.code == 0x02 || k.code == 0x04 || k.code == 0x06))

/-- What a kernel descriptor of Table 7.5 fixes as legal (R186, R436). -/
def kernelOk (d : Nat) : Bool :=
  let k := kernelOf d
  let addrs := [k.src0, k.src1, k.src2, k.src3, k.dst, k.dst2]
  bits d 31 16 == 0 && bits d 95 86 == 0 && bits d 191 184 == 0 && bits d 511 480 == 0 &&
  (kernelOps k.code).isSome && decide (k.code < 0x40) &&
  !(bit k.feed 2 && (bit k.feed 0 || bit k.feed 1)) && (kernelFed k.code == (k.feed != 0)) &&
  decide (k.rowA + k.rows ≤ 65536 ∧ k.rowB + k.rows ≤ 65536) && decide (k.ifmt ≤ 3 ∧ k.ofmt ≤ 3) &&
  (!([0x01, 0x03, 0x05, 0x08, 0x0A].contains k.code) || k.ofmt == 0) &&
  (List.zip (List.range 6) (List.zip addrs k.planes)).all fun p =>
    if p.2.2 = 0 then p.2.1 == 0
    else (p.2.1 == 0 && k.optional p.1) ||
      (p.2.1 % 512 == 0 && decide (p.2.1 < 2 ^ 27) && inStore p.2.1 p.2.2)

/-! ### Mask-op descriptors (Table 5.1) -/

/-- The fields of a mask-op descriptor. -/
structure MaskOp where
  tensor : Nat
  op : Nat
  newPat : Nat
  ksel : Nat
  thresh : Nat
  sample : Nat
  period : Nat
  maxPresent : Nat
  tile : Nat
  ccount : Nat
  scores : Nat
  cand : Nat
  out : Nat
  /-- The tile descriptor that the fetcher read with the mask-op, and the route descriptor that the tile names (R39). -/
  held : List Nat := []
  deriving DecidableEq, Repr

/-- Reads a mask-op descriptor. -/
def maskOpOf (d : Nat) : MaskOp where
  tensor := bits d 63 32
  op := bits d 71 64
  newPat := bits d 73 72
  ksel := bits d 95 80
  thresh := bits d 111 96
  sample := bits d 114 112
  period := bits d 159 128
  maxPresent := bits d 183 160
  tile := bits d 215 192
  ccount := bits d 255 224
  scores := bits d 319 256
  cand := bits d 383 320
  out := bits d 447 384

/-- The mask-op a command names, and its tile. -/
def State.maskOp (s : State) (i : Issue) : MaskOp := { maskOpOf (s.descOf i) with held := i.held.drop 1 }

def State.maskTile (s : State) (p : MaskOp) : Tile := { tileOf (p.held.headD (s.desc 1 p.tile)) with routed := p.held[1]? }

/-- What a mask-op descriptor fixes as legal for a command: PRUNE takes OP 1 to 3, REGROW 4 and 5, SCORE 6; its tile is one of the
Sorus (R104, R127). -/
def State.maskOpOk (s : State) (lo hi : Nat) (i : Issue) : Bool :=
  let d := s.descOf i
  let p := s.maskOp i
  bits d 31 16 == 0 && bits d 79 74 == 0 && bits d 127 115 == 0 && bits d 191 184 == 0 && bits d 223 216 == 0 &&
  bits d 511 448 == 0 && decide (lo ≤ p.op ∧ p.op ≤ hi) && p.period != 0 && p.newPat != 0 && decide (p.ccount ≤ 65536) &&
  isLocalAddr p.scores && isLocalAddr p.cand && isLocalAddr p.out &&
  decide (p.tile < s.dirCount 1) && bits (s.maskTile p).d 15 0 == 0x102 && s.sparseOk (s.maskTile p)

/-- The first-step stream is the step's (R38). -/
def State.firstStream (s : State) : Bool := s.program.kind == 1 && s.stepCount == 0 && s.program.firstBase != 0

/-- What an exchange kernel's descriptor fixes as legal (R212): PACK 0x40 and PACKP 0x41. -/
def State.packOk (s : State) (d : Nat) : Bool :=
  let k := kernelOf d
  let n := k.rows * k.cols
  (k.code == 0x40 || k.code == 0x41) && bits d 31 16 == 0 && bits d 95 86 == 0 && bits d 191 184 == 0 &&
  bits d 511 480 == 0 && k.feed == 0 && k.ifmt == 0 && k.src1 == 0 && k.src2 == 0 && k.src3 == 0 && k.dst2 == 0 &&
  k.p0 == 0 && k.p1 == 0 && k.tensor2 == 0 && k.drawIx == 0 && !k.acc2 && !k.clear && !k.pairIn &&
  decide (k.rowA + k.rows ≤ 65536) &&
  (if k.code = 0x40 then k.ofmt == 3 && decide (n ≤ s.get 0x7040 1 * 2 ^ 20)
   else (k.ofmt == 1 || (k.ofmt == 0 && s.firstStream)) && inStore k.dst (512 + roundUp (2 * n) 512)) &&
  k.src0 % 512 == 0 && k.dst % 512 == 0 && inStore k.src0 (2 * n) && decide (k.dst < 2 ^ 27)

/-! ### Port transfers (R291–R293, R315) -/

/-- The multicast group entry in place `j` of group `g` of the active bank (R292). -/
def State.bank (s : State) : Bank := if s.get 0x5012 2 = 0 then s.fabric.bank0 else s.fabric.bank1

def State.groupEntry (s : State) (g j : Nat) : Nat := kget 0xFFFF s.bank.groups (g * 16 + j)

/-- The used places of a group other than the module itself, ascending by module id: id and ROLE. -/
def State.groupMembers (s : State) (g : Nat) : List (Nat × Nat) :=
  let used := ((List.range 16).map (s.groupEntry g)).filter fun e => e % 4096 != 0xFFF && e % 4096 != s.moduleId
  (used.foldl (fun l e => insertPair (e % 4096, bits e 13 12) l) [])

/-- A side of a port transfer: a local HBM range, or a range of the operand store. -/
def portSide (a len : Nat) : Bool :=
  if bit a 63 then isOpAddr a && inStore (opOffset a) len else isHbmAddr a && populated a len

/-- The reserved fields of a port transfer, and its length (R291). -/
def Transfer.portOk (x : Transfer) : Bool :=
  bits x.d 23 21 == 0 && bits x.d 287 284 == 0 && bits x.d 255 250 == 0 && x.redOk && decide (x.blocks ≤ 2097152) &&
  isLocalAddr x.src && isLocalAddr x.dst && x.bmask % 512 == 0 && decide (x.bmask < 2 ^ 27)

/-- SEND of a port or of Stavlink. -/
def sendOk (x : Transfer) : Bool :=
  x.portOk && x.blocks != 0 && portSide x.src (x.blocks * 512) && x.dsrc == 0 && x.dblocks == 0 &&
  decide (x.tag < 2 ^ 16)

/-- RECV of a port or of Stavlink. -/
def recvOk (x : Transfer) : Bool :=
  x.portOk && x.blocks != 0 && portSide x.dst (if x.hdr then 0 else x.storedBytes) && x.dsrc == 0 && x.dblocks == 0 &&
  !(x.redop != 0 && bit x.dst 63) && !(x.hint == 3 && x.uses == 0)

/-- BCAST (R292, R315). -/
def State.bcastOk (s : State) (x : Transfer) : Bool :=
  let g := x.peer % 256
  x.portOk && bits x.peer 11 8 == 0 && !(s.groupMembers g).isEmpty && (s.groupMembers g).all (fun m => m.2 != 3) &&
  (x.blocks != 0 || x.dsrc != 0) && (x.blocks == 0 || portSide x.src (x.blocks * 512)) &&
  (if x.dsrc = 0 then x.dblocks == 0 else isHbmAddr x.dsrc && x.dblocks != 0 && populated x.dsrc (x.dblocks * 512))

/-! ### Layer descriptors (Tables 8.1 to 8.3) -/

/-- The fields of a layer descriptor. -/
structure Layer where
  d : Nat
  tensor : Nat
  layer : Nat
  part : Nat
  parts : Nat
  mode : Nat
  watch : Bool
  priv : Bool
  plen : Nat
  prog : Nat
  lblk : Nat
  row0 : Nat
  rows : Nat
  mrows : Nat
  ncols : Nat
  rprev : Nat
  rnew : Nat
  cprev : Nat
  cnew : Nat
  b1c : Nat
  b2c : Nat
  eps : Nat
  clip : Nat
  deriving DecidableEq, Repr

/-- Reads a layer descriptor; PARTS is stored minus one. -/
def layerOf (d : Nat) : Layer where
  d := d
  tensor := bits d 63 32
  layer := bits d 95 64
  part := bits d 103 96
  parts := bits d 111 104 + 1
  mode := bits d 113 112
  watch := bit d 114
  priv := bit d 115
  plen := bits d 127 120
  prog := bits d 159 128
  lblk := bits d 191 160
  row0 := bits d 223 192
  rows := bits d 255 224
  mrows := bits d 287 256
  ncols := bits d 319 288
  rprev := bits d 351 320
  rnew := bits d 383 352
  cprev := bits d 415 384
  cnew := bits d 447 416
  b1c := bits d 463 448
  b2c := bits d 479 464
  eps := bits d 495 480
  clip := bits d 511 496

/-- The layer a command names. -/
def State.layer (s : State) (i : Issue) : Layer := layerOf (s.descOf i)

/-- An E8M7 parameter that is neither negative nor an infinity nor a NaN. -/
def plainParam (c : Nat) : Bool := decide (c < 0x7F80)

/-- A factor vector, if named, lies in the store. -/
def vectorOk (off n : Nat) : Bool := off == 0 || (off % 512 == 0 && inStore off (2 * n))

/-- What a layer descriptor fixes as legal (R195, R196, R436). -/
def layerOk (d : Nat) : Bool :=
  let y := layerOf d
  bits d 31 16 == 0 && bits d 119 116 == 0 && decide (y.part < y.parts) && decide (1 ≤ y.plen ∧ y.plen ≤ 64) &&
  y.ncols != 0 && y.mrows != 0 && decide (y.row0 + y.rows ≤ y.mrows) &&
  plainParam y.b1c && plainParam y.b2c && plainParam y.eps && plainParam y.clip &&
  inStore y.prog (4 * y.plen) && y.lblk % 64 == 0 && inStore y.lblk 256 &&
  vectorOk y.rprev y.mrows && vectorOk y.rnew y.mrows && vectorOk y.cprev y.ncols && vectorOk y.cnew y.ncols

/-! ### Schedule tables (R52, R53) -/

/-- A schedule-table directory entry, 256 bits. -/
def State.tableEntry (s : State) (t : Nat) : Nat := s.hbmLE (s.program.tableDir + 32 * t) 32

/-- The active slot is B. -/
def tableActive (e : Nat) : Bool := bit e 224

/-- Base, count and span of the active slot. -/
def tableSlot (e : Nat) : Nat × Nat × Nat :=
  if tableActive e then (bits e 127 64, bits e 159 144, bits e 211 192)
  else (bits e 63 0, bits e 143 128, bits e 179 160)

/-- The reserved fields of an entry are zero. -/
def tableReserved (e : Nat) : Bool := bits e 191 180 == 0 && bits e 223 212 == 0 && bits e 255 228 == 0

/-! ### What a command itself fixes as legal -/

/-- A write of a tensor other than an UPDATE or a parity landing meets no protected tensor (R309). -/
def State.mayWrite (s : State) (tensor : Nat) : Bool := s.pclass tensor != 1 && s.pclass tensor != 5

/-- The descriptors that the fetcher reads for a command (R39): the one it names; the route descriptor that a tile names; the tile
of a mask operation. -/
def State.heldDescs (s : State) (op : Nat) (i : Issue) : List Nat :=
  let d := s.desc (bits i.arg.toNat 27 24) (bits i.arg.toNat 23 0)
  let route := fun (t : Tile) => if t.gather || t.scatter then [s.desc 5 t.route] else []
  match unitClass i.unit, op with
  | 1, 1 | 2, 1 | 3, 1 | 3, 2 => d :: route (tileOf d)
  | 2, 2 | 4, 3 | 4, 4 =>
    let t := s.desc 1 (maskOpOf d).tile
    d :: t :: route (tileOf t)
  | 4, 1 | 4, 2 | 4, 5 | 5, 1 | 5, 2 | 5, 3 | 5, 4 | 6, 1 | 6, 2 | 6, 3 | 7, 1 | 7, 2 => [d]
  | _, _ => []

/-- Unit, opcode, argument, duration and descriptor are legal at issue cycle `c` (R46–R48, R53, R57, R60). Bits of an argument to
which Table 2.5 gives no use are zero (DESIGN CHOICE, log 109). -/
def State.opOk (s : State) (op : Nat) (i : Issue) (c : Nat) : Bool :=
  let u := i.unit
  let a := i.arg.toNat
  let dur0 := i.dur == 0
  match unitClass u, op with
  | 0, 0 => u == 0 && a == 0
  | 0, 1 => u == 0 && dur0 && decide (a < 0xFF) && tableReserved (s.tableEntry a) &&
      (tableSlot (s.tableEntry a)).2.1 != 0 && decide (c + (tableSlot (s.tableEntry a)).2.2 ≤ s.flen)
  | 0, 2 => u == 0 && dur0 && decide (a ≤ 1) && s.program.kind == 1 && !s.program.pointStep
  | 0, 3 => u == 0 && dur0 && a == 0
  | 0, 4 => u == 0
  | 1, 0 => a == 0
  | 1, 1 => s.refOk i 1 && s.denseOk (s.tile i) && s.mayWrite (s.tile i).otensor
  | 1, 2 => a == 0
  | 2, 0 => a == 0
  | 2, 1 => s.refOk i 1 && s.sparseOk (s.tile i) && s.mayWrite (s.tile i).otensor
  | 2, 2 => s.refOk i 6 && s.maskOpOk 6 6 i
  | 2, 3 => a == 0
  | 3, 0 => a == 0
  | 3, 1 => s.refOk i 1 && s.denseOk (s.tile i) && !(s.tile i).wt
  | 3, 2 => s.refOk i 1 && s.denseOk (s.tile i) && (s.tile i).wt && (s.tile i).wfmt != 4
  | 3, 3 => dur0 && a == 0
  | 4, 0 => a == 0
  | 4, 1 => s.refOk i 3 && (kernelOk (s.descOf i) || s.packOk (s.descOf i)) && s.mayWrite (s.kernel i).tensor
  | 4, 2 => s.refOk i 4 && layerOk (s.descOf i)
  | 4, 3 => s.refOk i 6 && s.maskOpOk 1 3 i
  | 4, 4 => s.refOk i 6 && s.maskOpOk 4 5 i
  | 4, 5 => s.refOk i 5 && routeOk (s.descOf i)
  | 5, 0 => a == 0
  | 5, 1 => s.refOk i 2 && s.mcOk u 1 i.dur (s.transfer i)
  | 5, 2 => s.refOk i 2 && s.mcOk u 2 i.dur (s.transfer i) && s.mayWrite (s.transfer i).tensor
  | 5, 3 => s.refOk i 2 && s.mcOk u 3 i.dur (s.transfer i) && s.mayWrite (s.transfer i).tensor
  | 5, 4 => s.refOk i 2 && s.mcOk u 4 i.dur (s.transfer i) && s.mayWrite (s.transfer i).tensor
  | 6, 0 => a == 0
  | 6, 1 => s.refOk i 2 && sendOk (s.transfer i)
  | 6, 2 => s.refOk i 2 && recvOk (s.transfer i) && (s.pclass (s.transfer i).tensor != 1) &&
      (s.pclass (s.transfer i).tensor != 5 || ((s.transfer i).cls == 2 && (s.transfer i).redop == 7))
  | 6, 3 => s.refOk i 2 && s.bcastOk (s.transfer i)
  | 7, 0 => a == 0
  | 7, 1 => s.refOk i 2 && sendOk (s.transfer i)
  | 7, 2 => s.refOk i 2 && recvOk (s.transfer i) && s.mayWrite (s.transfer i).tensor
  | 8, 1 => dur0
  | 9, 1 => u == 0x78 && dur0 && a == 0
  | 10, 1 => u == 0x7C && decide (a < 256)
  | 10, 2 => u == 0x7C && dur0 && bits a 31 24 == 0 && decide (0x10 ≤ bits a 23 16 ∧ bits a 23 16 ≤ 0x12) &&
      decide (1250 ≤ bits a 15 0 ∧ bits a 15 0 ≤ s.get 0x2005 (bits a 23 16 - 0x10 + 4))
  | 11, 1 => u == 0x7F && dur0 && decide (1 ≤ a ∧ a ≤ 7)
  | _, _ => false

/-- The context may command the unit's class (R56); context 2 is the background table's, called by frame control. -/
def State.permitted (s : State) (i : Issue) : Bool := bit (s.get 0x6030 (i.ctx + 1)) (unitClass i.unit)

/-- The command is legal as far as the stream and the directories fix it (R60). -/
def State.fixedOk (s : State) (op : Nat) (i : Issue) (c : Nat) : Bool :=
  validUnit i.unit && s.permitted i && s.opOk op i c

/-! ### Poison that a unit reads (R257) -/

/-- The tensor that a range of HBM belongs to by the tensor descriptors. -/
def State.tensorAt (s : State) (a : Nat) : Option Nat :=
  (((List.range (s.dirCount 0)).map fun j => s.desc 0 j).find? fun d =>
    decide (bits d 127 64 ≤ a) && decide (a < bits d 127 64 + bits d 191 128)).map fun d => bits d 63 32

/-- The tensor id that a report gives beside an address: that of the running program's tensor that holds it, else 0xFFFF_FFFF
(Table 13.7; log 74). -/
def State.tensorField (s : State) (a : Nat) : Nat :=
  if s.running && decide (a < 2 ^ 41) then (s.tensorAt a).getD 0xFFFFFFFF else 0xFFFFFFFF

/-- POISON_CONSUMED at a unit's first read of a poisoned block in a frame (R257): counted in object 0x4014 when a
memory controller reads. -/
def State.consume (s : State) (u ctx address : Nat) : State :=
  if s.mem.consumed.contains u then s
  else
    let s := { s with mem := { s.mem with consumed := insertNat u s.mem.consumed } }
    let s := s.raise 0x203 u (unitDie u) ctx (packFields [(64, address), (32, s.tensorField address)])
    if 0x40 ≤ u ∧ u ≤ 0x4B then s.count 0x4014 (u - 0x40 + 1) 1 else s

/-- An injected double-bit error lies in what the unit reads next (R364). -/
def State.struck (s : State) (u : Nat) : Bool := s.faults.corrupt.contains (0x202, u)

/-- The unit meets the double-bit error at an address: SRAM_UNCORRECTABLE (R256). -/
def State.strike (s : State) (u ctx address : Nat) : State :=
  ({ s with faults := { s.faults with corrupt := s.faults.corrupt.erase (0x202, u) } }).raise 0x202 u (unitDie u) ctx
    (packFields [(64, address), (32, s.tensorField address)])

/-- An injected double-bit error lies in what the unit reads next of its operand store. -/
def State.struckAt (s : State) (u : Nat) : Bool := s.struck u || s.struck (0x84 + unitDie u)

/-- A unit reads a granule of its die's operand store: a single-bit error in it is corrected and counted, a double-bit error
poisons it (R256). The report's source is the unit, or the store where the error was injected there (Table 13.6). -/
def State.strikeOp (s : State) (u ctx address : Nat) : State :=
  let s := s.chance 0x4015 (unitDie u + 1)
  let v := if s.struck u then u else 0x84 + unitDie u
  if s.struck v then (s.strike v ctx address).poisonOp (unitDie u) (opOffset address) 1 else s

/-- A slice of the Clasp reads a line: a single-bit error in it is corrected and counted, a double-bit error poisons it
(R256). -/
def State.strikeLine (s : State) (b ctx : Nat) : State :=
  let u := 0x40 + b / 2 ^ 28
  let s := s.chance 0x4015 (unitDie u + 1)
  if s.struck u then (s.strike u ctx (b * 512)).poisonHbm (b * 512) 512 else s

end Sys2Proof.Machine
end

