-- ==== Sys2Proof/Machine/Flags.lean ====
section
/-! DEFINITION. What an operation leaves in counters and status: freeze debt and slip (R83, R84, R117), saturations and
non-finite results (R156), the maxima of the delayed scales (R165), and the FAULT pair (R348). -/

namespace Sys2Proof.Machine

/-- The base object of a unit's freeze counters, planned, unplanned and slip following one another, and its subindex:
arrays Table 3.5, Sorus Table 4.8. -/
def freezeObject (u : Nat) : Option (Nat × Nat) :=
  match unitClass u with
  | 1 => some (0x6042, arraySub u)
  | 2 => some (0x6048, u - 0x20 + 1)
  | _ => none

/-- Counts planned freeze cycles of an array or a Sorus. -/
def State.planned (s : State) (u n : Nat) : State :=
  match freezeObject u with
  | some (o, sub) => s.count o sub n
  | none => s

/-- Counts unplanned freeze cycles, which are freeze debt. -/
def State.unplanned (s : State) (u n : Nat) : State :=
  match freezeObject u with
  | some (o, sub) => (s.count (o + 1) sub n).onUnit u fun x => { x with debt := x.debt + n }
  | none => s

/-- Counts slip cycles, which are freeze debt. -/
def State.slip (s : State) (u n : Nat) : State :=
  match freezeObject u with
  | some (o, sub) => (s.count (o + 2) sub n).onUnit u fun x => { x with debt := x.debt + n }
  | none => s

/-- Closes the debt of a frame: last and highest (R84, R117). -/
def State.closeDebt (s : State) (u : Nat) : State :=
  match freezeObject u with
  | some (o, sub) =>
    let n := min (s.unit u).debt (2 ^ 32 - 1)
    let s := s.put (o + 3) sub n
    let s := s.put (o + 4) sub (max n (s.get (o + 4) sub))
    s.onUnit u fun x => { x with debt := 0 }
  | none => s

/-- Counts what conversions into storage found, on the die whose unit wrote (R156). -/
def State.stored (s : State) (d : Nat) (l : List Stored) : State :=
  let sat := (l.filter (·.sat)).length
  let nf := (l.filter (·.nonfinite)).length
  let s := if sat = 0 then s else s.count 0x7031 (d + 1) sat
  if nf = 0 then s else s.count 0x7032 (d + 1) nf

/-- The place of a tensor in the scale directory (R163). -/
def State.scaleIndex (s : State) (tensor : Nat) : Option Nat :=
  s.locket.scaleDir.findIdx? fun e => e % 2 ^ 32 == tensor

/-- The read exponent that applies to an element of a format of a tensor (R164, R167). -/
def readExp (exps : List (Int × Int)) (ix : Option Nat) (fmt : Nat) : Int :=
  if fmt = 1 ∨ fmt = 2 ∨ fmt = 3 then (match ix with | some i => (exps.getD i (0, 0)).2 | none => 0) else 0

/-- The write exponent that applies. -/
def writeExp (exps : List (Int × Int)) (ix : Option Nat) (fmt : Nat) : Int :=
  if fmt = 1 ∨ fmt = 2 ∨ fmt = 3 then (match ix with | some i => (exps.getD i (0, 0)).1 | none => 0) else 0

/-- A step writes a tensor that the scale directory lists (R164). -/
def State.noteWritten (s : State) (tensor : Nat) : State :=
  match s.scaleIndex tensor with
  | some ix =>
    if s.locket.wrote.contains ix then s else { s with locket := { s.locket with wrote := insertNat ix s.locket.wrote } }
  | none => s

/-- Reports the maximum of the values rounded into a tensor to the Locket unit (R165): the exponent of its ceiling power
of two plus 200, or 1 for a maximum of zero; non-finite values are left out and counted. -/
def State.reportMax (s : State) (tensor : Nat) (vs : List Num) : State :=
  match s.scaleIndex tensor with
  | none => s
  | some ix =>
    if bits (s.locket.scaleDir.getD ix 0) 37 36 = 2 then s
    else
    let s := if vs.isEmpty then s else s.noteWritten tensor
    let fin := vs.filter Num.finite
    let bad := vs.length - fin.length
    let s := if bad = 0 then s else s.count 0x7033 2 bad
    if s.commit.sealed then s.count 0x8021 5 1
    else if fin.isEmpty then s else
    let top := (fin.map Num.abs).foldl numMax Num.zero
    let code := if top.isZero then 1 else (max (-198) (min 127 (ceilLog2 top)) + 200).toNat
    let old := kget 0 s.locket.maxima ix
    { s with locket := { s.locket with maxima := kset 0 s.locket.maxima ix (max old code) } }

/-- The module is healthy (R348): ready-for-program, no latched action at or above the level, not HALTED, not fenced; a
POWER_OFF takes the power at once. -/
def State.healthy (s : State) : Bool :=
  let level := s.get 0x3030 1
  s.power.on && !s.security.recovery && s.faults.moduleReset.isNone &&
  (match s.faults.record with | some (_, a, _) => decide (a < level) | none => true) &&
  s.commitState != 7 && s.get 0x5040 5 == 0

/-- The FAULT pair as (FAULT_P, FAULT_N) (Table 13.8); an unpowered module reads 0 and 0. -/
def State.faultPair (s : State) : Bool × Bool :=
  if !s.power.on then (false, false) else (s.healthy, !s.healthy)

end Sys2Proof.Machine
end

