-- ==== Sys2Proof/Machine/Issue.lean ====
section
/-! DEFINITION. A command of the stream reaching its unit (R43, R44, R56, R60, R343, R358): the gate every one passes, and
work and modes of a unit. -/

namespace Sys2Proof.Machine

/-- A fence past its planned completion holds the command (R22). -/
def State.held (s : State) (i : Issue) : Bool :=
  s.program.fences.any fun f => f.ctx == i.ctx && f.left == 0 && bit f.mask (unitDie i.unit) && i.unit != 0x7F

/-- The command waits at the unit; a third waiting command does not run and raises BUNDLE_INVALID (R44). -/
def State.wait (s : State) (op : Nat) (i : Issue) : State :=
  if 2 ≤ (s.unit i.unit).waiting.length then s.invalid i
  else s.onUnit i.unit fun x => { x with waiting := x.waiting ++ [{ op, issue := i, at_ := s.clock.cycle }] }

/-- The command is the unit's current one; a mode ends when the next command takes effect (R44). -/
def State.current (s : State) (op : Nat) (i : Issue) : State :=
  s.onUnit i.unit fun x => { x with
    mode := 0, modeLeft := none, last := some { op, issue := i, at_ := s.clock.cycle }, progress := 0, ticks := 0, hung := false }

/-- Frame control dispatches nothing while the member is ABORTING or REVERTED, except in replay (R326, R343). -/
def State.dispatching (s : State) : Bool :=
  !(s.commitState == 4 || s.commitState == 5) || s.faults.replay.isSome

/-- The context is quarantined (R358). -/
def State.quarantined (s : State) (i : Issue) : Bool := bit (s.get 0x3050 3) i.ctx

/-- A SWAP waits at the feeder of a die or is about to be issued in this cycle, or is in its freeze cycles (R71). -/
def State.swapping (s : State) (d : Nat) : Bool :=
  let f := s.unit (0x28 + d)
  f.waiting.any (fun c => c.op == 3) ||
  (match f.work with | some w => w.cmd.op == 3 | none => false) ||
  s.pending.any fun c => match c with | .swap j => j.unit == 0x28 + d | _ => false

/-- A SWAP of the die is in its freeze cycles. -/
def State.swapFreezing (s : State) (d : Nat) : Bool :=
  match (s.unit (0x28 + d)).work with | some w => w.cmd.op == 3 | none => false

/-- The fourth freeze cycle of a SWAP of the die has passed. -/
def State.swapOver (s : State) (d : Nat) : Bool :=
  match (s.unit (0x28 + d)).work with | some w => w.cmd.op == 3 && w.left == some 0 | none => false

/-- The array runs the stream phase of a MATMUL (R73). -/
def State.streaming (s : State) (u : Nat) : Bool := s.busy u

/-- The pair a MATMUL's tile compares with the weight tags (R71). -/
def Tile.tag (t : Tile) : Nat × Nat := (t.tensor, t.wsrc)

/-- The command may take effect as far as R70 and R71 hold it: a SWAP waits for both stream phases, a MATMUL on the
shadow tag waits for the SWAP. -/
def State.ready (s : State) (op : Nat) (i : Issue) : Bool :=
  let d := unitDie i.unit
  match unitClass i.unit, op with
  | 3, 3 => !s.streaming (0x10 + d) && !s.streaming (0x18 + d)
  | 1, 1 =>
    let a := s.array i.unit
    let tag := some (s.tile i).tag
    !(a.shadow.tag == tag && s.swapping d && !(a.active.tag == tag && !s.swapFreezing d))
  | _, _ => true

/-- The shadow rules of R48, checked as the command takes effect (log 14): a load finds empty shadow registers, a SWAP
full ones. -/
def State.shadowOk (s : State) (op : Nat) (i : Issue) : Bool :=
  let d := unitDie i.unit
  let full := (s.array (0x10 + d)).shadow.tag.isSome || (s.array (0x18 + d)).shadow.tag.isSome
  match unitClass i.unit, op with
  | 3, 1 | 3, 2 => !full
  | 3, 3 => full
  | _, _ => true

/-- The gate of a stream command (R43, R44, R60): a command of a quarantined context is counted and not dispatched; an
aborting member dispatches nothing; a unit in reset takes nothing; an illegal command does not run; a busy unit, a
fence and the swap rules make it wait; else it takes effect by `start`. -/
def State.gate (s : State) (op : Nat) (i : Issue) (start : Issue → State → State) : State :=
  if s.quarantined i then s.count 0x3050 4 1
  else if !s.power.on || !s.dispatching || (s.unit i.unit).inReset then s
  else if !s.fixedOk op i s.clock.cycle then s.invalid i
  else if s.held i || s.busy i.unit || !(s.unit i.unit).waiting.isEmpty || !s.ready op i then s.wait op i
  else if !s.shadowOk op i then s.invalid i
  else start i (s.current op i)

/-- The unit takes up work of `left` cycles; a unit that an injection stalls makes no progress on it (R364). -/
def State.startWork (s : State) (op : Nat) (i : Issue) (left : Option Nat) (load : Load) : State :=
  s.onUnit i.unit fun x => { x with
    work := some { cmd := { op, issue := i }, left := if x.stalled then none else left, load }
    stalled := false }

/-- The unit takes up a phase of `left` cycles that a tail of `tail` cycles follows (R73, R111). -/
def State.startPhase (s : State) (op : Nat) (i : Issue) (left tail jobs : Nat) (load : Load) : State :=
  s.onUnit i.unit fun x => { x with
    work := some { cmd := { op, issue := i }, left := if x.stalled then none else some left, load, tail, jobs }
    stalled := false }

/-- The phase of a unit ends, and its work goes on as a tail (R73, R111). -/
def State.endPhase (s : State) (u : Nat) : State :=
  s.onUnit u fun x =>
    match x.work with
    | some w => { x with work := none, tails := x.tails ++ [{ w with left := some w.tail, tail := 0 }] }
    | none => x

/-- The unit takes a standing mode, for the command's duration if it gives one (R44). -/
def startMode (op : Nat) (i : Issue) (s : State) : State :=
  s.onUnit i.unit fun x => { x with mode := op, modeLeft := if i.dur = 0 then none else some i.dur }

/-- The work of a unit is one of the given opcodes, and its last cycle has passed. -/
def State.workOver (s : State) (u : Nat) (ops : List Nat) : Bool :=
  match (s.unit u).work with | some w => ops.contains w.cmd.op && w.left == some 0 | none => false

/-- The unit's work ends. -/
def State.endWork (s : State) (u : Nat) : State := s.onUnit u fun x => { x with work := none }

end Sys2Proof.Machine
end

