-- ==== Sys2Proof/Machine/FrameControl.lean ====
section
/-! DEFINITION. The commands of frame control, of the power and phase marker and of the fence (R22, R45, R46, R53, R57,
R139). -/

namespace Sys2Proof.Machine

/-- The outcome of a command that goes on in state `s`. -/
abbrev goOn (s : State) : Host.Outcome State Fault Refusal := .next s

/-- NOP takes effect and does nothing (R46). -/
def startNop (_ : Issue) (s : State) : State := s

def execNop (i : Issue) (s : State) : Host.Outcome State Fault Refusal := goOn (s.gate 0 i startNop)

/-- The bundle of 64 bytes at an HBM address as its words, with the header fields of Table 2.3. -/
def bundleOf (w : Nat) (ctx issue : Nat) (tbl : Option TblRef) : Bundle :=
  { issue, ctx, seq := bits w 47 32, tbl, words := (List.range (bits w 26 24)).map fun j => bits w (64 * j + 127) (64 * j + 64) }

/-- A command of a bundle by its word and slot. -/
def issueOf (b : Bundle) (word slot : Nat) : Nat × Issue :=
  (bits word 55 48,
    { unit := bits word 63 56
      dur := bits word 47 32
      arg := BitVec.ofNat 32 (bits word 31 0)
      ctx := b.ctx
      seq := b.seq
      slot := slot
      tbl := b.tbl
      held := b.descs.getD (slot - 1) [] })

/-- The commands of a bundle with their opcodes, in slot order. -/
def Bundle.commands (b : Bundle) : List (Nat × Issue) := (b.words.zip (span 1 7)).map fun p => issueOf b p.1 p.2

/-- The bundle with the descriptors that its commands name, as the fetcher reads them (R39). -/
def State.withDescs (s : State) (b : Bundle) : Bundle := { b with descs := b.commands.map fun p => s.heldDescs p.1 p.2 }

/-- The bundles of the active slot of a table called at cycle `c` by a bundle of SEQ `seq` in context `ctx` (R53). -/
def State.tableBundles (s : State) (t c ctx seq : Nat) : List Bundle :=
  let e := s.tableEntry t
  let slot := tableSlot e
  (List.range slot.2.1).map fun j =>
    let w := s.hbmLE (slot.1 + 64 * j) 64
    bundleOf w ctx (c + bits w 19 0) (some { table := t, slotB := tableActive e, callSeq := seq })

/-- Puts a bundle among the undispatched ones, behind those of the same issue cycle. -/
def insertBundle (b : Bundle) : List Bundle → List Bundle
  | [] => [b]
  | a :: t => if b.issue < a.issue then b :: a :: t else a :: insertBundle b t

/-- The bundles of the active slot of a table join the undispatched ones, unless the fetcher has read them already
(R39, R53). -/
def State.callTable (s : State) (t ctx seq : Nat) : State :=
  if s.program.calls.contains (t, seq) then s
  else { s with program := { s.program with
    bundles := ((s.tableBundles t s.clock.cycle ctx seq).map s.withDescs).foldl (fun l b => insertBundle b l) s.program.bundles
    calls := s.program.calls ++ [(t, seq)] } }

/-- CALL: the bundles of the active slot run, their issue cycles counted from the call (R53). -/
def startCall (i : Issue) (s : State) : State := s.callTable i.arg.toNat i.ctx i.seq

def execCall (i : Issue) (s : State) : Host.Outcome State Fault Refusal := goOn (s.gate 1 i startCall)

/-- COMMIT_POINT marks the frame as the step's last update frame and carries the flip request (R139). -/
def startCommitPoint (i : Issue) (s : State) : State :=
  { s with program := { s.program with pointStep := true, pointFrame := some (i.arg.getLsbD 0) } }

def execCommitPoint (i : Issue) (s : State) : Host.Outcome State Fault Refusal := goOn (s.gate 2 i startCommitPoint)

/-- HALT ends the program at the frame's tick (R45). -/
def startHalt (_ : Issue) (s : State) : State := { s with program := { s.program with stopping := some (0, false) } }

def execHalt (i : Issue) (s : State) : Host.Outcome State Fault Refusal := goOn (s.gate 3 i startHalt)

/-- MARK writes a trace event with the value into telemetry (R46): a record of kind 1 with frame, cycle, context and
value. -/
def startMark (i : Issue) (s : State) : State :=
  { s with thallus := { s.thallus with
    telemetry := [1, s.clock.frame, s.clock.cycle, i.ctx, i.arg.toNat] :: s.thallus.telemetry } }

def execMark (i : Issue) (s : State) : Host.Outcome State Fault Refusal := goOn (s.gate 4 i startMark)

/-- PHASE sets the phase id until the next PHASE (R57). -/
def startPhase (i : Issue) (s : State) : State :=
  let p := i.arg.toNat % 256
  { s with program := { s.program with phaseId := p, phases := insertNat p s.program.phases } }

def execPhase (i : Issue) (s : State) : Host.Outcome State Fault Refusal := goOn (s.gate 1 i startPhase)

/-- FLOOR raises a Frond's floor to the end of the frame; the floor is the highest given (R57). -/
def startFloor (i : Issue) (s : State) : State :=
  let d := bits i.arg.toNat 23 16 - 0x10
  let f := max (s.program.floors.getD d 1250) (bits i.arg.toNat 15 0)
  { s with program := { s.program with floors := s.program.floors.set d f } }

def execFloor (i : Issue) (s : State) : Host.Outcome State Fault Refusal := goOn (s.gate 2 i startFloor)

/-- The dies a fence names. -/
def fenceDies (mask : Nat) : Nat := b2n (bit mask 0) + b2n (bit mask 1) + b2n (bit mask 2)

/-- FENCE is in progress to its planned completion: 8 cycles for one die, 256 for more (R22). -/
def startFence (i : Issue) (s : State) : State :=
  let m := i.arg.toNat
  let f : Fence :=
    { ctx := i.ctx, mask := m, frame := s.clock.frame, cycle := s.clock.cycle, left := if fenceDies m = 1 then 8 else 256 }
  { s with program := { s.program with fences := s.program.fences ++ [f] } }

def execFence (i : Issue) (s : State) : Host.Outcome State Fault Refusal := goOn (s.gate 1 i startFence)

/-- FENCE_COMPLETE: a fence of the context is over, the oldest one past its planned completion or else the oldest; commands
it held may start (R22). -/
def fenceComplete (c : Nat) (s : State) : State :=
  let past := fun (f : Fence) => f.ctx == c && (f.ended || (f.left == 0 && !f.late))
  let l := s.program.fences
  { s with program := { s.program with fences := if l.any past then l.eraseP past else l.eraseP fun f => f.ctx == c } }

def execFenceComplete (c : Nat) (s : State) : Host.Outcome State Fault Refusal := goOn (fenceComplete c s)

/-- IDLE of an array: data-gated; a drain tail already running completes (R82). -/
def execArrayIdle (i : Issue) (s : State) : Host.Outcome State Fault Refusal := goOn (s.gate 0 i (startMode 0))

/-- HOLD of an array: a planned freeze of tail and drain for its duration (R82, R83). -/
def execArrayHold (i : Issue) (s : State) : Host.Outcome State Fault Refusal := goOn (s.gate 2 i (startMode 2))

/-- IDLE of a Sorus (R46). -/
def execSorusIdle (i : Issue) (s : State) : Host.Outcome State Fault Refusal := goOn (s.gate 0 i (startMode 0))

/-- HOLD of a Sorus: a planned freeze of dispatcher, lanes, drain and staging (R116). -/
def execSorusHold (i : Issue) (s : State) : Host.Outcome State Fault Refusal := goOn (s.gate 3 i (startMode 3))

/-- IDLE of a weight feeder (R46). -/
def execFeederIdle (i : Issue) (s : State) : Host.Outcome State Fault Refusal := goOn (s.gate 0 i (startMode 0))

/-- IDLE of a Filigree (R46). -/
def execFiligreeIdle (i : Issue) (s : State) : Host.Outcome State Fault Refusal := goOn (s.gate 0 i (startMode 0))

/-- IDLE of a memory controller: no program traffic (R46). -/
def execMcIdle (i : Issue) (s : State) : Host.Outcome State Fault Refusal := goOn (s.gate 0 i (startMode 0))

/-- IDLE of a Blukor port: no program traffic (R46). -/
def execPortIdle (i : Issue) (s : State) : Host.Outcome State Fault Refusal := goOn (s.gate 0 i (startMode 0))

/-- IDLE of Stavlink: no program traffic (R46). -/
def execStavlinkIdle (i : Issue) (s : State) : Host.Outcome State Fault Refusal := goOn (s.gate 0 i (startMode 0))

end Sys2Proof.Machine
end

