-- ==== Sys2Proof/Machine/Elements.lean ====
section
/-! DEFINITION. Tensor elements in the operand store: reading codes, widening them (R154), and rounding values back with
the generator's bits (R155–R161). -/

namespace Sys2Proof.Machine

/-- The code of element `j` of a plane of a format at an operand-store offset; an E2M1 element is a nibble, the even
one low (R98). -/
def State.codeAt (s : State) (d fmt off j : Nat) : Nat :=
  match fmtBits fmt with
  | 16 => (s.opStore d).readLE (off + 2 * j) 2
  | 8 => ((s.opStore d).read (off + j)).toNat
  | _ => let b := ((s.opStore d).read (off + j / 2)).toNat; if j % 2 = 0 then b % 16 else b / 16

/-- Element `j` of a plane that is not E2M1, widened and scaled by 2^−`e` (R154, R167). -/
def State.elem (s : State) (d fmt off j : Nat) (e : Int) : Num :=
  let v := ofCode fmt (s.codeAt d fmt off j)
  if e = 0 then v else eScale (-e) v

/-- Element `j` of an E2M1 plane of `total` elements whose block scale is number `b` of its scale plane (R154). -/
def State.elemE2 (s : State) (d off total j b : Nat) : Num :=
  ofScaled 4 (s.codeAt d 4 off j) ((s.opStore d).read (scalePlane off total + b)).toNat

/-- Element `j` of a split-word pair: hi + lo, exact in E8M31 (R90). -/
def State.elemPair (s : State) (d off lo j : Nat) : Num := eAdd (s.elem d 0 off j 0) (s.elem d 0 lo j 0)

/-- The bytes of a code. -/
def codeBytes (fmt c : Nat) : List Byte := leBytes (fmtBits fmt / 8) c

/-- Writes a code at element `j` of a plane. -/
def State.setCode (s : State) (d fmt off j c : Nat) (poisoned : Bool) : State :=
  match fmtBits fmt with
  | 16 => s.opWrite d (off + 2 * j) (leBytes 2 c) poisoned
  | 8 => s.opWrite d (off + j) (leBytes 1 c) poisoned
  | _ =>
    let b := ((s.opStore d).read (off + j / 2)).toNat
    let b := if j % 2 = 0 then b / 16 * 16 + c % 16 else b % 16 + c % 16 * 16
    s.opWrite d (off + j / 2) (leBytes 1 b) poisoned

/-- The 16 random bits of a rounding of tensor `tau`, element `e`, draw word `delta`, in the current step (R159, R160). -/
def State.rand (s : State) (tau e delta : Nat) : Nat := Machine.draw s.seed tau s.stepCount e delta

/-- Where a value is rounded to: the die, the plane, its format, its tensor, the write exponent and the draw word. -/
structure Site where
  die : Nat
  off : Nat
  fmt : Nat
  tensor : Nat
  exp : Int
  delta : Nat
  poisoned : Bool
  deriving DecidableEq, Repr

/-- Rounds values into consecutive elements of a plane from element `j` on, element `e` of the tensor being the first;
counts what the conversions found (R155, R156, R167). Not for E2M1. -/
def State.putVals (s : State) (t : Site) (j e : Nat) (vs : List Num) : State :=
  let st := (vs.zip (List.range vs.length)).map fun p =>
    sr (if t.exp = 0 then p.1 else eScale t.exp p.1) t.fmt (s.rand t.tensor (e + p.2) t.delta)
  let s := s.opWrite t.die (t.off + fmtBits t.fmt / 8 * j) (st.flatMap fun x => codeBytes t.fmt x.code) t.poisoned
  s.stored t.die st

/-- Rounds values as split-word pairs: hi truncated to 8 bits of significand, lo rounded stochastically at e + 2^47
(R90). A non-finite value gives hi itself and the remainder R67 gives for it. -/
def State.putPairs (s : State) (t : Site) (lo j e : Nat) (vs : List Num) : State :=
  let his := vs.map fun v => sr v 0 65535
  let los := (vs.zip (his.zip (List.range vs.length))).map fun p =>
    sr (eSub p.1 (ofCode 0 p.2.1.code)) 0 (s.rand t.tensor (e + p.2.2 + 2 ^ 47) t.delta)
  let s := s.opWrite t.die (t.off + 2 * j) (his.flatMap fun x => leBytes 2 x.code) t.poisoned
  let s := s.opWrite t.die (lo + 2 * j) (los.flatMap fun x => leBytes 2 x.code) t.poisoned
  s.stored t.die (his.map (fun x => { x with sat := false }) ++ los)

/-- One 32-element E2M1 block of a row under the block scale of R158: the scale byte, then the elements' codes. -/
def State.packE2 (s : State) (t : Site) (e : Nat) (vs : List Num) : Nat × List Nat :=
  let sc := blockScale 4 vs
  (sc, (vs.zip (List.range vs.length)).map fun p => blockElem 4 sc p.1 (s.rand t.tensor (e + p.2) t.delta))

/-- Cuts a list into pieces of `n`, at most `fuel` of them. -/
def pieces {α : Type} (n : Nat) : Nat → List α → List (List α)
  | 0, _ => []
  | k + 1, l => if l.isEmpty then [] else l.take n :: pieces n k (l.drop n)

/-- Counts the values that are not finite among those stored under a block scale (R156). -/
def State.countNonFinite (s : State) (d : Nat) (vs : List Num) : State :=
  let bad := (vs.filter fun v => !v.finite).length
  if bad = 0 then s else s.count 0x7032 (d + 1) bad

/-- Writes a row of values into an E2M1 plane of `total` elements: elements from `j`, scales from block `b` (R76, R158). -/
def State.putRowE2 (s : State) (t : Site) (total j b e : Nat) (vs : List Num) : State :=
  let s := ((pieces 32 vs.length vs).zip (List.range vs.length)).foldl (fun s p =>
    let k := s.packE2 t (e + 32 * p.2) p.1
    let s := (k.2.zip (List.range 32)).foldl (fun s q => s.setCode t.die 4 t.off (j + 32 * p.2 + q.2) q.1 t.poisoned) s
    s.opWrite t.die (scalePlane t.off total + b + p.2) [BitVec.ofNat 8 k.1] t.poisoned) s
  s.countNonFinite t.die vs

/-- The exponents that apply to a tensor in this step: read for a format, write for a format (R164, R167). -/
def State.readExp (s : State) (tensor fmt : Nat) : Int := Machine.readExp s.locket.exps (s.scaleIndex tensor) fmt

def State.writeExp (s : State) (tensor fmt : Nat) : Int := Machine.writeExp s.locket.exps (s.scaleIndex tensor) fmt

end Sys2Proof.Machine
end

