-- ==== Sys2Proof/Machine/Kernels.lean ====
section
/-! DEFINITION. The Filigree kernels of Table 7.5: rows handed by drains, standalone kernels, completion (R185–R193). The
exchange kernels PACK and PACKP are in Machine/Exchange.lean. -/

namespace Sys2Proof.Machine

/-! ### Row and column memories (R187) -/

/-- The accumulators a, b of a row. -/
def Filigree.row (f : Filigree) (r : Nat) : Num × Num :=
  let x := kget ((0 : E8M31), (0 : E8M31)) f.rowMem r
  (ofE8 x.1, ofE8 x.2)

def Filigree.setRow (f : Filigree) (r : Nat) (a b : Num) : Filigree :=
  { f with rowMem := kset ((0 : E8M31), (0 : E8M31)) f.rowMem r (toE8 a, toE8 b) }

/-- The accumulator of a column. -/
def Filigree.col (f : Filigree) (c : Nat) : Num := ofE8 (kget (0 : E8M31) f.colMem c)

def Filigree.setCol (f : Filigree) (c : Nat) (v : Num) : Filigree :=
  { f with colMem := kset (0 : E8M31) f.colMem c (toE8 v) }

/-! ### Sites and operands -/

/-- The rounding site of DST (R189). -/
def State.dstSite (s : State) (d : Nat) (k : Kernel) (fmt : Nat) (poisoned : Bool) : Site :=
  { die := d, off := k.dst, fmt, tensor := k.tensor, exp := s.writeExp k.tensor fmt, delta := 0x2000 + 16 * k.drawIx, poisoned }

/-- The rounding site of DST2 (R189). -/
def State.dst2Site (s : State) (d : Nat) (k : Kernel) (fmt : Nat) (poisoned : Bool) : Site :=
  { die := d, off := k.dst2, fmt, tensor := k.tensor2, exp := s.writeExp k.tensor2 fmt,
    delta := 0x2000 + 16 * k.drawIx + 1, poisoned }

/-- The element index of DST element (r, c) in its tensor, row r of the plane (R189). -/
def Kernel.index (k : Kernel) (r c : Nat) : Nat := k.origin * 1024 + r * k.cols + c

/-- Element (r, c) of SRC0: in IFMT at the read exponent of the HEADER tensor (log 11), or a pair; r counts plane rows. -/
def State.first (s : State) (d : Nat) (k : Kernel) (r c : Nat) : Num :=
  let j := r * k.cols + c
  if k.pairIn then s.elemPair d k.src0 (pairLo k.src0 k.span k.cols) j else s.elem d k.ifmt k.src0 j (s.readExp k.tensor k.ifmt)

/-- Element `j` of SRC1 or SRC2, a plane of `rows` by `cols` in E8M7 or, under PAIR_IN, in pairs (R186). -/
def State.word (s : State) (d : Nat) (k : Kernel) (src rows cols j : Nat) : Num :=
  if k.pairIn then s.elemPair d src (pairLo src rows cols) j else s.elem d 0 src j 0

/-- Element (r, c) of a full-width SRC1 or SRC2. -/
def State.full (s : State) (d : Nat) (k : Kernel) (src r c : Nat) : Num := s.word d k src k.span k.cols (r * k.cols + c)

/-- The bias of element (r, c): none where SRC2 is 0 (R191). -/
def State.bias (s : State) (d : Nat) (k : Kernel) (r c : Nat) : Num := if k.src2 = 0 then Num.zero else s.full d k k.src2 r c

/-- The saved rstd of a row, and the gain of a column. -/
def State.rstd (s : State) (d : Nat) (k : Kernel) (r : Nat) : Num := s.word d k k.src1 k.span 1 r

def State.gain (s : State) (d : Nat) (k : Kernel) (c : Nat) : Num := s.word d k k.src2 1 k.cols c

/-- A value of an L pair per row (R191). -/
def State.rowPair (s : State) (d : Nat) (k : Kernel) (src r : Nat) : Num := s.elemPair d src (pairLo src k.span 1) r

/-- The operand ranges that a kernel reads, and those that it writes: planes its code names, but for optional ones given as 0
(R186). DST2 is read too under ACC2 (R189). -/
def Kernel.used (k : Kernel) : List (Nat × Nat) :=
  (List.zip (List.range 6) (List.zip [k.src0, k.src1, k.src2, k.src3, k.dst, k.dst2] k.planes)).map fun p =>
    if p.2.1 = 0 ∧ k.optional p.1 then (0, 0) else p.2

def Kernel.reads (k : Kernel) : List (Nat × Nat) := k.used.take 4 ++ if k.acc2 then k.used.drop 5 else []

/-- The first poisoned operand address of a kernel (R257). -/
def State.kernelPoisonAt (s : State) (d : Nat) (k : Kernel) : Option Nat :=
  (k.reads.find? fun p => s.opPoisoned d p.1 p.2).map (·.1)

/-- Some operand range the kernel reads is poisoned. -/
def State.kernelPoison (s : State) (d : Nat) (k : Kernel) : Bool := (s.kernelPoisonAt d k).isSome

/-- Under ACC2 the stored element `j` of DST2, in a format, is added before the value is rounded (R189). -/
def State.addStored (s : State) (d : Nat) (k : Kernel) (fmt j : Nat) (v : Num) : Num :=
  if k.acc2 then eAdd v (s.elem d fmt k.dst2 j (s.readExp k.tensor2 fmt)) else v

/-! ### Drain-fed kernels -/

/-- One handed row: `r` its row-space index, `vs` its values in E8M31 from column COL0 on (R188, R190, R191). -/
def State.kernelRow (s : State) (d : Nat) (k : Kernel) (r : Nat) (vs : List Num) (poisoned : Bool) : State :=
  let f := s.filigree d
  let pr := r - k.rowA
  let cols := span k.col0 vs.length
  let p0 := ofCode 0 k.p0
  let cv := cols.zip vs
  let e := k.index r k.col0
  let j := pr * k.cols + k.col0
  match k.code with
  | 0x01 =>
    let a := vs.foldl (fun a x => eAdd a (eMul x x)) (f.row r).1
    let s := s.setFiligree d (f.setRow r a (f.row r).2)
    (s.putVals (s.dstSite d k 0 poisoned) j e vs).reportMax k.tensor vs
  | 0x03 =>
    let rstd := s.rstd d k pr
    let ts := cv.map fun p => eMul (s.gain d k p.1) p.2
    let xh := cols.map fun c => eMul (s.first d k pr c) rstd
    let a := (ts.zip xh).foldl (fun a p => eAdd a (eMul p.1 p.2)) (f.row r).1
    let f := (cols.zip (vs.zip xh)).foldl (fun f p => f.setCol p.1 (eAdd (f.col p.1) (eMul p.2.1 p.2.2))) f
    let s := s.setFiligree d (f.setRow r a (f.row r).2)
    (s.putVals (s.dstSite d k 0 poisoned) j e ts).reportMax k.tensor ts
  | 0x05 =>
    let ss := cv.map fun p => eAdd (eMul p0 p.2) (s.bias d k pr p.1)
    let old := f.row r
    let a0 := if old.2.isZero then Num.inf true else old.1
    let a := ss.foldl numMax a0
    let b := ss.foldl (fun b x => eAdd b (eExp (eSub x a))) (if old.2.isZero then Num.zero else eMul old.2 (eExp (eSub a0 a)))
    let s := s.setFiligree d (f.setRow r a b)
    (s.putVals (s.dstSite d k 0 poisoned) j e ss).reportMax k.tensor ss
  | 0x08 =>
    let l := s.rowPair d k k.src1 pr
    let ps := cv.map fun p =>
      eExp (eSub (eAdd (eMul p0 p.2) (s.bias d k pr p.1)) l)
    (s.putVals (s.dstSite d k 0 poisoned) j e ps).reportMax k.tensor ps
  | _ =>
    let ds := cv.map fun p => eMul (eMul p0 (s.first d k pr p.1)) (eSub p.2 (f.row r).2)
    (s.putVals (s.dstSite d k k.ofmt poisoned) j e ds).reportMax k.tensor ds

/-- The kernel that runs on a Filigree, names a source in FEED and has not had ROWS rows of it: 0 array A, 1 array B, 2 Sorus (R185,
R188). -/
def State.feeds (s : State) (d src : Nat) : Option (Kernel × Work × Nat × Nat × Nat × List Nat) :=
  match (s.unit (0x30 + d)).work with
  | some w =>
    match w.load with
    | .kernel a b c written =>
      let k := s.kernel w.cmd.issue
      let n := if src = 0 then a else if src = 1 then b else c
      if w.cmd.op = 1 ∧ bit k.feed src ∧ n < k.rows ∧ !w.stuck then some (k, w, a, b, c, written) else none
    | _ => none
  | none => none

/-- All named sources have handed ROWS rows (R188). -/
def kernelFull (k : Kernel) (a b c : Nat) : Bool :=
  (!bit k.feed 0 || decide (k.rows ≤ a)) && (!bit k.feed 1 || decide (k.rows ≤ b)) && (!bit k.feed 2 || decide (k.rows ≤ c))

/-- The granules of DST that a row of `n` columns from COL0 on lies in. -/
def Kernel.rowGranules (k : Kernel) (r n : Nat) : List Nat :=
  let w := fmtBits k.ofmt / 8
  (granules 0 (k.dst + w * ((r - k.rowA) * k.cols + k.col0)) (w * n)).map Prod.snd

/-- The kernel stops at a row that is too wide: its writes so far stand, what it has not written is poisoned, and
BUNDLE_INVALID is raised at the unit (R188). -/
def State.kernelStop (s : State) (d : Nat) (k : Kernel) (w : Work) (written : List Nat) : State :=
  let rest := (granules d k.dst (fmtBytes k.ofmt (k.span * k.cols))).filter fun g => !written.contains g.2
  let s := { s with mem := { s.mem with opPoison := rest.foldl (fun l g => insertPair g l) s.mem.opPoison } }
  (s.endWork (0x30 + d)).invalid w.cmd.issue

/-- Hands row `m` of a source to the kernel; `none` where no kernel that names the source runs (R185). -/
def State.handRow (s : State) (d src m : Nat) (vs : List Num) (poisoned : Bool) : Option State :=
  match s.feeds d src with
  | none => none
  | some (k, w, a, b, c, written) =>
    if k.cols < k.col0 + vs.length then some (s.kernelStop d k w written)
    else
      let r := (if src = 1 then k.rowB else k.rowA) + m
      let s := s.kernelRow d k r vs (poisoned || s.kernelPoison d k)
      let a := if src = 0 then a + 1 else a
      let b := if src = 1 then b + 1 else b
      let c := if src = 2 then c + 1 else c
      let written := (k.rowGranules r vs.length).foldl (fun l g => insertNat g l) written
      some (s.onUnit (0x30 + d) fun x => { x with
        progress := x.progress + 1
        work := some { w with load := .kernel a b c written, left := if kernelFull k a b c then some 64 else none } })

/-! ### Standalone kernels -/

/-- Writes one row of DST, reporting its maximum. -/
def State.putRow (s : State) (d : Nat) (k : Kernel) (r : Nat) (vs : List Num) (poisoned : Bool) : State :=
  (s.putVals (s.dstSite d k k.ofmt poisoned) (r * k.cols) (k.index (k.rowA + r) 0) vs).reportMax k.tensor vs

/-- One row of a standalone kernel; `r` counts the rows of its planes, row-space index ROWA + r. -/
def State.kernelStep (s : State) (d : Nat) (k : Kernel) (poisoned : Bool) (r : Nat) : State :=
  let f := s.filigree d
  let rs := k.rowA + r
  let cols := List.range k.cols
  let width := Num.ofNat k.cols
  let at0 := fun c => s.first d k r c
  match k.code with
  | 0x02 =>
    let rstd := eRsqrt (eAdd (eDiv (f.row rs).1 width) (ofCode 0 k.p0))
    let ys := cols.map fun c => eMul (eMul (s.gain d k c) (at0 c)) rstd
    let s := s.putRow d k r ys poisoned
    let v := s.addStored d k 0 r rstd
    if k.dst2 = 0 then s else (s.putVals (s.dst2Site d k 0 poisoned) r rs [v]).reportMax k.tensor2 [v]
  | 0x04 =>
    let q := eDiv (f.row rs).1 width
    let rstd := s.rstd d k r
    s.putRow d k r (cols.map fun c =>
      eMul rstd (eSub (s.elem d 0 k.src3 (r * k.cols + c) 0) (eMul (eMul (at0 c) rstd) q))) poisoned
  | 0x06 =>
    let ab := f.row rs
    let s := s.putRow d k r (cols.map fun c => eDiv (eExp (eSub (at0 c) ab.1)) ab.2) poisoned
    if k.dst2 = 0 then s else
    let lo := pairLo k.dst2 k.span 1
    let l := eAdd ab.1 (eLn ab.2)
    let l := if k.acc2 then eAdd l (s.elemPair d k.dst2 lo r) else l
    (s.putPairs (s.dst2Site d k 0 poisoned) lo r rs [l]).reportMax k.tensor2 [l]
  | 0x07 =>
    let b := cols.foldl (fun b c => eAdd b (eMul (at0 c) (s.full d k k.src1 r c))) Num.zero
    s.setFiligree d (f.setRow rs (f.row rs).1 b)
  | 0x0A =>
    let vs := cols.map at0
    (s.putPairs (s.dstSite d k 0 poisoned) (pairLo k.dst k.span k.cols) (r * k.cols) (k.index rs 0) vs).reportMax k.tensor vs
  | 0x0B => s.putRow d k r (cols.map fun c => eAdd (eAdd (at0 c) (s.full d k k.src1 r c)) (s.full d k k.src2 r c)) poisoned
  | 0x0C => s.putRow d k r (cols.map fun c => eAdd (at0 c) (s.full d k k.src1 r c)) poisoned
  | _ =>
    let p1 := at0
    let p2 := fun c => s.full d k k.src1 r c
    let p3 := fun c => s.full d k k.src2 r c
    let im := cols.map fun c => s.addStored d k k.ofmt (r * k.cols + c) (eSub (eSub (p3 c) (p1 c)) (p2 c))
    let s := s.putRow d k r (cols.map fun c => eSub (p1 c) (p2 c)) poisoned
    (s.putVals (s.dst2Site d k k.ofmt poisoned) (r * k.cols) (k.index rs 0) im).reportMax k.tensor2 im

/-- NORM_BWD_B writes the column memory to DST2 after its rows, adding the stored gain gradient under ACC2 (R190). -/
def State.kernelColumns (s : State) (d : Nat) (k : Kernel) (poisoned : Bool) : State :=
  if k.code = 0x04 ∧ k.dst2 ≠ 0 then
    let vs := (List.range k.cols).map fun c =>
      s.addStored d k 0 c ((s.filigree d).col c)
    (s.putVals (s.dst2Site d k 0 poisoned) 0 0 vs).reportMax k.tensor2 vs
  else s

/-- CLEAR zeroes both memories before the first row (R187). -/
def State.kernelClear (s : State) (d : Nat) (k : Kernel) : State :=
  if k.clear then s.setFiligree d { s.filigree d with rowMem := [], colMem := [] } else s

/-- The Frond cycles of a standalone kernel (R188): the larger of its lane-ops and its operand-store bytes. -/
def Kernel.cycles (k : Kernel) : Nat :=
  let elems := k.rows * k.cols
  let bytes := ((k.reads ++ k.used.drop 4).map fun p => p.2).foldl (· + ·) 0
  64 + max (cdiv (elems * (kernelOps k.code).getD 1) 16384) (cdiv bytes 8192)

/-- KERNEL: a drain-fed kernel waits for its rows; a standalone one runs over its rows and ends after the cycles of
R188. A poisoned operand poisons every output block (R257). -/
def startTableKernel (i : Issue) (s : State) : State :=
  let d := unitDie i.unit
  let k := s.kernel i
  let s := match s.kernelPoisonAt d k with
    | some a => s.consume i.unit i.ctx (2 ^ 63 + a)
    | none => s
  let s := match k.reads.find? fun p => decide (0 < p.2) with
    | some p => s.strikeOp i.unit i.ctx (2 ^ 63 + p.1)
    | none => s
  let poisoned := s.kernelPoison d k
  let s := s.kernelClear d k
  if kernelFed k.code then s.startWork 1 i none (.kernel 0 0 0 [])
  else
    let s := (List.range k.rows).foldl (fun s r => s.kernelStep d k poisoned r) s
    (s.kernelColumns d k poisoned).startWork 1 i (some k.cycles) .none

/-- The work of a Filigree that completes is a kernel: its last cycle has passed. -/
def State.kernelDone (s : State) (d : Nat) : Bool :=
  match (s.unit (0x30 + d)).work with
  | some w => w.cmd.op == 1 && w.left == some 0
  | none => false

end Sys2Proof.Machine
end

