-- ==== Sys2Proof/Machine/Rows.lean ====
section
/-! DEFINITION. Output rows on their way through the drain of an array or of a Sorus: route tables, masks, the witness,
the accumulation, the rounding, the write and the hand-over (R76–R79, R87, R88, R112, R143, R144, R148, R185). -/

namespace Sys2Proof.Machine

/-! ### Route tables (R147, R148) -/

/-- A list cut or filled with a value to `n` items. -/
def padTo {α : Type} (n : Nat) (x : α) (l : List α) : List α := l.take n ++ List.replicate (n - l.length) x

/-- Where the buffer of a parity of a route lies. -/
def Route.buffer (r : Route) (parity : Nat) : Nat := opOffset r.table + parity * r.tsize

/-- The word of slot `j` of expert `e` in the buffer of a parity. -/
def State.slotWord (s : State) (d : Nat) (r : Route) (parity e j : Nat) : Nat :=
  (s.opStore d).readLE (r.buffer parity + 64 + 4 * (e * (r.cap + r.spillCap) + j)) 4

/-- The token-table word of rank `k` of token `t`. -/
def State.tokenWord (s : State) (d : Nat) (r : Route) (parity t k : Nat) : Nat :=
  (s.opStore d).readLE (r.buffer parity + r.tokenTable + 8 * (t * r.k + k)) 8

/-- The header frame of the buffer of the running frame's parity is the running frame's (R148). -/
def State.routeFresh (s : State) (d : Nat) (r : Route) : Bool :=
  (s.opStore d).readLE (r.buffer (s.clock.frame % 2)) 6 == s.clock.frame % 2 ^ 48

/-- Slot `j` of a tile's expert: token row and validity. -/
def State.tileSlot (s : State) (d : Nat) (t : Tile) (j : Nat) : Nat × Bool :=
  let w := s.slotWord d (s.tileRoute t) (s.clock.frame % 2) t.expert j
  (bits w 23 0, bit w 24)

/-- The gate of a slot: the token table's gate for the slot's token and the tile's expert, in the buffer of the parity the
token row belongs to (log 12). -/
def State.slotGate (s : State) (d : Nat) (t : Tile) (j : Nat) : Num :=
  let r := s.tileRoute t
  let row := (s.tileSlot d t j).1
  let words := (List.range r.k).map fun k => s.tokenWord d r (row / r.tok % 2) (row % r.tok) k
  match words.find? fun w => bits w 7 0 == t.expert && bits w 9 8 != 2 with
  | some w => ofCode 0 (bits w 47 32)
  | none => Num.zero

/-! ### Scales (R164, R167) -/

/-- The read exponent of a dense operand that a tile names by address alone: where the format takes a directory scale,
the entry that applies is free (log 13). -/
def State.operandExp (s : State) (d addr fmt : Nat) : Int :=
  let n := s.locket.scaleDir.length
  let k := Config.activationEntry d addr % (n + 1)
  if n = 0 ∨ k = n then 0 else Machine.readExp s.locket.exps (some k) fmt

/-- The exponent the column sums are scaled by: 2^−(e_W + e_A). -/
def State.columnExp (s : State) (d : Nat) (t : Tile) : Int :=
  (if t.sampled then s.operandExp d t.wsrc t.afmt else s.readExp t.tensor t.wfmt) + s.operandExp d t.asrc t.afmt

/-! ### Masks (R78, R79, R143, R144) -/

/-- The mask plane at ASRC can be used (R144). -/
def State.maskUsable (s : State) (d : Nat) (t : Tile) : Bool :=
  let g := (s.opStore d).readLE (t.maskInPlane + 4) 2
  let cb := (s.opStore d).readLE (t.maskInPlane + 6) 2
  let c0 := if t.sorus then 0 else t.ksIndex * 16
  t.maskIn && g == cdiv t.m 32 && decide (c0 + cdiv t.k 32 ≤ cb)

/-- The bit of row group `g` and column block `c` of the mask plane at ASRC. -/
def State.maskBit (s : State) (d : Nat) (t : Tile) (g c : Nat) : Bool :=
  let cb := (s.opStore d).readLE (t.maskInPlane + 6) 2
  let c0 := if t.sorus then 0 else t.ksIndex * 16
  let b := g * cb + c0 + c
  bit ((s.opStore d).read (t.maskInPlane + 16 + b / 8)).toNat (b % 8)

/-- Row `m` belongs to a group that the tile skips (R78, R148). -/
def State.skipped (s : State) (d : Nat) (t : Tile) (m : Nat) : Bool :=
  let g := m / 32
  (s.maskUsable d t && (List.range (cdiv t.k 32)).all (s.maskBit d t g)) ||
  (t.gather && (span (32 * g) (min 32 (t.m - 32 * g))).all fun j => !(s.tileSlot d t j).2)

/-! ### Operands -/

/-- Activation element (m, k) of a tile (R66, R181, R148): an invalid slot gives a zero row. -/
def State.activation (s : State) (d : Nat) (t : Tile) (m k : Nat) : Num :=
  let off := opOffset t.asrc
  let slot := if t.gather then s.tileSlot d t m else (m, true)
  let r := slot.1
  if !slot.2 then Num.zero
  else if t.at_ then s.elem d t.afmt off (k * t.pitch + r) 0
  else if t.afmt = 4 then s.elemE2 d off (s.actSpan t) (r * t.pitch + k) (r * cdiv t.k 32 + k / 32)
  else s.elem d t.afmt off (r * t.pitch + k) 0

/-- An activation row. -/
def State.activationRow (s : State) (d : Nat) (t : Tile) (m : Nat) : List Num :=
  (List.range t.k).map (s.activation d t m)

/-! ### Outputs -/

/-- The operand-store ranges a tile writes. -/
def State.outRanges (s : State) (t : Tile) : List (Nat × Nat) :=
  let n := s.outRows t * t.n
  [(opOffset t.dst, fmtBytes t.ofmt n)] ++
  (if t.pairOut then [(s.loPlane t, 2 * n)] else []) ++
  (if t.ofmt = 4 then [(scalePlane (opOffset t.dst) n, scaleBytes (s.outRows t) t.n)] else []) ++
  (if t.maskOut then [(s.maskOutPlane t, maskBytes (cdiv t.m 32) (cdiv t.n 32))] else [])

/-- Marks every output block of a tile as poisoned (R88, R122, R257). A tile with TOKERN writes none. -/
def State.poisonTile (s : State) (d : Nat) (t : Tile) : State :=
  if t.toKern then s else (s.outRanges t).foldl (fun s r => s.poisonOp d r.1 r.2) s

/-- The rounding site of a tile's outputs (Table 6.3). -/
def State.tileSite (s : State) (d : Nat) (t : Tile) (poisoned : Bool) : Site :=
  { die := d, off := opOffset t.dst, fmt := t.ofmt, tensor := t.otensor, exp := s.writeExp t.otensor t.ofmt,
    delta := if t.sorus then 0x1000 + 16 * t.drawIx else 16 * t.drawIx + t.ksIndex, poisoned }

/-- The output row a tile row is written to. -/
def State.outRow (s : State) (d : Nat) (t : Tile) (m : Nat) : Nat := if t.scatter then (s.tileSlot d t m).1 else m

/-- A stored output element, widened (R76, R90). -/
def State.storedOut (s : State) (d : Nat) (t : Tile) (r n : Nat) : Num :=
  let off := opOffset t.dst
  if t.pairOut then s.elemPair d off (s.loPlane t) (r * t.n + n)
  else if t.ofmt = 4 then s.elemE2 d off (s.outRows t * t.n) (r * t.n + n) (r * cdiv t.n 32 + n / 32)
  else s.elem d t.ofmt off (r * t.n + n) (s.readExp t.otensor t.ofmt)

/-- Rounds the values of a row from column `c0` on into the output (R76, R90, R158, R167) and reports their maximum (R165). -/
def State.putOut (s : State) (d : Nat) (t : Tile) (m c0 : Nat) (vs : List Num) (poisoned : Bool) : State :=
  let site := s.tileSite d t poisoned
  let r := s.outRow d t m
  let e := t.origin * 1024 + m * t.n + c0
  let j := r * t.n + c0
  let s :=
    if t.pairOut then s.putPairs site (s.loPlane t) j e vs
    else if t.ofmt = 4 then s.putRowE2 site (s.outRows t * t.n) j (r * cdiv t.n 32 + c0 / 32) e vs
    else s.putVals site j e vs
  s.reportMax t.otensor vs

/-- The witness disagreement of R87: |S − z| > max(2^−20·u, 2^−126). -/
def disagrees (sum z u : Num) : Bool :=
  (numMax (u.scale (-20)) (Num.pow2 (-126))).lt (sum.add z.neg).abs

/-- The detail of WITNESS_MISMATCH (Table 13.7). -/
def witnessDetail (i : Issue) (row : Nat) (sum z : Num) : Nat :=
  packFields [(4, bits i.arg.toNat 27 24), (24, bits i.arg.toNat 23 0), (24, row), (16, toE8M7 sum), (16, toE8M7 z)]

/-- Checks the witness of an array's output row, whose sum S runs over all its columns (R87, R88; log 125): counts the row, and a mismatch, or an injected corruption that the row
meets (R364), is reported and poisons the tile. Answers the state and whether the row mismatched. -/
def State.witness (s : State) (u : Nat) (i : Issue) (t : Tile) (m : Nat) (row : Row) : State × Bool :=
  let sub := arraySub u
  let ys := row.y.map ofE8
  let sum := eSum ys
  let z := ofE8 row.z
  let w := ofE8 row.u
  if !(sum.finite && z.finite && w.finite && ys.all Num.finite) then (s.count 0x7011 sub 1, false)
  else
    let s := s.count 0x7010 sub 1
    if disagrees sum z w || s.faults.corrupt.contains (0x101, u) then
      let s := { s with faults := { s.faults with corrupt := s.faults.corrupt.erase (0x101, u) } }
      let s := (s.count 0x7012 sub 1).raise 0x101 u (unitDie u) i.ctx (witnessDetail i m sum z)
      (s.poisonTile (unitDie u) t, true)
    else (s, false)

/-- Which source of FEED a unit is: array A, array B, Sorus (R186). -/
def feedIndex (u : Nat) : Nat := if u < 0x18 then 0 else if u < 0x20 then 1 else 2

/-- The values of a row from column `c0` on as the drain writes or hands them, from its column sums: at the read exponents (R167),
under the gate of a scattered slot (R148), and with the stored elements added under ACC (R76, R112). -/
def State.drained (s : State) (d : Nat) (t : Tile) (m c0 : Nat) (ys : List Num) : List Num :=
  let e := s.columnExp d t
  let ys := ys.map (eScale (-e))
  let ys := if t.scatter then ys.map (eMul (s.slotGate d t m)) else ys
  if t.acc then (ys.zip (List.range ys.length)).map fun p => eAdd p.1 (s.storedOut d t (s.outRow d t m) (c0 + p.2)) else ys

/-- The drain writes the values of a row from column `c0` on; the rows of invalid slots are not written (R148). -/
def State.drainCols (s : State) (d : Nat) (t : Tile) (m c0 : Nat) (ys : List Num) (poisoned : Bool) : State :=
  if t.scatter && !(s.tileSlot d t m).2 then s else s.putOut d t m c0 (s.drained d t m c0 ys) poisoned

/-- A row that the tile skips is written as +0, and left as it is under ACC (R78). -/
def State.drainSkipped (s : State) (d : Nat) (t : Tile) (m : Nat) (poisoned : Bool) : State :=
  if t.acc || (t.scatter && !(s.tileSlot d t m).2) then s
  else s.putOut d t m 0 (List.replicate t.n Num.zero) poisoned

/-- One row of an array through the drain to the operand store. -/
def State.drainRow (s : State) (d : Nat) (t : Tile) (p : Nat × Row) (poisoned : Bool) : State :=
  if p.2.skip then s.drainSkipped d t p.1 poisoned else s.drainCols d t p.1 0 ((p.2.y.take t.n).map ofE8) poisoned

/-- One row handed to the Filigree: a skipped row as +0; none where no kernel takes it (R185). -/
def State.handOver (s : State) (u : Nat) (t : Tile) (p : Nat × Row) (poisoned : Bool) : Option State :=
  let d := unitDie u
  let vs := if p.2.skip then List.replicate t.n Num.zero else s.drained d t p.1 0 ((p.2.y.take t.n).map ofE8)
  s.handRow d (feedIndex u) p.1 vs poisoned

/-- The elements of a row of the output are stored as zeros of either sign, from column `c` on, `n` of them. -/
def State.storedZero (s : State) (d : Nat) (t : Tile) (r c n : Nat) : Bool :=
  (span c n).all fun k =>
    (if t.ofmt = 4 then s.storedOut d t r k else ofCode t.ofmt (s.codeAt d t.ofmt (opOffset t.dst) (r * t.n + k))).isZero &&
    (!t.pairOut || (ofCode 0 (s.codeAt d 0 (s.loPlane t) (r * t.n + k))).isZero)

/-- Writes the mask plane of a finished tile: its header, then one bit per 32 × 32 block that is stored as zeros (R79,
R143). -/
def State.putMask (s : State) (d : Nat) (t : Tile) (poisoned : Bool) : State :=
  if !t.maskOut then s else
  let g := cdiv t.m 32
  let cb := cdiv t.n 32
  let zero := fun (gc : Nat) =>
    (span (32 * (gc / cb)) (min 32 (t.m - 32 * (gc / cb)))).all fun r =>
      s.storedZero d t r (32 * (gc % cb)) (min 32 (t.n - 32 * (gc % cb)))
  let head := packFields [(32, t.otensor), (16, g), (16, cb), (64, 0)]
  let word := (List.range (g * cb)).foldl (fun a k => if zero k then a + 2 ^ k else a) 0
  s.opWrite d (s.maskOutPlane t) (leBytes (maskBytes g cb) (head + 2 ^ 128 * word)) poisoned

/-- The granules of the outputs that a tile accumulates into hold poison, which poisons the tile (R257). -/
def State.accPoison (s : State) (u : Nat) (t : Tile) : Bool :=
  t.acc && (s.outRanges t).any fun r => s.opPoisoned (unitDie u) r.1 r.2

/-- The bytes of one output row in the operand store (R76). -/
def Tile.rowBytes (t : Tile) : Nat :=
  if t.pairOut then 4 * t.n else fmtBytes t.ofmt t.n + (if t.ofmt = 4 then cdiv t.n 32 else 0)

/-- When the program has ended and its last work is done, the arrays clear their weight tags; the values left are not
read any more (R45). -/
def State.settle (s : State) : State :=
  if s.program.clearing && unitIds.all (fun u => !s.unfinished u) then
    let s := [0x10, 0x11, 0x12, 0x18, 0x19, 0x1A].foldl (fun s u => s.setArray u { gatedRest := (s.array u).gatedRest }) s
    { s with program := { s.program with clearing := false } }
  else s

end Sys2Proof.Machine
end

