-- ==== Sys2Proof/Machine/Arrays.lean ====
section
/-! DEFINITION. The dense arrays and their weight feeders (chapter 3, R181): LOADW, LOADW_T, SWAP, MATMUL, their completions, and
what each does in one cycle of the Frond clock. -/

namespace Sys2Proof.Machine

/-! ### Weights -/

/-- Weight element (k, n) as presented (R66, Table 7.2). -/
def State.weight (s : State) (d : Nat) (t : Tile) (k n : Nat) : Num :=
  let off := opOffset t.wsrc
  if t.wfmt = 4 then s.elemE2 d off (t.k * t.n) (k * t.n + n) (k / 32 * t.n + n)
  else s.elem d t.wfmt off (if t.wt then n * t.k + k else k * t.n + n) 0

/-- The bytes of the weight plane, its scales included. -/
def Tile.weightBytes (t : Tile) : Nat := planeEnd 0 t.wfmt (t.k * t.n) (cdiv t.k 32) (32 * t.n)

/-- The bytes that weight row `k` is read from: one stored row, or the whole plane where it is presented transposed. -/
def Tile.weightRow (t : Tile) (k : Nat) : Nat × Nat :=
  if t.wt then (opOffset t.wsrc, t.weightBytes)
  else (opOffset t.wsrc + k * t.n * fmtBits t.wfmt / 8, fmtBytes t.wfmt t.n)

/-- The registers with one weight row more: its weights, its row sum h and magnitude sum a, and the column sums v (R69, R86). -/
def Weights.addRow (w : Weights) (row : List Num) (poisoned : Bool) : Weights :=
  let v := if w.v.isEmpty then row.map fun _ => Num.zero else w.v.map ofE8
  { w with
    rows := w.rows ++ [row]
    h := w.h ++ [toE8 (eSum row)]
    a := w.a ++ [toE8 (eSum (row.map Num.abs))]
    v := (v.zip row).map fun p => toE8 (eAdd p.1 p.2)
    bad := w.bad || poisoned }

/-- Weight row `k` enters the shadow registers of both arrays (R69). A poisoned source poisons what the weights will compute
(R257). Rows at or beyond K hold zeros, which the registers do not list. -/
def State.loadRow (s : State) (i : Issue) (k : Nat) : State :=
  let d := unitDie i.unit
  let t := s.tile i
  if t.k ≤ k then s
  else
    let r := t.weightRow k
    let bad := s.opPoisoned d r.1 r.2
    let dirty := bad || s.struckAt i.unit
    let row := (List.range t.n).map (s.weight d t k)
    let s := (if bad then s.consume i.unit i.ctx t.wsrc else s).strikeOp i.unit i.ctx t.wsrc
    [0x10 + d, 0x18 + d].foldl (fun (s : State) u =>
      s.setArray u { s.array u with shadow := (s.array u).shadow.addRow row dirty }) s

/-- LOADW and LOADW_T: the shadow tags of both arrays are set as the load takes effect, and the rows enter over 512 Frond cycles,
each as the operand store holds it in its cycle (R69, R181; log 16). -/
def startLoad (op : Nat) (i : Issue) (s : State) : State :=
  let d := unitDie i.unit
  let w : Weights := { tag := some (s.tile i).tag }
  let s := s.setArray (0x10 + d) { s.array (0x10 + d) with shadow := w }
  let s := s.setArray (0x18 + d) { s.array (0x18 + d) with shadow := w }
  s.startWork op i (some 512) .none

def execLoadw (i : Issue) (s : State) : Host.Outcome State Fault Refusal := goOn (s.gate 1 i (startLoad 1))

def execLoadwT (i : Issue) (s : State) : Host.Outcome State Fault Refusal := goOn (s.gate 2 i (startLoad 2))

/-- The corner check of one array at the end of a load (R89): S is Σ v_n and z is Σ h_k (log 15). -/
def State.cornerCheck (s : State) (i : Issue) (u : Nat) : State :=
  let a := s.array u
  let h := eSum (a.shadow.h.map ofE8)
  let v := eSum (a.shadow.v.map ofE8)
  let m := eSum (a.shadow.a.map ofE8)
  if !(h.finite && v.finite && m.finite) then s.count 0x7011 (arraySub u) 1
  else if (m.scale (-20)).lt (v.add h.neg).abs then
    let s := (s.count 0x7012 (arraySub u) 1).raise 0x101 u (unitDie u) i.ctx (witnessDetail i 0xFFFFFF v h)
    s.setArray u { a with shadow := { a.shadow with bad := true } }
  else s

/-- The load of a feeder has had its 512 rows. -/
def State.loaded (s : State) (d : Nat) : Option Work :=
  ((s.unit (0x28 + d)).work).filter fun w => (w.cmd.op == 1 || w.cmd.op == 2) && w.left == some 0

/-- LOADW_COMPLETE: each array checks its corner; the feeder is free (R69, R89). -/
def loadwComplete (d : Nat) (s : State) : State :=
  match s.loaded d with
  | some w => (((s.cornerCheck w.cmd.issue (0x10 + d)).cornerCheck w.cmd.issue (0x18 + d)).endWork (0x28 + d)).settle
  | none => s

def execLoadwComplete (d : Nat) (s : State) : Host.Outcome State Fault Refusal := goOn (loadwComplete d s)

/-! ### SWAP (R70, R80, R81) -/

/-- SWAP takes effect: both arrays freeze for 4 cycles (R70). -/
def startSwap (i : Issue) (s : State) : State := s.startWork 3 i (some 4) .none

def execSwap (i : Issue) (s : State) : Host.Outcome State Fault Refusal := goOn (s.gate 3 i startSwap)

/-- Shadow becomes active in one array, and the shadow tag empty (R70). -/
def State.swapArray (s : State) (u : Nat) : State :=
  let a := s.array u
  (s.setArray u { a with active := a.shadow, shadow := {} }).count 0x6047 (arraySub u) 1

/-- SWAP_COMPLETE: the weights and their tags change at the end of the fourth freeze cycle (R70). -/
def swapComplete (d : Nat) (s : State) : State :=
  if s.swapOver d then (((s.swapArray (0x10 + d)).swapArray (0x18 + d)).endWork (0x28 + d)).settle else s

def execSwapComplete (d : Nat) (s : State) : Host.Outcome State Fault Refusal := goOn (swapComplete d s)

/-! ### MATMUL -/

/-- The row rate q of a tile (Table 3.1). -/
def rowRate (wfmt afmt : Nat) : Nat :=
  match max (fmtBits wfmt) (fmtBits afmt) with
  | 16 => 1
  | 8 => 2
  | _ => 4

/-- The lane is data-gated: a zero whose other operand is finite (R68). -/
def gatedLane (x w : Num) : Bool := (x.isZero && w.finite) || (w.isZero && x.finite)

/-- Adds lists of numbers place by place, the shorter one as if zeros followed. -/
def addCounts : List Nat → List Nat → List Nat
  | [], l => l
  | l, [] => l
  | a :: s, b :: t => (a + b) :: addCounts s t

/-- The lanes that one streamed row leaves ungated, by the cycles since it entered: cell (k, n) meets it k + n cycles on, and cells
outside the loaded tile are gated (R63, R68). -/
def openLanes (w : Weights) (xs : List Num) : List Nat :=
  ((xs.zip w.rows).map fun p => p.2.map fun v => b2n (!gatedLane p.1 v)).foldr (fun r acc => addCounts r (0 :: acc)) []

/-- The cells of an array that a row meets `age` cycles after it entered. -/
def cellsAt (age : Nat) : Nat := if age < 512 then age + 1 else 1023 - age

/-- One row of a product: the column sums in ascending k from +0 (R63, R67), and the witness sums z and u (R86). Cells outside the
loaded tile hold zero weights (R69); the sums run over `n` columns and at least those loaded, over which the witness sums run
(DEDUCED, log 125). A gated lane adds its zero product: a partial sum of −0 that meets it becomes +0 by R67, where R68 has it pass
unchanged (DESIGN CHOICE, log 114). -/
def productRow (w : Weights) (n : Nat) (xs : List Num) : Row :=
  let k := xs.length
  let n := max n w.v.length
  let y := (xs.zip (padTo k [] w.rows)).foldl (fun acc p =>
    (acc.zip (padTo n Num.zero p.2)).map fun q => eMac q.1 p.1 q.2) (List.replicate n Num.zero)
  let z := (xs.zip (padTo k 0 w.h)).foldl (fun acc p => eMac acc p.1 (ofE8 p.2)) Num.zero
  let u := (xs.zip (padTo k 0 w.a)).foldl (fun acc p => eMac acc p.1.abs (ofE8 p.2)) Num.zero
  { skip := false, y := y.map toE8, z := toE8 z, u := toE8 u }

/-- Adds gated lane-cycles to an array's count, in units of 4,096 (R68). -/
def State.countGated (s : State) (u n : Nat) : State :=
  let a := s.array u
  let total := a.gatedRest + n
  let s := s.setArray u { a with gatedRest := total % 4096 }
  if total / 4096 = 0 then s else s.count 0x2061 (arraySub u) (total / 4096)

/-- The rows of a tile in groups of `q` streamed rows, each row with whether it is skipped; a skipped row goes with the streamed row
before it, and the first with the one after (R73, R78; log 117). -/
def intoGroups (q : Nat) : List (Nat × Bool) → List (Nat × Bool) → Nat → List (List (Nat × Bool))
  | [], cur, _ => if cur.isEmpty then [] else [cur]
  | p :: t, cur, n =>
    if p.2 then intoGroups q t (cur ++ [p]) n
    else if n = q then cur :: intoGroups q t [p] 1
    else intoGroups q t (cur ++ [p]) (n + 1)

/-- The bytes of the operand store that activation row `m` is read from: a stored row, or the whole operand where it is presented
transposed. -/
def State.activationRange (s : State) (d : Nat) (t : Tile) (m : Nat) : Nat × Nat :=
  let r := if t.gather then (s.tileSlot d t m).1 else m
  if t.at_ then (opOffset t.asrc, fmtBytes t.afmt (s.actSpan t))
  else (opOffset t.asrc + r * t.pitch * fmtBits t.afmt / 8, fmtBytes t.afmt t.k)

/-- The stream phase of a MATMUL on the active weights begins: which rows it streams is fixed as it takes effect (R73, R78, R148).
Where it streams none, only its tail is left. -/
def State.stream (s : State) (i : Issue) (t : Tile) : State :=
  let d := unitDie i.unit
  let rows := (List.range t.m).map fun m => (m, s.skipped d t m)
  let groups := intoGroups (rowRate t.wfmt t.afmt) rows [] 0
  let bad := s.accPoison i.unit t
  let s := s.countIf (t.maskIn && !s.maskUsable d t) 0x7023 (d + 1)
  let s := if bad then s.consume i.unit i.ctx t.dst else s
  if rows.all fun p => p.2 then
    let skipped : Group := { rows := rows.map fun p => (p.1, { skip := true, y := [], z := 0, u := 0 }), left := 1048, check := 0, opened := [], need := 0 }
    (s.startPhase 1 i 0 1048 0 (.stream [] [skipped] [] bad)).endPhase i.unit
  else s.startPhase 1 i groups.length 1048 0 (.stream groups [] [] bad)

/-- The detail of WEIGHT_TAG_MISMATCH (Table 13.7). -/
def tagDetail (i : Issue) (tensor active : Nat) : Nat :=
  packFields [(4, bits i.arg.toNat 27 24), (24, bits i.arg.toNat 23 0), (32, tensor), (32, active)]

/-- MATMUL: on the active tag it streams; on any other tag it does not run (R71), and in a replay it is skipped without a
report (R357). A stale route stops it too (R148). -/
def startMatmul (i : Issue) (s : State) : State :=
  let d := unitDie i.unit
  let t := s.tile i
  let active := (s.array i.unit).active.tag
  if active == some t.tag && !s.swapFreezing d then
    if (t.gather || t.scatter) && !s.routeFresh d (s.tileRoute t) then (s.poisonTile d t).raise 0x30B i.unit d i.ctx 0
    else s.stream i t
  else if s.faults.replay.isSome then s
  else (s.poisonTile d t).raise 0x103 i.unit d i.ctx (tagDetail i t.tensor ((active.map (·.1)).getD 0))

def execMatmul (i : Issue) (s : State) : Host.Outcome State Fault Refusal := goOn (s.gate 1 i startMatmul)

/-! ### One Frond cycle of an array (R63, R73, R76, R80–R83, R88) -/

/-- The works of an array in the order in which the drain passes them: its tails, then the one that streams. -/
def State.products (s : State) (u : Nat) : List Work := (s.unit u).tails ++ (s.unit u).work.toList

/-- The groups of a work in the drain's FIFO. -/
def Work.fifo (w : Work) : List Group := match w.load with | .stream _ _ fifo _ => fifo | _ => []

/-- The groups of a work in the array. -/
def Work.flight (w : Work) : List Group := match w.load with | .stream _ flight _ _ => flight | _ => []

/-- Every output row of a work has passed the drain. -/
def Work.drained (w : Work) : Bool := match w.load with
  | .stream todo flight fifo _ => todo.isEmpty && flight.isEmpty && fifo.isEmpty
  | _ => true

/-- Does `f` to each work of an array, in the order of the drain. -/
def State.eachProduct (s : State) (u : Nat) (f : State → Work → State × Work) : State :=
  let x := s.unit u
  let r := x.tails.foldl (fun (a : State × List Work) w => let c := f a.1 w; (c.1, a.2 ++ [c.2])) (s, [])
  match x.work with
  | some w =>
    let c := f r.1 w
    c.1.onUnit u fun x => { x with work := some c.2, tails := r.2 }
  | none => r.1.onUnit u fun x => { x with tails := r.2 }

/-- A row that the drain holds finds no running KERNEL that names its source (R185). -/
def State.rowHeld (s : State) (u : Nat) : Bool :=
  match ((s.products u).filter fun w => !w.fifo.isEmpty).head? with
  | some w => (s.tile w.cmd.issue).toKern && (s.feeds (unitDie u) (feedIndex u)).isNone
  | none => false

/-- A group that would leave the array finds the FIFO of 128 entries full (R76, R80). -/
def State.fifoFull (s : State) (u : Nat) : Bool :=
  let l := s.products u
  decide (128 ≤ (l.map fun w => w.fifo.length).foldl (· + ·) 0) && l.any fun w => w.flight.any fun g => g.left == 1

/-- The group that enters the array in its next cycle. -/
def State.nextGroup (s : State) (u : Nat) : Option (Tile × List (Nat × Bool)) :=
  match (s.unit u).work with
  | some w =>
    match w.load with
    | .stream (g :: _) _ _ _ => if w.stuck || w.left.isNone then none else some (s.tile w.cmd.issue, g)
    | _ => none
  | none => none

/-- Why an array freezes in a cycle, under the first cause that applies (R83): 1 SWAP, 2 HOLD, 3 the drain is full, 4 the feeder is
empty, which `lost` says; 0 where it does not. -/
def State.freezeCause (s : State) (u : Nat) (lost : Bool) : Nat :=
  if s.swapFreezing (unitDie u) && !s.swapOver (unitDie u) then 1
  else if (s.unit u).mode == 2 then 2
  else if s.rowHeld u || s.fifoFull u then 3
  else if lost && (s.nextGroup u).isSome then 4
  else 0

/-- The drain compares the rows of groups that have left the array, at most 24 Frond cycles after they left it, whatever freezes
follow (R88); a mismatch poisons the tile. -/
def State.compare (s : State) (u : Nat) (w : Work) : State × Work :=
  match w.load with
  | .stream todo flight fifo poison =>
    let t := s.tile w.cmd.issue
    let r := flight.foldl (fun (a : State × List Group × Bool) g =>
      let due := decide (g.left ≤ 24) && g.check != 0
      let g := if due then { g with check := g.check - 1 } else g
      if due && g.check == 0 then
        let c := (g.rows.filter fun p => !p.2.skip).foldl (fun (b : State × Bool) p =>
          let x := b.1.witness u w.cmd.issue t p.1 p.2
          (x.1, b.2 || x.2)) (a.1, false)
        (c.1, a.2.1 ++ [g], a.2.2 || c.2)
      else (a.1, a.2.1 ++ [g], a.2.2)) (s, [], poison)
    (r.1, { w with load := .stream todo r.2.1 fifo r.2.2 })
  | _ => (s, w)

/-- The lanes of an array that are gated in a cycle over the groups of a work (R68). -/
def Work.gated (w : Work) : Nat :=
  (w.flight.map fun g =>
    let age := 1048 - g.left
    if age < 1023 then (g.rows.filter fun p => !p.2.skip).length * cellsAt age - g.opened.getD age 0 else 0).foldl (· + ·) 0

/-- What is in the array moves one cell; groups that leave it join the FIFO (R63, R73). -/
def Work.move (w : Work) : Work :=
  match w.load with
  | .stream todo flight fifo poison =>
    let moved := flight.map fun g => { g with left := g.left - 1 }
    { w with load := .stream todo (moved.filter fun g => g.left != 0) (fifo ++ moved.filter fun g => g.left == 0) poison }
  | _ => w

/-- The next row group enters the array: its rows are read and their sums are on their way (R73, R76). What it reads poisoned
poisons the tile (R257). -/
def State.enterGroup (s : State) (u : Nat) (w : Work) : State × Work :=
  match w.load with
  | .stream (g :: todo) flight fifo poison =>
    let d := unitDie u
    let i := w.cmd.issue
    let t := s.tile i
    let a := (s.array u).active
    let live := (g.filter fun p => !p.2).map fun p => p.1
    let bad := live.any fun m => let r := s.activationRange d t m; s.opPoisoned d r.1 r.2
    let dirty := bad || s.struckAt u
    let rows := g.map fun p =>
      (p.1, if p.2 then { skip := true, y := [], z := 0, u := 0 } else productRow a t.n (s.activationRow d t p.1))
    let opened := live.foldl (fun l m => addCounts l (openLanes a (s.activationRow d t m))) []
    let s := (if bad then s.consume u i.ctx t.asrc else s).strikeOp u i.ctx t.asrc
    let x : Group := { rows, left := 1048, check := 24, opened, need := if t.toKern then t.n else live.length * t.rowBytes }
    (s, { w with left := w.left.map (· - 1), load := .stream todo (flight ++ [x]) fifo (poison || dirty || a.bad) })
  | _ => (s, w)

/-- The rows at the head of the FIFO of a TOKERN tile pass to the kernel as far as it accepts elements (R188); `fuel` bounds the
rows. -/
def State.handGroup (s : State) (u : Nat) (t : Tile) (poison : Bool) : Nat → Group → State × Group
  | 0, g => (s, g)
  | n + 1, g =>
    match g.rows with
    | [] => (s, g)
    | p :: rest =>
      let d := unitDie u
      let room := (s.filigree d).room
      if (s.feeds d (feedIndex u)).isNone || room == 0 then (s, g)
      else if room < g.need then (s.setFiligree d { s.filigree d with room := 0 }, { g with need := g.need - room })
      else
        match (s.setFiligree d { s.filigree d with room := room - g.need }).handOver u t p poison with
        | some s => s.handGroup u t poison n { g with rows := rest, need := t.n }
        | none => (s, g)

/-- The write port passes groups of a work from the head of the FIFO, `budget` bytes of them in the cycle: a row is read under ACC,
rounded and written as the last of its bytes passes (R76). -/
def State.passGroups (s : State) (u : Nat) (t : Tile) (poison : Bool) : Nat → List Group → State × List Group × Nat
  | budget, [] => (s, [], budget)
  | budget, g :: rest =>
    if t.toKern then
      let r := s.handGroup u t poison g.rows.length g
      if r.2.rows.isEmpty then r.1.passGroups u t poison budget rest else (r.1, r.2 :: rest, budget)
    else if budget < g.need then (s, { g with need := g.need - budget } :: rest, 0)
    else (g.rows.foldl (fun (s : State) p => s.drainRow (unitDie u) t p poison) s).passGroups u t poison (budget - g.need) rest

/-- The drain of an array passes what it can in a cycle, over its works in order: 2,048 bytes to the operand store (R76). -/
def State.passDrain (s : State) (u : Nat) : State :=
  let x := s.unit u
  let step := fun (a : State × Nat × List Work) (w : Work) =>
    match w.load with
    | .stream todo flight fifo poison =>
      let r := a.1.passGroups u (a.1.tile w.cmd.issue) poison a.2.1 fifo
      (r.1.onUnit u fun y => { y with progress := y.progress + (fifo.length - r.2.1.length) }, r.2.2,
        a.2.2 ++ [{ w with load := .stream todo flight r.2.1 poison }])
    | _ => (a.1, a.2.1, a.2.2 ++ [w])
  let r := x.tails.foldl step (s, 2048, [])
  match x.work with
  | some w =>
    let c := step (r.1, r.2.1, []) w
    c.1.onUnit u fun y => { y with tails := r.2.2, work := c.2.2.head? }
  | none => r.1.onUnit u fun y => { y with tails := r.2.2 }

/-- The phase of a unit whose last cycle has passed becomes a tail. -/
def State.closePhase (s : State) (u : Nat) : State :=
  match (s.unit u).work with
  | some w => if w.left = some 0 then s.endPhase u else s
  | none => s

/-- The array moves by one cycle: its lanes, its tails, and the group that enters. -/
def State.moveArray (s : State) (u : Nat) : State :=
  let s := s.onUnit u fun x => { x with
    tails := x.tails.map fun w => { w.move with left := w.left.map (· - 1) }
    work := x.work.map Work.move }
  let s := match (s.unit u).work, s.nextGroup u with
    | some w, some _ => let c := s.enterGroup u w; c.1.onUnit u fun x => { x with work := some c.2 }
    | _, _ => s
  let gated := ((s.products u).map Work.gated).foldl (· + ·) 0
  (if gated = 0 then s else s.countGated u gated).closePhase u

/-- One Frond cycle of an array. `fed` says that its feeder has the banks of the next group, `open_` that its drain has those of the
rows it writes. A freeze holds everything but the comparisons; one whose cause is the full drain lets the drain pass on (R80, R81;
log 116). -/
def State.arrayCycle (s : State) (u : Nat) (fed open_ : Bool) : State :=
  let cause := s.freezeCause u (!fed)
  let s := if cause = 1 ∨ cause = 2 then s.planned u 1 else if 3 ≤ cause then s.unplanned u 1 else s
  let s := s.eachProduct u fun s w => s.compare u w
  let s := if cause = 0 then s.moveArray u else s
  let s := if (cause = 0 ∨ cause = 3) ∧ open_ then s.passDrain u else s
  s.onUnit u fun x => { x with frozen := cause != 0 }

/-- One Frond cycle of a weight feeder: a load takes its next row where the feeder has its banks, else it comes late (R69); a SWAP
has a cycle less to go. -/
def State.feederCycle (s : State) (u : Nat) (fed : Bool) : State :=
  match (s.unit u).work with
  | some w =>
    match w.left with
    | some (n + 1) =>
      let k := 511 - n
      if w.cmd.op = 3 then s.onUnit u fun x => { x with work := some { w with left := some n } }
      else if !fed && decide (k < (s.tile w.cmd.issue).k) then s
      else (s.loadRow w.cmd.issue k).onUnit u fun x => { x with work := some { w with left := some n } }
    | _ => s
  | none => s

/-! ### Completion -/

/-- MATMUL_COMPLETE: the oldest MATMUL of the array has left the drain: its mask plane is written, and its outputs are visible
(R75, R143). -/
def matmulComplete (u : Nat) (s : State) : State :=
  match (s.unit u).tails with
  | w :: rest =>
    if unitClass u = 1 ∧ w.left = some 0 ∧ w.drained then
      let t := s.tile w.cmd.issue
      let poison := match w.load with | .stream _ _ _ p => p | _ => false
      let s := if poison then s.poisonTile (unitDie u) t else s
      ((s.putMask (unitDie u) t poison).onUnit u fun x => { x with tails := rest }).settle
    else s
  | [] => s

def execMatmulComplete (u : Nat) (s : State) : Host.Outcome State Fault Refusal := goOn (matmulComplete u s)

end Sys2Proof.Machine
end

