-- ==== Sys2Proof/Machine/Pinna.lean ====
section
/-! DEFINITION. Tensors in pinna form: the block index, its entries, the metadata, and the checks of Table 4.11 (R94–R101,
R119, R121). -/

namespace Sys2Proof.Machine

/-- The block index header (Table 4.2) with the die and the operand-store offset it lies at. -/
structure Index where
  die : Nat
  base : Nat
  word : Nat
  fmt : Nat
  tensor : Nat
  linesR : Nat
  linesC : Nat
  present : Nat
  vlen : Nat
  mlen : Nat
  cdir : Nat
  entries : Nat
  clist : Nat
  ilen : Nat
  mbase : Nat
  sbase : Nat
  deriving DecidableEq, Repr

/-- A block entry (Table 4.4) with its ordinal. -/
structure Entry where
  ordinal : Nat
  word : Nat
  col : Nat
  row : Nat
  pat : Nat
  palette : Nat
  voff : Nat
  moff : Nat
  deriving DecidableEq, Repr

/-- The index header whose 64 bytes, at an operand-store offset, are `w`. -/
def indexOf (d off w : Nat) : Index :=
  { die := d, base := off, word := w, fmt := bits w 27 24, tensor := bits w 63 32, linesR := bits w 79 64,
    linesC := bits w 95 80, present := bits w 127 96, vlen := bits w 159 128, mlen := bits w 191 160, cdir := bits w 223 192,
    entries := bits w 255 224, clist := bits w 287 256, ilen := bits w 319 288, mbase := bits w 383 320, sbase := bits w 447 384 }

/-- Reads the index header at an operand-store offset. -/
def State.index (s : State) (d off : Nat) : Index := indexOf d off ((s.opStore d).readLE off 64)

/-- Word `x` of the row directory (R101). -/
def State.rowDir (s : State) (ix : Index) (x : Nat) : Nat := (s.opStore ix.die).readLE (ix.base + 64 + 4 * x) 4

/-- Word `x` of the column directory. -/
def State.colDir (s : State) (ix : Index) (x : Nat) : Nat := (s.opStore ix.die).readLE (ix.base + ix.cdir + 4 * x) 4

/-- Word `x` of the column list. -/
def State.colList (s : State) (ix : Index) (x : Nat) : Nat := (s.opStore ix.die).readLE (ix.base + ix.clist + 4 * x) 4

/-- The entry of ordinal `t` whose 16 bytes are `w`. -/
def entryOf (t w : Nat) : Entry :=
  { ordinal := t, word := w, col := bits w 15 0, row := bits w 31 16, pat := bits w 33 32, palette := bits w 63 48,
    voff := bits w 95 64, moff := bits w 127 96 }

/-- Entry `t` of the entry list. -/
def State.entry (s : State) (ix : Index) (t : Nat) : Entry :=
  entryOf t ((s.opStore ix.die).readLE (ix.base + ix.entries + 16 * t) 16)

/-- Every entry, in order. -/
def State.entriesOf (s : State) (ix : Index) : List Entry := (List.range ix.present).map (s.entry ix)

/-- Stored values, metadata bytes of a pattern (Table 4.1). -/
def patValues (pat : Nat) : Nat := match pat with | 0 => 1024 | 1 => 512 | _ => 256

def patMeta (pat : Nat) : Nat := match pat with | 0 => 0 | 1 => 64 | 2 => 64 | _ => 128

/-- The number of a block's groups and their length along j (R95); a dense-block is taken in groups of 4 (R128). -/
def patGroup (pat : Nat) : Nat := if pat = 3 then 8 else 4

/-- A block's metadata as a number, bit b at bit b (R96). -/
def State.metadata (s : State) (ix : Index) (e : Entry) : Nat :=
  (s.opStore ix.die).readLE (opOffset ix.mbase + 64 * e.moff) (patMeta e.pat)

/-- The positions of group `g` that hold a value, ascending. -/
def groupPositions (pat palette meta_ g : Nat) : List Nat :=
  match pat with
  | 0 => [0, 1, 2, 3]
  | 1 => let mask := bits palette (4 * bits meta_ (2 * g + 1) (2 * g) + 3) (4 * bits meta_ (2 * g + 1) (2 * g))
         (List.range 4).filter (bit mask)
  | 2 => [bits meta_ (2 * g + 1) (2 * g)]
  | _ => (List.range 8).filter (bit (bits meta_ (8 * g + 7) (8 * g)))

/-- The stored positions of a block in storage order, with their group: (group, i, j) (R95, R96). -/
def State.positions (s : State) (ix : Index) (e : Entry) : List (Nat × Nat × Nat) :=
  let w := patGroup e.pat
  let perRow := 32 / w
  let m := s.metadata ix e
  (List.range (32 * perRow)).flatMap fun g =>
    (groupPositions e.pat e.palette m g).map fun p => (g, g / perRow, w * (g % perRow) + p)

/-- Where a block's values lie in a value plane at `plane`. -/
def Entry.slot (e : Entry) (plane : Nat) : Nat := plane + 128 * e.voff

/-- A stored value: the `o`-th of a block in the value plane at `plane`, under the block row's scale in E2M1 (R98). -/
def State.blockValue (s : State) (ix : Index) (plane : Nat) (e : Entry) (o i : Nat) : Num :=
  if ix.fmt = 4 then
    ofScaled 4 (s.codeAt ix.die 4 (e.slot plane) o) ((s.opStore ix.die).read (opOffset ix.sbase + 32 * e.ordinal + i)).toNat
  else s.elem ix.die ix.fmt (e.slot plane) o 0

/-- A block's stored values with their positions: (group, i, j, value). -/
def State.blockValues (s : State) (ix : Index) (plane : Nat) (e : Entry) : List (Nat × Nat × Nat × Num) :=
  let ps := s.positions ix e
  (ps.zip (List.range ps.length)).map fun p => (p.1.1, p.1.2.1, p.1.2.2, s.blockValue ix plane e p.2 p.1.2.1)

/-- The dense 32 × 32 form of a block: its rows; absent positions are zero (R97). -/
def State.dense (s : State) (ix : Index) (plane : Nat) (e : Entry) : List (List Num) :=
  let vs := s.blockValues ix plane e
  (List.range 32).map fun i => (List.range 32).map fun j =>
    ((vs.find? fun v => v.2.1 == i && v.2.2.1 == j).map (·.2.2.2)).getD Num.zero

/-- The output lines of a tile walk the rows, or the columns where the operand is transposed (R105). -/
def State.walk (s : State) (ix : Index) (columns : Bool) (x : Nat) : List Entry :=
  if columns then
    let a := s.colDir ix x % 2 ^ 24
    (span a (s.colDir ix (x + 1) % 2 ^ 24 - a)).map fun p => s.entry ix (s.colList ix p % 2 ^ 24)
  else
    let a := s.rowDir ix x % 2 ^ 24
    (span a (s.rowDir ix (x + 1) % 2 ^ 24 - a)).map (s.entry ix)

/-- The SPILL bit of an output line. -/
def State.spillBit (s : State) (ix : Index) (columns : Bool) (x : Nat) : Bool :=
  bit (if columns then s.colDir ix x else s.rowDir ix x) 24

/-! ### The checks of Table 4.11 -/

/-- Code 0x01. -/
def Index.check1 (ix : Index) : Bool :=
  bits ix.word 15 0 == 0x5049 && bits ix.word 23 16 == 1 && bits ix.word 31 28 == 0 && bits ix.word 511 448 == 0 &&
  (ix.mlen == 0 || (bit ix.mbase 63 && bits ix.mbase 62 27 == 0)) &&
  (if ix.fmt = 4 then bit ix.sbase 63 && bits ix.sbase 62 27 == 0 else ix.sbase == 0)

/-- A directory of `n` lines: it starts at 0, never decreases, ends at PRESENT, and its reserved bits are zero. -/
def directoryOk (word : Nat → Nat) (n present : Nat) : Bool :=
  word 0 % 2 ^ 24 == 0 && word n % 2 ^ 24 == present &&
  (List.range n).all (fun x => decide (word x % 2 ^ 24 ≤ word (x + 1) % 2 ^ 24)) &&
  (List.range (n + 1)).all (fun x => bits (word x) 31 25 == 0) && !bit (word n) 24

/-- Code 0x05. -/
def State.check5 (s : State) (ix : Index) : Bool :=
  let part := fun (o n : Nat) => o % 64 == 0 && decide (64 ≤ o) && decide (o + n ≤ ix.ilen)
  decide (ix.present ≤ ix.linesR * ix.linesC) && decide (64 + 4 * (ix.linesR + 1) ≤ ix.ilen) &&
  part ix.cdir (4 * (ix.linesC + 1)) && part ix.entries (16 * ix.present) && part ix.clist (4 * ix.present) &&
  directoryOk (s.rowDir ix) ix.linesR ix.present && directoryOk (s.colDir ix) ix.linesC ix.present

/-- The output lines a tile spills, ascending (R106). -/
def State.spilled (s : State) (ix : Index) (columns : Bool) (spill lines : Nat) : List Nat :=
  if spill = 0 then [] else (List.range lines).filter (s.spillBit ix columns)

/-- The first of checks 0x01 to 0x07 that fails, for a tile whose value plane lies at `plane` and whose format must be
`fmt`; `lines` are the block-rows and block-columns it must have. -/
def State.headChecks (s : State) (ix : Index) (t : Tile) (plane fmt : Nat) (lines : Nat × Nat) : Option Nat :=
  let columns := t.wt
  let out := if columns then ix.linesC else ix.linesR
  if !ix.check1 then some 1
  else if ix.tensor != t.tensor then some 2
  else if ix.fmt != fmt || decide (4 < ix.fmt) then some 3
  else if ix.linesR != lines.1 || ix.linesC != lines.2 then some 4
  else if !s.check5 ix then some 5
  else if decide (256 < out + (s.spilled ix columns t.spill out).length * (t.spill - 1)) then some 6
  else if !(inStore ix.base ix.ilen && inStore plane (128 * ix.vlen) &&
    (ix.mlen == 0 || inStore (opOffset ix.mbase) (64 * ix.mlen)) &&
    (ix.fmt != 4 || inStore (opOffset ix.sbase) (32 * ix.present))) then some 7
  else none

/-- The bytes of a block's value slot in a format. -/
def slotBytes (fmt pat : Nat) : Nat := fmtBytes fmt (patValues pat)

/-- Codes 0x08 and 0x0A of an entry that its walk names in line `x` after entry `prev`; 0x09 for a column walk. -/
def Index.entryCheck (ix : Index) (columns : Bool) (fmt x : Nat) (prev : Option Entry) (e : Entry) :
    Option Nat :=
  let order := match prev with | none => true | some p => if columns then decide (p.row < e.row) else decide (p.col < e.col)
  let reserved := bits e.word 47 34 == 0
  if columns && !(decide (e.ordinal < ix.present) && e.col == x && order) then some 9
  else if !(reserved && decide (e.col < ix.linesC) && decide (e.row < ix.linesR)) || (!columns && !(e.row == x && order)) then
    some 8
  else if !(decide (128 * e.voff + slotBytes fmt e.pat ≤ 128 * ix.vlen) &&
    (e.pat == 0 || decide (64 * e.moff + patMeta e.pat ≤ 64 * ix.mlen))) then some 10
  else none

/-- Two bits are set in an `n`-bit mask. -/
def twoBits (n mask : Nat) : Bool := ((List.range n).filter (bit mask)).length == 2

/-- Code 0x0B of a block: the group where a bitmap fails, 0xFFFF where no group applies (R121). -/
def State.decodeCheck (s : State) (ix : Index) (e : Entry) : Option Nat :=
  if e.pat != 1 && e.palette != 0 then some 0xFFFF
  else if e.pat == 0 && e.moff != 0 then some 0xFFFF
  else match e.pat with
    | 1 => if (List.range 4).all fun k => twoBits 4 (bits e.palette (4 * k + 3) (4 * k)) then none else some 0xFFFF
    | 3 => let m := s.metadata ix e
           (List.range 128).find? fun g => !twoBits 8 (bits m (8 * g + 7) (8 * g))
    | _ => none

/-- The entry that a walk reads at a place of its line, after the places from `first` on: the entry, and the check of codes 0x08 to
0x0A that it fails (R121). -/
def State.walkEntry (s : State) (ix : Index) (columns : Bool) (fmt line first place : Nat) : Entry × Option Nat :=
  let at_ := fun (p : Nat) => s.entry ix (if columns then s.colList ix p % 2 ^ 24 else p)
  let e := at_ place
  let listed := !columns || bits (s.colList ix place) 31 24 == 0
  (e, if !listed then some 9 else ix.entryCheck columns fmt line (if place = first then none else some (at_ (place - 1))) e)

/-- The first failing entry of a walk over `lines` lines: check code, ordinal and group (R121). `decode` adds code 0x0B. -/
def State.walkChecks (s : State) (ix : Index) (columns : Bool) (fmt lines : Nat) (decode : Bool) : Option (Nat × Nat × Nat) :=
  (List.range lines).findSome? fun x =>
    let es := s.walk ix columns x
    let a := (if columns then s.colDir ix x else s.rowDir ix x) % 2 ^ 24
    (es.zip (List.range es.length)).findSome? fun p =>
      let listed := !columns || bits (s.colList ix (a + p.2)) 31 24 == 0
      if !listed then some (9, p.1.ordinal, 0xFFFF)
      else match ix.entryCheck columns fmt x (if p.2 = 0 then none else es[p.2 - 1]?) p.1 with
        | some c => some (c, p.1.ordinal, 0xFFFF)
        | none => if decode then (s.decodeCheck ix p.1).map fun g => (11, p.1.ordinal, g) else none

/-- SPARSE_FORMAT with its detail (Table 13.7): directory entry and descriptor of the tile, check, ordinal, group. -/
def State.sparseFormat (s : State) (i : Issue) (entry descriptor check ordinal group : Nat) : State :=
  s.raise 0x102 i.unit (unitDie i.unit) i.ctx
    (packFields [(4, entry), (24, descriptor), (8, check), (24, ordinal), (16, group)])

end Sys2Proof.Machine
end

