-- ==== Sys2Proof/Machine/Clasp.lean ====
section
/-! DEFINITION. Accesses of blocks through the Clasp: the checks of a read from HBM (R255, R258), poison that a read meets
(R257), and writes that merge (R260). -/

namespace Sys2Proof.Machine

/-! ### Reads (R255, R257) -/

/-- A line of the block is in the slice of its stack. -/
def State.cached (s : State) (b : Nat) : Bool := (s.slice (b / 2 ^ 28)).any fun l => l.block == b

/-- The line of a block is in the slice of its stack and holds data that HBM does not. -/
def State.heldDirty (s : State) (b : Nat) : Bool := (s.slice (b / 2 ^ 28)).any fun l => l.block == b && l.dirty

/-- An injected corruption meets the block that its controller reads next from HBM: the block is flawed (R364). -/
def State.corruptBlock (s : State) (b : Nat) : State :=
  let u := 0x40 + b / 2 ^ 28
  if s.faults.corrupt.contains (0x201, u) then
    { s with
      mem := { s.mem with flawed := (b, false) :: s.mem.flawed.filter fun f => f.1 != b }
      faults := { s.faults with corrupt := s.faults.corrupt.erase (0x201, u) } }
  else s

/-- The on-die ECC severity that a stack reports with a read of HBM: a block whose bits read wrong gives an uncorrected one, any
other may give a corrected one; the command may need a retry for its parity (R242, R255; log 102). -/
def State.countSeverity (s : State) (b : Nat) : State :=
  let k := b / 2 ^ 28 + 1
  let s := s.chance 0x4016 k
  if s.mem.flawed.any fun f => f.1 == b then s.count 0x4013 k 1 else s.chance 0x4012 k

/-- A block read from HBM is checked: a retry that matches is counted, an uncorrectable block raises CRC_PERSIST when its
re-read fails, `delay` cycles on, and is poisoned unless the slice holds the block dirty (R255, R258). -/
def State.checkBlock (s : State) (b ctx delay : Nat) : State :=
  let k := b / 2 ^ 28
  let s := (s.corruptBlock b).countSeverity b
  match s.mem.flawed.find? fun f => f.1 == b with
  | none => s
  | some (_, true) => (s.count 0x4010 (k + 1) 1).mend b
  | some (_, false) =>
    let s := (s.count 0x4011 (k + 1) 1).raiseIn delay 0x201 (0x40 + k) (k / 4) ctx
      (packFields [(64, b * 512), (32, s.tensorField (b * 512))])
    if s.heldDirty b then s else s.poisonHbm (b * 512) 512

/-- The cycles from a read's effect at the slice to its data: to those of Table 10.5 for a hit, a miss, or a miss with its re-read,
less the 16 cycles in which the request reaches the slice; a block that its re-read finds uncorrectable takes 16 more, as
Table 10.7 shows (log 104). -/
def State.readDelay (s : State) (b : Nat) : Nat :=
  if s.cached b then 16
  else if s.faults.corrupt.contains (0x201, 0x40 + b / 2 ^ 28) then 320
  else match s.mem.flawed.find? fun f => f.1 == b with
    | none => 144
    | some (_, true) => 304
    | some (_, false) => 320

/-- A unit reads one block through the slice under a hint: the state after it, the bytes and whether they are poisoned. A block
that was poisoned before the read is consumed; one that this read poisons is reported as CRC_PERSIST or, for a line of the slice,
SRAM_UNCORRECTABLE alone (R255–R257). -/
def State.readBlock (s : State) (u ctx b hint uses : Nat) : State × List Byte × Bool :=
  let before := s.mem.poison.contains b
  let s := if s.cached b then s.strikeLine b ctx else s.checkBlock b ctx 304
  let dirty := s.mem.poison.contains b
  let s := if before then s.consume u ctx (b * 512) else s
  let data := s.hbmRead (b * 512) 512
  (s.clasp b hint uses false, data, dirty)

/-- A unit reads the blocks of a range through their slices under the default hint, for the bytes of the range and whether a block
of it is poisoned. -/
def State.readThrough (s : State) (u ctx a n : Nat) : State × List Byte × Bool :=
  let data := s.hbmRead a n
  let r := (blocks a n).foldl (fun (r : State × Bool) b =>
    let x := r.1.readBlock u ctx b 0 0
    (x.1, r.2 || x.2.2)) (s, false)
  (r.1, data, r.2)

/-! ### Writes (R258, R260) -/

/-- A write to a block through the slice: a part of a block that misses fetches the block first (R260). -/
def State.touchWrite (s : State) (ctx b hint uses : Nat) (whole : Bool) : State :=
  if s.cached b then (if whole then s else s.strikeLine b ctx).clasp b hint uses true
  else if whole then s.clasp b hint uses true
  else
    let s := s.checkBlock b ctx 304
    s.clasp b (if hint = 1 then 0 else hint) uses true

/-- Writes bytes through the slices under the default hint, outside any step's records. -/
def State.writeThrough (s : State) (ctx a : Nat) (bytes : List Byte) (poisoned : Bool) : State :=
  ((blocks a bytes.length).foldl (fun (s : State) b =>
    s.touchWrite ctx b 0 0 (decide (a ≤ b * 512) && decide (b * 512 + 512 ≤ a + bytes.length))) s).hbmWrite a bytes poisoned

end Sys2Proof.Machine
end

