-- ==== Sys2Proof/Machine/Protect.lean ====
section
/-! DEFINITION. Writes of a step to HBM: protection classes, record planes and the revert logs (R257, R307–R311), and reads
and writes at an address field of either memory (R50). -/

namespace Sys2Proof.Machine

/-! ### Tensor descriptors (Tables 10.3 and 12.2) -/

def tensorBase (d : Nat) : Nat := bits d 127 64

def tensorLength (d : Nat) : Nat := bits d 191 128

/-- The record plane REC of classes 0x02, 0x04 and 0x05. -/
def tensorRecord (d : Nat) : Nat := bits d 447 384

/-! ### Revert logs (R311) -/

/-- The revert log of a controller. -/
def State.undoLog (s : State) (mc : Nat) : List Undo := kget [] s.mem.revert mc

/-- Adds an entry to a controller's log; the log holds 1,024, and an entry beyond is reported and not added (R311). -/
def State.addUndo (s : State) (mc ctx : Nat) (u : Undo) : State :=
  if 1024 ≤ (s.undoLog mc).length then s.raise 0x311 (0x40 + mc) (mc / 4) ctx 0
  else { s with mem := { s.mem with revert := kset [] s.mem.revert mc (u :: s.undoLog mc) } }

/-- Adds the entry of a tensor on its stack unless this step has one (R311). -/
def State.firstUndo (s : State) (mc ctx : Nat) (u : Undo) : State :=
  if (s.undoLog mc).any fun x => x.tensor == u.tensor then s else s.addUndo mc ctx u

/-- The bytes xor, element by element. -/
def xorBytes (a b : List Byte) : List Byte := (a.zip b).map fun p => p.1 ^^^ p.2

/-- Before a write of `bytes` at `addr` to a tensor: its delta joins the record plane of classes 0x02, 0x04 and 0x05, and
the controller's log takes the tensor's first write (R310, R311). -/
def State.recordWrite (s : State) (ctx tensor addr : Nat) (bytes : List Byte) : State :=
  match s.tensorDesc tensor with
  | none => s
  | some d =>
    let base := tensorBase d
    let mc := stackOf base
    let inside := decide (base ≤ addr) && decide (addr + bytes.length ≤ base + tensorLength d)
    if !inside then s
    else match bits d 207 200 with
      | 2 | 4 | 5 =>
        let r := tensorRecord d + (addr - base)
        let delta := xorBytes (s.hbmRead addr bytes.length) bytes
        let s := s.firstUndo mc ctx { tensor, base, length := tensorLength d, record := some (tensorRecord d) }
        s.writeThrough ctx r (xorBytes (s.hbmRead r bytes.length) delta) false
      | 3 => s.firstUndo mc ctx { tensor, base, length := tensorLength d, record := none }
      | _ => s

/-- A write of the step to a tensor in HBM (R310). -/
def State.stepWrite (s : State) (ctx tensor addr : Nat) (bytes : List Byte) (poisoned : Bool) : State :=
  ((s.noteWritten tensor).recordWrite ctx tensor addr bytes).hbmWrite addr bytes poisoned

/-! ### Address fields (R50) -/

/-- A range at an address field lies in the memory the field names. -/
def anyInside (a len : Nat) : Bool :=
  if bit a 63 then isOpAddr a && inStore (opOffset a) len else decide (a < 2 ^ 41) && programArea a len

/-- Bytes at an address field, read by a unit of die `d`. -/
def State.anyRead (s : State) (d a n : Nat) : List Byte := if bit a 63 then s.opRead d (opOffset a) n else s.hbmRead a n

/-- A number at an address field. -/
def State.anyLE (s : State) (d a n : Nat) : Nat := leNat (s.anyRead d a n)

/-- What a unit's read of a range at an address field does: the blocks of HBM are read through their slices, and poison is consumed;
with whether poison was read (R255–R257). -/
def State.anyTouch (s : State) (u ctx a n : Nat) : State × Bool :=
  if n = 0 then (s, false)
  else if bit a 63 then
    let bad := s.opPoisoned (unitDie u) (opOffset a) n
    let s := (if bad then s.consume u ctx a else s).strikeOp u ctx a
    (s, s.opPoisoned (unitDie u) (opOffset a) n)
  else
    let r := s.readThrough u ctx a n
    (r.1, r.2.2)

/-- A write of a step to a tensor in HBM through the slices of its blocks (R258, R310). -/
def State.stepThrough (s : State) (ctx tensor addr : Nat) (bytes : List Byte) (poisoned : Bool) : State :=
  ((s.noteWritten tensor).recordWrite ctx tensor addr bytes).writeThrough ctx addr bytes poisoned

/-- Writes bytes at an address field as part of a tensor. -/
def State.anyWrite (s : State) (d ctx tensor a : Nat) (bytes : List Byte) (poisoned : Bool) : State :=
  if bit a 63 then s.opWrite d (opOffset a) bytes poisoned else s.stepThrough ctx tensor a bytes poisoned

end Sys2Proof.Machine
end

