-- ==== Sys2Proof/Machine/Sorus.lean ====
section
/-! DEFINITION. The Sorus engine (R104–R124, R131): its job list, dispatcher, lanes, slab buffers and drain, cycle by cycle, and
sparse and sampled products. -/

namespace Sys2Proof.Machine

/-! ### The job list (R105–R107) -/

/-- A share of an output line: its lane, the line, and the places of its blocks in walk order (R106). -/
structure Share where
  lane : Nat
  line : Nat
  places : List Nat
  deriving DecidableEq, Repr

/-- Word `x` of the directory that a walk follows, without its SPILL bit. -/
def State.walkFrom (s : State) (ix : Index) (columns : Bool) (x : Nat) : Nat :=
  (if columns then s.colDir ix x else s.rowDir ix x) % 2 ^ 24

/-- The shares of every output line: share 0 on the line's lane, the others of a spilled line on the spill lanes (R106). -/
def State.shares (s : State) (ix : Index) (t : Tile) (columns : Bool) (lines : Nat) : List Share :=
  let spilled := s.spilled ix columns t.spill lines
  (List.range lines).flatMap fun x =>
    let a := s.walkFrom ix columns x
    let ps := span a (s.walkFrom ix columns (x + 1) - a)
    match spilled.findIdx? (· == x) with
    | none => [{ lane := x, line := x, places := ps }]
    | some k =>
      let n := cdiv ps.length t.spill
      (List.range t.spill).map fun j =>
        { lane := if j = 0 then x else lines + k * (t.spill - 1) + (j - 1), line := x, places := (ps.drop (j * n)).take n }

/-- Rows of slab `b` of a tile (R106). -/
def slabRows (m b : Nat) : List Nat := span (64 * b) (min 64 (m - 64 * b))

/-- The job list: by slab, by round, by lane (R107). -/
def jobList (m : Nat) (shares : List Share) : List Place :=
  let rounds := (shares.map fun x => x.places.length).foldl max 0
  let lanes := (List.range 256).filterMap fun l => shares.find? fun x => x.lane == l
  (List.range (cdiv m 64)).flatMap fun b =>
    (List.range rounds).flatMap fun p =>
      lanes.filterMap fun x => (x.places[p]?).map fun e => { slab := b, lane := x.lane, line := x.line, place := e : Place }

/-- Activation row group `g` contributes nothing to column block `c`: marked zero, or gathered without a valid slot
(R113, R148). -/
def State.groupZero (s : State) (d : Nat) (t : Tile) (usable : Bool) (g c : Nat) : Bool :=
  (usable && s.maskBit d t g c) ||
  (t.gather && (span (32 * g) (min 32 (t.m - 32 * g))).all fun j => !(s.tileSlot d t j).2)

/-- The live rows of a job over reduction block-line `c` and slab `b` (R113). -/
def State.liveRows (s : State) (d : Nat) (t : Tile) (usable : Bool) (b c : Nat) : List Nat :=
  (slabRows t.m b).filter fun r => !s.groupZero d t usable (r / 32) c

/-- Frond cycles of a job of `v` stored values and `l` live rows, for operands of `w` bits (R108, Table 4.6). -/
def jobCycles (w v l : Nat) : Nat := max (cdiv (v * l) (256 * (16 / w))) 24

/-- The wider of a tile's operand widths. -/
def Tile.width (t : Tile) : Nat := if t.sampled then fmtBits t.afmt else max (fmtBits t.wfmt) (fmtBits t.afmt)

/-! ### The work of an engine on its tiles -/

/-- A tile in an engine: its command, whether it is scored or sampled, its tile and its work. -/
structure InEngine where
  cmd : Cmd
  tile : Tile
  score : Bool
  x : Sparse
  deriving DecidableEq, Repr

/-- The tile descriptor a command of a Sorus works on: that of its mask operation for SCORE. -/
def State.sparseTile (s : State) (c : Cmd) : Tile :=
  if c.op = 2 then { s.maskTile (s.maskOp c.issue) with sampled := true } else s.tile c.issue

/-- A work of a Sorus as a tile in its engine. -/
def State.inEngine (s : State) (w : Work) : Option InEngine :=
  match w.load with
  | .sparse x => if w.stuck then none else some { cmd := w.cmd, tile := s.sparseTile w.cmd, score := w.cmd.op == 2, x }
  | _ => none

/-- The tiles in an engine, oldest first. -/
def State.tilesOf (s : State) (u : Nat) : List InEngine :=
  ((s.unit u).tails ++ (s.unit u).work.toList).filterMap s.inEngine

/-- The tile of a serial number in an engine. -/
def State.tileNo (s : State) (u n : Nat) : Option InEngine := (s.tilesOf u).find? fun e => e.x.serial == n

/-- Changes the work on the tile of a serial number. -/
def State.onTile (s : State) (u n : Nat) (f : Sparse → Sparse) : State :=
  let g := fun (w : Work) => match w.load with
    | .sparse x => if x.serial = n then { w with load := .sparse (f x) } else w
    | _ => w
  s.onUnit u fun y => { y with tails := y.tails.map g, work := y.work.map g }

/-- The block index of a tile, by its header as the dispatcher read it. -/
def InEngine.index (e : InEngine) (d : Nat) : Index := indexOf d e.tile.sidx e.x.head

/-- The tile's blocks are stored in this value plane (R105, R115). -/
def InEngine.plane (e : InEngine) : Nat := opOffset (if e.tile.sampled then e.tile.dst else e.tile.wsrc)

/-- The format in which check 0x0A sizes the value slots: OFMT for a sampled product (DESIGN CHOICE, log 118). -/
def Tile.slotFmt (t : Tile) : Nat := if t.sampled then t.ofmt else t.wfmt

/-- The block that a place of the job list names, the check that its entry fails, and the job's block row and block column. -/
def State.placeEntry (s : State) (d : Nat) (e : InEngine) (p : Place) : Entry × Option Nat :=
  if e.score then ({ entryOf p.line 0 with row := p.place / 65536, col := p.place % 65536 }, none)
  else
    let ix := e.index d
    s.walkEntry ix e.tile.wt e.tile.slotFmt p.line (s.walkFrom ix e.tile.wt p.line) p.place

/-- The rows of a slab that SCORE samples in the running step (R131). -/
def sampledRow (sample step m : Nat) : Bool := m % 2 ^ sample == step % 2 ^ sample

/-- The live rows of the job at a place: those of R113, and of SCORE those among them that the step samples (R131). -/
def State.placeRows (s : State) (d : Nat) (e : InEngine) (p : Place) (b : Entry) : List Nat :=
  let l := s.liveRows d e.tile e.x.masked p.slab (if e.tile.wt then b.row else b.col)
  if e.score then l.filter (sampledRow (s.maskOp e.cmd.issue).sample s.stepCount) else l

/-! ### Failures (R122) -/

/-- The operand-store ranges that a failing or mismatching tile leaves poisoned: the outputs, or the value plane of a sampled
product (R115, R122). -/
def State.poisonOutputs (s : State) (d : Nat) (e : InEngine) : State :=
  if e.score then s
  else if e.tile.sampled then s.poisonOp d (opOffset e.tile.dst) (128 * (e.index d).vlen)
  else s.poisonTile d e.tile

/-- A check of the jobs of a tile fails: SPARSE_FORMAT; no further job of the tile is dispatched, those queued are discarded, its
outputs are poisoned, and it is complete 64 cycles on (R122, R134). -/
def State.failTile (s : State) (u : Nat) (e : InEngine) (check ordinal group : Nat) : State :=
  let d := unitDie u
  let n := e.x.serial
  let a := e.cmd.issue.arg.toNat
  let entry := if e.score then 1 else bits a 27 24
  let descriptor := if e.score then (s.maskOp e.cmd.issue).tile else bits a 23 0
  let s := ((s.count 0x7013 (d + 1) 1).sparseFormat e.cmd.issue entry descriptor check ordinal group).poisonOutputs d e
  let g := s.engine d
  let s := s.setSorus d { g with
    lanes := g.lanes.map fun l => (l.1, l.2.filter fun j => j.serial != n || j.begun)
    slabs := g.slabs.filter fun b => b.serial != n
    accs := g.accs.filter fun b => b.serial != n
    drain := g.drain.filter fun b => b.serial != n }
  let over_ := fun (w : Work) => match w.load with
    | .sparse x => if x.serial = n then { w with load := .none, left := some 63 } else w
    | _ => w
  s.onUnit u fun y => { y with
    tails := y.tails.map over_ ++ ((y.work.filter fun w => w.load == .sparse e.x).map over_).toList
    work := y.work.filter fun w => w.load != .sparse e.x }

/-! ### The dispatcher (R107, R109) -/

/-- The slab of a tile is staged whole: all its bytes have come. -/
def State.slabStaged (s : State) (d : Nat) (e : InEngine) (b : Nat) : Bool :=
  (s.engine d).slabs.any fun x => x.serial == e.x.serial && x.slab == b && x.xs.length == (slabRows e.tile.m b).length

/-- The dispatch phase of a tile has begun: its slab 0 has been staged (R111). -/
def State.dispatches (s : State) (d : Nat) (e : InEngine) : Bool := decide (1 < e.x.next) || s.slabStaged d e 0

/-- The dispatcher takes the places at the head of the job list in a cycle: it drops a job without live rows (R113); it stops at a
lane that holds eight jobs or has had one in this cycle, and at a slab that is not staged (R109). A block whose entry fails a check
ends the tile (R121, R122). `fuel` bounds the places. -/
def State.dispatchJobs (u n : Nat) : Nat → List Nat → State → State
  | 0, _, s => s
  | fuel + 1, served, s =>
    let d := unitDie u
    match s.tileNo u n with
    | none => s
    | some e =>
      match e.x.todo with
      | [] => s
      | p :: rest =>
        let b := s.placeEntry d e p
        match b.2 with
        | some check => s.failTile u e check b.1.ordinal 0xFFFF
        | none =>
          let live := s.placeRows d e p b.1
          if live.isEmpty && !e.score then
            ((s.count 0x604E (d + 1) 1).onTile u n fun x => { x with todo := rest }).dispatchJobs u n fuel served
          else
            let q := kget [] (s.engine d).lanes p.lane
            if served.contains p.lane || 8 ≤ q.length || !s.slabStaged d e p.slab then s
            else
              let v := if e.score then 1024 else patValues b.1.pat
              let j : LaneJob :=
                { serial := n, slot := p, ordinal := b.1.ordinal, word := b.1.word, live, decode := 24,
                  left := jobCycles e.tile.width v live.length, begun := false, block := [], places := [] }
              let g := s.engine d
              ((s.setSorus d { g with lanes := kset [] g.lanes p.lane (q ++ [j]) }).onTile u n fun x =>
                { x with todo := rest }).dispatchJobs u n fuel (p.lane :: served)

/-! ### Staging (R110) -/

/-- The bytes of a row that staging reads: the activations with their scales, and of a sampled product the gradient row. -/
def Tile.stagedRow (t : Tile) : Nat :=
  let row := fun (n : Nat) => fmtBytes t.afmt n + (if t.afmt = 4 then cdiv n 32 else 0)
  row t.k + (if t.sampled then row t.n else 0)

/-- Gradient element (m, n) of a sampled product (R115). -/
def State.gradient (s : State) (d : Nat) (t : Tile) (m n : Nat) : Num :=
  let off := opOffset t.wsrc
  if t.afmt = 4 then s.elemE2 d off (t.m * t.n) (m * t.n + n) (m * cdiv t.n 32 + n / 32) else s.elem d t.afmt off (m * t.n + n) 0

/-- The row of a slab that staging comes to, with the ranges it reads of it. -/
def State.stageRanges (s : State) (d : Nat) (t : Tile) (m : Nat) : List (Nat × Nat) :=
  let r := if t.gather then (s.tileSlot d t m).1 else m
  (opOffset t.asrc + r * t.pitch * fmtBits t.afmt / 8, fmtBytes t.afmt t.k) ::
  (if t.sampled then [(opOffset t.wsrc + m * t.n * fmtBits t.afmt / 8, fmtBytes t.afmt t.n)] else [])

/-- One row is staged: its values as the operand store holds them. -/
def State.stageRow (s : State) (u : Nat) (e : InEngine) (m : Nat) : State × List E8M31 × List E8M31 :=
  let d := unitDie u
  let t := e.tile
  let i := e.cmd.issue
  let bad := (s.stageRanges d t m).find? fun r => s.opPoisoned d r.1 r.2
  let dirty := bad.isSome || s.struckAt u
  let xs := (s.activationRow d t m).map toE8
  let gs := if t.sampled then (List.range t.n).map fun n => toE8 (s.gradient d t m n) else []
  let s := (match bad with | some r => s.consume u i.ctx (2 ^ 63 + r.1) | none => s).strikeOp u i.ctx t.asrc
  (if dirty then s.onTile u e.x.serial fun x => { x with poison := true } else s, xs, gs)

/-- The next 2,048 bytes of a slab come: the rows they complete are staged. -/
def State.stageMore (s : State) (u : Nat) (e : InEngine) (b : Slab) : State :=
  let d := unitDie u
  let rows := slabRows e.tile.m b.slab
  let done := b.done + 2048
  let have_ := min rows.length (done / max 1 e.tile.stagedRow)
  let r := (rows.take have_).drop b.xs.length |>.foldl (fun (a : State × Slab) m =>
    let c := a.1.stageRow u e m
    (c.1, { a.2 with xs := a.2.xs ++ [c.2.1], gs := a.2.gs ++ [c.2.2] })) (s, { b with done })
  let g := r.1.engine d
  r.1.setSorus d { g with slabs := g.slabs.map fun x => if x.serial = b.serial ∧ x.slab = b.slab then r.2 else x }

/-- The slab that the engine stages: the buffer that is not full, or the next slab of the oldest tile that has one, where a buffer
is free. -/
def State.nextSlab (s : State) (u : Nat) : Option (InEngine × Slab) :=
  let d := unitDie u
  let g := s.engine d
  match g.slabs.find? fun b => match s.tileNo u b.serial with
      | some e => decide (b.xs.length < (slabRows e.tile.m b.slab).length)
      | none => false with
  | some b => (s.tileNo u b.serial).map fun e => (e, b)
  | none =>
    if 2 ≤ g.slabs.length then none
    else ((s.tilesOf u).find? fun e => decide (e.x.next < cdiv e.tile.m 64) && (e.x.next == 0 || !e.x.todo.isEmpty)).map fun e =>
      (e, { serial := e.x.serial, slab := e.x.next, done := 0, xs := [], gs := [] })

/-- One cycle of staging; `fed` says that it has the banks it wants (R110). -/
def State.stageCycle (s : State) (u : Nat) (fed : Bool) : State :=
  if !fed then s
  else match s.nextSlab u with
    | none => s
    | some (e, b) =>
      let d := unitDie u
      let g := s.engine d
      let s := if g.slabs.contains b then s
        else (s.setSorus d { g with slabs := g.slabs ++ [b] }).onTile u e.x.serial fun x => { x with next := x.next + 1 }
      s.stageMore u e b

/-- A buffer is free when every job of its slab has completed (R110). -/
def State.freeSlabs (s : State) (u : Nat) : State :=
  let d := unitDie u
  let g := s.engine d
  let used := fun (b : Slab) => match s.tileNo u b.serial with
    | none => g.lanes.any fun l => l.2.any fun j => j.serial == b.serial && j.slot.slab == b.slab
    | some e => decide (b.xs.length < (slabRows e.tile.m b.slab).length) ||
        (e.x.todo.any fun p => p.slab == b.slab) || g.lanes.any fun l => l.2.any fun j => j.serial == b.serial && j.slot.slab == b.slab
  s.setSorus d { g with slabs := g.slabs.filter used }

/-! ### Decode and execution (R108, R112, R114, R115, R131) -/

/-- A block in its lane, by reduction index, then output index (R105). -/
def oriented (columns : Bool) (rows : List (List Num)) : List (List Num) :=
  if columns then rows else (List.range 32).map fun j => rows.map fun r => r.getD j Num.zero

/-- The partial product of a row's 32 activations with a block, in ascending reduction index (R112). -/
def blockProduct (xs : List Num) (w : List (List Num)) : List Num :=
  (xs.zip w).foldl (fun acc p => (acc.zip p.2).map fun q => eMac q.1 p.1 q.2) (List.replicate 32 Num.zero)

/-- The lane check of one job (R114): the rows that disagree, with S and z, in row order. -/
def laneCheck (xs : List (List Num)) (w : List (List Num)) : List (Num × Num) :=
  let h := w.map eSum
  let a := w.map fun r => eSum (r.map Num.abs)
  xs.filterMap fun x =>
    let y := blockProduct x w
    let sum := eSum y
    let z := (x.zip h).foldl (fun acc p => eMac acc p.1 p.2) Num.zero
    let u := (x.zip a).foldl (fun acc p => eMac acc p.1.abs p.2) Num.zero
    if sum.finite && z.finite && u.finite && y.all Num.finite && disagrees sum z u then some (sum, z) else none

/-- Adds lists element by element in E8M31. -/
def addRows (a b : List Num) : List Num := (a.zip b).map fun p => eAdd p.1 p.2

/-- The operand ranges that a lane reads for a block: its metadata, its values and their scales, of a sampled product the metadata
alone. -/
def InEngine.blockRanges (e : InEngine) (d : Nat) (b : Entry) : List (Nat × Nat) :=
  let ix := e.index d
  (if patMeta b.pat = 0 then [] else [(opOffset ix.mbase + 64 * b.moff, patMeta b.pat)]) ++
  (if e.tile.sampled then [] else
    (b.slot e.plane, slotBytes ix.fmt b.pat) :: (if ix.fmt = 4 then [(opOffset ix.sbase + 32 * b.ordinal, 32)] else []))

/-- The last cycle of a job's decode: check 0x0B, and then the block as the operand store holds it (R96, R121, R123). -/
def State.decodeJob (s : State) (u : Nat) (e : InEngine) (j : LaneJob) : State × Option LaneJob :=
  let d := unitDie u
  if e.score then (s, some { j with decode := 0 })
  else
    let ix := e.index d
    let b := entryOf j.ordinal j.word
    match s.decodeCheck ix b with
    | some group => (s.failTile u e 11 j.ordinal group, none)
    | none =>
      let bad := (e.blockRanges d b).find? fun r => s.opPoisoned d r.1 r.2
      let s := match bad with
        | some r => (s.consume u e.cmd.issue.ctx (2 ^ 63 + r.1)).onTile u e.x.serial fun x => { x with poison := true }
        | none => s
      let block := if e.tile.sampled then [] else (oriented e.tile.wt (s.dense ix e.plane b)).map fun r => r.map toE8
      let places := if e.tile.sampled then (s.positions ix b).map fun p => p.2 else []
      (s, some { j with decode := 0, block, places })

/-- The rows of a job's slab with their staged values: activations and gradient. -/
def State.stagedRows (s : State) (d : Nat) (j : LaneJob) : List (Nat × List Num × List Num) :=
  match (s.engine d).slabs.find? fun b => b.serial == j.serial && b.slab == j.slot.slab with
  | none => []
  | some b => j.live.map fun m =>
      let k := m - 64 * b.slab
      (m, (b.xs.getD k []).map ofE8, (b.gs.getD k []).map ofE8)

/-- 32 values of a staged row over block `c`. -/
def segment (c : Nat) (xs : List Num) : List Num := (xs.drop (32 * c)).take 32

/-- What a place adds to: the slab and the line; a sampled block by its ordinal and a candidate by its index, over all slabs. -/
def InEngine.placeKey (e : InEngine) (p : Place) : Nat × Nat :=
  if e.score then (0, p.line) else if e.tile.sampled then (0, p.place) else (p.slab, p.line)

/-- The accumulator of a key in a lane, empty where the lane has none. -/
def Sorus.acc (g : Sorus) (n : Nat) (k : Nat × Nat) (lane : Nat) : Accum :=
  (g.accs.find? fun a => a.serial == n && a.slab == k.1 && a.line == k.2 && a.lane == lane).getD
    { serial := n, slab := k.1, line := k.2, lane := lane, full := false, rows := [] }

/-- Two records of one job: its tile and its place in the list. -/
def LaneJob.same (a b : LaneJob) : Bool := a.serial == b.serial && a.slot == b.slot

/-- Puts an accumulator in its place, or behind the others. -/
def Sorus.setAcc (g : Sorus) (a : Accum) : Sorus :=
  let same := fun (b : Accum) => b.serial == a.serial && b.slab == a.slab && b.line == a.line && b.lane == a.lane
  { g with accs := if g.accs.any same then g.accs.map (fun b => if same b then a else b) else g.accs ++ [a] }

/-- The sums of a job of a sampled product or of SCORE over its positions (n, k): each in ascending m (R115, R131). -/
def sampleSums (rows : List (Nat × List Num × List Num)) (row col : Nat) (ps : List (Nat × Nat)) (old : List E8M31) : List E8M31 :=
  (ps.zip (padTo ps.length 0 old)).map fun p =>
    toE8 (rows.foldl (fun acc r =>
      eMac acc ((segment row r.2.2).getD p.1.1 Num.zero) ((segment col r.2.1).getD p.1.2 Num.zero)) (ofE8 p.2))

/-- The block of a job: its row, its column, its values' pattern. -/
def InEngine.jobBlock (e : InEngine) (j : LaneJob) : Entry :=
  if e.score then { entryOf j.ordinal 0 with row := j.slot.place / 65536, col := j.slot.place % 65536 } else entryOf j.ordinal j.word

/-- What a finished job adds to its accumulator (R112, R115, R131). -/
def State.addJob (s : State) (u : Nat) (e : InEngine) (j : LaneJob) : Accum :=
  let d := unitDie u
  let a := (s.engine d).acc e.x.serial (e.placeKey j.slot) j.slot.lane
  let rows := s.stagedRows d j
  let b := e.jobBlock j
  if e.tile.sampled then
    let ps := if e.score then (List.range 1024).map fun k => (k / 32, k % 32) else j.places
    { a with rows := kset [] a.rows 0 (sampleSums rows b.row b.col ps (kget [] a.rows 0)) }
  else
    let w := j.block.map fun r => r.map ofE8
    let c := if e.tile.wt then b.row else b.col
    { a with rows := rows.foldl (fun (m : KMap (List E8M31)) r =>
      let old := (padTo 32 0 (kget [] m r.1)).map ofE8
      kset [] m r.1 ((addRows old (blockProduct (segment c r.2.1) w)).map toE8)) a.rows }

/-- The lane check of a finished job: each row that disagrees is reported, counted and poisons the tile (R114). -/
def State.checkJob (s : State) (u : Nat) (e : InEngine) (j : LaneJob) : State :=
  if e.tile.sampled then s
  else
    let d := unitDie u
    let b := entryOf j.ordinal j.word
    let c := if e.tile.wt then b.row else b.col
    let bad := laneCheck ((s.stagedRows d j).map fun r => segment c r.2.1) (j.block.map fun r => r.map ofE8)
    bad.foldl (fun (s : State) p =>
      (((s.count 0x7014 (d + 1) 1).raise 0x101 u d e.cmd.issue.ctx (witnessDetail e.cmd.issue j.ordinal p.1 p.2)).poisonTile d
        e.tile).onTile u e.x.serial fun x => { x with poison := true }) s

/-- A job has run to completion: it leaves its lane, is counted (R118) and checked, and its sums are added (R112). -/
def State.finishJob (s : State) (u : Nat) (j : LaneJob) : State :=
  let d := unitDie u
  let g := s.engine d
  let l := j.slot.lane
  let s := s.setSorus d { g with lanes := kset [] g.lanes l ((kget [] g.lanes l).filter fun k => !k.same j) }
  match s.tileNo u j.serial with
  | none => s.count 0x604D (d + 1) 1
  | some e =>
    let s := (if e.score then s else s.count 0x604D (d + 1) 1).checkJob u e j
    (s.setSorus d ((s.engine d).setAcc (s.addJob u e j))).onUnit u fun x => { x with progress := x.progress + 1 }

/-! ### One cycle of the lanes (R108, R109, R112) -/

/-- The places of a tile whose jobs have not run yet, each with the lane it falls to. -/
def State.openPlaces (s : State) (d : Nat) (e : InEngine) : List ((Nat × Nat) × Nat) :=
  (e.x.todo.map fun p => (e.placeKey p, p.lane)) ++
  (s.engine d).lanes.flatMap fun l => (l.2.filter fun j => j.serial == e.x.serial).map fun j => (e.placeKey j.slot, j.slot.lane)

/-- An accumulator takes up one of its lane's two: it is in use, or it waits for the drain; the share of a spilled line that other
shares keep waiting is the drain's (R112). -/
def State.occupies (s : State) (u lane : Nat) (a : Accum) : Bool :=
  a.lane == lane && (match s.tileNo u a.serial with
    | some e => !e.tile.sampled && (!a.full || !(s.openPlaces (unitDie u) e).any fun p => p.1 == (a.slab, a.line))
    | none => false)

/-- The lane has an accumulator for the job: the job's own, or a free one of its two (R112). -/
def State.accFree (s : State) (u : Nat) (j : LaneJob) : Bool :=
  match s.tileNo u j.serial with
  | none => true
  | some e =>
    let g := s.engine (unitDie u)
    let k := e.placeKey j.slot
    e.tile.sampled || (g.accs.any fun a => a.serial == j.serial && a.slab == k.1 && a.line == k.2 && a.lane == j.slot.lane) ||
      decide ((g.accs.filter (s.occupies u j.slot.lane)).length < 2)

/-- The segment read of the job at position `pos` of a lane's queue loses its slab-buffer bank to another lane (R109; log 115). -/
def State.segmentLost (s : State) (d lane pos : Nat) : Bool :=
  let g := s.engine d
  (g.lanes.any fun l => l.1 != lane && !l.2.isEmpty) && Config.freeSegment d g.cycles (8 * lane + pos)

/-- The job that a lane executes in a cycle: the one it has begun, else the oldest whose decode is complete, whose segment is read and
that finds an accumulator (R109, R112). -/
def State.laneRuns (s : State) (u lane : Nat) (q : List LaneJob) : Option LaneJob :=
  match q.find? fun j => j.begun with
  | some j => some j
  | none => ((q.zip (List.range q.length)).find? fun p =>
      p.1.decode == 0 && !s.segmentLost (unitDie u) lane p.2 && s.accFree u p.1).map fun p => p.1

/-- Puts a job in the place of the one it was. -/
def State.setJob (s : State) (d : Nat) (j : LaneJob) : State :=
  let g := s.engine d
  let l := j.slot.lane
  s.setSorus d { g with lanes := kset [] g.lanes l ((kget [] g.lanes l).map fun k => if k.same j then j else k) }

/-- One cycle of the decoder of a lane on a job (R108). -/
def State.decodeCycle (s : State) (u : Nat) (j : LaneJob) : State :=
  if 1 < j.decode then s.setJob (unitDie u) { j with decode := j.decode - 1 }
  else match s.tileNo u j.serial with
    | none => s
    | some e => match s.decodeJob u e j with
      | (t, some j) => t.setJob (unitDie u) j
      | (t, none) => t

/-- One cycle of a lane: its job executes, and its decoder works on the first of the next two jobs that is not decoded (R108, R109). -/
def State.laneCycle (s : State) (u lane : Nat) : State :=
  let d := unitDie u
  let q := kget [] (s.engine d).lanes lane
  let next := (q.take 2).find? fun j => j.decode != 0
  let s := match s.laneRuns u lane q with
    | some j => if j.left ≤ 1 then s.finishJob u j else s.setJob d { j with begun := true, left := j.left - 1 }
    | none => s
  match next with
  | some j => s.decodeCycle u j
  | none => s

/-- The dispatcher holds jobs of the current work while a lane that the work uses has nothing to do (R116). -/
def State.laneStarved (s : State) (u : Nat) : Bool :=
  match (s.unit u).work.bind s.inEngine with
  | some e => s.dispatches (unitDie u) e && !e.x.todo.isEmpty &&
      e.x.used.any fun l => (kget [] (s.engine (unitDie u)).lanes l).isEmpty
  | none => false

/-! ### The drain (R112, R115, R131, R143, R161) -/

/-- The sums of line `line` of a slab in row `m`: the partials of its shares in the order in which they arrived (R112). -/
def Sorus.lineSums (g : Sorus) (n slab line m : Nat) : List Num :=
  let ps := (g.accs.filter fun a => a.serial == n && a.slab == slab && a.line == line).map fun a =>
    (padTo 32 0 (kget [] a.rows m)).map ofE8
  match ps with
  | [] => List.replicate 32 Num.zero
  | p :: rest => rest.foldl addRows p

/-- Writes one sampled block: each element added under ACC and rounded once, addressed by its dense-equivalent index (R115, Table
6.3). Scales of an E2M1 plane lie behind the values, 32 bytes a block (DESIGN CHOICE, log 7). -/
def State.putSampled (s : State) (d : Nat) (t : Tile) (ix : Index) (e : Entry) (vs : List Num) (poisoned : Bool) : State :=
  let k := s.columnExp d t
  let site := { s.tileSite d t poisoned with off := e.slot (opOffset t.dst) }
  let scales := roundUp (opOffset t.dst + 128 * ix.vlen) 512 + 32 * e.ordinal
  let ps := s.positions ix e
  let index := fun (p : Nat × Nat × Nat) => t.origin * 1024 + (32 * e.row + p.2.1) * (32 * ix.linesC) + 32 * e.col + p.2.2
  let old := fun (o : Nat) (i : Nat) =>
    if t.ofmt = 4 then ofScaled 4 (s.codeAt d 4 site.off o) ((s.opStore d).read (scales + i)).toNat
    else s.elem d t.ofmt site.off o (s.readExp t.otensor t.ofmt)
  let vals := (ps.zip (vs.zip (List.range vs.length))).map fun p =>
    let v := eScale (-k) p.2.1
    (p.1, p.2.2, if t.acc then eAdd v (old p.2.2 p.1.2.1) else v)
  let s :=
    if t.ofmt = 4 then
      let s := (List.range 32).foldl (fun s i =>
        let row := vals.filter fun v => v.1.2.1 == i
        let sc := blockScale 4 (row.map fun v => v.2.2)
        let s := row.foldl (fun s v =>
          s.setCode d 4 site.off v.2.1 (blockElem 4 sc v.2.2 (s.rand site.tensor (index v.1) site.delta)) poisoned) s
        s.opWrite d (scales + i) [BitVec.ofNat 8 sc] poisoned) s
      s.countNonFinite d (vals.map fun v => v.2.2)
    else vals.foldl (fun s v => s.putVals site v.2.1 (index v.1) [v.2.2]) s
  s.reportMax t.otensor (vals.map fun v => v.2.2)

/-- The score of a candidate from the sums over its 32 × 32 positions: their squares, summed by block row, then by block column
(R131; DESIGN CHOICE, log 120). -/
def blockScore (sample : Nat) (e : Int) (sums : List Num) : Num :=
  eScale sample (eSum (sums.map fun v => let v := eScale (-e) v; eMul v v))

/-- The tensor id of the score plane (R131; log 18). -/
def State.scoreTensor (s : State) (p : MaskOp) : Nat := (s.tensorAt p.scores).getD (Config.scoreTensor p.scores)

/-- A score of the plane. -/
def State.scoreAt (s : State) (d : Nat) (p : MaskOp) (i : Nat) : Num := ofCode 0 (s.anyLE d (p.scores + 2 * i) 2)

/-- SCORE adds a candidate's score to its entry of the score plane and rounds it (R131, R165). -/
def State.putScore (s : State) (d : Nat) (e : InEngine) (i : Nat) (sums : List Num) : State :=
  let p := s.maskOp e.cmd.issue
  let tau := s.scoreTensor p
  let v := eAdd (s.scoreAt d p i) (blockScore p.sample (s.columnExp d e.tile) sums)
  let r := sr v 0 (s.rand tau i 0x5000)
  ((s.anyWrite d e.cmd.issue.ctx tau (p.scores + 2 * i) (leBytes 2 r.code) e.x.poison).stored d [r]).reportMax tau [v]

/-- The bytes that the drain writes for a line of a slab, a sampled block or a candidate. -/
def State.handedBytes (s : State) (d : Nat) (e : InEngine) (l : Nat × Nat) : Nat :=
  let t := e.tile
  if e.score then 2
  else if t.sampled then
    let b := s.entry (e.index d) l.2
    fmtBytes t.ofmt (patValues b.pat) + if t.ofmt = 4 then 32 else 0
  else (slabRows t.m l.1).length * (if t.pairOut then 128 else fmtBytes t.ofmt 32 + if t.ofmt = 4 then 1 else 0)

/-- The drain writes a line of a slab, a sampled block or a candidate's score, and its accumulators are free (R112, R115, R131). -/
def State.writeLine (s : State) (u : Nat) (e : InEngine) (l : Nat × Nat) : State :=
  let d := unitDie u
  let g := s.engine d
  let mine := fun (a : Accum) => a.serial == e.x.serial && a.slab == l.1 && a.line == l.2
  let sums := (((g.accs.find? mine).map fun a => kget [] a.rows 0).getD []).map ofE8
  let s := s.setSorus d { g with accs := g.accs.filter fun a => !mine a }
  if e.score then s.putScore d e l.2 (padTo 1024 Num.zero sums)
  else if e.tile.sampled then
    let ix := e.index d
    let b := s.entry ix l.2
    s.putSampled d e.tile ix b (padTo (patValues b.pat) Num.zero sums) e.x.poison
  else (slabRows e.tile.m l.1).foldl (fun (s : State) m =>
    s.drainCols d e.tile m (32 * l.2) (g.lineSums e.x.serial l.1 l.2 m) e.x.poison) s

/-- Every job of row `m` of a slab was dropped: each present block of the tile contributes nothing to it (R113). -/
def State.rowDropped (s : State) (d : Nat) (e : InEngine) (m : Nat) : Bool :=
  (List.range (e.tile.k / 32)).all fun c => s.groupZero d e.tile e.x.masked (m / 32) c

/-- The row of a slab as a tile with TOKERN hands it over (R185). -/
def State.sorusRow (s : State) (d : Nat) (e : InEngine) (slab m : Nat) : Row :=
  let ys := (List.range (e.tile.n / 32)).flatMap fun x => (s.engine d).lineSums e.x.serial slab x m
  { skip := s.rowDropped d e m, y := ys.map toE8, z := 0, u := 0 }

/-- The rows of a slab pass to the kernel as far as it accepts elements (R185, R188); none where the slab is over. `fuel` bounds the
rows. -/
def State.handRows (u : Nat) (e : InEngine) : Nat → Handed → State → State × Option Handed
  | 0, h, s => (s, some h)
  | n + 1, h, s =>
    let d := unitDie u
    if !(slabRows e.tile.m h.slab).contains h.line then
      let g := s.engine d
      (s.setSorus d { g with accs := g.accs.filter fun a => !(a.serial == h.serial && a.slab == h.slab) }, none)
    else
      let room := (s.filigree d).room
      if (s.feeds d (feedIndex u)).isNone || room == 0 then (s, some h)
      else if room < h.need then (s.setFiligree d { s.filigree d with room := 0 }, some { h with need := h.need - room })
      else
        let t := s.setFiligree d { s.filigree d with room := room - h.need }
        match t.handOver u e.tile (h.line, t.sorusRow d e h.slab h.line) e.x.poison with
        | some t => handRows u e n { h with line := h.line + 1, need := e.tile.n } t
        | none => (s, some h)

/-- What waits for the drain passes it in order, `budget` bytes of it in a cycle (R112). -/
def State.passHanded (u : Nat) : Nat → List Handed → State → State × List Handed
  | _, [], s => (s, [])
  | budget, h :: rest, s =>
    match s.tileNo u h.serial with
    | none => passHanded u budget rest s
    | some e =>
      if e.tile.toKern then
        match s.handRows u e 66 h with
        | (t, some h) => (t, h :: rest)
        | (t, none) => passHanded u budget rest t
      else if budget < h.need then (s, { h with need := h.need - budget } :: rest)
      else passHanded u (budget - h.need) rest (s.writeLine u e (h.slab, h.line))

/-- One cycle of the Sorus drain: 1,024 bytes (R112). -/
def State.drainCycle (s : State) (u : Nat) : State :=
  let d := unitDie u
  let r := State.passHanded u 1024 (s.engine d).drain s
  r.1.setSorus d { r.1.engine d with drain := r.2 }

/-- The accumulators of a tile whose jobs have all run are handed over, behind those handed over before (R112). -/
def State.handAccs (s : State) (u : Nat) (e : InEngine) : State :=
  let d := unitDie u
  let g := s.engine d
  let open_ := s.openPlaces d e
  let done := fun (a : Accum) => a.serial == e.x.serial && !a.full && !open_.contains ((a.slab, a.line), a.lane)
  s.setSorus d { g with accs := g.accs.filter (fun a => !done a) ++ (g.accs.filter done).map fun a => { a with full := true } }

/-- The outputs of a tile that no job is open for, in slabs that have been staged, wait for the drain; those of a tile with TOKERN
slab by slab (R112, R185). -/
def State.handLines (s : State) (u : Nat) (e : InEngine) : State :=
  let d := unitDie u
  let open_ := (s.openPlaces d e).map fun p => p.1
  let done := fun (l : Nat × Nat) => !open_.contains l && (e.x.todo.isEmpty || s.slabStaged d e l.1)
  let whole := fun (l : Nat × Nat) => if e.tile.toKern then e.x.lines.all fun k => k.1 != l.1 || done k else done l
  let ready := e.x.lines.filter whole
  if ready.isEmpty then s
  else
    let out := if e.tile.toKern then (ready.filter fun l => l.2 == 0).map fun l =>
        { serial := e.x.serial, slab := l.1, line := 64 * l.1, need := e.tile.n : Handed }
      else ready.map fun l => { serial := e.x.serial, slab := l.1, line := l.2, need := s.handedBytes d e l }
    let g := s.engine d
    (s.setSorus d { g with drain := g.drain ++ out }).onTile u e.x.serial fun x =>
      { x with lines := x.lines.filter fun l => !ready.contains l }

/-- What a cycle has completed goes on: accumulators and lines, for every tile in the engine. -/
def State.handReady (s : State) (u : Nat) : State :=
  (s.tilesOf u).foldl (fun (s : State) e =>
    let s := s.handAccs u e
    match s.tileNo u e.x.serial with
    | some e => s.handLines u e
    | none => s) s

/-! ### One Frond cycle of the Sorus -/

/-- Frond cycles that a lane still needs for what its queue holds. -/
def laneLeft (q : List LaneJob) : Nat := match q with
  | [] => 0
  | j :: _ => j.decode + (q.map fun k => k.left).foldl (· + ·) 0

/-- The cycles that a tile in an engine still needs, where no bank is lost: by lane its queue and the jobs not yet dispatched, each of
the tile's rate, and the 64 of its completion (R111; log 106). -/
def State.sparseLeft (s : State) (u : Nat) (e : InEngine) : Nat :=
  let d := unitDie u
  let g := s.engine d
  let job := jobCycles e.tile.width 1024 64
  64 + ((e.x.used.map fun l =>
    laneLeft (kget [] g.lanes l) + job * (e.x.todo.filter fun p => p.lane == l).length).foldl max 0)

/-- The dispatch phase of the current work ends with its last job, and a tile whose last job has run is complete 64 cycles on; one
without any job 64 cycles after its dispatch phase (R111; DESIGN CHOICE, log 119). -/
def State.turnTiles (s : State) (u : Nat) : State :=
  let d := unitDie u
  let over_ := match (s.unit u).work.bind s.inEngine with
    | some e => s.dispatches d e && e.x.todo.isEmpty
    | none => false
  let s := if over_ then s.onUnit u fun y => { y with work := none, tails := y.tails ++ y.work.toList } else s
  let queued := (s.engine d).lanes.flatMap fun l => l.2.map fun j => j.serial
  let last := fun (w : Work) => match w.load with
    | .sparse x => if w.left.isNone && !w.stuck && !queued.contains x.serial then { w with left := some 64, tail := 0 } else w
    | _ => w
  let need := fun (w : Work) => match s.inEngine w with
    | some e => if w.left.isNone then { w with tail := s.sparseLeft u e } else w
    | none => w
  s.onUnit u fun y => { y with work := y.work.map need, tails := y.tails.map fun w => last (need w) }

/-- The dispatcher's cycle: it takes jobs of the current work (R109). -/
def State.dispatchCycle (s : State) (u : Nat) : State :=
  match (s.unit u).work.bind s.inEngine with
  | some e =>
    if s.dispatches (unitDie u) e then State.dispatchJobs u e.x.serial (e.x.todo.length + 1) [] s else s
  | none => s

/-- One Frond cycle of a Sorus. `fed` says that its staging has its banks, `open_` that its drain has them. Under HOLD nothing moves;
the cycles are planned freezes (Table 4.7; log 116). -/
def State.sorusCycle (s : State) (u : Nat) (fed open_ : Bool) : State :=
  let d := unitDie u
  if (s.unit u).mode == 3 then (s.planned u 1).onUnit u fun x => { x with frozen := true }
  else
    let s := s.onUnit u fun x => { x with tails := x.tails.map fun w => { w with left := w.left.map (· - 1) } }
    let s := s.dispatchCycle u
    let starved := s.laneStarved u
    let s := if starved then s.unplanned u 1 else s
    let lanes := (s.engine d).lanes.map fun l => l.1
    let s := (lanes.foldl (fun (s : State) l => s.laneCycle u l) s).stageCycle u fed
    let s := s.handReady u
    let s := if open_ then s.drainCycle u else s
    let s := (s.turnTiles u).freeSlabs u
    let g := s.engine d
    (s.setSorus d { g with cycles := g.cycles + 1 }).onUnit u fun x => { x with frozen := starved }

/-! ### SPMM -/

/-- The Sorus takes up a tile: its number, its job list and its lines (R106–R111). -/
def State.takeTile (s : State) (op : Nat) (i : Issue) (x : Sparse) : State :=
  let d := unitDie i.unit
  let g := s.engine d
  let x := { x with serial := g.serial }
  let s := (s.setSorus d { g with serial := g.serial + 1 }).onUnit i.unit fun y => { y with
    work := some { cmd := { op, issue := i }, left := none, load := .sparse x, jobs := x.todo.length, stuck := y.stalled }
    stalled := false }
  match s.tileNo i.unit g.serial with
  | some e =>
    let used := (x.todo.filter fun p => e.score || !(s.placeRows d e p (s.placeEntry d e p).1).isEmpty).map fun p => p.lane
    let s := s.onTile i.unit g.serial fun x => { x with used := (List.range 256).filter used.contains }
    match s.tileNo i.unit g.serial with
    | some e => s.onUnit i.unit fun y => { y with work := y.work.map fun w => { w with tail := s.sparseLeft i.unit e } }
    | none => s
  | none => s

/-- A tile that fails a check as it takes effect: SPARSE_FORMAT, nothing is staged or dispatched, its outputs are poisoned, and it is
complete 64 cycles on (R122). -/
def State.rejectSpmm (s : State) (i : Issue) (t : Tile) (ix : Index) (check : Nat) : State :=
  let d := unitDie i.unit
  let a := i.arg.toNat
  let s := (s.count 0x7013 (d + 1) 1).sparseFormat i (bits a 27 24) (bits a 23 0) check 0xFFFFFF 0xFFFF
  let s := if t.sampled then s.poisonOp d (opOffset t.dst) (min (128 * ix.vlen) (2 ^ 27 - opOffset t.dst)) else s.poisonTile d t
  s.onUnit i.unit fun x => { x with
    tails := x.tails ++ [{ cmd := { op := 1, issue := i }, left := if x.stalled then none else some 64, load := .none }]
    stalled := false }

/-- The jobs, lines and masks of a checked tile as its SPMM takes effect. -/
def State.runSpmm (s : State) (i : Issue) (t : Tile) (ix : Index) : State :=
  let d := unitDie i.unit
  let lines := t.n / 32
  let spilled := (s.spilled ix t.wt t.spill lines).length
  let bad := s.accPoison i.unit t
  let s := s.countIf (t.maskIn && !s.maskUsable d t) 0x7023 (d + 1)
  let s := if spilled = 0 then s else s.count 0x604F (d + 1) spilled
  let s := if bad then s.consume i.unit i.ctx t.dst else s
  s.takeTile 1 i {
    serial := 0, head := ix.word, todo := jobList t.m (s.shares ix t t.wt lines), used := [], next := 0
    lines := if t.sampled then (List.range ix.present).map fun o => (0, o)
      else (List.range (cdiv t.m 64)).flatMap fun b => (List.range lines).map fun x => (b, x)
    masked := s.maskUsable d t, poison := bad }

/-- SPMM takes effect: a stale route stops it (R148); the header and the directories are checked (R121, R122); then its slabs are
staged and its jobs dispatched. -/
def startSpmm (i : Issue) (s : State) : State :=
  let d := unitDie i.unit
  let t := s.tile i
  let ix := s.index d t.sidx
  let plane := opOffset (if t.sampled then t.dst else t.wsrc)
  let lines := if t.wt then (t.k / 32, t.n / 32) else (t.n / 32, t.k / 32)
  if (t.gather || t.scatter) && !s.routeFresh d (s.tileRoute t) then (s.poisonTile d t).raise 0x30B i.unit d i.ctx 0
  else match s.headChecks ix t plane t.wfmt lines with
    | some c => s.rejectSpmm i t ix c
    | none => s.runSpmm i t ix

def execSpmm (i : Issue) (s : State) : Host.Outcome State Fault Refusal := goOn (s.gate 1 i startSpmm)

/-! ### Completion -/

/-- The oldest tile of an opcode in a Sorus whose 64 cycles of completion have passed, and whose rows the kernel has all taken. -/
def State.sparseDone (s : State) (d op : Nat) : Option Work :=
  let u := 0x20 + d
  (s.unit u).tails.find? fun w => w.cmd.op == op && w.left == some 0 && (match s.inEngine w with
    | some e => !e.tile.toKern || (e.x.lines.isEmpty && (s.engine d).drain.all fun h => h.serial != e.x.serial)
    | none => true)

/-- A tile leaves the engine: what its drain has still to write is written (DESIGN CHOICE, log 119), then its mask plane, and its
poison marks its outputs. -/
def State.leaveEngine (s : State) (u : Nat) (e : InEngine) : State :=
  let d := unitDie u
  let n := e.x.serial
  let rest := (((s.engine d).drain.filter fun h => h.serial == n).map fun h => (h.slab, h.line)) ++ e.x.lines
  let s := if e.tile.toKern then s else rest.foldl (fun (s : State) l => s.writeLine u e l) s
  let s := if e.x.poison then s.poisonOutputs d e else s
  let s := if e.tile.sampled then s else s.putMask d e.tile e.x.poison
  let g := s.engine d
  s.setSorus d { g with
    accs := g.accs.filter fun a => a.serial != n
    drain := g.drain.filter fun h => h.serial != n }

/-- The completion of the oldest tile of an opcode whose end has come: its outputs are visible (R111, R112, R133). -/
def State.completeTile (s : State) (d op : Nat) : State :=
  let u := 0x20 + d
  match s.sparseDone d op with
  | some w =>
    let s := match s.inEngine w with
      | some e => s.leaveEngine u e
      | none => s
    (s.onUnit u fun x => { x with tails := x.tails.erase w }).settle
  | none => s

/-- SPMM_COMPLETE (R111, R112). -/
def spmmComplete (d : Nat) (s : State) : State := s.completeTile d 1

def execSpmmComplete (d : Nat) (s : State) : Host.Outcome State Fault Refusal := goOn (spmmComplete d s)

end Sys2Proof.Machine
end

