-- ==== Sys2Proof/Machine/Blocks.lean ====
section
/-! DEFINITION. Writes of blocks of HBM, and the memory-side reducer (R262, R263, R310). -/

namespace Sys2Proof.Machine

/-! ### Writes -/

/-- A unit writes bytes of one block under a hint. -/
def State.writeBlock (s : State) (ctx tensor a hint uses : Nat) (bytes : List Byte) (poisoned : Bool) : State :=
  let s := s.touchWrite ctx (a / 512) hint uses (bytes.length == 512)
  s.stepWrite ctx tensor a bytes poisoned

/-- Cuts a list of elements of `w` bytes, the first at address `a`, where blocks end. -/
def cutBlocks {α : Type} (w : Nat) : Nat → Nat → List α → List (Nat × List α)
  | 0, _, _ => []
  | fuel + 1, a, l =>
    if l.isEmpty then []
    else
      let n := max 1 ((512 - a % 512) / w)
      (a, l.take n) :: cutBlocks w fuel (a + w * n) (l.drop n)

/-- Writes bytes of any length, block by block. -/
def State.writeBytes (s : State) (ctx tensor a hint uses : Nat) (bytes : List Byte) (poisoned : Bool) : State :=
  (cutBlocks 1 bytes.length a bytes).foldl (fun s p => s.writeBlock ctx tensor p.1 hint uses p.2 poisoned) s

/-! ### The reducer (R262, R263) -/

/-- The block a reduction reads, combines and writes: the line if one is there, else HBM, checked and consumed as any read of its
controller (R255–R257); hints 0 and 1 do not allocate. -/
def State.touchReduce (s : State) (r : Reducer) (b : Nat) : State :=
  let s := if s.cached b then s.strikeLine b r.ctx else s.checkBlock b r.ctx 304
  let s := if s.mem.poison.contains b then s.consume (0x40 + b / 2 ^ 28) r.ctx (b * 512) else s
  let s := s.count 0x4025 (b / 2 ^ 28 + 1) 1
  if !s.cached b && decide (r.hint ≤ 1) then s.clasp b 1 0 true else s.clasp b r.hint r.uses true

/-- Writes the result of a reduction within one block. -/
def State.putReduced (s : State) (r : Reducer) (a : Nat) (bytes : List Byte) (poisoned : Bool) : State :=
  let s := s.touchReduce r (a / 512)
  s.stepWrite r.ctx r.tensor a bytes (poisoned || s.hbmPoisoned a bytes.length)

/-- The larger magnitude of two E8M7 codes: a NaN loses to every number (Table 10.9). -/
def maxAbs (a b : Nat) : Nat :=
  let m := a % 2 ^ 15
  let n := b % 2 ^ 15
  if 0x7F80 < m then (if 0x7F80 < n then 0x7FC0 else n) else if 0x7F80 < n then m else max m n

/-- Numbers of `n` bytes in a list of bytes. -/
def leNumbers (n : Nat) : Nat → List Byte → List Nat
  | 0, _ => []
  | fuel + 1, l => if l.isEmpty then [] else leNat (l.take n) :: leNumbers n fuel (l.drop n)

/-- Combines bytes of stored and source element by element: REDOP 3 to 7 (Table 10.9). -/
def combine (op : Nat) (coef : Byte) (old src : List Byte) : List Byte :=
  let w := redWidth op / 8
  let pairs := (leNumbers w src.length old).zip (leNumbers w src.length src)
  match op with
  | 3 | 4 => pairs.flatMap fun p => leBytes w (p.1 + p.2)
  | 5 => pairs.flatMap fun p => leBytes w (maxAbs p.1 p.2)
  | 6 => xorBytes old src
  | _ => (old.zip src).map fun p => p.1 ^^^ gfMul coef p.2

/-- Adds values to stored elements of E8M7 (REDOP 1) or E5M10 (REDOP 2), number `first` of the region at `base` being the
first: the sum is formed in E8M31 and rounded once at the reducer address (R262, R217). -/
def State.reduceValues (s : State) (r : Reducer) (base first : Nat) (vs : List Num) (poisoned : Bool) : State :=
  let f := r.op - 1
  (cutBlocks 2 vs.length (base + 2 * first) vs).foldl (fun s p =>
    let j0 := (p.1 - base) / 2
    let er := s.readExp r.tensor f
    let ew := s.writeExp r.tensor f
    let old := leNumbers 2 p.2.length (s.hbmRead p.1 (2 * p.2.length))
    let sums := (old.zip p.2).map fun q =>
      let v := ofCode f q.1
      eAdd (if er = 0 then v else eScale (-er) v) q.2
    let st := (sums.zip (List.range sums.length)).map fun q =>
      sr (if ew = 0 then q.1 else eScale ew q.1) f (s.rand r.tensor (r.origin * 1024 + j0 + q.2) r.delta)
    let s := s.putReduced r p.1 (st.flatMap fun x => leBytes 2 x.code) poisoned
    (s.stored (addressDie p.1) st).reportMax r.tensor sums) s

/-- Applies source bytes, the first at byte `off` of the transfer, to the region at `base`. -/
def State.reduceBytes (s : State) (r : Reducer) (base off : Nat) (src : List Byte) (poisoned : Bool) : State :=
  if r.op = 1 ∨ r.op = 2 then
    let w := fmtBits r.sfmt / 8
    let e := s.readExp r.tensor r.sfmt
    let vs := (leNumbers w src.length src).map fun c =>
      let v := ofCode r.sfmt c
      if e = 0 then v else eScale (-e) v
    s.reduceValues r base (off / w) vs poisoned
  else (cutBlocks 1 src.length (base + off) src).foldl (fun s p =>
    s.putReduced r p.1 (combine r.op r.coef (s.hbmRead p.1 p.2.length) p.2) poisoned) s

/-- The coefficient of a REDOP 7 transfer for a source module: GFCOEF, or the byte of its table (R251). -/
def State.coefficient (s : State) (gfcoef coefTab source : Nat) : Byte :=
  if gfcoef = 0 then s.mem.hbm.read (coefTab + source) else BitVec.ofNat 8 gfcoef

/-- A coefficient that comes from a table is read through the slice of its stack (R251, R255, R258). -/
def State.touchTable (s : State) (u ctx redop gfcoef coefTab source : Nat) : State :=
  if redop = 7 ∧ gfcoef = 0 then (s.readThrough u ctx (coefTab + source) 1).1 else s

/-- A coefficient that comes from a table lies in a poisoned block (R257). -/
def State.tablePoisoned (s : State) (redop gfcoef coefTab source : Nat) : Bool :=
  redop == 7 && gfcoef == 0 && s.hbmPoisoned (coefTab + source) 1

/-- The reducer of a transfer for data of a source module. -/
def State.reducer (s : State) (x : Transfer) (ctx source : Nat) : Reducer :=
  { op := x.redop, tensor := x.tensor, origin := x.origin, delta := 0x4000 + source,
    coef := s.coefficient x.gfcoef x.coefTab source, sfmt := x.sfmt, hint := x.hint, uses := x.uses, ctx }

end Sys2Proof.Machine
end

