-- ==== Sys2Proof/Machine/Traffic.lean ====
section
/-! DEFINITION. Data on its way: the bridges between the dies (R16–R18, R21), the regulators and the order in which a stack serves
what waits for it (R243, R244, R263, R265), each cycle by cycle. -/

namespace Sys2Proof.Machine

/-! ### Packets and requests -/

/-- A packet stamped now at the die of its unit (R19). -/
def State.packet (s : State) (unit ctx cls : Nat) (at_ to_ : Nat) (data : List Byte) (poison : Bool) (deed : Deed) : Packet :=
  { unit, ctx, cls, frame := s.clock.frame, cycle := s.clock.cycle, die := unitDie unit, own := false, at_, to_, data, poison, deed }

/-- The stored bytes of `n` source bytes of a reduction: REDOP 1 and 2 widen (R252, R262). -/
def Reducer.stored (r : Reducer) (n : Nat) : Nat := if r.op = 1 ∨ r.op = 2 then n * 16 / fmtBits r.sfmt else n

/-- The local address from which a deed changes HBM, if it does. -/
def Deed.place : Deed → Option Nat
  | .write a _ _ _ => some a
  | .reduce r base off => some (base + r.stored off)
  | .header a _ => some a
  | .piece a _ _ _ => some a
  | _ => none

/-- The stack a request is for. -/
def StackRequest.stack (r : StackRequest) : Nat :=
  match r.ask with
  | .read a _ _ _ => stackOf a
  | .amo a _ _ _ => stackOf a
  | .scrub b => b / 2 ^ 28
  | .put => stackOf (r.packet.deed.place.getD 0)

/-- The first byte it touches, and the bytes it takes tokens for. -/
def StackRequest.address (r : StackRequest) : Nat :=
  match r.ask with
  | .read a _ _ _ => a
  | .amo a _ _ _ => a
  | .scrub b => b * 512
  | .put => r.packet.deed.place.getD 0

def StackRequest.bytes (r : StackRequest) : Nat :=
  match r.ask with
  | .read _ n _ _ => n
  | .amo _ _ n _ => n
  | .scrub _ => 512
  | .put => match r.packet.deed with
    | .reduce x _ _ => x.stored r.packet.data.length
    | _ => r.packet.data.length

/-- It is a reduction, which takes the reducer of its stack (R263). -/
def StackRequest.reduces (r : StackRequest) : Bool :=
  match r.ask, r.packet.deed with
  | .put, .reduce _ _ _ => true
  | .put, .header _ _ => true
  | .put, .piece _ _ _ _ => true
  | _, _ => false

def State.setTraffic (s : State) (t : Traffic) : State := { s with traffic := t }

/-- A request joins those that wait at its stack in its class. -/
def State.ask (s : State) (r : StackRequest) : State :=
  let key := r.stack * 8 + r.packet.cls
  s.setTraffic { s.traffic with requests := kset [] s.traffic.requests key (kget [] s.traffic.requests key ++ [r]) }

/-- A packet arrives within its die `n` cycles on. -/
def State.arriveIn (s : State) (n : Nat) (p : Packet) : State :=
  s.setTraffic { s.traffic with transit := s.traffic.transit ++ [(n, p)] }

/-! ### Bridges (R16–R18, R21) -/

/-- The lane by which a packet at die `a` leaves for die `b`, and the die at its other end: W and E meet through C. -/
def laneOf (a b : Nat) : Nat × Nat := if a < b then (2 * a, a + 1) else (2 * a - 1, a - 1)

/-- The die at which a lane ends. -/
def laneEnd (l : Nat) : Nat := if l = 0 then 1 else if l = 1 then 0 else if l = 2 then 2 else 1

def State.lane (s : State) (l : Nat) : BridgeLane := kget {} s.traffic.lanes l

def State.setLane (s : State) (l : Nat) (x : BridgeLane) : State :=
  s.setTraffic { s.traffic with lanes := kset {} s.traffic.lanes l x }

/-- The 64-byte units of a packet. -/
def Packet.units (p : Packet) : Nat := max 1 (cdiv p.data.length 64)

/-- A packet waits for its lane behind what its unit has there (R18). -/
def State.enterBridge (s : State) (p : Packet) : State :=
  let l := (laneOf p.at_ p.to_).1
  let x := s.lane l
  s.setLane l { x with queues := kset [] x.queues p.unit (kget [] x.queues p.unit ++ [(p, p.units)]) }

/-- A packet goes on from the die it is at: over a bridge, to its stack, or to what takes it there. -/
def State.carry (s : State) (p : Packet) : State :=
  if p.at_ ≠ p.to_ then s.enterBridge p
  else if p.deed.place.isSome then s.ask { ask := .put, packet := p }
  else s.arriveIn 0 p

/-- The packets inside a lane. -/
def BridgeLane.packets (x : BridgeLane) : List Packet := (x.queues.flatMap fun q => q.2.map Prod.fst) ++ x.wire.map Prod.snd

/-- A packet may enter a bridge: every packet of an earlier frame has left it (R21). -/
def State.mayCross (s : State) (l : Nat) (p : Packet) : Bool :=
  let b := l / 2
  ((s.lane (2 * b)).packets ++ (s.lane (2 * b + 1)).packets).all fun q => decide (p.frame ≤ q.frame)

/-- The unit a lane serves next: the next id in the rotation that has something to send (R18). -/
def BridgeLane.turn (x : BridgeLane) (may : Packet → Bool) : Option Nat :=
  let ids := x.queues.filterMap fun q =>
    match q.2 with
    | (p, _) :: _ => if may p then some q.1 else none
    | [] => none
  match ids.find? fun u => decide (x.last < u) with
  | some u => some u
  | none => ids.head?

/-- A packet has left: it is visible 48 cycles and its transfer's resends later, not before what left ahead of it (R16, R17). A packet
that is no part of a unit's work is a transfer of its own. -/
def BridgeLane.leave (x : BridgeLane) (p : Packet) : BridgeLane :=
  let n := max (48 + kget 0 x.delays p.unit) ((x.wire.getLast?.map Prod.fst).getD 0)
  { x with wire := x.wire ++ [(n, p)], delays := if p.own then x.delays else kset 0 x.delays p.unit 0 }

/-- One 64-byte unit of a unit leaves, after 32 cycles for each of its resends (R17). -/
def BridgeLane.sendOne (x : BridgeLane) (resends : Nat → Nat) (u : Nat) : BridgeLane :=
  match kget [] x.queues u with
  | (p, n) :: rest =>
    let x := { x with sent := x.sent + 1, delays := kset 0 x.delays u (kget 0 x.delays u + 32 * resends x.sent) }
    if n ≤ 1 then { x with queues := kset [] x.queues u rest, last := u }.leave p
    else { x with queues := kset [] x.queues u ((p, n - 1) :: rest), last := u }
  | [] => x

/-- The 64-byte units that leave in a cycle, at most `fuel`. -/
def BridgeLane.serve (may : Packet → Bool) (resends : Nat → Nat) : Nat → BridgeLane → BridgeLane
  | 0, x => x
  | fuel + 1, x =>
    match x.turn may with
    | some u => BridgeLane.serve may resends fuel (x.sendOne resends u)
    | none => x

/-- The resends, fewer than eight, that the CRC check of a 64-byte unit of a lane asks for (R17; log 100). -/
def laneResends (l n : Nat) : Nat := Config.freeResends l n % 8

/-- The 64-byte units a bridge carries in a cycle each way: 4.0 TB/s at 1.25 GHz (R16; log 105). -/
def bridgeUnits : Nat := 50

/-- The 64-byte units of the transfer that a packet is part of (Table 13.7). -/
def State.transferUnits (s : State) (p : Packet) : Nat :=
  if p.own then match (s.unit p.unit).work with
    | some w => 8 * bits (s.descOf w.cmd.issue) 287 256
    | none => p.units
  else p.units

/-- BRIDGE_FAIL of a bridge, `west` for data that goes westward (R17, Table 13.7; log 58). -/
def State.raiseBridge (s : State) (east west : Bool) (units : Nat) : State :=
  s.raise 0x205 (if east then 0x81 else 0x80) (b2n east + b2n west) 0 (packFields [(1, b2n east), (1, b2n west), (32, units)])

/-- A packet that has left at place `j` of the wire meets eight failed resends: it comes poisoned and 256 cycles late, and so do
what left behind it and the later packets of its unit (R17). -/
def BridgeLane.fail (x : BridgeLane) (j : Nat) : BridgeLane :=
  match x.wire[j]? with
  | some (n, p) =>
    { x with
      wire := (x.wire.take j ++ [(n + 256, { p with poison := true })]) ++ (x.wire.drop (j + 1)).map fun q => (max q.1 (n + 256), q.2)
      delays := if p.own then kset 0 x.delays p.unit (kget 0 x.delays p.unit + 256) else x.delays }
  | none => x

/-- A cycle of a lane: what may leave leaves, and an injected corruption meets the first packet that does (R364). -/
def State.serveLane (s : State) (l : Nat) : State :=
  let x := s.lane l
  if x.queues.isEmpty then s
  else
    let y := BridgeLane.serve (s.mayCross l) (laneResends l) bridgeUnits x
    let src := 0x80 + l / 2
    match (if s.faults.corrupt.contains (0x205, src) then y.wire[x.wire.length]? else none) with
    | some (_, p) =>
      ({ s with faults := { s.faults with corrupt := s.faults.corrupt.erase (0x205, src) } }.setLane l
        (y.fail x.wire.length)).raiseBridge (l / 2 == 1) (l % 2 == 1) (s.transferUnits p)
    | none => s.setLane l y

/-- A transfer that a unit takes up starts without the delays of an earlier one. -/
def State.clearDelays (s : State) (u : Nat) : State :=
  (List.range 4).foldl (fun (s : State) l =>
    let x := s.lane l
    if kget 0 x.delays u = 0 then s else s.setLane l { x with delays := kset 0 x.delays u 0 }) s

/-! ### Bandwidth regulators (R265) -/

/-- The value in force of a regulator object: index 0x4020 the rate, 0x4021 the burst, by class. -/
def State.regulator (s : State) (index cls : Nat) : Nat :=
  kget (objDefault (objKey index (cls + 1))) s.mem.regulators (objKey index (cls + 1))

/-- What a bucket of a controller gains in a cycle, and its burst, in bytes; number 7 is the bandwidth of the stack itself, which
passes 1,792 bytes a cycle and no more than 2,048 in one (R244). -/
def State.bucketRate (s : State) (cls : Nat) : Nat := if cls = 7 then 1792 else s.regulator 0x4020 cls

def State.bucketBurst (s : State) (cls : Nat) : Nat := if cls = 7 then 2048 else 512 * s.regulator 0x4021 cls

/-- Bytes missing from a bucket of a controller. -/
def State.missing (s : State) (mc cls : Nat) : Int := kget 0 s.mem.tokens (mc * 8 + cls)

/-- The bucket holds the tokens of `n` bytes. -/
def State.holdsTokens (s : State) (mc cls n : Nat) : Bool := decide (s.missing mc cls + n ≤ (s.bucketBurst cls : Nat))

/-- Takes the tokens of an access of `n` bytes. -/
def State.spend (s : State) (mc cls n : Nat) : State :=
  { s with mem := { s.mem with tokens := kset 0 s.mem.tokens (mc * 8 + cls) (s.missing mc cls + n) } }

/-- One cycle of a bucket: it gains its rate up to its burst. -/
def State.refill (s : State) (mc cls : Nat) : State :=
  { s with mem := { s.mem with tokens := kset 0 s.mem.tokens (mc * 8 + cls) (max 0 (s.missing mc cls - s.bucketRate cls)) } }

/-! ### What a stack serves (R243, R244, R263, R265, R268) -/

/-- The pseudo-channel of a block of a stack (R247). -/
def pseudoChannel (b : Nat) : Nat := ((b % 64) ^^^ (b / 64 % 64)) ^^^ (b / 4096 % 64)

/-- The channel of a block is in retraining, or its pseudo-channel is held for a repair (R243, R268). -/
def State.channelHeld (s : State) (b : Nat) : Bool :=
  let k := b / 2 ^ 28
  let pc := pseudoChannel (b % 2 ^ 28)
  (s.mem.retraining.any fun x => x.1 == k && x.2.1 == pc / 2) ||
  (match s.mem.repairHold with | some (j, q, _) => j == k && q == pc | none => false)

/-- A request needs its stack's channel, which is held: it waits. A read that the slice answers does not. -/
def State.channelWaits (s : State) (r : StackRequest) : Bool :=
  let past := match r.ask with | .scrub _ => true | _ => false
  (blocks r.address r.bytes).any fun b => s.channelHeld b && (past || !s.cached b)

/-- The stack has the bandwidth and the reducer for a request in this cycle. -/
def State.stackFree (s : State) (k : Nat) (r : StackRequest) : Bool :=
  s.holdsTokens k 7 r.bytes && (!r.reduces || kget 0 s.traffic.reducing k == 0)

/-- A request is admitted: it takes its tokens and reaches the slice 16 cycles on (Table 10.5), a reduction taking the reducer for
a cycle a stored block (R263). -/
def State.admitted (s : State) (k : Nat) (r : StackRequest) : State :=
  let s := (s.spend k r.packet.cls r.bytes).spend k 7 r.bytes
  let t := s.traffic
  s.setTraffic { t with
    admitted := t.admitted ++ [(16, r)]
    reducing := if r.reduces then kset 0 t.reducing k (max 1 (cdiv r.bytes 512)) else t.reducing }

/-- One request of a class in its turn: with the requests that go on waiting, and whether those behind it must. -/
def State.serveRequest (k cls : Nat) (x : State × List StackRequest × Bool) (r : StackRequest) : State × List StackRequest × Bool :=
  let s := x.1
  if x.2.2 then (s, x.2.1 ++ [r], true)
  else if s.channelWaits r then (s, x.2.1 ++ [r], false)
  else if !s.holdsTokens k cls r.bytes then (s.count 0x4022 (cls + 1) 1, x.2.1 ++ [r], true)
  else if !s.stackFree k r then (s, x.2.1 ++ [r], true)
  else (s.admitted k r, x.2.1, false)

/-- A class of a stack in a cycle. -/
def State.serveClass (s : State) (k cls : Nat) : State :=
  match kget [] s.traffic.requests (k * 8 + cls) with
  | [] => s
  | l =>
    let x := l.foldl (State.serveRequest k cls) (s, [], false)
    x.1.setTraffic { x.1.traffic with requests := kset [] x.1.traffic.requests (k * 8 + cls) x.2.1 }

/-- The cycles that the reserve of the running frame takes lie ahead or have begun: class 3 goes first (R265). -/
def serviceOrder (reserve : Bool) : List Nat := if reserve then [3, 0, 1, 2, 4, 5] else [0, 1, 2, 4, 5, 3]

/-- A cycle of a stack. -/
def State.serveStack (s : State) (reserve : Bool) (k : Nat) : State :=
  (serviceOrder reserve).foldl (fun (s : State) cls => s.serveClass k cls) s

/-- A cycle of every lane and stack. -/
def State.serveTraffic (s : State) (reserve : Bool) : State :=
  let s := if s.traffic.lanes.isEmpty then s else (List.range 4).foldl State.serveLane s
  if s.traffic.requests.isEmpty then s else (List.range 12).foldl (State.serveStack · reserve) s

/-- What is on its way comes a cycle nearer. -/
def Traffic.age (t : Traffic) : Traffic :=
  { t with
    lanes := t.lanes.map fun x => (x.1, { x.2 with wire := x.2.wire.map fun p => (p.1 - 1, p.2) })
    admitted := t.admitted.map fun r => (r.1 - 1, r.2)
    transit := t.transit.map fun p => (p.1 - 1, p.2)
    reducing := (t.reducing.map fun r => (r.1, r.2 - 1)).filter fun r => r.2 != 0 }

/-! ### Requests of units and cores -/

/-- A unit reads bytes of HBM, which a packet then carries to die `to_` (R250, R258). -/
def State.askRead (s : State) (unit ctx cls : Nat) (own : Bool) (a n hint uses to_ : Nat) (deed : Deed) : State :=
  s.ask { ask := .read a n hint uses, packet := { s.packet unit ctx cls (addressDie a) to_ [] false deed with own := own } }

/-- A unit at die `d` sends bytes to HBM. -/
def State.sendWrite (s : State) (unit ctx cls d : Nat) (a tensor hint uses : Nat) (data : List Byte) (poison : Bool) : State :=
  s.carry (s.packet unit ctx cls d (addressDie a) data poison (.write a tensor hint uses))

/-- A unit at die `d` sends bytes to a reducer. -/
def State.sendReduce (s : State) (unit cls d : Nat) (r : Reducer) (base off : Nat) (data : List Byte) (poison : Bool) : State :=
  s.carry (s.packet unit r.ctx cls d (addressDie base) data poison (.reduce r base off))

/-! ### What a unit or a fence waits for -/

/-- The packets of a unit that wait for a lane or a stack. -/
def State.outgoing (s : State) (u : Nat) : Nat :=
  (s.traffic.lanes.map fun x => (kget [] x.2.queues u).length).sum +
  (s.traffic.requests.map fun q => (q.2.filter fun r => r.packet.unit == u && r.packet.own).length).sum

/-- The packets inside the bridges. -/
def State.crossing (s : State) : List Packet := s.traffic.lanes.flatMap fun x => x.2.packets

/-- The packets of a unit's work that are not inside a bridge. -/
def State.offBridge (s : State) (u : Nat) : List Packet :=
  ((s.traffic.requests.flatMap fun q => q.2.map StackRequest.packet) ++ (s.traffic.admitted.map fun r => r.2.packet) ++
    s.traffic.transit.map Prod.snd).filter fun p => p.own && p.unit == u

/-- A frame's transfer is still inside a bridge as the frame ends (R21). -/
def State.lateUnit (s : State) (u : Nat) : Bool := s.crossing.any fun p => p.unit == u

/-- Something that a fence waits for is still inside a bridge: an event stamped before its issue on one of its dies, on its way to
another of them (R22). -/
def State.fenceWaits (s : State) (f : Fence) : Bool :=
  s.crossing.any fun p => bit f.mask p.die && bit f.mask p.to_ &&
    (decide (p.frame < f.frame) || (p.frame == f.frame && decide (p.cycle < f.cycle)))

end Sys2Proof.Machine
end

