-- ==== Sys2Proof/Machine/Banks.lean ====
section
/-! DEFINITION. The banks of the operand stores: who wants which in a Frond cycle, and who gets them (R13, R177, R248; log 122). -/

namespace Sys2Proof.Machine

/-- The requesters of a die's operand store in the order of R248; the weight feeder comes after the array feeders
(DESIGN CHOICE, log 122). -/
inductive Requester where
  | feederA
  | feederB
  | weightFeeder
  | drainA
  | drainB
  | filigree
  | controllers
  | staging
  | sorusDrain
  deriving DecidableEq, Repr

/-- What a requester wants in a cycle: banks, and whether its tile has DEFER (R177). -/
structure BankWant where
  who : Requester
  defer : Bool
  banks : List Nat
  deriving DecidableEq, Repr

/-- The banks of a range of the operand store (R248). -/
def banksOf (r : Nat × Nat) : List Nat :=
  if r.2 = 0 then [] else (List.range (min 64 (cdiv (r.1 % 512 + r.2) 512))).map fun j => (r.1 / 512 + j) % 64

/-- The ranges that a feeder reads of activation row `m`: the stored row, or the stored rows' elements where the operand is presented
transposed. -/
def State.feederRanges (s : State) (d : Nat) (t : Tile) (m : Nat) : List (Nat × Nat) :=
  if t.at_ then (List.range t.k).map fun k => (opOffset t.asrc + (k * t.pitch + m) * fmtBits t.afmt / 8, 1)
  else [s.activationRange d t m]

/-- The banks of ranges whose granules a feeder does not hold from the access before (log 122). -/
def newBanks (held ranges : List (Nat × Nat)) : List Nat :=
  let old := held.flatMap fun r => granules 0 r.1 r.2
  ((ranges.flatMap fun r => granules 0 r.1 r.2).filter fun g => !old.contains g).map fun g => g.2 % 64

/-- What an activation feeder wants: the rows of the next group, where its array does not freeze for another cause. -/
def State.feederWant (s : State) (u : Nat) (who : Requester) : List BankWant :=
  match s.nextGroup u with
  | some (t, g) =>
    if s.freezeCause u false != 0 then []
    else
      let ranges := fun (l : List Nat) => l.flatMap fun m => s.feederRanges (unitDie u) t m
      let held := (((s.unit u).work.bind fun w => w.flight.getLast?).map fun x =>
        (x.rows.filter fun p => !p.2.skip).map fun p => p.1).getD []
      match newBanks (ranges held) (ranges ((g.filter fun p => !p.2).map fun p => p.1)) with
      | [] => []
      | banks => [{ who, defer := t.defer, banks }]
  | none => []

/-- What the weight feeder wants: the next weight row of its load. -/
def State.weightWant (s : State) (d : Nat) : List BankWant :=
  match (s.unit (0x28 + d)).work with
  | some w =>
    let k := 512 - w.left.getD 512
    let t := s.tile w.cmd.issue
    if w.cmd.op = 3 ∨ w.left.isNone ∨ t.k ≤ k then []
    else match newBanks (if k = 0 then [] else [t.weightRow (k - 1)]) [t.weightRow k] with
      | [] => []
      | banks => [{ who := .weightFeeder, defer := t.defer, banks }]
  | none => []

/-- The ranges of output row `m` of a tile, from column `c0` on, `n` columns. -/
def State.outputRanges (s : State) (d : Nat) (t : Tile) (m c0 n : Nat) : List (Nat × Nat) :=
  let j := s.outRow d t m * t.n + c0
  (opOffset t.dst + j * fmtBits t.ofmt / 8, fmtBytes t.ofmt n) :: (if t.pairOut then [(s.loPlane t + 2 * j, 2 * n)] else [])

/-- What the drain of an array wants: the rows at the head of its FIFO. -/
def State.drainWant (s : State) (u : Nat) (who : Requester) : List BankWant :=
  match ((s.products u).filter fun w => !w.fifo.isEmpty).head? with
  | some w =>
    let t := s.tile w.cmd.issue
    let rows := ((w.fifo.head?.map fun g => g.rows).getD []).filter fun p => !p.2.skip
    if t.toKern then []
    else [{ who, defer := false, banks := (rows.flatMap fun p => s.outputRanges (unitDie u) t p.1 0 t.n).flatMap banksOf }]
  | none => []

/-- What the Filigree wants while it works: free banks (log 122). -/
def State.filigreeWant (s : State) (d : Nat) : List BankWant :=
  match (s.unit (0x30 + d)).work with
  | some _ => [{ who := .filigree, defer := false, banks := (List.range 64).filter (Config.freeAccess d s.clock.frame s.clock.cycle) }]
  | none => []

/-- The banks that memory controllers have taken in the cycle. -/
def State.controllerWant (s : State) (d : Nat) : List BankWant :=
  let l := (s.traffic.claims.filter fun c => c / 64 == d).map fun c => c % 64
  if l.isEmpty then [] else [{ who := .controllers, defer := false, banks := l }]

/-- The part of ranges laid end to end from byte `at_` on that falls into the bytes from `lo` on, `n` of them. -/
def clipRanges (lo n : Nat) : Nat → List (Nat × Nat) → List (Nat × Nat)
  | _, [] => []
  | at_, r :: rest =>
    let a := max at_ lo
    let b := min (at_ + r.2) (lo + n)
    (if a < b then [(r.1 + (a - at_), b - a)] else []) ++ clipRanges lo n (at_ + r.2) rest

/-- What Sorus staging wants: its next 2,048 bytes of the slab (R110). -/
def State.stagingWant (s : State) (d : Nat) : List BankWant :=
  match s.nextSlab (0x20 + d) with
  | some (e, b) =>
    let n := max 1 e.tile.stagedRow
    let first := b.done / n
    let rows := ((slabRows e.tile.m b.slab).take (cdiv (b.done + 2048) n)).drop first
    [{ who := .staging, defer := e.tile.defer,
       banks := (clipRanges b.done 2048 (first * n) (rows.flatMap fun m => s.stageRanges d e.tile m)).flatMap banksOf }]
  | none => []

/-- What the Sorus drain wants: the outputs it writes next. -/
def State.sorusDrainWant (s : State) (d : Nat) : List BankWant :=
  let u := 0x20 + d
  match (s.engine d).drain with
  | h :: _ => match s.tileNo u h.serial with
    | some e =>
      if e.tile.toKern || (e.score && !bit (s.maskOp e.cmd.issue).scores 63) then []
      else
        let ranges :=
          if e.score then [(opOffset (s.maskOp e.cmd.issue).scores + 2 * h.line, 2)]
          else if e.tile.sampled then [((s.entry (e.index d) h.line).slot (opOffset e.tile.dst), h.need)]
          else (slabRows e.tile.m h.slab).flatMap fun m => s.outputRanges d e.tile m (32 * h.line) 32
        [{ who := .sorusDrain, defer := false, banks := ranges.flatMap banksOf }]
    | none => []
  | [] => []

/-- The requesters that go before memory controllers, in the order of R248. -/
def State.earlyWants (s : State) (d : Nat) : List BankWant :=
  s.feederWant (0x10 + d) .feederA ++ s.feederWant (0x18 + d) .feederB ++ s.weightWant d ++ s.drainWant (0x10 + d) .drainA ++
  s.drainWant (0x18 + d) .drainB ++ s.filigreeWant d

/-- Every requester of a die in the order of R248: those without DEFER, then those with it. -/
def State.bankWants (s : State) (d : Nat) : List BankWant :=
  let l := s.earlyWants d ++ s.controllerWant d ++ s.stagingWant d ++ s.sorusDrainWant d
  l.filter (fun w => !w.defer) ++ l.filter fun w => w.defer

/-- The banks granted and the requesters that lose one, in order; a requester that loses a bank takes none (R248). -/
def grantBanks (l : List BankWant) : List Nat × List BankWant :=
  l.foldl (fun (a : List Nat × List BankWant) w =>
    if w.banks.any a.1.contains then (a.1, a.2 ++ [w]) else (a.1 ++ w.banks, a.2)) ([], [])

/-- The requesters of a die that lose a bank in a cycle. -/
def State.bankLosers (s : State) (d : Nat) : List BankWant :=
  match s.bankWants d with
  | [] => []
  | [_] => []
  | l => (grantBanks l).2

/-- The DEFER requesters among them that a requester without DEFER wins against (R177). -/
def State.deferLosses (s : State) (d : Nat) : Nat :=
  match (s.bankWants d).filter fun w => w.defer with
  | [] => 0
  | l =>
    let taken := (grantBanks ((s.bankWants d).filter fun w => !w.defer)).1
    (l.filter fun w => w.banks.any taken.contains).length

/-- A bank of die `d` serves a requester that goes before a memory controller in this cycle, or another controller (R248). -/
def State.bankTaken (s : State) (d bank : Nat) : Bool :=
  s.traffic.claims.contains (64 * d + bank) || (grantBanks ((s.earlyWants d).filter fun w => !w.defer)).1.contains bank

/-- A memory controller takes a bank for the cycle. -/
def State.claimBank (s : State) (d bank : Nat) : State :=
  s.setTraffic { s.traffic with claims := insertNat (64 * d + bank) s.traffic.claims }

end Sys2Proof.Machine
end

