-- ==== Sys2Proof/Machine/Flits.lean ====
section
/-! DEFINITION. Flits and the sending side of a link: the header and its CRC (R272–R274), egress and credits (R275–R277),
and the origin table (R284). -/

namespace Sys2Proof.Machine

/-- A flit (Tables 11.2 and 11.3). -/
structure Flit where
  type : Nat
  cls : Nat
  poison : Bool
  src : Nat
  dst : Nat
  slice : Nat
  seq : Nat
  ack : Nat
  addr : Nat
  payload : List Byte
  deriving DecidableEq, Repr

/-- The 252 bytes a CRC covers, with SEQ and ACK as given. -/
def Flit.body (f : Flit) (seq ack : Nat) : List Byte :=
  leBytes 16 (packFields [(4, f.type), (3, f.cls), (1, b2n f.poison), (12, f.src), (12, f.dst), (16, f.slice), (12, seq),
    (12, ack), (8, f.payload.length), (48, f.addr)]) ++ fitBytes 236 f.payload

/-- The 256 bytes of a flit (R272, R274). -/
def Flit.encode (f : Flit) : List Byte := f.body f.seq f.ack ++ leBytes 4 (crc32c (f.body 0 0)).toNat

/-- Reads the fields of 256 bytes. -/
def flitOf (raw : List Byte) : Flit :=
  let h := leNat (raw.take 16)
  { type := bits h 3 0, cls := bits h 6 4, poison := bit h 7, src := bits h 19 8, dst := bits h 31 20,
    slice := bits h 47 32, seq := bits h 59 48, ack := bits h 71 60, addr := bits h 127 80,
    payload := (raw.drop 16).take (bits h 79 72) }

/-- LEN of 256 bytes. -/
def flitLen (raw : List Byte) : Nat := bits (leNat (raw.take 16)) 79 72

/-- The CRC of 256 bytes matches, SEQ and ACK taken as zero (R274). -/
def flitIntact (raw : List Byte) : Bool :=
  let h := leNat (raw.take 16)
  let h0 := bits h 47 0 + 2 ^ 72 * bits h 127 72
  raw.length == 256 && (crc32c (leBytes 16 h0 ++ (raw.drop 16).take 236)).toNat == leNat (raw.drop 252)

/-- SEQ and ACK as a port writes them into a flit it sends; the CRC does not cover them (R274). -/
def stampFlit (raw : List Byte) (seq ack : Nat) : List Byte :=
  let h := leNat (raw.take 16)
  leBytes 16 (bits h 47 0 + 2 ^ 48 * (seq % 4096) + 2 ^ 60 * (ack % 4096) + 2 ^ 72 * bits h 127 72) ++ raw.drop 16

/-! ### Ports -/

/-- The state of a port by Table 11.4. -/
def State.portState (s : State) (p : Nat) : Nat := s.get 0x5020 (p + 1)

/-- The port is up. -/
def State.up (s : State) (p : Nat) : Bool := s.portState p == 1 || s.portState p == 2

/-- The unit of a port. -/
def portUnit (p : Nat) : Nat := 0x50 + p

/-- The egress rank of a flit (R277): LINK, POISON_STEP, RESIL, CENSUS and HEARTBEAT, then the data classes. -/
def egressRank (f : Flit) : Nat :=
  match f.type with
  | 0xC => 0
  | 0xA => 1
  | 0xB => 2
  | 0x8 | 0x9 => 3
  | _ => match f.cls with | 0 => 4 | 1 => 5 | 2 => 6 | 4 => 7 | 5 => 8 | _ => 9

/-- The flit came from another module. -/
def State.inTransit (s : State) (f : Flit) : Bool := f.type != 0xC && f.src != s.moduleId

/-- The port may put the flit on the link: LINK flits always, others under credits and with room in the replay
buffer (R275, R276). -/
def Port.maySend (x : Port) (f : Flit) : Bool := f.type == 0xC || (decide (0 < x.credits) && decide (x.replay.length < 512))

/-- The new flit a port sends next, with its rank: the lowest rank, within it transit and own flits in turn, oldest first (R277). -/
def State.nextFlit (s : State) (x : Port) : Option (Nat × List Byte) :=
  let able := x.queue.filter fun r => x.maySend (flitOf r)
  let rank := fun (r : List Byte) => egressRank (flitOf r)
  let top := able.foldl (fun m r => min m (rank r)) 10
  let level := able.filter fun r => rank r == top
  let turn := !x.transit.contains top
  match level.find? fun r => s.inTransit (flitOf r) == turn with
  | some r => some (top, r)
  | none => level.head?.map fun r => (top, r)

/-- The port puts one flit on the wire with its SEQ and the ACK it owes, and keeps it for replay. -/
def State.sendFlit (s : State) (p : Nat) (r : List Byte) : State :=
  let x := s.port p
  let f := flitOf r
  let out := stampFlit r x.txSeq (x.rxSeq + 4095)
  let rank := egressRank f
  s.setPort p { x with
    queue := x.queue.erase r
    wire := x.wire ++ [out]
    replay := x.replay ++ [out]
    txSeq := (x.txSeq + 1) % 4096
    credits := if f.type = 0xC then x.credits else x.credits - 1
    stuck := if f.type = 0xC then x.stuck else 0
    pace := x.pace - 2560
    transit := if s.inTransit f then insertNat rank x.transit else x.transit.filter (· != rank) }

/-- SEQ of a flit on the wire. -/
def seqOf (r : List Byte) : Nat := (flitOf r).seq

/-- The port sends the next flit of a resend again, with its SEQ and the ACK it owes, which is counted (R275). -/
def State.sendAgain (s : State) (p : Nat) : State :=
  let x := s.port p
  match x.resend with
  | [] => s
  | r :: l =>
    (s.setPort p { x with
      resend := l
      wire := x.wire ++ [stampFlit r (seqOf r) (x.rxSeq + 4095)]
      resends := x.resends + 1
      pace := x.pace - 2560 }).count 0x5021 (p + 1) 1

/-- What a link carries in a cycle, in tenths of a byte (Table 11.1). -/
def State.linkRate (s : State) (p : Nat) : Nat :=
  match s.portState p with
  | 1 => if p = 16 then 896 else 448
  | 2 => if p = 16 then 448 else 224
  | _ => 0

/-- A port whose link is free sends one flit: resends go after the control flits and before the data classes (R271, R277). -/
def State.pump (s : State) (p : Nat) : State :=
  let x := s.port p
  if !s.up p || x.retraining.isSome || decide (x.pace < 2560) then s
  else match s.nextFlit x with
    | some (rank, r) => if rank ≤ 3 ∨ x.resend.isEmpty then s.sendFlit p r else s.sendAgain p
    | none => s.sendAgain p

/-- A cycle of a link: it is freer by what it carries in a cycle, and the port sends what it may (R271). -/
def State.linkCycle (s : State) (p : Nat) : State :=
  let x := s.port p
  let n := s.linkRate p
  let idle := x.queue.isEmpty && x.resend.isEmpty
  (s.setPort p { x with pace := min (if idle then 2560 else 2559 + n) (x.pace + n) }).pump p

/-- A flit joins the queue of a port, which sends what it may. -/
def State.enqueue (s : State) (p : Nat) (r : List Byte) : State :=
  (s.setPort p { s.port p with queue := (s.port p).queue ++ [r] }).pump p

/-- A LINK flit of a port (Table 11.3): its operation in ADDR. -/
def State.sendLink (s : State) (p op : Nat) (payload : List Byte) : State :=
  let f : Flit := { type := 0xC, cls := 0, poison := false, src := s.moduleId, dst := 0, slice := 0, seq := 0, ack := 0, addr := op, payload }
  s.enqueue p (if p = 16 then { f with dst := 0xFFF } else { f with slice := s.get 0x5001 2 }).encode

/-! ### Origin routing (R282, R284) -/

/-- A routing entry of the active bank: table 0 to 15 of a port, 16 the origin table. -/
def State.routeEntry (s : State) (table dst : Nat) : Nat := kget 0x03FF s.bank.routes (table * 4096 + dst)

/-- A port that flits no longer leave by: removed (R280). -/
def State.removed (s : State) (p : Nat) : Bool := s.portState p == 3

/-- The output of an entry: the primary, or the alternate while the primary is a removed port. -/
def State.output (s : State) (table dst : Nat) : Nat :=
  let e := s.routeEntry table dst
  let primary := e % 32
  if primary < 16 ∧ s.removed primary then e / 32 % 32 else primary

/-- The module is fenced: it sends only LINK, CENSUS and HEARTBEAT flits on the fabric (R299). -/
def State.fenced (s : State) : Bool := s.get 0x5040 5 == 1

/-- DETAIL of the port codes (Table 13.7). -/
def portDetail (p : Nat) (f : Flit) : Nat := packFields [(5, p), (12, f.src), (12, f.dst), (3, 0), (16, f.slice), (48, f.addr)]

/-- A flit as it originates in the module. -/
def State.own (s : State) (f : Flit) : Flit := { f with src := s.moduleId, slice := s.get 0x5001 2 }

/-- A flit that originates in the module leaves by the origin table (R282, R284); one to the module itself takes the local
path. A flit without output is not sent and raises DEST_UNREACHABLE from `unit`. -/
def State.originate (s : State) (unit : Nat) (f : Flit) : State :=
  let f := s.own f
  let out := s.output 16 f.dst
  if s.fenced && !(f.type == 0x8 || f.type == 0x9) then s
  else if out = 16 ∧ f.dst = s.moduleId then { s with fabric := { s.fabric with loop := s.fabric.loop ++ [f.encode] } }
  else if 16 ≤ out ∨ s.removed out then s.raise 0x20D unit (unitDie unit) 0 (portDetail out f)
  else s.enqueue out f.encode

/-- A flit to the host adapter by Stavlink (R295). -/
def State.toHost (s : State) (f : Flit) : State :=
  s.enqueue 16 { f with src := s.moduleId, dst := 0xFFF, slice := 0 }.encode

/-- The ports a flooded flit leaves by: the up ports whose permitted list holds the module's own tag (R298, R301). -/
def State.floodPorts (s : State) : List Nat :=
  (List.range 16).filter fun p => s.up p &&
    (List.range 4).any fun j => s.get 0x5001 2 != 0 && bits (kget 0 s.bank.tags p) (16 * j + 15) (16 * j) == s.get 0x5001 2

/-- Sends a flooded flit on every such port but `except`. -/
def State.flood (s : State) (f : Flit) (except : Option Nat) : State :=
  (s.floodPorts.filter fun p => except != some p).foldl (fun s p =>
    s.enqueue p f.encode) s

/-- A plain flit of the module. -/
def plainFlit (type cls dst addr : Nat) (payload : List Byte) : Flit :=
  { type, cls, poison := false, src := 0, dst, slice := 0, seq := 0, ack := 0, addr, payload }

/-- A RESIL flit of a kind about a step (R321). -/
def resilFlit (dst kind subject step : Nat) (payload : List Byte) : Flit :=
  plainFlit 0xB 0 dst (packFields [(4, kind), (12, subject), (32, step)]) payload

end Sys2Proof.Machine
end

