-- ==== Sys2Proof/Machine/Transfers.lean ====
section
/-! DEFINITION. The commands of a memory controller: READ, WRITE, COPY and REDUCE, their completion and the expiry of a
reduction window (R246, R250–R264, R289, R312). -/

namespace Sys2Proof.Machine

/-- The bytes a controller moves in a reference cycle at the least (R244). -/
def mcRate : Nat := 1792

/-- Bridge hops between two dies (R16). -/
def hops (a b : Nat) : Nat := max a b - min a b

/-- The first byte of a range that a reserved region holds, by block. -/
def firstReserved (a len : Nat) : Nat := (((blocks a len).find? fun b => reservedRange (b * 512) 512).getD (a / 512)) * 512

/-- A command whose range touches a reserved region does not run and raises ACCESS_REFUSED (R246; log 26). -/
def State.refuseAccess (s : State) (i : Issue) (a len : Nat) : State :=
  s.raise 0x204 i.unit (unitDie i.unit) i.ctx (packFields [(64, firstReserved a len), (32, s.tensorField (firstReserved a len))])

/-- The cycles to the first block of a read: a hit, a miss, or a miss with its re-read (Table 10.5). -/
def State.readLatency (s : State) (b : Nat) : Nat := if s.cached b then 32 else if s.mem.flawed.any fun f => f.1 == b then 320 else 160

/-- The latency of a write: accepted into the Clasp, or under STREAM to HBM, and at the reducer (Table 10.5). -/
def State.writeLatency (s : State) (x : Transfer) (b : Nat) : Nat :=
  (if x.hint = 1 ∧ !s.cached b then 96 else 16) + (if x.redop = 0 then 0 else 16)

/-- A unit takes up a transfer of `n` blocks, which it then moves cycle by cycle; `latency` is that of the first block (R252). -/
def State.startMoving (s : State) (op : Nat) (i : Issue) (latency n : Nat) (load : Load) : State :=
  (s.clearDelays i.unit).onUnit i.unit fun x => { x with
    work := some { cmd := { op, issue := i }, left := none, load, jobs := n, head := latency, stuck := x.stalled }
    stalled := false }

/-- A transfer that has moved nothing. -/
def freshMove : Load := .moving 0 0 [] 0 { data := [], check := 0, headPoison := false, poison := false }

/-- The table of a transfer's coefficients, if it has one, touches a reserved region (R246, R251). -/
def Transfer.tableReserved (x : Transfer) : Bool := x.redop == 7 && x.gfcoef == 0 && reservedRange x.coefTab 4096

/-! ### READ -/

/-- READ moves blocks of HBM, ascending, into the operand store of the controller's die; poison moves with them. -/
def startRead (i : Issue) (s : State) : State :=
  let x := s.transfer i
  if reservedRange x.src (512 * x.blocks) then s.refuseAccess i x.src (512 * x.blocks)
  else s.startMoving 1 i (s.readLatency (x.src / 512) + 48 * hops (unitDie i.unit) (addressDie x.src)) x.blocks freshMove

def execRead (i : Issue) (s : State) : Host.Outcome State Fault Refusal := goOn (s.gate 1 i startRead)

/-! ### WRITE and COPY -/

/-- What a block of a WRITE or a COPY does at its destination: a write, a reduction, or a part of a transfer with HDR (R250, R251,
R262). -/
def State.blockDeed (s : State) (i : Issue) (x : Transfer) (base j : Nat) : Deed :=
  if x.hdr then .header base j
  else if x.redop = 0 then .write (base + 512 * j) x.tensor x.hint x.uses
  else .reduce (s.reducer x i.ctx s.moduleId) base (512 * j)

/-- WRITE moves blocks of the operand store of the controller's die, ascending, into HBM. -/
def startWrite (i : Issue) (s : State) : State :=
  let x := s.transfer i
  if reservedRange x.dst x.storedBytes then s.refuseAccess i x.dst x.storedBytes
  else if x.tableReserved then s.refuseAccess i x.coefTab 4096
  else (s.touchTable i.unit i.ctx x.redop x.gfcoef x.coefTab s.moduleId).startMoving 2 i
    (s.writeLatency x (x.dst / 512) + 48 * hops (unitDie i.unit) (addressDie x.dst)) x.blocks freshMove

def execWrite (i : Issue) (s : State) : Host.Outcome State Fault Refusal := goOn (s.gate 2 i startWrite)

/-- The module id of a board index of the active board map, 0xFFFF when it is empty (R288). -/
def State.boardModule (s : State) (index : Nat) : Nat := if index < 16 then kget 0xFFFF s.bank.board index else 0xFFFF

/-- The module's own board index (R288): 0xFF for none. -/
def State.boardIndex (s : State) : Nat :=
  ((List.range 16).find? fun j => s.boardModule j == s.moduleId && s.moduleId != 0xFFF).getD 0xFF

/-- The destination of a COPY is another module's memory (R288). -/
def State.copyRemote (s : State) (x : Transfer) : Bool := bit x.dst 62 && s.boardModule (bits x.dst 44 41) != s.moduleId

/-- A block of a COPY to a board address, as flits of at most 236 bytes (R289; log 27). -/
def State.sendBlock (s : State) (i : Issue) (x : Transfer) (peer a off : Nat) (data : List Byte) (poisoned : Bool) : State :=
  let type := if x.redop = 0 then 2 else 3
  let scale := fun (n : Nat) => if (x.redop = 1 ∨ x.redop = 2) then n * 16 / fmtBits x.sfmt else n
  ((pieces 236 3 data).zip (List.range 3)).foldl (fun (s : State) p =>
    s.originate i.unit { plainFlit type x.cls peer ((a + scale (off + 236 * p.2)) % 2 ^ 41) p.1 with poison := poisoned }) s

/-- COPY moves blocks of HBM, ascending, to HBM or to a board address; the module's own board index is the local path
(R250, R288, R289). -/
def startCopy (i : Issue) (s : State) : State :=
  let x := s.transfer i
  let base := x.dst % 2 ^ 41
  let remote := s.copyRemote x
  if reservedRange x.src (512 * x.blocks) then s.refuseAccess i x.src (512 * x.blocks)
  else if !remote && reservedRange base x.storedBytes then s.refuseAccess i base x.storedBytes
  else if !remote && x.tableReserved then s.refuseAccess i x.coefTab 4096
  else if remote && s.boardModule (bits x.dst 44 41) == 0xFFFF then
    s.raise 0x20E i.unit (unitDie i.unit) i.ctx (packFields [(64, x.dst % 2 ^ 45), (32, 0xFFFFFFFF)])
  else
    let latency := s.readLatency (x.src / 512) +
      (if remote then 48 * hops (addressDie x.src) (unitDie i.unit)
      else s.writeLatency x (base / 512) + 48 * hops (addressDie x.src) (addressDie base))
    ((if remote then s else s.touchTable i.unit i.ctx x.redop x.gfcoef x.coefTab s.moduleId).startMoving 3 i latency x.blocks freshMove)

def execCopy (i : Issue) (s : State) : Host.Outcome State Fault Refusal := goOn (s.gate 3 i startCopy)

/-! ### A transfer moves (R18, R244, R250, R252) -/

/-- A block of a unit's own operand store as a controller or a port reads it: its bytes and whether they are poisoned (R256,
R257). -/
def State.takeGranule (s : State) (u ctx off : Nat) : State × List Byte × Bool :=
  let d := unitDie u
  let before := s.opPoisoned d off 512
  let s := (if before then s.consume u ctx (2 ^ 63 + off) else s).strikeOp u ctx (2 ^ 63 + off)
  (s, s.opRead d off 512, s.opPoisoned d off 512)

/-- Block `j` of a READ, WRITE or COPY is asked for or sent. -/
def State.moveBlock (s : State) (w : Work) (j : Nat) : State :=
  let i := w.cmd.issue
  let x := s.transfer i
  let u := i.unit
  let d := unitDie u
  match w.cmd.op with
  | 1 => s.askRead u i.ctx x.cls true (x.src + 512 * j) 512 x.hint x.uses d (.store d (opOffset x.dst + 512 * j))
  | 2 =>
    let r := s.takeGranule u i.ctx (opOffset x.src + 512 * j)
    let bad := r.2.2 || s.tablePoisoned x.redop x.gfcoef x.coefTab s.moduleId
    r.1.carry { r.1.packet u i.ctx x.cls d (addressDie x.dst) r.2.1 bad (r.1.blockDeed i x x.dst j) with own := true }
  | _ =>
    let base := x.dst % 2 ^ 41
    if s.copyRemote x then s.askRead u i.ctx x.cls true (x.src + 512 * j) 512 x.hint x.uses d (.home j)
    else s.askRead u i.ctx x.cls true (x.src + 512 * j) 512 x.hint x.uses (addressDie base) (s.blockDeed i x base j)

/-- Block `j` of the data of a SEND or BCAST, those of the delta copy after those of SRC, is asked for (R13, R291, R315; log 107). -/
def State.gatherBlock (s : State) (w : Work) (j : Nat) : State :=
  let i := w.cmd.issue
  let x := s.transfer i
  let u := i.unit
  let d := unitDie u
  let a := if j < x.blocks then x.src + 512 * j else x.dsrc + 512 * (j - x.blocks)
  if bit a 63 then
    let r := s.takeGranule u i.ctx (opOffset a)
    r.1.arriveIn 0 { r.1.packet u i.ctx x.cls d d r.2.1 r.2.2 (.home j) with own := true }
  else s.askRead u i.ctx x.cls true a 512 x.hint x.uses d (.home j)

/-- The operand store's offset that the next block of a unit's transfer reads, if it reads one. -/
def State.nextGranule (s : State) (w : Work) (j : Nat) : Option Nat :=
  let x := s.transfer w.cmd.issue
  if unitClass w.cmd.issue.unit = 5 then (if w.cmd.op = 2 then some (opOffset x.src + 512 * j) else none)
  else if j < x.blocks ∧ bit x.src 63 then some (opOffset x.src + 512 * j) else none

/-- A unit has as many blocks outstanding as it may before its source waits (R18, R265; log 106). -/
def State.backedUp (s : State) (u : Nat) : Bool := decide (4 ≤ s.outgoing u)

/-- The unit's next block is due by the rate of R244: as many blocks are issued as its cycles of progress allow. -/
def Work.blockDue (w : Work) : Option Nat :=
  let due := fun (issued : Nat) => if !w.stuck && decide (issued < w.jobs) && decide (512 * issued ≤ 1792 * w.age) then some issued else none
  match w.load with
  | .moving issued _ _ _ _ => due issued
  | .gathering issued _ => due issued
  | _ => none

/-- One more block has been issued. -/
def Work.issue (w : Work) : Work :=
  match w.load with
  | .moving issued landed come taken part => { w with load := .moving (issued + 1) landed come taken part }
  | .gathering issued come => { w with load := .gathering (issued + 1) come }
  | _ => w

/-- The bank that a unit's next block reads is free for it in this cycle (R248). -/
def State.granuleFree (s : State) (u : Nat) (w : Work) (j : Nat) : Bool :=
  match s.nextGranule w j with
  | some off => !s.bankTaken (unitDie u) (off / 512 % 64)
  | none => true

/-- Issues at most `fuel` blocks of a unit's transfer in a cycle. -/
def State.issueBlocks (s : State) (u : Nat) : Nat → State
  | 0 => s
  | fuel + 1 =>
    match (s.unit u).work with
    | none => s
    | some w =>
      match w.blockDue with
      | none => s
      | some j =>
        if s.backedUp u || !s.granuleFree u w j then s
        else
          let s := match s.nextGranule w j with
            | some off => s.claimBank (unitDie u) (off / 512 % 64)
            | none => s
          let s := if unitClass u = 5 then s.moveBlock w j else s.gatherBlock w j
          (s.onUnit u fun x => { x with work := x.work.map Work.issue }).issueBlocks u fuel

/-- A block that is due could not be issued, so the transfer waits (R18, R265). -/
def State.transferWaits (s : State) (u : Nat) : Bool :=
  match (s.unit u).work with
  | some w => w.blockDue.isSome
  | none => false

/-- A block of a unit's transfer has landed; the last one ends the work. -/
def Work.land (w : Work) : Work :=
  match w.load with
  | .moving issued landed come taken part =>
    { w with load := .moving issued (landed + 1) come taken part, left := if landed + 1 = w.jobs then some 0 else w.left }
  | _ => w

def State.blockLanded (s : State) (u : Nat) : State :=
  s.onUnit u fun x => { x with
    work := x.work.map Work.land
    progress := x.progress + 1 }

/-! ### REDUCE -/

/-- The armed windows of a controller. -/
def State.windowsOf (s : State) (mc : Nat) : List Window := kget [] s.mem.windows mc

def State.setWindows (s : State) (mc : Nat) (l : List Window) : State :=
  { s with mem := { s.mem with windows := kset [] s.mem.windows mc l } }

/-- Two ranges meet. -/
def overlaps (a n b m : Nat) : Bool := decide (a < b + m) && decide (b < a + n)

/-- The window a REDUCE arms (R264). -/
def windowOf (x : Transfer) (ctx : Nat) : Window where
  base := x.dst
  bytes := x.storedBytes
  op := x.redop
  sfmt := x.sfmt
  coef := x.gfcoef
  coefTab := x.coefTab
  tensor := x.tensor
  origin := x.origin
  hint := x.hint
  uses := x.uses
  cls := x.cls
  ctx := ctx

/-- REDUCE arms a window for exactly its duration; one that overlaps another, or a ninth, does not take effect (R264). -/
def startReduce (i : Issue) (s : State) : State :=
  let x := s.transfer i
  let mc := i.unit - 0x40
  let old := s.windowsOf mc
  if reservedRange x.dst x.storedBytes then s.refuseAccess i x.dst x.storedBytes
  else if x.tableReserved then s.refuseAccess i x.coefTab 4096
  else if decide (8 ≤ old.length) || old.any fun w => overlaps x.dst x.storedBytes w.base w.bytes then s.invalid i
  else (s.setWindows mc (old ++ [windowOf x i.ctx])).startWork 4 i (some i.dur) .none

def execReduce (i : Issue) (s : State) : Host.Outcome State Fault Refusal := goOn (s.gate 4 i startReduce)

/-! ### Completion -/

/-- The unit has work of one of the opcodes. -/
def State.worksAs (s : State) (u : Nat) (ops : List Nat) : Bool :=
  match (s.unit u).work with
  | some w => ops.contains w.cmd.op
  | none => false

/-- TRANSFER_COMPLETE: a transfer of a controller lands its last block (R252). -/
def transferComplete (u : Nat) (s : State) : State :=
  if unitClass u = 5 ∧ s.workOver u [1, 2, 3] then (s.endWork u).settle
  else s

def execTransferComplete (u : Nat) (s : State) : Host.Outcome State Fault Refusal := goOn (transferComplete u s)

/-- REDUCE_WINDOW_EXPIRY: the window closes and the work of its REDUCE ends (R264). -/
def reduceWindowExpiry (u : Nat) (s : State) : State :=
  if unitClass u = 5 ∧ s.workOver u [4] then ((s.setWindows (u - 0x40) ((s.windowsOf (u - 0x40)).drop 1)).endWork u).settle
  else s

def execReduceWindowExpiry (u : Nat) (s : State) : Host.Outcome State Fault Refusal := goOn (reduceWindowExpiry u s)

end Sys2Proof.Machine
end

