-- ==== Sys2Proof/Machine/Links.lean ====
section
/-! DEFINITION. The receiving side of a link and the LINK flits: sequence, replay, credits and ingress checks (R273–R276,
R284), degrade, restore and removal of a port (R278–R280), IDLE flits and PORT_STALL (R285). -/

namespace Sys2Proof.Machine

/-! ### Work that waits for the first hop (R291) -/

/-- The key of a STREAM copy: its destination, and TAG and SERIAL as they stand in ADDR. -/
def Flit.copy (f : Flit) : Nat × Nat := (f.dst, f.addr % 2 ^ 20)

/-- A flit of the copy still waits for its first hop. -/
def State.outstanding (s : State) (c : Nat × Nat) : Bool :=
  let own := fun (r : List Byte) => let f := flitOf r; f.type == 1 && f.copy == c && f.src == s.moduleId
  s.fabric.loop.any own || s.fabric.ports.any fun p => p.2.queue.any own || p.2.replay.any own

/-- The SENDs and BCASTs whose every flit has left end. -/
def State.settleSends (s : State) : State :=
  (unitIds.filter fun u => decide (0x50 ≤ u ∧ u ≤ 0x60)).foldl (fun (s : State) u =>
    match (s.unit u).work with
    | some w => match w.load with
      | .flits copies => if copies.any s.outstanding then s else (s.endWork u).settle
      | _ => s
    | none => s) s

/-! ### Acknowledgement, replay and credits (R275, R276) -/

/-- An ACK frees the replay buffer up to its flit. -/
def State.takeAck (s : State) (p ack : Nat) : State :=
  let x := s.port p
  match x.replay.findIdx? fun r => seqOf r == ack with
  | none => s
  | some j =>
    let rest := x.replay.drop (j + 1)
    let s := s.setPort p { x with replay := rest, resend := x.resend.filter rest.contains, resends := 0 }
    (s.pump p).settleSends

/-- One NAK that names the SEQ expected, and no further one until it arrives. -/
def State.nak (s : State) (p : Nat) : State :=
  let x := s.port p
  if x.nakSent then s else (s.setPort p { x with nakSent := true }).sendLink p 0 (leBytes 2 x.rxSeq)

/-- Every unacknowledged flit from `seq` on is to be sent again, in order. -/
def State.resendFrom (s : State) (p seq : Nat) : State :=
  let x := s.port p
  match x.replay.dropWhile fun r => seqOf r != seq with
  | [] => s
  | l => (s.setPort p { x with resend := l }).pump p

/-- A flit is accepted in sequence: its ACK counts, its place is freed, and every 16 freed places go back as credits. -/
def State.takeFlit (s : State) (p : Nat) (f : Flit) : State :=
  let x := s.port p
  let s := s.setPort p { x with rxSeq := (x.rxSeq + 1) % 4096, nakSent := false, freed := if f.type = 0xC then x.freed else x.freed + 1 }
  let s := s.takeAck p f.ack
  let x := s.port p
  if 16 ≤ x.freed then (s.setPort p { x with freed := 0 }).sendLink p 1 (leBytes 1 x.freed) else s

/-! ### Ingress (R273, R284) -/

/-- LEN and reserved fields of a RESIL flit by its kind (Table 12.8). -/
def resilOk (f : Flit) : Bool :=
  let n := f.payload.length
  match bits f.addr 3 0 with
  | 0x0 => decide (4 ≤ n)
  | 0x1 | 0x2 | 0x3 | 0x4 | 0x5 | 0x8 | 0xB => n == 4
  | 0x6 | 0x7 => n == 0
  | 0x9 => n == 16
  | 0xA => decide (8 ≤ n)
  | _ => false

/-- The flit keeps the rule of its type on port `p` (R273, R295). -/
def flitOk (p : Nat) (raw : List Byte) : Bool :=
  let f := flitOf raw
  let n := flitLen raw
  let pay := leNat f.payload
  let boardAddr := bits f.addr 47 41 == 0
  decide (n ≤ 236) && (p != 16 || [0x0, 0x1, 0x2, 0x4, 0x5, 0xC, 0xD].contains f.type) &&
  (match f.type with
   | 0x0 => f.addr == 0 && n == 0
   | 0x1 => true
   | 0x2 | 0x3 => boardAddr && decide (1 ≤ n)
   | 0x4 => boardAddr && n == 3 && decide (1 ≤ bits pay 23 16 ∧ bits pay 23 16 ≤ 236)
   | 0x5 => bits f.addr 47 16 == 0
   | 0x6 => boardAddr && n == 16 && decide (bits pay 19 16 ≤ 8) && bits pay 63 21 == 0 &&
       f.addr % (if bit pay 20 then 8 else 4) == 0
   | 0x7 => n == 8
   | 0x8 => n == 10
   | 0x9 => bits f.addr 47 18 == 0 && decide (bits f.addr 17 16 ≤ 2)
   | 0xA => n == 4
   | 0xB => resilOk f
   | 0xC => decide (bits f.addr 3 0 ≤ 3)
   | 0xD => p == 16
   | _ => false)

/-- An invalid flit is dropped, counted and reported (R273). -/
def State.dropInvalid (s : State) (p : Nat) (f : Flit) : State :=
  (s.count 0x5024 (p + 1) 1).raise 0x209 (portUnit p) (unitDie (portUnit p)) 0 (portDetail p f)

/-- The port's permitted list holds the tag (R284). -/
def State.permits (s : State) (p slice : Nat) : Bool :=
  slice != 0 && (List.range 4).any fun j => bits (kget 0 s.bank.tags p) (16 * j + 15) (16 * j) == slice

/-- A flit for another module leaves by the port's routing table after the latency of Table 11.6, or is dropped and counted (R284,
R286; log 133). -/
def State.forward (s : State) (p : Nat) (raw : List Byte) (f : Flit) : State :=
  let out := s.output p f.dst
  if 16 ≤ out ∨ s.removed out then s.count 0x5024 (p + 1) 1
  else if s.fenced && !(f.type == 0x8) then s
  else { s with fabric := { s.fabric with
    hops := s.fabric.hops ++ [(80 + 48 * hops (unitDie (portUnit p)) (unitDie (portUnit out)), out, raw)] } }

/-- What passes through the module comes to the port it leaves by; a port removed meanwhile discards it (R280, R286). -/
def State.hopCycle (s : State) : State :=
  match s.fabric.hops with
  | [] => s
  | l =>
    let s := { s with fabric := { s.fabric with hops := (l.filter fun h => h.1 != 1).map fun h => (h.1 - 1, h.2) } }
    (l.filter fun h => h.1 == 1).foldl (fun (s : State) h => if s.removed h.2.1 then s else s.enqueue h.2.1 h.2.2) s

/-- A flit arrives on port `p` (16 Stavlink, 17 the module's own local path): the link's checks, the check of its type, the
ingress checks, then `act` if it is for this module. A valid flit that is not `mine` leaves the state as it is. -/
def receive (p : Nat) (raw : List Byte) (mine : Flit → Bool) (act : Nat → Flit → State → State) (s : State) : State :=
  let f := flitOf raw
  if !s.power.on then s
  else if p = 17 then
    if s.fabric.loop.head? == some raw && mine f then act 17 f { s with fabric := { s.fabric with loop := s.fabric.loop.drop 1 } } else s
  else if 16 < p ∨ !s.up p then s
  else if !flitIntact raw then (s.count 0x5022 (p + 1) 1).nak p
  else if flitOk p raw && !mine f then s
  else if f.type = 0 ∧ flitOk p raw then act p f (s.takeAck p f.ack)
  else if f.seq ≠ (s.port p).rxSeq then s.nak p
  else
    let s := s.takeFlit p f
    if !flitOk p raw then s.dropInvalid p f
    else if f.type = 0xC then act p f s
    else if p = 16 then act 16 { f with src := 0xFFF } s
    else if !s.permits p f.slice then s.count 0x5023 (p + 1) 1
    else if f.type = 0x9 ∨ f.type = 0xA then act p f s
    else if f.dst = s.moduleId then
      if f.slice = s.get 0x5001 2 then act p f s else s.count 0x5023 (p + 1) 1
    else s.forward p raw f

/-- The flit has a type. -/
def ofType (t : Nat) (f : Flit) : Bool := f.type == t

/-- The flit is a LINK flit of an operation. -/
def ofLink (op : Nat) (f : Flit) : Bool := f.type == 0xC && bits f.addr 3 0 == op

/-! ### IDLE and LINK flits -/

/-- IDLE carries its ACK and nothing else (R275). -/
def execIdleReceive (p : Nat) (raw : List Byte) (s : State) : Host.Outcome State Fault Refusal :=
  goOn (receive p raw (ofType 0) (fun _ _ s => s) s)

/-- NAK: every unacknowledged flit from the named SEQ is sent again (R275). -/
def takeNak (p : Nat) (f : Flit) (s : State) : State := s.resendFrom p (leNat f.payload % 4096)

def execNakReceive (p : Nat) (raw : List Byte) (s : State) : Host.Outcome State Fault Refusal :=
  goOn (receive p raw (ofLink 0) takeNak s)

/-- CREDIT: the places the far end has freed (R276). -/
def takeCredit (p : Nat) (f : Flit) (s : State) : State :=
  (s.setPort p { s.port p with credits := (s.port p).credits + leNat (f.payload.take 1) }).pump p

def execCreditReceive (p : Nat) (raw : List Byte) (s : State) : Host.Outcome State Fault Refusal :=
  goOn (receive p raw (ofLink 1) takeCredit s)

/-! ### Degrade, removal and restore (R278–R280) -/

/-- The report of a port event without a flit. -/
def State.portRaise (s : State) (code p : Nat) : State := s.raise code (portUnit p) (unitDie (portUnit p)) 0 p

/-- A port is removed: its flits are discarded, and its alternates are used from then on (R280; log 28). -/
def State.removePort (s : State) (p : Nat) : State :=
  let s := s.setPort p { wire := (s.port p).wire }
  ((s.put 0x5020 (p + 1) 3).portRaise (if p = 16 then 0x20C else 0x20B) p).settleSends

/-- A degrade: a port of full width retrains to half width, a port of half width is removed (Table 11.4). -/
def State.degrade (s : State) (p : Nat) : State :=
  if s.portState p = 1 then (s.setPort p { s.port p with retraining := some false }).portRaise 0x20A p
  else if s.portState p = 2 then s.removePort p
  else s

/-- LINK_DEGRADED: sixteen consecutive resends; the far end is told by DEGRADE (R278). -/
def linkDegraded (p : Nat) (s : State) : State :=
  if 16 < p ∨ !s.up p ∨ (s.port p).retraining.isSome then s else (s.sendLink p 2 []).degrade p

def execLinkDegraded (p : Nat) (s : State) : Host.Outcome State Fault Refusal := goOn (linkDegraded p s)

/-- DEGRADE from the far end starts the retrain (R278). -/
def takeDegrade (p : Nat) (_ : Flit) (s : State) : State := if (s.port p).retraining.isSome then s else s.degrade p

def execDegradeReceive (p : Nat) (raw : List Byte) (s : State) : Host.Outcome State Fault Refusal :=
  goOn (receive p raw (ofLink 2) takeDegrade s)

/-- Sending goes on from the first unacknowledged SEQ. -/
def State.resume (s : State) (p : Nat) : State :=
  let s := s.setPort p { s.port p with resends := 0 }
  match (s.port p).replay with
  | r :: _ => s.resendFrom p (seqOf r)
  | [] => s.pump p

/-- A retrain ends: a degrade enters state 2, or 3 if no pair of lanes trained; a restore enters state 1, or leaves the
port as it was (R278, R279). An unused port whose far end trains becomes up with all its lanes (R271; log 46). -/
def State.endRetrain (s : State) (p : Nat) (trained : Bool) : State :=
  match (s.port p).retraining with
  | none => if s.portState p = 0 ∧ trained ∧ p ≤ 16 then s.put 0x5020 (p + 1) 1 else s
  | some restore =>
    let s := s.setPort p { s.port p with retraining := none }
    match restore, trained with
    | true, true => ((s.put 0x5020 (p + 1) 1).sendLink p 3 []).resume p
    | true, false => s.resume p
    | false, true => (((s.put 0x5020 (p + 1) 2).count 0x5026 (p + 1) 1).sendLink p 3 []).resume p
    | false, false => s.removePort p

def execPortRetrainComplete (p : Nat) (trained : Bool) (s : State) : Host.Outcome State Fault Refusal :=
  goOn (s.endRetrain p trained)

/-- RETRAIN DONE from the far end ends the wait for a retrain (R278). -/
def takeRetrainDone (p : Nat) (_ : Flit) (s : State) : State := s.endRetrain p true

def execRetrainDoneReceive (p : Nat) (raw : List Byte) (s : State) : Host.Outcome State Fault Refusal :=
  goOn (receive p raw (ofLink 3) takeRetrainDone s)

/-- PORT_STALL: a port has held a flit it cannot send for 1 ms (R285). -/
def portStall (p : Nat) (s : State) : State :=
  match (s.port p).queue with
  | r :: _ => s.raise 0x30E (portUnit p) (unitDie (portUnit p)) 0 (portDetail p (flitOf r))
  | [] => s

def execPortStall (p : Nat) (s : State) : Host.Outcome State Fault Refusal := goOn (portStall p s)

/-- PORT_RESTORE: object 0x5025.01 names a port of state 2 or 3, which retrains in the next wait frame, or at the next
tick without a program (R279). The answer is a status of Table 15.4. -/
def restorePort (p : Nat) (s : State) : State × Nat :=
  if 16 < p then (s, 0x07)
  else if s.portState p = 2 ∨ s.portState p = 3 then (s.setPort p { s.port p with restoreAsked := true }, 0)
  else (s, 0)

end Sys2Proof.Machine
end

