-- ==== Sys2Proof/Machine/BoardSpace.lean ====
section
/-! DEFINITION. The board address space (R227, R288–R290, R295): stores, reductions, loads and atomic operations that peers
and the host send, their answers, and what the Thallus cores send there. -/

namespace Sys2Proof.Machine

/-- The tensor an address belongs to while a training program runs. -/
def State.landTensor (s : State) (a : Nat) : Nat := if s.training then (s.tensorAt a).getD 0xFFFFFFFF else 0xFFFFFFFF

/-- The source of the report of a port that serves a peer: its unit, or the local path's controller. -/
def landUnit (p a : Nat) : Nat := if p = 17 then 0x40 + stackOf a else portUnit p

/-- An access for a peer or the host to a reserved region, or outside populated memory, is refused (R246; log 29). -/
def State.landRefused (s : State) (p a : Nat) : State :=
  s.raise 0x204 (landUnit p a) (unitDie (landUnit p a)) 0 (packFields [(64, a), (32, s.tensorField a)])

/-- The port may deliver a board-space flit: its source is in the board map and the module is not fenced (R288, R299); the
host needs neither (R295). -/
def State.boardSource (s : State) (p : Nat) (f : Flit) : Bool :=
  p == 16 || p == 17 || (List.range 16).any fun j => s.boardModule j == f.src

/-- A board-space flit is delivered by `act` under the checks of R288 and R299. -/
def State.boardDeliver (s : State) (p : Nat) (f : Flit) (act : State → State) : State :=
  if !s.boardSource p f then s.count 0x5023 (p + 1) 1
  else if s.fenced && p != 16 then s
  else act s

/-- The traffic class of a flit at its landing: the host's is class 4 (R295). -/
def landClass (p : Nat) (f : Flit) : Nat := if p = 16 then 4 else f.cls

/-! ### Stores and reductions -/

/-- The armed window that holds a range (R264). -/
def State.windowAt (s : State) (a n : Nat) : Option Window :=
  (s.windowsOf (stackOf a)).find? fun w => decide (w.base ≤ a) && decide (a + n ≤ w.base + w.bytes)

/-- What a port delivers reaches the controllers of its die 64 cycles on, and the bridges after them; the module's own local path
takes no such time (R286; log 133). -/
def State.deliverIn (s : State) (p : Nat) (x : Packet) : State := if p = 17 then s.carry x else s.arriveIn 64 x

/-- BSTORE goes to its stack and lands there as one write of its bytes (R265, R289, R290). -/
def landStore (p : Nat) (f : Flit) (s : State) : State :=
  let a := f.addr % 2 ^ 41
  let n := f.payload.length
  s.boardDeliver p f fun s =>
    if !programArea a n then s.landRefused p a
    else
      let cls := if p = 16 then 4 else ((s.windowAt a n).map fun w => w.cls).getD 1
      s.deliverIn p (s.packet (landUnit p a) 0 cls (unitDie (landUnit p a)) (addressDie a) f.payload f.poison (.write a (s.landTensor a) 0 0))

def execBstoreReceive (p : Nat) (raw : List Byte) (s : State) : Host.Outcome State Fault Refusal :=
  goOn (receive p raw (ofType 2) landStore s)

/-- The stored bytes of `n` source bytes under a window (R252). -/
def Window.stored (w : Window) (n : Nat) : Nat := if w.op = 1 ∨ w.op = 2 then n * 16 / fmtBits w.sfmt else n

/-- The armed window in which a reduction of `n` source bytes at an address lies whole. -/
def State.windowFor (s : State) (a n : Nat) : Option Window :=
  match s.windowAt a 1 with
  | some w => s.windowAt a (w.stored n)
  | none => none

/-- The reducer of an armed window for data of a source module. -/
def State.windowReducer (s : State) (w : Window) (source : Nat) : Reducer :=
  { op := w.op, tensor := w.tensor, origin := w.origin, delta := 0x4000 + source, coef := s.coefficient w.coef w.coefTab source,
    sfmt := w.sfmt, hint := w.hint, uses := w.uses, ctx := w.ctx }

/-- The elements of a reduction under a window are whole (Table 11.3). -/
def Window.aligned (w : Window) (a n : Nat) : Bool :=
  (a - w.base) % (redWidth w.op / 8) == 0 && n % (if w.op = 1 ∨ w.op = 2 then fmtBits w.sfmt / 8 else redWidth w.op / 8) == 0

/-- BREDUCE goes to its stack to be applied inside its armed window, or is applied nowhere with REDUCE_UNARMED (R264, R289); one
that reaches a reserved region is refused (R246). -/
def landReduce (p : Nat) (f : Flit) (s : State) : State :=
  let a := f.addr % 2 ^ 41
  let k := stackOf a
  let n := f.payload.length
  s.boardDeliver p f fun s =>
    if !programArea a (((s.windowAt a 1).map fun w => w.stored n).getD n) then s.landRefused p a
    else match s.windowFor a n with
      | none => (s.count 0x4026 (k + 1) 1).raise 0x207 (0x40 + k) (k / 4) 0 (packFields [(64, a), (32, s.tensorField a)])
      | some w =>
        if !w.aligned a n then s.dropInvalid p f
        else
          let u := landUnit p a
          let go := fun (s : State) (poison : Bool) (deed : Deed) =>
            s.deliverIn p (s.packet u w.ctx w.cls (unitDie u) (addressDie a) f.payload poison deed)
          if w.op = 0 then go s f.poison (.write a w.tensor w.hint w.uses)
          else
            let off := if w.op = 1 ∨ w.op = 2 then (a - w.base) * fmtBits w.sfmt / 16 else a - w.base
            let s := s.touchTable (0x40 + k) w.ctx w.op w.coef w.coefTab f.src
            go s (f.poison || s.tablePoisoned w.op w.coef w.coefTab f.src) (.reduce (s.windowReducer w f.src) w.base off)

def execBreduceReceive (p : Nat) (raw : List Byte) (s : State) : Host.Outcome State Fault Refusal :=
  goOn (receive p raw (ofType 3) landReduce s)

/-! ### Loads and atomic operations -/

/-- Bytes that a refused access answers with: nothing is read, so they are free (log 2). -/
def State.freeBytes (s : State) (n : Nat) : State × List Byte :=
  ({ s with freeCount := s.freeCount + 1 }, (List.range n).map (Config.freeByte s.freeCount))

/-- Answers a request: on the fabric to its source, on Stavlink to the host. -/
def State.answer (s : State) (p unit type cls dst id : Nat) (bytes : List Byte) (poison : Bool) : State :=
  let out := { plainFlit type cls dst id bytes with poison := poison }
  if p = 16 then s.toHost out else s.originate unit out

/-- A request of a peer or of the host goes to its stack (R265, R289). -/
def State.askFor (s : State) (p : Nat) (f : Flit) (ask : Ask) (a type id : Nat) : State :=
  let u := landUnit p a
  s.deliverIn p (s.packet u 0 (landClass p f) (unitDie u) (addressDie a) [] false (.request ask p type (landClass p f) f.src id))

/-- A request has come to its stack, and its answer goes back to the port (R290). -/
def State.takeRequest (s : State) (x : Packet) (ask : Ask) (p type cls dst id : Nat) : State :=
  s.ask { ask, packet := { x with to_ := unitDie x.unit, deed := .answer p type cls dst id } }

/-- BLOAD is answered with the bytes as stored, or refused with a poisoned answer (R246, R289, R290). -/
def landLoad (p : Nat) (f : Flit) (s : State) : State :=
  let a := f.addr % 2 ^ 41
  let pay := leNat f.payload
  let n := bits pay 23 16
  s.boardDeliver p f fun s =>
    if !programArea a n then
      let r := (s.landRefused p a).freeBytes n
      r.1.answer p (landUnit p a) 5 (landClass p f) f.src (bits pay 15 0) r.2 true
    else s.askFor p f (.read a n 0 0) a 5 (bits pay 15 0)

def execBloadReceive (p : Nat) (raw : List Byte) (s : State) : Host.Outcome State Fault Refusal :=
  goOn (receive p raw (ofType 4) landLoad s)

/-- The result of an atomic operation of `n` bytes (R273): the RISC-V AMO of the code. -/
def amo (op n old x : Nat) : Nat :=
  let m := 256 ^ n
  let a := signed (8 * n) old
  let b := signed (8 * n) x
  match op with
  | 0 => x
  | 1 => (old + x) % m
  | 2 => Nat.land old x
  | 3 => Nat.lor old x
  | 4 => Nat.xor old x
  | 5 => if a < b then x else old
  | 6 => if b < a then x else old
  | 7 => max old x
  | _ => min old x

/-- An atomic operation at the controller: the state after it, the old value and whether it was poisoned. -/
def State.atomic (s : State) (u ctx a op n x : Nat) : State × Nat × Bool :=
  let r := s.readThrough u ctx a n
  let old := leNat r.2.1
  (r.1.writeBytes ctx (r.1.landTensor a) a 0 0 (leBytes n (amo op n old (x % 256 ^ n))) r.2.2, old, r.2.2)

/-- BAMO is executed at the owning controller and answered with the old value (R227, R289). -/
def landAmo (p : Nat) (f : Flit) (s : State) : State :=
  let a := f.addr % 2 ^ 41
  let pay := leNat f.payload
  let n := if bit pay 20 then 8 else 4
  s.boardDeliver p f fun s =>
    if !programArea a n then
      let r := (s.landRefused p a).freeBytes 8
      r.1.answer p (landUnit p a) 7 (landClass p f) f.src (bits pay 15 0) r.2 true
    else s.askFor p f (.amo a (bits pay 19 16) n (bits pay 127 64)) a 7 (bits pay 15 0)

def execBamoReceive (p : Nat) (raw : List Byte) (s : State) : Host.Outcome State Fault Refusal :=
  goOn (receive p raw (ofType 6) landAmo s)

/-! ### Answers to the cores -/

/-- A core takes an access fault. -/
def State.accessFault (s : State) (c : Nat) : State := s.setCore c { s.core c with accessFault := true }

/-- Data for a core, or an access fault where it is poisoned (R257, R290). -/
def State.coreData (s : State) (c : Nat) (data : List Byte) (poison : Bool) : State :=
  if poison then s.accessFault c
  else s.setCore c { s.core c with data := data, accessFault := false, misaligned := false, illegal := false }

/-- The outstanding request that an answer names; an answer to none is discarded (R290). -/
def State.takeAnswer (s : State) (wantAmo : Bool) (f : Flit) : State :=
  match s.fabric.boardReqs.find? fun r => r.id == f.addr % 2 ^ 16 && r.amo == wantAmo with
  | none => s
  | some r =>
    { s with fabric := { s.fabric with boardReqs := s.fabric.boardReqs.erase r } }.coreData r.core (f.payload.take r.length) f.poison

/-- BLOAD_RSP completes a core's load. -/
def landLoadRsp (_ : Nat) (f : Flit) (s : State) : State := s.takeAnswer false f

def execBloadRspReceive (p : Nat) (raw : List Byte) (s : State) : Host.Outcome State Fault Refusal :=
  goOn (receive p raw (ofType 5) landLoadRsp s)

/-- BAMO_RSP completes a core's AMO with the old value. -/
def landAmoRsp (_ : Nat) (f : Flit) (s : State) : State := s.takeAnswer true f

def execBamoRspReceive (p : Nat) (raw : List Byte) (s : State) : Host.Outcome State Fault Refusal :=
  goOn (receive p raw (ofType 7) landAmoRsp s)

/-- The die of a core (R220). -/
def coreDie (c : Nat) : Nat := c / 8

/-- A report whose source is a core (Table 13.6), with its context. -/
def State.coreRaise (s : State) (code c detail : Nat) : State := s.raise code (0x88 + c) (coreDie c) (s.core c).tctx detail

/-- BOARD_LOAD_TIMEOUT: a request goes unanswered, the core takes an access fault, and a later answer is discarded
(R290). -/
def boardLoadTimeout (id : Nat) (s : State) : State :=
  match s.fabric.boardReqs.find? fun r => r.id == id with
  | none => s
  | some r =>
    let f := s.own (plainFlit (if r.amo then 6 else 4) 5 r.dst r.address [])
    let s := { s with fabric := { s.fabric with boardReqs := s.fabric.boardReqs.erase r } }
    (s.coreRaise 0x20F r.core (portDetail (s.output 16 r.dst) f)).accessFault r.core

def execBoardLoadTimeout (id : Nat) (s : State) : Host.Outcome State Fault Refusal := goOn (boardLoadTimeout id s)

/-! ### Accesses of the cores (R225, R227, R288) -/

/-- A core accesses local HBM by way of the stack's slice, in class 5; what it reads comes back to it (R225, R227, R265). -/
def State.coreLocal (s : State) (c a : Nat) (access : CoreAccess) : State :=
  let ctx := (s.core c).tctx
  let u := 0x88 + c
  let fetch := fun (ask : Ask) => s.ask { ask, packet := s.packet u ctx 5 (addressDie a) (coreDie c) [] false (.core c) }
  match access with
  | .load n => if !populated a n then s.accessFault c else fetch (.read a n 0 0)
  | .store bytes =>
    if !populated a bytes.length then s.accessFault c
    else s.sendWrite u ctx 5 (coreDie c) a (s.landTensor a) 0 0 bytes false
  | .amo op wide x =>
    let n := if wide then 8 else 4
    if !populated a n || op > 8 || a % n != 0 then s.accessFault c else fetch (.amo a op n x.toNat)
  | _ => s

/-- A core's request goes out with an id of its own, to be answered within object 0x5060.01 (R290). -/
def State.coreRequest (s : State) (c peer a n : Nat) (isAmo : Bool) (f : Nat → Flit) : State :=
  let id := s.fabric.nextReq
  let r : BoardReq := { id, core := c, length := n, left := 1250 * s.get 0x5060 1, amo := isAmo, dst := peer, address := a }
  let s := { s with fabric := { s.fabric with boardReqs := s.fabric.boardReqs ++ [r], nextReq := (id + 1) % 65536 } }
  s.originate (0x88 + c) (f id)

/-- A core loads, stores or performs an AMO at a board address; the module's own index is the local
path, an empty one raises BOARD_UNMAPPED (R288). -/
def boardReach (c address : Nat) (access : CoreAccess) (s : State) : State :=
  let peer := s.boardModule (address / 2 ^ 41)
  let a := address % 2 ^ 41
  if peer = 0xFFFF then
    let s := s.coreRaise 0x20E c (packFields [(64, address), (32, 0xFFFFFFFF)])
    match access with | .load _ | .amo _ _ _ => s.accessFault c | _ => s
  else if peer = s.moduleId then s.coreLocal c a access
  else match access with
    | .load n => s.coreRequest c peer a n false fun id => plainFlit 4 5 peer a (leBytes 2 id ++ leBytes 1 n)
    | .store bytes => ((pieces 236 bytes.length bytes).zip (List.range bytes.length)).foldl (fun (s : State) p =>
        s.originate (0x88 + c) (plainFlit 2 5 peer (a + 236 * p.2) p.1)) s
    | .amo op wide x =>
      let n := if wide then 8 else 4
      if a % n ≠ 0 then s.accessFault c
      else s.coreRequest c peer a n true fun id =>
        plainFlit 6 5 peer a (leBytes 8 (packFields [(16, id), (4, op), (1, b2n wide)]) ++ leBytes 8 x.toNat)
    | _ => s

end Sys2Proof.Machine
end

