-- ==== Sys2Proof/Machine/Streams.lean ====
section
/-! DEFINITION. Transfers between modules and with the host: SEND, BCAST and RECV of the ports and of Stavlink, and the
landing of STREAM flits, buckets and privileged transfers (R213–R217, R291–R295, R315, R316). -/

namespace Sys2Proof.Machine

/-! ### Sending (R291, R292, R315) -/

/-- The next SERIAL of a peer and TAG. -/
def State.takeSerial (s : State) (peer tag : Nat) : State × Nat :=
  let key := peer * 65536 + tag
  let n := kget 0 s.fabric.serials key
  ({ s with fabric := { s.fabric with serials := kset 0 s.fabric.serials key ((n + 1) % 16) } }, n)

/-- The STREAM flits of a copy: 236 bytes each, in ascending order, poisoned where their bytes are. -/
def streamFlits (cls peer tag serial : Nat) (data : List Byte) (bad : List Nat) : List Flit :=
  let cut := pieces 236 data.length data
  (cut.zip (List.range cut.length)).map fun p =>
    { plainFlit 1 cls peer (packFields [(16, tag), (4, serial), (28, 59 * p.2)]) p.1 with
      poison := bad.any fun b => overlaps (236 * p.2) p.1.length (512 * b) 512 }

/-- Lists interleaved one element at a time. -/
def interleave : Nat → List (List Flit) → List Flit
  | 0, _ => []
  | fuel + 1, ls =>
    let live := ls.filter fun l => !l.isEmpty
    if live.isEmpty then [] else live.filterMap List.head? ++ interleave fuel (live.map fun l => l.drop 1)

/-- The flits of a SEND or BCAST leave, and its work ends when the first hop has acknowledged the last of each copy (R291). -/
def State.startSending (s : State) (u : Nat) (fs : List Flit) (host : Bool) : State :=
  let copies := fs.foldl (fun (l : List (Nat × Nat)) f => if l.contains f.copy then l else l ++ [f.copy]) []
  let s := s.onUnit u fun x => { x with work := x.work.map fun w => { w with load := .flits copies } }
  (fs.foldl (fun (s : State) f => if host then s.toHost f else s.originate u f) s).settleSends

/-- Blocks of a SEND or BCAST that have come, from block `first` on: their bytes, and those that are poisoned by number. -/
def comeBytes (come : KMap (List Byte × Bool)) (first n : Nat) : List Byte × List Nat :=
  ((List.range n).flatMap fun j => (kget ([], false) come (first + j)).1,
    (List.range n).filter fun j => (kget ([], false) come (first + j)).2)

/-- SEND: the blocks of the transfer come to the port, which sends them to the peer as STREAM flits; Stavlink sends to the host
(R291, R295). -/
def startSend (i : Issue) (s : State) : State :=
  let x := s.transfer i
  if !bit x.src 63 && reservedRange x.src (512 * x.blocks) then s.refuseAccess i x.src (512 * x.blocks)
  else s.startMoving 1 i (if bit x.src 63 then 0 else s.readLatency (x.src / 512)) x.blocks (.gathering 0 [])

/-- All blocks of a SEND have come: its flits leave. -/
def State.sendAll (s : State) (i : Issue) (x : Transfer) (come : KMap (List Byte × Bool)) : State :=
  let host := i.unit == 0x60
  let peer := if host then 0xFFF else x.peer
  let d := comeBytes come 0 x.blocks
  let n := s.takeSerial peer x.tag
  n.1.startSending i.unit (streamFlits x.cls peer x.tag n.2 d.1 d.2) host

def execPortSend (i : Issue) (s : State) : Host.Outcome State Fault Refusal := goOn (s.gate 1 i startSend)

/-- SEND of Stavlink sends to the host adapter. -/
def execStavlinkSend (i : Issue) (s : State) : Host.Outcome State Fault Refusal := goOn (s.gate 1 i startSend)

/-- The copies a BCAST makes for one member: the weight copy, then the delta copy under TAG xor 0x8000, whose DELTA_ACK is
awaited (R315, R322). -/
def State.memberCopies (s : State) (x : Transfer) (member role : Nat) (w d : List Byte × List Nat) : State × List Flit :=
  let r : State × List Flit :=
    if x.blocks ≠ 0 ∧ role ≠ 1 then
      let n := s.takeSerial member x.tag
      (n.1, streamFlits x.cls member x.tag n.2 w.1 w.2)
    else (s, [])
  if x.dsrc ≠ 0 ∧ role ≠ 0 then
    let tag := x.tag ^^^ 0x8000
    let n := r.1.takeSerial member tag
    let s := { n.1 with commit := { n.1.commit with deltas := n.1.commit.deltas ++ [(member, tag + 65536 * n.2)] } }
    (s, r.2 ++ streamFlits x.cls member tag n.2 d.1 d.2)
  else r

/-- The blocks of the delta copy of a BCAST. -/
def Transfer.deltaBlocks (x : Transfer) : Nat := if x.dsrc = 0 then 0 else x.dblocks

/-- BCAST: the blocks of the transfer and of its delta copy come to the port (R292, R315). -/
def startBcast (i : Issue) (s : State) : State :=
  let x := s.transfer i
  if x.blocks ≠ 0 ∧ !bit x.src 63 && reservedRange x.src (512 * x.blocks) then s.refuseAccess i x.src (512 * x.blocks)
  else if x.dsrc ≠ 0 && reservedRange x.dsrc (512 * x.dblocks) then s.refuseAccess i x.dsrc (512 * x.dblocks)
  else s.startMoving 3 i (if bit x.src 63 then 0 else s.readLatency (x.src / 512)) (x.blocks + x.deltaBlocks) (.gathering 0 [])

/-- All blocks of a BCAST have come: one copy leaves for each other member of the group, in ascending order, interleaved flit by
flit. -/
def State.castAll (s : State) (i : Issue) (x : Transfer) (come : KMap (List Byte × Bool)) : State :=
  let w := comeBytes come 0 x.blocks
  let d := comeBytes come x.blocks x.deltaBlocks
  let r := (s.groupMembers (x.peer % 256)).foldl (fun (r : State × List (List Flit)) m =>
    let c := r.1.memberCopies x m.1 m.2 w d
    (c.1, r.2 ++ [c.2])) (s, [])
  let n := r.2.foldl (fun m l => max m l.length) 0
  r.1.startSending i.unit (interleave n r.2) false

/-- Block `j` that a unit has asked for comes to it: a block of a COPY goes on to the fabric, and the last block of a SEND or BCAST
lets its flits leave. -/
def State.blockHome (s : State) (p : Packet) (j : Nat) : State :=
  match (s.unit p.unit).work with
  | none => s
  | some w =>
    let i := w.cmd.issue
    let x := s.transfer i
    match w.load with
    | .gathering issued come =>
      let come := kput j (p.data, p.poison) come
      if come.length = w.jobs then (if w.cmd.op = 3 then s.castAll i x come else s.sendAll i x come)
      else s.onUnit p.unit fun y => { y with work := some { w with load := .gathering issued come } }
    | _ => (s.sendBlock i x (s.boardModule (bits x.dst 44 41)) (x.dst % 2 ^ 41) (512 * j) p.data p.poison).blockLanded p.unit

def execBcast (i : Issue) (s : State) : Host.Outcome State Fault Refusal := goOn (s.gate 3 i startBcast)

/-! ### Buckets and privileged transfers (R213–R217) -/

/-- The header of Table 8.12. -/
structure BucketHeader where
  h : Nat
  fmt : Nat
  src : Nat
  step : Nat
  tensor : Nat
  origin : Nat
  count : Nat
  exp : Int
  present : Nat
  length : Nat
  deriving DecidableEq, Repr

def bucketOf (h : Nat) : BucketHeader where
  h := h
  fmt := bits h 43 40
  src := bits h 59 48
  step := bits h 127 64
  tensor := bits h 159 128
  origin := bits h 191 160
  count := bits h 223 192
  exp := signed 8 (bits h 231 224)
  present := bits h 255 232
  length := bits h 287 256

/-- Groups, bytes of the mask part, of the scale part, and where the values begin. -/
def BucketHeader.groups (b : BucketHeader) : Nat := cdiv b.count 256

def BucketHeader.maskBytes (b : BucketHeader) : Nat := if b.fmt = 3 then roundUp (cdiv b.groups 8) 512 else 0

def BucketHeader.scaleBytes (b : BucketHeader) : Nat := if b.fmt = 3 then roundUp b.present 512 else 0

def BucketHeader.values (b : BucketHeader) : Nat := 512 + b.maskBytes + b.scaleBytes

/-- The numbers of the present groups, from the mask. -/
def BucketHeader.live (b : BucketHeader) (data : List Byte) : List Nat :=
  let mask := leNat ((data.drop 512).take (cdiv b.groups 8))
  (List.range b.groups).filter fun g => bit mask g

/-- Bits set in the mask part. -/
def BucketHeader.maskCount (b : BucketHeader) (data : List Byte) : Nat :=
  let mask := leNat ((data.drop 512).take (cdiv b.groups 8))
  ((List.range (8 * cdiv b.groups 8)).filter fun g => bit mask g).length

/-- The blocks the transfer must have by COUNT and PRESENT. -/
def BucketHeader.blocks (b : BucketHeader) : Nat :=
  if b.fmt = 3 then (b.values + roundUp (256 * b.present) 512) / 512 else 1 + cdiv (2 * b.count) 512

/-- Bytes of a landing region from DST on: what its tensor holds there (R216; log 31). -/
def State.landingBytes (s : State) (x : Transfer) : Nat :=
  match s.tensorDesc x.tensor with
  | some d => if tensorBase d ≤ x.dst then tensorBase d + tensorLength d - x.dst else 0
  | none => stackBytes - stackOffset x.dst

/-- The checks of R216 on the header but for STEP. -/
def State.headerOk (s : State) (x : Transfer) (b : BucketHeader) : Bool :=
  bits b.h 31 0 == 0x54423645 && bits b.h 39 32 == 1 && (b.fmt == 3 || b.fmt == 1 || (b.fmt == 0 && b.step == 0)) &&
  bits b.h 47 44 == 0 && bits b.h 63 60 == 0 && b.h / 2 ^ 288 == 0 && b.tensor == x.tensor &&
  decide (2 * (b.origin * 1024 + b.count) ≤ s.landingBytes x) &&
  (b.fmt == 3 || b.present == 0) && b.length == b.blocks

/-- The check of R216 on the block mask of a bucket. -/
def BucketHeader.maskOk (b : BucketHeader) (data : List Byte) : Bool := b.fmt != 3 || b.present == b.maskCount data

/-- Adds a stretch of values to the landing region, element `first` of the tensor's part being the first (R217). -/
def State.landValues (s : State) (i : Issue) (x : Transfer) (b : BucketHeader) (first : Nat) (vs : List Num) (poison : Bool) :
    State :=
  let r : Reducer := { s.reducer x i.ctx b.src with op := if x.redop = 2 then 2 else 1, tensor := b.tensor, origin := 0 }
  s.reduceValues r x.dst (b.origin * 1024 + first) vs poison

/-- The stored block number `q` of what a transfer brings: its first element and its values, a present group with its scale
or 256 privileged elements with their exponent; elements past COUNT are left out (R213, R215, R217). -/
def BucketHeader.stretch (b : BucketHeader) (data : List Byte) (q : Nat) : Nat × List Num :=
  if b.fmt = 3 then
    let first := 256 * (b.live data).getD q 0
    let scale := (data.getD (512 + b.maskBytes + q) 0).toNat
    (first, ((data.drop (b.values + 256 * q)).take (min 256 (b.count - first))).map fun c => ofScaled 3 c.toNat scale)
  else
    let n := min 256 (b.count - 256 * q)
    (256 * q, (leNumbers 2 n ((data.drop (b.values + 512 * q)).take (2 * n))).map fun c =>
      let v := ofCode b.fmt c
      if b.exp = 0 ∨ b.fmt = 0 then v else eScale (-b.exp) v)

/-- The byte of the transfer at which stretch `q` is complete, and the number of stretches. -/
def BucketHeader.stretchEnd (b : BucketHeader) (q : Nat) : Nat :=
  if b.fmt = 3 then b.values + 256 * (q + 1) else b.values + 2 * min b.count (256 * (q + 1))

def BucketHeader.stretches (b : BucketHeader) : Nat := if b.fmt = 3 then b.present else cdiv b.count 256

/-- The stretches that bytes `p0` to `p1` of a transfer complete. -/
def BucketHeader.completed (b : BucketHeader) (p0 p1 : Nat) : List Nat :=
  (List.range b.stretches).filter fun q => decide (p0 < b.stretchEnd q) && decide (b.stretchEnd q ≤ p1)

/-- Lands the stretches that bytes `p0` to `p1` of a transfer complete. -/
def State.landPart (s : State) (i : Issue) (x : Transfer) (b : BucketHeader) (data : List Byte) (p0 p1 : Nat) (poison : Bool) :
    State :=
  (b.completed p0 p1).foldl (fun (s : State) q =>
    let v := b.stretch data q
    s.landValues i x b v.1 v.2 poison) s

/-- A report of a landing check (R216, Table 13.7), with its counter in object 0x7046. -/
def State.refuseBucket (s : State) (i : Issue) (b : BucketHeader) (code sub src : Nat) : State :=
  (s.count 0x7046 sub 1).raise code i.unit (unitDie i.unit) i.ctx
    (packFields [(5, i.unit - 0x50), (12, src), (15, 0), (32, b.tensor), (64, b.step)])

/-- The check of a transfer with HDR as far as its bytes allow: 0 not yet, 1 passed, 2 failed, 3 passed but for the mask; with the
report that a failure makes (R216). -/
def State.checkPart (s : State) (i : Issue) (x : Transfer) (b : BucketHeader) (old : Nat) (src : Nat) (data : List Byte) : State × Nat :=
  if old = 1 ∨ old = 2 ∨ data.length < 512 then (s, old)
  else if old = 0 ∧ b.step ≠ s.stepCount then (s.refuseBucket i b 0x30C 2 src, 2)
  else if old = 0 ∧ !s.headerOk x b then (s.refuseBucket i b 0x208 3 src, 2)
  else if data.length < 512 + b.maskBytes then (s, 3)
  else if !b.maskOk data then (s.refuseBucket i b 0x208 3 src, 2)
  else (s, 1)

/-- More bytes of a transfer with HDR: they join those before; once header and mask have passed, the stretches they complete are
landed (R216, R217). A poisoned header, mask or scale poisons all of them, a poisoned value its own (R257). The last component says
whether the transfer is complete. -/
def landMore (i : Issue) (x : Transfer) (old : Part) (check : State × Nat) (data : List Byte) (poison : Bool) :
    State × Part × Bool :=
  let b := bucketOf (leNat (data.take 64))
  let p0 := if old.check = 1 then old.data.length else 0
  let p1 := data.length
  let head := old.headPoison || (poison && decide (old.data.length < b.values))
  let bad := head || old.poison || poison
  let s := if check.2 = 1 then check.1.landPart i x b data p0 p1 bad else check.1
  (s, { data := data, check := check.2, headPoison := head, poison := poison || (old.poison && (b.completed p0 p1).isEmpty) },
    check.2 == 1 && decide (512 * b.length ≤ p1))

/-- A transfer with HDR whose bytes have not begun to come. -/
def freshPart : Part := { data := [], check := 0, headPoison := false, poison := false }

/-- A STREAM flit of a transfer with HDR lands under its entry (R216, R293). -/
def State.landHeader (s : State) (r : Recv) (x : Transfer) (src serial offset : Nat) (payload : List Byte) (poison : Bool) :
    State × Recv :=
  let i := r.cmd.issue
  let key := src * 16 + serial
  let old := if offset = 0 then freshPart else kget freshPart r.parts key
  let data := old.data ++ payload
  let l := landMore i x old (s.checkPart i x (bucketOf (leNat (data.take 64))) old.check src data) data poison
  let s := if l.2.2 then l.1.count 0x7046 1 1 else l.1
  (s, { r with parts := if l.2.2 then kdel key r.parts else kput key l.2.1 r.parts })

/-! ### Transfers with HDR of a controller (R251) -/

/-- The check of a WRITE or COPY with HDR: the controller makes none of those of R216; the reducer takes the format and the scales
that the header gives, and with a format that is none of a bucket's nothing lands (log 108). -/
def localCheck (b : BucketHeader) (old : Nat) (data : List Byte) : Nat :=
  if old = 1 ∨ old = 2 ∨ data.length < 512 then old
  else if b.fmt ≠ 3 ∧ b.fmt ≠ 1 ∧ b.fmt ≠ 0 then 2
  else if data.length < 512 + b.maskBytes then 3
  else 1

/-- The next block in order of a controller's transfer with HDR lands, and those that wait behind it (R217, R251). -/
def State.landBlocks (s : State) (i : Issue) (x : Transfer) : Nat → KMap (List Byte × Bool) → Nat → Part →
    State × KMap (List Byte × Bool) × Nat × Part
  | 0, come, taken, part => (s, come, taken, part)
  | fuel + 1, come, taken, part =>
    if come.any fun q => q.1 == taken then
      let q := kget ([], false) come taken
      let data := part.data ++ q.1
      let b := bucketOf (leNat (data.take 64))
      let l := landMore i x part (s, localCheck b part.check data) data q.2
      State.landBlocks l.1 i x fuel (kdel taken come) (taken + 1) l.2.1
    else (s, come, taken, part)

/-- A block of a controller's transfer with HDR comes to the reducer of its landing region. -/
def State.landLocal (s : State) (p : Packet) (j : Nat) : State :=
  match (s.unit p.unit).work with
  | some w =>
    match w.load with
    | .moving _ _ come taken part =>
      let i := w.cmd.issue
      let l := s.landBlocks i (s.transfer i) w.jobs (kput j (p.data, p.poison) come) taken part
      l.1.onUnit p.unit fun y => { y with work := y.work.map fun w => { w with load := match w.load with
        | .moving issued landed _ _ _ => .moving issued landed l.2.1 l.2.2.1 l.2.2.2
        | x => x } }
    | _ => s
  | none => s

/-! ### Landing (R293, R294) -/

/-- The entry a STREAM flit from port `p` lands under: TAG and source match, and its bytes lie within BLOCKS (log 32). -/
def State.entryFor (s : State) (p : Nat) (f : Flit) : Option Recv :=
  s.fabric.recvs.find? fun r =>
    let x := s.transfer r.cmd.issue
    let host := r.cmd.issue.unit == 0x60
    host == (p == 16) && x.tag == bits f.addr 15 0 && (host || x.peer == 0xFFF || x.peer == f.src) &&
      (x.hdr || decide (4 * bits f.addr 47 20 + f.payload.length ≤ 512 * x.blocks))

/-- Replaces an entry by its command. -/
def State.setRecv (s : State) (r : Recv) : State :=
  { s with fabric := { s.fabric with recvs := s.fabric.recvs.map fun q => if q.cmd == r.cmd then r else q } }

/-- Bytes of a STREAM flit go to where they land: to the operand store, to the reducer of a transfer with HDR, or to DST + 4 · OFFSET
in HBM (R13, R265, R286, R293; log 107). -/
def State.sendLanding (s : State) (r : Recv) (x : Transfer) (f : Flit) (serial off : Nat) : State :=
  let i := r.cmd.issue
  let u := i.unit
  let d := unitDie u
  let cls := if u = 0x60 then 4 else x.cls
  let go := fun (s : State) (to_ : Nat) (poison : Bool) (deed : Deed) =>
    s.arriveIn 64 { s.packet u i.ctx cls d to_ f.payload poison deed with own := true }
  if bit x.dst 63 then go s d f.poison (.store d (opOffset x.dst + off))
  else if x.hdr then go s (addressDie x.dst) f.poison (.piece x.dst f.src serial off)
  else if x.redop = 0 then go s (addressDie x.dst) f.poison (.write (x.dst + off) x.tensor x.hint x.uses)
  else
    let s := s.touchTable u i.ctx x.redop x.gfcoef x.coefTab f.src
    go s (addressDie x.dst) (f.poison || s.tablePoisoned x.redop x.gfcoef x.coefTab f.src)
      (.reduce (s.reducer x i.ctx f.src) x.dst off)

/-- The work of a RECV ends: its entry is disarmed, and a parity holder answers the sender with DELTA_ACK (R293, R316). -/
def State.endRecv (s : State) (r : Recv) (x : Transfer) (source : Nat) : State :=
  let s := { s with fabric := { s.fabric with recvs := s.fabric.recvs.filter fun q => q.cmd != r.cmd } }
  let s := s.onUnit r.cmd.issue.unit fun u => { u with progress := x.blocks }
  let s := (s.endWork r.cmd.issue.unit).settle
  if x.cls = 2 ∧ x.redop = 7 then
    s.originate r.cmd.issue.unit (resilFlit source 2 s.moduleId (s.stepCount % 2 ^ 32) (leBytes 4 (x.tag + 65536 * r.serial)))
  else s

/-- A STREAM flit is taken by its entry, and its bytes go to where they land (R293). -/
def State.landStream (s : State) (r : Recv) (f : Flit) : State :=
  let serial := bits f.addr 19 16
  (s.setRecv { r with serial := serial, source := f.src }).sendLanding r (s.transfer r.cmd.issue) f serial (4 * bits f.addr 47 20)

/-- `n` bytes of the transfer that a port receives have landed; with all of them its work ends. -/
def State.recvLanded (s : State) (u n : Nat) : State :=
  match s.fabric.recvs.find? fun r => r.cmd.issue.unit == u with
  | none => s
  | some r =>
    let x := s.transfer r.cmd.issue
    let r := { r with landed := r.landed + n }
    let s := s.setRecv r
    if 512 * x.blocks ≤ r.landed then s.endRecv r x r.source else s

/-- Bytes of a transfer with HDR come to the reducer for the entry of a port. -/
def State.landPiece (s : State) (p : Packet) (src serial off : Nat) : State :=
  match s.fabric.recvs.find? fun r => r.cmd.issue.unit == p.unit with
  | none => s
  | some r =>
    let l := s.landHeader r (s.transfer r.cmd.issue) src serial off p.data p.poison
    l.1.setRecv l.2

/-- The unit that reports on an unmatched flit. -/
def arrivalUnit (p : Nat) : Nat := if p = 17 then 0 else portUnit p

/-- An unmatched flit is dropped (R294). -/
def State.dropUnmatched (s : State) (p : Nat) (f : Flit) : State :=
  (s.count 0x5030 1 1).raise 0x210 (arrivalUnit p) (unitDie (arrivalUnit p)) 0 (portDetail p f)

/-- A STREAM flit is delivered: it lands under its entry, or waits in the buffer of 256 (R293, R294). -/
def landStreamFlit (p : Nat) (f : Flit) (s : State) : State :=
  match s.entryFor p f with
  | some r => s.landStream r f
  | none =>
    if 256 ≤ s.fabric.unmatched.length then s.dropUnmatched p f
    else { s with fabric := { s.fabric with unmatched := s.fabric.unmatched ++ [(p, s.clock.frame, f.encode)] } }

def execStreamFlitReceive (p : Nat) (raw : List Byte) (s : State) : Host.Outcome State Fault Refusal :=
  goOn (receive p raw (ofType 1) landStreamFlit s)

/-- STREAM_UNMATCHED: a waiting flit that arrived before the frame that ends is dropped at its tick (R294). -/
def streamUnmatched (s : State) : State :=
  match s.fabric.unmatched with
  | (p, frame, raw) :: rest =>
    if frame < s.clock.frame then
      let f := flitOf raw
      let s := { s with fabric := { s.fabric with unmatched := rest } }
      (s.count 0x5030 1 1).raiseTick 0x210 (arrivalUnit p) (unitDie (arrivalUnit p)) 0 (portDetail p f)
    else s
  | [] => s

def execStreamUnmatched (s : State) : Host.Outcome State Fault Refusal := goOn (streamUnmatched s)

/-! ### RECV -/

/-- Waiting flits that match an entry land, oldest first. -/
def State.landWaiting (s : State) : State :=
  let waiting := s.fabric.unmatched
  let s := { s with fabric := { s.fabric with unmatched := [] } }
  waiting.foldl (fun (s : State) (w : Nat × Nat × List Byte) =>
    match s.entryFor w.1 (flitOf w.2.2) with
    | some r => s.landStream r (flitOf w.2.2)
    | none => { s with fabric := { s.fabric with unmatched := s.fabric.unmatched ++ [w] } }) s

/-- RECV arms a receive entry; a sixty-fifth does not run (R293). -/
def startRecv (i : Issue) (s : State) : State :=
  let x := s.transfer i
  let n := if x.hdr then max 512 (s.landingBytes x) else x.storedBytes
  if 64 ≤ s.fabric.recvs.length then s.invalid i
  else if !bit x.dst 63 && reservedRange x.dst n then s.refuseAccess i x.dst n
  else if x.tableReserved then s.refuseAccess i x.coefTab 4096
  else
    let r : Recv := { cmd := { op := 2, issue := i }, landed := 0, serial := 0, source := 0, parts := [] }
    let s := s.startWork 2 i none .none
    ({ s with fabric := { s.fabric with recvs := s.fabric.recvs ++ [r] } }).landWaiting

def execPortRecv (i : Issue) (s : State) : Host.Outcome State Fault Refusal := goOn (s.gate 2 i startRecv)

/-- RECV of Stavlink lands what the host sends (R295). -/
def execStavlinkRecv (i : Issue) (s : State) : Host.Outcome State Fault Refusal := goOn (s.gate 2 i startRecv)

end Sys2Proof.Machine
end

