-- ==== Sys2Proof/Machine/Member.lean ====
section
/-! DEFINITION. The slice as a member sees it (R296), the abort of a step and step poison (R301, R325, R326, R340, R342). -/

namespace Sys2Proof.Machine

/-! ### Membership (R296) -/

/-- Fields of a membership entry. -/
def memberId (e : Nat) : Nat := e % 4096

def memberState (e : Nat) : Nat := bits e 13 12

/-- The active membership in ring order. -/
def State.members (s : State) : List Nat := s.bank.members

/-- The module's own member index: object 0x5004.01. -/
def State.memberIndex (s : State) : Option Nat := s.members.findIdx? fun e => memberId e == s.moduleId

/-- The module's own membership state; a module the table does not list is LIVE (R281). -/
def State.ownState (s : State) : Nat := ((s.members.find? fun e => memberId e == s.moduleId).map memberState).getD 0

/-- The ids of the members that are not FAILED, in ring order; a module in no slice is alone. -/
def State.ring (s : State) : List Nat :=
  if s.memberIndex.isSome then (s.members.filter fun e => memberState e != 2).map memberId else [s.moduleId]

/-- N of R296. -/
def State.slotCount (s : State) : Nat := s.ring.length

/-- The ids of the LIVE members, ascending by member index. -/
def State.live (s : State) : List Nat :=
  if s.memberIndex.isSome then (s.members.filter fun e => memberState e == 0).map memberId else [s.moduleId]

/-- The lowest member index in state LIVE. -/
def State.lowestLive (s : State) : Option Nat := s.members.findIdx? fun e => memberState e == 0

/-- The ring after the module, in order, up to itself. -/
def State.ringAfter (s : State) : List Nat :=
  match s.ring.findIdx? fun m => m == s.moduleId with
  | some j => s.ring.drop (j + 1) ++ s.ring.take j
  | none => []

/-- The nearest and second successor, and predecessor, as far as the ring has them. -/
def State.successors (s : State) : List Nat := s.ringAfter.take 2

def State.predecessors (s : State) : List Nat := s.ringAfter.reverse.take 2

/-- The coordinator: the LIVE member of lowest member index (R321). -/
def State.coordinator (s : State) : Nat := s.live.headD s.moduleId

def State.isCoordinator (s : State) : Bool := s.coordinator == s.moduleId

/-- The low 32 bits of the step counter, as RESIL flits carry it (R321). -/
def State.step32 (s : State) : Nat := s.stepCount % 2 ^ 32

/-- Sets the commit state of R325. -/
def State.setCommit (s : State) (n : Nat) : State := s.put 0x8020 2 n

/-- Sends a RESIL flit about the current step to members of a list other than the module itself. -/
def State.tell (s : State) (unit : Nat) (ids : List Nat) (kind subject : Nat) (payload : List Byte) : State :=
  (ids.filter fun m => m != s.moduleId).foldl (fun (s : State) m => s.originate unit (resilFlit m kind subject s.step32 payload)) s

/-! ### Step poison (R301) -/

/-- The POISON_STEP flit of the current step, from this module, for a fault code. -/
def State.poisonFlit (s : State) (code : Nat) : Flit :=
  s.own (plainFlit 0xA 0 0 (s.stepCount % 2 ^ 48) (leBytes 4 (packFields [(12, s.moduleId), (4, 0), (12, code)])))

/-- Sends POISON_STEP for the current step, once (R301). -/
def State.sendPoison (s : State) (code : Nat) : State :=
  if s.fabric.poisonSeen == some s.stepCount then s
  else
    let s := { s with fabric := { s.fabric with poisonSeen := some s.stepCount } }
    s.flood (s.poisonFlit code) none

/-! ### Abort (R326) -/

/-- The member enters ABORTING: dispatch stops, pending commands are discarded, work goes on. -/
def State.enterAborting (s : State) : State :=
  let s := (s.setCommit 4).count 0x8021 2 1
  let s := unitIds.foldl (fun (s : State) u =>
    if (s.unit u).waiting.isEmpty then s else s.onUnit u fun x => { x with waiting := [] }) s
  { s with program := { s.program with bundles := [], fetched := none, calls := [], at_ := none } }

/-- An undecided coordinator that learns of an abort decides abort and tells every LIVE member (R326). -/
def State.coordinatorAborts (s : State) (origin code : Nat) : State :=
  if s.isCoordinator && !s.commit.decided && s.training then
    let s := { s with commit := { s.commit with decided := true } }
    let s := s.tell 0 s.live 5 s.moduleId (leBytes 4 (packFields [(12, origin), (4, 0), (12, code)]))
    if s.commitState ≤ 2 then s.enterAborting else s
  else s

/-- The program stops at the next tick with a reason (R45, R340). -/
def State.stopProgram (s : State) (reason : Nat) (halt : Bool) : State :=
  if s.running then { s with program := { s.program with stopping := some (reason, halt) } } else s

/-- The ABORT part of an action for a fault code, with step poison, on the commit state it finds (R326, R340, R342). -/
def State.abortStep (s : State) (code : Nat) : State :=
  if !s.running then s
  else if s.program.kind = 2 then (if s.program.stopping.isSome then s else s.stopProgram code false)
  else match s.commitState with
    | 0 | 1 => ((s.sendPoison code).enterAborting).coordinatorAborts s.moduleId code
    | 2 =>
      let s := s.sendPoison code
      { s with commit := { s.commit with readyFault := some code } }.coordinatorAborts s.moduleId code
    | 3 => { s with commit := { s.commit with poisonNext := some code } }
    | _ => s

/-- POISON_STEP for the current step, the first time only: it is passed on, a member in RUNNING or VOTED aborts, a READY
member waits, and the coordinator decides (R301, R326). -/
def takePoison (p : Nat) (f : Flit) (s : State) : State :=
  let pay := leNat f.payload
  let origin := bits pay 11 0
  let code := bits pay 27 16
  if !s.training || f.addr != s.stepCount % 2 ^ 48 || s.fabric.poisonSeen == some s.stepCount then s
  else
    let s := { s with fabric := { s.fabric with poisonSeen := some s.stepCount } }
    let s := s.flood f (some p)
    let s := s.raise 0x316 0xC0 (unitDie (portUnit p)) 0 (packFields [(12, origin), (12, code), (5, p)])
    let s := if s.commitState ≤ 1 then s.enterAborting else s
    s.coordinatorAborts origin code

def execPoisonStepReceive (p : Nat) (raw : List Byte) (s : State) : Host.Outcome State Fault Refusal :=
  goOn (receive p raw (ofType 0xA) takePoison s)

/-- A RESIL flit of a kind. -/
def ofKind (k : Nat) (f : Flit) : Bool := f.type == 0xB && bits f.addr 3 0 == k

/-- The flit concerns the current step of a training program. -/
def State.concerns (s : State) (f : Flit) : Bool := s.training && bits f.addr 47 16 == s.step32

/-- The subject of a RESIL flit. -/
def Flit.subject (f : Flit) : Nat := bits f.addr 15 4

/-- ABORT from the coordinator: a member that has not committed enters ABORTING (R326). -/
def takeAbort (p : Nat) (f : Flit) (s : State) : State :=
  let pay := leNat f.payload
  if !s.concerns f || s.commitState > 2 then s
  else (s.raise 0x316 0xC0 (unitDie (arrivalUnit p)) 0 (packFields [(12, bits pay 11 0), (12, bits pay 27 16), (5, p)])).enterAborting

def execAbortReceive (p : Nat) (raw : List Byte) (s : State) : Host.Outcome State Fault Refusal :=
  goOn (receive p raw (ofKind 5) takeAbort s)

end Sys2Proof.Machine
end

