-- ==== Sys2Proof/Machine/LayerBlock.lean ====
section
/-! DEFINITION. The layer block of a layer in the operand store (R196), and the privileged tensors that it and the layer descriptors
name (R197). -/

namespace Sys2Proof.Machine

/-! ### The layer block (R196) -/

/-- A slot entry (Table 8.2). -/
structure Slot where
  word : Nat
  addr : Nat
  tensor : Nat
  fmt : Nat
  bound : Bool
  store : Bool
  protect : Bool
  role : Nat
  deriving DecidableEq, Repr

/-- Reads a slot entry. -/
def slotOf (w : Nat) : Slot :=
  { word := w, addr := bits w 63 0, tensor := bits w 95 64, fmt := bits w 99 96, bound := bit w 100, store := bit w 101,
    protect := bit w 102, role := bits w 104 103 }

/-- A layer block: its slots and the fields of Table 8.3. -/
structure LayerBlock where
  slots : List Slot
  word : Nat
  rev : Nat
  sched : Nat
  srows : Nat
  ucount : Nat
  uncl : Nat
  gzp : Nat
  idx : Nat
  priv : List Nat
  deriving DecidableEq, Repr

/-- Reads the layer block at an operand-store offset. -/
def State.layerBlock (s : State) (d off : Nat) : LayerBlock :=
  let w := (s.opStore d).readLE (off + 128) 128
  { slots := (List.range 8).map fun k => slotOf ((s.opStore d).readLE (off + 16 * k) 16)
    word := w, rev := bits w 63 0, sched := bits w 127 64, srows := bits w 143 128, ucount := bits w 191 160,
    uncl := bits w 255 192, gzp := bits w 319 256, idx := bits w 383 320,
    priv := [bits w 415 384, bits w 447 416, bits w 479 448, bits w 511 480] }

/-- Bytes of an element of a slot. -/
def Slot.width (x : Slot) : Nat := fmtBits x.fmt / 8

/-- What R196 refuses in the slot table. -/
def LayerBlock.slotsOk (b : LayerBlock) : Bool :=
  b.slots.all (fun x => (!x.protect || x.store) && !(x.role == 1 && !x.store) && !(x.role == 2 && x.store) && x.role != 3 &&
    decide (x.fmt ≤ 3) && bits x.word 127 105 == 0) &&
  decide ((b.slots.filter fun x => x.role == 1).length ≤ 1) && decide ((b.slots.filter fun x => x.role == 2).length ≤ 1) &&
  bits b.word 159 144 == 0 && bits b.word 1023 512 == 0

/-! ### Privileged tensors (R197) -/

/-- The die whose stacks hold a layer's state, where its operand store holds the layer block: that of its weight (R194; log 123). -/
def State.layerDie (s : State) (y : Layer) : Nat := ((s.tensorDesc y.tensor).map fun d => addressDie (bits d 127 64)).getD 0

/-- The privileged tensors that a layer descriptor names: its gradient slot's with PRIV, and PRIV0 to PRIV3 of its layer block. -/
def State.layerPrivileged (s : State) (y : Layer) : List Nat :=
  let b := s.layerBlock (s.layerDie y) y.lblk
  (if y.priv then (b.slots.filter fun x => x.role == 2).map (·.tensor) else []) ++ b.priv.filter (· != 0)

/-- The privileged tensors of the program. -/
def State.privileged (s : State) : List Nat :=
  ((List.range (s.dirCount 4)).flatMap fun j => s.layerPrivileged (layerOf (s.desc 4 j))).eraseDups

end Sys2Proof.Machine
end

