-- ==== Sys2Proof/Machine/Update.lean ====
section
/-! DEFINITION. Parameter update: layer blocks, update programs, the parts of an UPDATE, the norm ledger and the ratio watch
(R194–R211). -/

namespace Sys2Proof.Machine

/-! ### The layer block (R194) -/

/-- Bytes of a slot's tensor from its ADDR: the dense matrix, or the value plane of the block index (R196; log 123). -/
def State.slotExtent (s : State) (y : Layer) (b : LayerBlock) (x : Slot) : Nat :=
  if b.idx = 0 then x.width * y.mrows * y.ncols else 128 * bits (s.hbmLE b.idx 64) 159 128

/-- Every bound slot's tensor lies on the stacks of the die (R194), and a bound tensor of class 0x01 or 0x04 has PROTECT (R309). -/
def State.slotsHome (s : State) (d : Nat) (y : Layer) (b : LayerBlock) : Bool :=
  b.slots.all fun x => !x.bound || (decide (x.addr < 2 ^ 41) &&
    (let n := s.slotExtent y b x; populated x.addr n && addressDie x.addr == d) &&
    !((s.pclass x.tensor == 1 || s.pclass x.tensor == 4) && !x.protect))

/-! ### Update programs (R199, R202) -/

/-- An update operation (Table 8.5). -/
structure UpdateOp where
  word : Nat
  op : Nat
  d : Nat
  a : Nat
  b : Nat
  c : Nat
  as_ : Bool
  bs : Bool
  cs : Bool
  k : Nat
  deriving DecidableEq, Repr

/-- Reads an update operation. -/
def updateOpOf (w : Nat) : UpdateOp :=
  { word := w, op := bits w 5 0, d := bits w 9 6, a := bits w 13 10, b := bits w 17 14, c := bits w 21 18, as_ := bit w 22,
    bs := bit w 23, cs := bit w 24, k := bits w 27 25 }

/-- The fields of an operation that must be zero are zero (Table 8.6). -/
def UpdateOp.unused (o : UpdateOp) (d a b c k : Bool) : Bool :=
  (d || o.d == 0) && (a || (o.a == 0 && !o.as_)) && (b || (o.b == 0 && !o.bs)) && (c || (o.c == 0 && !o.cs)) &&
  (k || o.k == 0) && bits o.word 31 28 == 0

/-- The operation is legal by itself (Table 8.6). -/
def UpdateOp.ok (o : UpdateOp) : Bool :=
  match o.op with
  | 0x01 => o.unused true true true true false
  | 0x02 | 0x03 | 0x05 | 0x06 | 0x07 => o.unused true true true false false
  | 0x04 => o.unused true true false false false
  | 0x08 | 0x09 => o.unused false true false false false && !o.as_
  | 0x0A => o.unused false true false false true && !o.as_
  | 0x0B => o.unused true false false false true && decide (o.k ≤ 1)
  | 0x0C => o.unused false true true true true && o.as_ && o.bs && o.cs && decide (o.k ≤ 1)
  | _ => false

/-- The factor offset an LDF or STF reads, and the one an STF writes. -/
def Layer.previous (y : Layer) (k : Nat) : Nat :=
  if y.mode = 2 then (if k = 0 then y.rnew else y.cnew) else (if k = 0 then y.rprev else y.cprev)

def Layer.fresh (y : Layer) (k : Nat) : Nat := if k = 0 then y.rnew else y.cnew

/-- What R202 refuses in a program. -/
def programOk (y : Layer) (b : LayerBlock) (ops : List UpdateOp) : Bool :=
  let tail := ops.drop (ops.length - 2)
  let stf := ops.filter fun o => o.op == 0x0C
  let srs := ops.filter fun o => o.op == 0x0A
  ops.all UpdateOp.ok &&
  srs.all (fun o => ((b.slots[o.k]?).map (·.store)).getD false) && decide ((srs.map fun (o : UpdateOp) => o.k).Nodup) &&
  decide (stf.length = (tail.filter fun o => o.op == 0x0C).length) && decide ((stf.map fun (o : UpdateOp) => o.k).Nodup) &&
  ops.all (fun o => !(o.op == 0x0B && y.previous o.k == 0) &&
    !(o.op == 0x0C && (y.fresh o.k == 0 || (if o.k = 0 then y.rprev else y.cprev) == 0)) &&
    !((o.op == 0x08 || o.op == 0x09) && y.rnew == 0 && y.cnew == 0)) &&
  !((y.rnew != 0 || y.cnew != 0) && (decide (65536 < y.mrows) || decide (65536 < y.ncols)))

/-- The operations of a layer's program. -/
def State.updateProgram (s : State) (d : Nat) (y : Layer) : List UpdateOp :=
  (List.range y.plen).map fun j => updateOpOf ((s.opStore d).readLE (y.prog + 4 * j) 4)

/-! ### The ledger (R209, Table 8.8) -/

/-- The layer ids of the program, ascending (R197). -/
def State.layerIds (s : State) : List Nat :=
  ((List.range (s.dirCount 4)).map fun j => (layerOf (s.desc 4 j)).layer).foldl (fun l a => insertNat a l) []

/-- Where a Locket record holds the ledger record of the n-th layer (Table 12.5). -/
def ledgerOffset (n : Nat) : Nat := 0x48200 + 32 * n

/-- The committed ledger record of a layer. -/
def State.ledgerRecord (s : State) (layer : Nat) : Nat :=
  match s.layerIds.findIdx? (· == layer) with
  | some n => s.locket.ownCommitted.readLE (ledgerOffset n) 32
  | none => 0

/-- What the step has staged for a layer. -/
def State.staged (s : State) (layer : Nat) : Staged := kget {} s.locket.ledger layer

/-- Stages for a layer; after the step's SEAL it is discarded and counted (R319). -/
def State.stage (s : State) (layer : Nat) (x : Staged) : State :=
  if s.commit.sealed then s.count 0x8021 5 1
  else { s with locket := { s.locket with ledger := kset {} s.locket.ledger layer x } }

/-! ### Scalars (Table 8.4) -/

/-- x^n in E8M31, by squaring over the bits of n from the lowest (log 20). -/
def ePow : Nat → Num → Nat → Num
  | 0, _, _ => Num.ofNat 1
  | fuel + 1, x, n =>
    if n = 0 then Num.ofNat 1
    else
      let h := ePow fuel (eMul x x) (n / 2)
      if n % 2 = 1 then eMul x h else h

/-- 1 / (1 − β^(n+1)), 1 when the denominator is a zero. -/
def correction (beta : Num) (n : Nat) : Num :=
  let den := eSub (Num.ofNat 1) (ePow 65 beta (n + 1))
  if den.isZero then Num.ofNat 1 else eRecip den

/-- 1 / v, +0 when v is a zero. -/
def recipOrZero (v : Num) : Num := if v.isZero then Num.zero else eRecip v

/-- The scalar registers of a part (R198, R207). -/
def State.scalars (s : State) (y : Layer) (b : LayerBlock) : List Num :=
  let n := s.stepCount
  let row := s.hbmLE (b.sched + 8 * min n (b.srows - 1)) 8
  let one := Num.ofNat 1
  let b1 := eSub one (ofCode 0 y.b1c)
  let b2 := eSub one (ofCode 0 y.b2c)
  let f := if y.mode = 2 then ofCode 0 ((s.staged y.layer).factor.getD 0) else ofCode 0 (bits (s.ledgerRecord y.layer) 79 64)
  [ofCode 0 (bits row 15 0), ofCode 0 (bits row 31 16), ofCode 0 (bits row 47 32), ofCode 0 (bits row 63 48),
   b1, ofCode 0 y.b1c, b2, ofCode 0 y.b2c, ofCode 0 y.eps, ofCode 0 y.clip, correction b1 n, correction b2 n,
   recipOrZero f, eRecip (Num.ofNat y.ncols), eRecip (Num.ofNat y.mrows), Num.ofNat 1 |>.neg]

/-! ### Elements (R203) -/

/-- An element of a part: its dense-equivalent row, column and linear index, its byte offset factor (element number within
the slot of its block, and the block's 128-byte offset), and whether its group is marked zero. -/
structure Element where
  row : Nat
  col : Nat
  index : Nat
  unit : Nat
  number : Nat
  zeroed : Bool
  deriving DecidableEq, Repr

/-- The block index at an HBM address: its header there, its metadata plane where MBASE says. -/
def State.hbmIndex (s : State) (d a : Nat) : Index :=
  let w := s.hbmLE a 64
  { die := d, base := a, word := w, fmt := bits w 27 24, tensor := bits w 63 32, linesR := bits w 79 64, linesC := bits w 95 80,
    present := bits w 127 96, vlen := bits w 159 128, mlen := bits w 191 160, cdir := bits w 223 192, entries := bits w 255 224,
    clist := bits w 287 256, ilen := bits w 319 288, mbase := bits w 383 320, sbase := bits w 447 384 }

/-- Entry `t` of an index in HBM. -/
def State.hbmEntry (s : State) (ix : Index) (t : Nat) : Entry :=
  let w := s.hbmLE (ix.base + ix.entries + 16 * t) 16
  { ordinal := t, word := w, col := bits w 15 0, row := bits w 31 16, pat := bits w 33 32, palette := bits w 63 48,
    voff := bits w 95 64, moff := bits w 127 96 }

/-- The elements of a part, in order: row-major for dense form, by entries and slots for pinna form (R203). -/
def State.elements (s : State) (d : Nat) (y : Layer) (b : LayerBlock) : List Element :=
  if b.idx = 0 then
    (span y.row0 y.rows).flatMap fun r => (List.range y.ncols).map fun c =>
      { row := r, col := c, index := r * y.ncols + c, unit := 0, number := r * y.ncols + c, zeroed := false }
  else
    let ix := s.hbmIndex d b.idx
    let es := ((List.range ix.present).map (s.hbmEntry ix)).filter fun e => decide (y.row0 ≤ e.row ∧ e.row < y.row0 + y.rows)
    es.flatMap fun e =>
      let zeros := if b.gzp = 0 then 0 else s.hbmLE (b.gzp + 32 * e.ordinal) 32
      let ps := s.positions ix e
      (ps.zip (List.range ps.length)).map fun p =>
        { row := 32 * e.row + p.1.2.1, col := 32 * e.col + p.1.2.2,
          index := (32 * e.row + p.1.2.1) * (32 * ix.linesC) + 32 * e.col + p.1.2.2,
          unit := e.voff, number := p.2, zeroed := bit zeros p.1.1 }

/-- Where an element of a slot lies. -/
def Slot.at_ (x : Slot) (e : Element) : Nat := x.addr + 128 * e.unit + x.width * e.number

/-- Bytes of a slot's tensor, which its record plane matches: by its descriptor, else the dense matrix in whole blocks. -/
def State.slotLength (s : State) (y : Layer) (x : Slot) : Nat :=
  match s.tensorDesc x.tensor with
  | some d => tensorLength d
  | none => roundUp (x.width * y.mrows * y.ncols) 512

/-- Where the record plane of slot `k` has the byte at address `a` of the slot's tensor (R196, R200). -/
def State.recordAt (s : State) (y : Layer) (b : LayerBlock) (k : Nat) (a : Nat) : Nat :=
  let earlier := (b.slots.take k).filter fun x => x.protect
  let x := b.slots.getD k (slotOf 0)
  let base := match s.tensorDesc x.tensor with
    | some d => if tensorBase d ≤ x.addr ∧ x.addr < tensorBase d + tensorLength d then tensorBase d else x.addr
    | none => x.addr
  b.rev + (earlier.map (s.slotLength y)).foldl (· + ·) 0 + (a - base)

/-! ### One element -/

/-- What a part carries from element to element: the Filigree, the conversions, and the stores: slot, address, code. -/
structure Pass where
  fil : Filigree
  stored : List Stored
  stores : List (Nat × Nat × Nat)
  maxima : List (Nat × Num)
  deriving DecidableEq, Repr

/-- Row and column accumulators of R187 as STF and the bodies use them. -/
def Filigree.addRow (f : Filigree) (r : Nat) (v : Num) : Filigree :=
  let x := kget ((0 : E8M31), (0 : E8M31)) f.rowMem r
  { f with rowMem := kset ((0 : E8M31), (0 : E8M31)) f.rowMem r (toE8 (eAdd (ofE8 x.1) v), x.2) }

def Filigree.addCol (f : Filigree) (c : Nat) (v : Num) : Filigree :=
  { f with colMem := kset (0 : E8M31) f.colMem c (toE8 (eAdd (ofE8 (kget (0 : E8M31) f.colMem c)) v)) }

/-- min(max(a, −|b|), |b|); a NaN where a is one (Table 8.6). -/
def clipTo (a b : Num) : Num :=
  match a with
  | .nan => .nan
  | _ =>
    let hi := b.abs
    let lo := b.abs.neg
    let x := if a.lt lo then lo else a
    if hi.lt x then hi else x

/-- Runs the body over one element: registers, then what SR, RACC and CACC leave (R198–R201). -/
def State.body (s : State) (d : Nat) (y : Layer) (b : LayerBlock) (ops : List UpdateOp) (sc : List Num) (e : Element)
    (p : Pass) : Pass × List Num :=
  let read := b.slots.map fun x =>
    if x.bound then
      let k := s.readExp x.tensor x.fmt
      let v := ofCode x.fmt (s.hbmLE (x.at_ e) x.width)
      if k = 0 then v else eScale (-k) v
    else Num.zero
  let init := read ++ List.replicate 8 Num.zero
  let src := fun (v : List Num) (r : Nat) (scalar : Bool) => (if scalar then sc else v).getD r Num.zero
  let run := (ops.zip (List.range ops.length)).foldl (fun (acc : List Num × Pass) o =>
    let v := acc.1
    let p := acc.2
    let a := src v o.1.a o.1.as_
    let bb := src v o.1.b o.1.bs
    let c := src v o.1.c o.1.cs
    match o.1.op with
    | 0x01 => (v.set o.1.d (eMac c a bb), p)
    | 0x02 => (v.set o.1.d (eMul a bb), p)
    | 0x03 => (v.set o.1.d (eAdd a bb), p)
    | 0x04 => (v.set o.1.d (eRsqrt a), p)
    | 0x05 => (v.set o.1.d (eDiv a bb), p)
    | 0x06 => (v.set o.1.d (numMax a bb), p)
    | 0x07 => (v.set o.1.d (clipTo a bb), p)
    | 0x08 => (v, if y.mode = 2 then p else { p with fil := p.fil.addRow e.row a })
    | 0x09 => (v, if y.mode = 2 then p else { p with fil := p.fil.addCol e.col a })
    | 0x0A =>
      if y.mode = 1 then (v, p)
      else
        let x := b.slots.getD o.1.k (slotOf 0)
        let k := s.writeExp x.tensor x.fmt
        let r := sr (if k = 0 then a else eScale k a) x.fmt (s.rand x.tensor e.index (0x3000 + o.2))
        if !x.bound then (v, p) else (v, { p with stored := r :: p.stored, stores := (o.1.k, x.at_ e, r.code) :: p.stores, maxima := (x.tensor, a) :: p.maxima })
    | 0x0B =>
      let f := if y.mode = 1 then Num.zero else s.elem d 0 (y.previous o.1.k) (if o.1.k = 0 then e.row else e.col) 0
      (v.set o.1.d f, p)
    | _ => (v, p)) (init, p)
  (run.2, read)

/-- Adds the element to the ledger sums (R209): the new weight is the one stored. -/
def State.ledgerSums (s : State) (b : LayerBlock) (e : Element) (read : List Num) (p : Pass) : Filigree :=
  let f := p.fil
  let weight := b.slots.findIdx? fun x => x.role == 1
  let grad := b.slots.findIdx? fun x => x.role == 2
  let w := (weight.map fun k => read.getD k Num.zero).getD Num.zero
  let g := (grad.map fun k => read.getD k Num.zero).getD Num.zero
  let fresh := match weight with
    | none => w
    | some k =>
      let x := b.slots.getD k (slotOf 0)
      if e.zeroed && x.store then Num.zero
      else match p.stores.find? fun t => t.1 == k && t.2.1 == x.at_ e with
        | some t => let q := s.writeExp x.tensor x.fmt; let v := ofCode x.fmt t.2.2; if q = 0 then v else eScale (-q) v
        | none => w
  let dw := eSub fresh w
  { f with
    sumW := toE8 (eAdd (ofE8 f.sumW) (eMul w w))
    sumG := toE8 (eAdd (ofE8 f.sumG) (eMul g g))
    sumD := toE8 (eAdd (ofE8 f.sumD) (eMul dw dw)) }

/-- One element of a part (R198–R200, R209). A zeroed element stores +0 in every STORE slot. -/
def State.updateElement (s : State) (d : Nat) (y : Layer) (b : LayerBlock) (ops : List UpdateOp) (sc : List Num) (p : Pass)
    (e : Element) : Pass :=
  let r := s.body d y b ops sc e p
  let p1 := r.1
  if y.mode = 1 then p1
  else
    let f := s.ledgerSums b e r.2 p1
    let zeros := if !e.zeroed then p1.stores
      else ((List.range 8).filterMap fun k =>
          let x := b.slots.getD k (slotOf 0)
          if x.store && x.bound then some (k, x.at_ e, 0) else none) ++
        p1.stores.filter fun t => !((b.slots.getD t.1 (slotOf 0)).at_ e == t.2.1)
    { p1 with fil := f, stores := zeros }

/-- Writes a code of a slot: an XOR delta in the record plane under PROTECT (R200), a recorded write of its tensor's class
else (R310). -/
def State.slotWrite (s : State) (ctx : Nat) (y : Layer) (b : LayerBlock) (k a : Nat) (bytes : List Byte) (poisoned : Bool) :
    State :=
  let x := b.slots.getD k (slotOf 0)
  if x.protect then
    let delta := xorBytes (s.hbmRead a bytes.length) bytes
    (s.writeThrough ctx (s.recordAt y b k a) delta poisoned).writeThrough ctx a bytes poisoned
  else s.stepThrough ctx x.tensor a bytes poisoned

/-- Joins stores to adjacent addresses of one slot, in order. -/
def joinStores : List (Nat × Nat × List Byte) → List (Nat × Nat × List Byte)
  | [] => []
  | x :: t =>
    match joinStores t with
    | y :: u => if x.1 = y.1 ∧ x.2.1 + x.2.2.length = y.2.1 then (x.1, x.2.1, x.2.2 ++ y.2.2) :: u else x :: y :: u
    | [] => [x]

/-- +0 into every 128-byte unit of the unclaimed-slot list, in every STORE slot (R137, R200). -/
def State.clearUnclaimed (s : State) (ctx : Nat) (y : Layer) (b : LayerBlock) : State :=
  (List.range b.ucount).foldl (fun s j =>
    let w := s.hbmLE (b.uncl + 8 * j) 8
    (List.range 8).foldl (fun s k =>
      let x := b.slots.getD k (slotOf 0)
      if x.store && x.bound then
        s.slotWrite ctx y b k (x.addr + 128 * bits w 31 0) (List.replicate (128 * bits w 47 32) 0) false
      else s) s) s

/-- Bytes of the unclaimed units. -/
def State.unclaimedBytes (s : State) (b : LayerBlock) : Nat :=
  ((List.range b.ucount).map fun j => 128 * bits (s.hbmLE (b.uncl + 8 * j) 8) 47 32).foldl (· + ·) 0

/-- STF over one factor vector (R201): new[x] := sr(A·prev[x] + B·C·acc[x]). Answers the new values and their
conversions. -/
def State.factors (s : State) (d : Nat) (y : Layer) (sc : List Num) (o : UpdateOp) (index : Nat) : List Stored :=
  let n := if o.k = 0 then y.mrows else y.ncols
  let f := s.filigree d
  let a := sc.getD o.a Num.zero
  let bc := eMul (sc.getD o.b Num.zero) (sc.getD o.c Num.zero)
  (List.range n).map fun x =>
    let acc := if o.k = 0 then ofE8 (kget ((0 : E8M31), (0 : E8M31)) f.rowMem x).1 else ofE8 (kget (0 : E8M31) f.colMem x)
    let prev := s.elem d 0 (if o.k = 0 then y.rprev else y.cprev) x 0
    sr (eAdd (eMul a prev) (eMul bc acc)) 0 (s.rand y.tensor (x + 2 ^ 40 * o.k) (0x3000 + index))

/-- Runs one STF; the row form stages the mean of the new row factors as F, its rounding bits being free (log 21). -/
def State.runStf (s : State) (d : Nat) (y : Layer) (sc : List Num) (bad : Bool) (o : UpdateOp) (index : Nat) : State :=
  let st := s.factors d y sc o index
  let s := (s.opWrite d (y.fresh o.k) (st.flatMap fun x => leBytes 2 x.code) bad).stored d st
  if o.k = 0 then
    let mean := eDiv (eSum (st.map fun x => ofCode 0 x.code)) (Num.ofNat y.mrows)
    let r := s.draw
    let f := (sr mean 0 (r.1.toNat % 65536)).code
    r.2.stage y.layer { r.2.staged y.layer with factor := some f }
  else s

/-- The last part of the layer. -/
def Layer.last (y : Layer) : Bool := y.part + 1 == y.parts

/-- The cycles of a part in which no bytes move: its 64 and its T (R204). -/
def Layer.overhead (y : Layer) (stf : Bool) : Nat := 64 + if stf then 32 + cdiv (y.mrows + y.ncols) 1024 else 0

/-- The part runs STF (R201, R206). -/
def Layer.finalises (y : Layer) (ops : List UpdateOp) : Bool := y.last && y.mode != 2 && ops.any fun o => o.op == 0x0C

/-- The bytes a part moves in HBM, Y (R204). -/
def State.partBytes (s : State) (y : Layer) (b : LayerBlock) (ops : List UpdateOp) (count : Nat) : Nat :=
  let srs := if y.mode = 1 then [] else ops.filter fun o => o.op == 0x0A && (b.slots.getD o.k (slotOf 0)).bound
  let reads := ((b.slots.filter (·.bound)).map Slot.width).foldl (· + ·) 0
  let writes := (srs.map fun o =>
    let x := b.slots.getD o.k (slotOf 0); x.width * (if x.protect then 2 else 1)).foldl (· + ·) 0
  let epoch := y.last && y.mode != 1 && s.get 0x6050 4 == 1
  let extra := if epoch then 2 * s.unclaimedBytes b * (b.slots.filter fun x => x.store && x.bound).length else 0
  count * (reads + writes) + extra

/-- Starts the work of a part that moves `bytes`, a quarter of them on each stack of the die, and takes at least `least` cycles for
its operations (R204). -/
def State.startPart (s : State) (i : Issue) (bytes least idle : Nat) : State :=
  (s.startWork 2 i (some (idle + max least (cdiv bytes 7168))) .none).onUnit i.unit fun x =>
    { x with work := x.work.map fun w => { w with jobs := cdiv bytes 4, head := idle } }

/-- A Frond cycle of a part of an UPDATE: the program-class regulators of the die's stacks let in up to 1,792 bytes each; where one
does not, and the cycles left no longer hold the bytes left, the part waits (R204, R265; log 124). -/
def State.partCycle (s : State) (u : Nat) (w : Work) : State :=
  let homes := (List.range 4).map fun j => 4 * unitDie u + j
  let n := min 1792 w.jobs
  let tick := fun (s : State) (n : Nat) => s.onUnit u fun x => { x with
    work := x.work.map fun w => { w with jobs := w.jobs - n, left := w.left.map fun c => c - 1, age := w.age + 1 } }
  if homes.all fun k => s.holdsTokens k 0 n then tick (homes.foldl (fun (s : State) k => s.spend k 0 n) s) n
  else if w.jobs ≤ 1792 * (w.left.getD 0 - 1 - w.head) then tick s 0
  else s.count 0x4022 1 1

/-- The revert-log entries of a part: the rows of each PROTECT slot on its stack (R311). -/
def State.partUndo (s : State) (ctx : Nat) (y : Layer) (b : LayerBlock) : State :=
  (List.range 8).foldl (fun s k =>
    let x := b.slots.getD k (slotOf 0)
    if x.protect && x.bound then
      let base := if b.idx = 0 then x.addr + x.width * (y.row0 * y.ncols) else x.addr
      let len := if b.idx = 0 then x.width * (y.rows * y.ncols) else 128 * bits (s.hbmLE b.idx 64) 159 128
      s.addUndo (stackOf x.addr) ctx { tensor := x.tensor, base, length := len, record := some (s.recordAt y b k base) }
    else s) s

/-- What part 0 clears: the memories and the ledger sums; MODE 2 keeps the memories (R203, R206). The withhold mark of another
layer goes too (R211). -/
def Filigree.beginLayer (f : Filigree) (y : Layer) : Filigree :=
  { rowMem := if y.mode = 2 then f.rowMem else [], colMem := if y.mode = 2 then f.colMem else [], layer := y.layer,
    withholding := f.withholding && f.layer == y.layer }

/-- The inputs of a part in the operand store. -/
def Layer.inputs (y : Layer) : List (Nat × Nat) :=
  [(y.prog, 4 * y.plen), (y.lblk, 256), (y.rprev, 2 * y.mrows), (y.cprev, 2 * y.ncols)].filter fun r => r.1 != 0

/-- The ranges of HBM that a part reads: its index, its planes of groups and of unclaimed units, its schedule row and the elements
of its bound slots. -/
def State.partReads (s : State) (y : Layer) (b : LayerBlock) (es : List Element) : List (Nat × Nat) :=
  let ix := s.hbmIndex 0 b.idx
  (if b.idx = 0 then [] else [(b.idx, 64), (b.idx + ix.entries, 16 * ix.present)]) ++
  (if b.gzp = 0 ∨ b.idx = 0 then [] else [(b.gzp, 32 * ix.present)]) ++
  (if b.ucount = 0 ∨ !y.last then [] else [(b.uncl, 8 * b.ucount)]) ++
  [(b.sched + 8 * min s.stepCount (b.srows - 1), 8)] ++
  (b.slots.filter (·.bound)).flatMap fun x =>
    (joinStores (es.map fun e => (0, x.at_ e, List.replicate x.width 0))).map fun t => (t.2.1, t.2.2.length)

/-- A part reads its inputs: the state after it and whether poison was read (R255–R257). -/
def State.readPart (s : State) (i : Issue) (y : Layer) (b : LayerBlock) (es : List Element) : State × Bool :=
  let ranges := (y.inputs.map fun r => (2 ^ 63 + r.1, r.2)) ++ s.partReads y b es
  ranges.foldl (fun (x : State × Bool) r =>
    let t := x.1.anyTouch i.unit i.ctx r.1 r.2
    (t.1, x.2 || t.2)) (s, false)

/-- A part of MODE 0, 1 or 2 (R198–R206). -/
def State.runPart (s : State) (i : Issue) (y : Layer) (b : LayerBlock) (ops : List UpdateOp) : State :=
  let d := unitDie i.unit
  let s := if y.part = 0 then s.setFiligree d ((s.filigree d).beginLayer y) else s
  let es := s.elements d y b
  let touched := s.readPart i y b es
  let s := touched.1
  let bad := touched.2
  let sc := s.scalars y b
  let s := if y.mode = 1 then s else s.partUndo i.ctx y b
  let p := es.foldl (fun p e => s.updateElement d y b ops sc p e) { fil := s.filigree d, stored := [], stores := [], maxima := [] }
  let bytes := s.partBytes y b ops es.length
  let writes := joinStores ((p.stores.reverse.foldl (fun (l : List (Nat × List (Nat × Nat))) t =>
      l.map fun q => if q.1 = t.1 then (q.1, q.2 ++ [t.2]) else q) ((List.range 8).map fun k => (k, [])))
    |>.flatMap fun q => q.2.map fun t => (q.1, t.1, leBytes (b.slots.getD q.1 (slotOf 0)).width t.2))
  let s := s.setFiligree d p.fil
  let s := writes.foldl (fun s t => s.slotWrite i.ctx y b t.1 t.2.1 t.2.2 bad) s
  let s := s.stored d p.stored
  let s := p.maxima.foldl (fun s m => s.reportMax m.1 [m.2]) s
  let s := if y.mode = 1 ∨ es.isEmpty then s else s.count 0x7048 (d + 1) es.length
  let s := if y.last && y.mode != 1 && s.get 0x6050 4 == 1 then s.clearUnclaimed i.ctx y b else s
  let stf := y.finalises ops
  let s := if stf then
      (ops.zip (List.range ops.length)).foldl (fun s o => if o.1.op = 0x0C then s.runStf d y sc bad o.1 o.2 else s) s
    else s
  let body := (ops.filter fun o => o.op != 0x0C).length
  s.startPart i bytes (cdiv (es.length * body) 16384) (y.overhead stf)

/-- Puts a run of protected elements back: the stored values xor their deltas, and the deltas zero (R211). -/
def State.restore (s : State) (ctx : Nat) (y : Layer) (b : LayerBlock) (k a n : Nat) : State :=
  let r := s.recordAt y b k a
  let s := s.writeThrough ctx a (xorBytes (s.hbmRead a n) (s.hbmRead r n)) (s.hbmPoisoned a n || s.hbmPoisoned r n)
  s.writeThrough ctx r (List.replicate n 0) false

/-- The runs of protected elements of the rows of a part, each with its slot, but for elements that R129 zeroed. -/
def LayerBlock.protectedRuns (b : LayerBlock) (es : List Element) : List (Nat × Nat × Nat) :=
  ((List.range 8).filter fun k => let x := b.slots.getD k (slotOf 0); x.protect && x.bound).flatMap fun k =>
    let x := b.slots.getD k (slotOf 0)
    (joinStores ((es.filter fun e => !e.zeroed).map fun e => (k, x.at_ e, List.replicate x.width 0))).map fun t =>
      (k, t.2.1, t.2.2.length)

/-- A MODE 3 part: without a withhold pending it ends in its first cycle; else it restores the protected slots of its rows,
and the last part the factors (R211). -/
def State.revertPart (s : State) (i : Issue) (y : Layer) (b : LayerBlock) (ops : List UpdateOp) : State :=
  let d := unitDie i.unit
  let f := s.filigree d
  if !(f.withholding && f.layer == y.layer) then s.startWork 2 i (some 1) .none
  else
    let es := s.elements d y b
    let prot := b.slots.filter fun x => x.protect && x.bound
    let runs := b.protectedRuns es
    let s := runs.foldl (fun s r => ((s.anyTouch i.unit i.ctx r.2.1 r.2.2).1.anyTouch i.unit i.ctx (s.recordAt y b r.1 r.2.1) r.2.2).1) s
    let s := runs.foldl (fun s r => s.restore i.ctx y b r.1 r.2.1 r.2.2) s
    let bytes := (prot.map fun x => x.width * es.length).foldl (· + ·) 0
    let stf := y.last && ops.any fun o => o.op == 0x0C
    let s := if y.last then
        let copy := fun (s : State) (a c n : Nat) =>
          if a = 0 ∨ c = 0 then s
          else
            let t := s.anyTouch i.unit i.ctx (2 ^ 63 + a) (2 * n)
            t.1.opWrite d c (s.opRead d a (2 * n)) t.2
        let s := copy (copy s y.rprev y.rnew y.mrows) y.cprev y.cnew y.ncols
        s.stage y.layer { s.staged y.layer with factor := none }
      else s
    s.startPart i (4 * bytes) 0 (y.overhead stf)

/-- UPDATE takes effect: the layer block and the program are checked, then the part runs (R194, R196, R202). -/
def startUpdate (i : Issue) (s : State) : State :=
  let d := unitDie i.unit
  let y := s.layer i
  let b := s.layerBlock d y.lblk
  let ops := s.updateProgram d y
  if !(b.slotsOk && s.slotsHome d y b && programOk y b ops) then s.invalid i
  else if y.mode = 3 then s.revertPart i y b ops
  else s.runPart i y b ops

def execUpdate (i : Issue) (s : State) : Host.Outcome State Fault Refusal := goOn (s.gate 2 i startUpdate)

/-! ### The watch (R209, R210) -/

/-- (‖ΔW‖² / ‖W‖²)^(1/2): the quotient times its inverse root, and the quotient itself where it is a zero, an infinity or a NaN. -/
def ratio (d w : Num) : Num := let q := eDiv d w; if q.isZero then Num.zero else if q.finite then eMul q (eRsqrt q) else q

/-- The baseline of a ledger record: the larger ratio of its two baseline entries. -/
def baseline (record : Nat) : Num :=
  let one := fun (lo : Nat) => ratio (ofCode 0 (bits record (lo + 47) (lo + 32))) (ofCode 0 (bits record (lo + 15) lo))
  numMax (one 128) (one 176)

/-- The watch's outcome: (withhold, flag) by the first rule of Table 8.9 that matches. -/
def State.watch (s : State) (y : Layer) (w g d : Num) : Bool × Bool :=
  let record := s.ledgerRecord y.layer
  let b := baseline record
  let rho := ratio d w
  if !(w.finite && g.finite && d.finite) then (true, false)
  else if w.isZero then (false, false)
  else if bits record 35 34 < 2 ∨ b.isZero then (false, false)
  else if y.watch && (eMul (ofCode 0 (s.get 0x7041 2)) b).lt rho then (true, false)
  else (false, (eMul (ofCode 0 (s.get 0x7041 1)) b).lt rho)

/-- UPDATE_PART_COMPLETE: after the last part of MODE 0 or 2 the watch decides, the sums are rounded and staged (R209,
R210). -/
def updatePartComplete (d : Nat) (s : State) : State :=
  let u := 0x30 + d
  match (s.unit u).work with
  | some w =>
    if w.cmd.op != 2 || w.left != some 0 then s
    else
      let y := s.layer w.cmd.issue
      let f := s.filigree d
      let s := if y.last && (y.mode == 0 || y.mode == 2) then
          let sw := ofE8 f.sumW
          let sg := ofE8 f.sumG
          let sd := ofE8 f.sumD
          let out := s.watch y sw sg sd
          let code := fun (v : Num) (e : Nat) => (sr v 0 (s.rand y.tensor e 0x3040)).code
          let x := { s.staged y.layer with
            watch := out.2, withheld := out.1, sums := some (code sw 0, code sg 1, code sd 2) }
          (s.stage y.layer x).setFiligree d { f with withholding := out.1, layer := y.layer }
        else s
      (s.endWork u).settle
  | none => s

def execUpdatePartComplete (d : Nat) (s : State) : Host.Outcome State Fault Refusal := goOn (updatePartComplete d s)

end Sys2Proof.Machine
end

