-- ==== Sys2Proof/Machine/Record.lean ====
section
/-! DEFINITION. The Locket unit (R163–R166, R209, R317–R320): the record, the SEAL that builds it, its copies, and the
comparison of common fields. -/

namespace Sys2Proof.Machine

/-! ### Layout (Tables 12.5 and 12.6) -/

/-- The scale-area entry of a directory entry. -/
def scaleOffset (j : Nat) : Nat := 0x200 + 72 * j

/-- The class 0x03 directory entry, and where contents begin. -/
def smallOffset (j : Nat) : Nat := 0x68200 + 16 * j

def smallArea : Nat := 0x69200

/-- Writes a number of `n` bytes into a record. -/
def Mem.writeLE (m : Mem) (a n v : Nat) : Mem := m.writeN a (leBytes n v)

/-- LENGTH of a record. -/
def recordLength (m : Mem) : Nat := m.readLE 56 4

/-- The CRC of a record over its LENGTH, the CRC field taken as zero (Table 12.6). -/
def recordCrc (m : Mem) : Nat :=
  let l := m.readN 0 (recordLength m)
  (crc32c (l.take 252 ++ List.replicate 4 0 ++ l.drop 256)).toNat

/-- Writes COMMON_CRC and CRC. -/
def signRecord (m : Mem) : Mem :=
  let m := m.writeLE 52 4 (crc32c (m.readN 16 32)).toNat
  m.writeLE 252 4 (recordCrc m)

/-- The common fields, bytes 16 to 47. -/
def commonFields (m : Mem) : List Byte := m.readN 16 32

/-- The flag bits STITCH_OPEN and EPOCH_FIRST of byte 44. -/
def recordFlags (stitch first : Bool) : Nat := b2n stitch + 2 * b2n first

/-! ### The class 0x03 tensors -/

/-- The tensors of class 0x03: id, base, length, in descriptor order. -/
def State.smallTensors (s : State) : List (Nat × Nat × Nat) :=
  (((List.range (s.dirCount 0)).map fun j => s.desc 0 j).filter fun d => bits d 207 200 == 3).map fun d =>
    (bits d 63 32, tensorBase d, tensorLength d)

/-- Where each lies in the record, each at a 64-byte boundary, and the end of the last. -/
def smallLayout (l : List (Nat × Nat × Nat)) : List (Nat × Nat × Nat × Nat) × Nat :=
  l.foldl (fun (r : List (Nat × Nat × Nat × Nat) × Nat) t =>
    (r.1 ++ [(t.1, t.2.1, t.2.2, r.2)], roundUp (r.2 + t.2.2) 64)) ([], smallArea)

/-- Puts the class 0x03 directory and contents, as they are in HBM, into a record. -/
def State.putSmall (s : State) (m : Mem) : Mem × Nat :=
  let l := smallLayout s.smallTensors
  let m := ((l.1.zip (List.range l.1.length)).foldl (fun (m : Mem) p =>
    let t := p.1
    let m := m.writeLE (smallOffset p.2) 16 (packFields [(32, t.1), (32, t.2.2.2), (32, t.2.2.1)])
    m.writeN t.2.2.2 (s.hbmRead t.2.1 t.2.2.1)) m)
  (m, l.2)

/-- Writes the class 0x03 tensors of a record back to HBM. -/
def State.getSmall (s : State) (m : Mem) : State :=
  ((List.range 256).filter fun j => m.readLE (smallOffset j + 8) 4 != 0).foldl (fun (s : State) j =>
    match s.tensorDesc (m.readLE (smallOffset j) 4) with
    | some d => s.hbmWrite (tensorBase d) (m.readN (m.readLE (smallOffset j + 4) 4) (m.readLE (smallOffset j + 8) 4)) false
    | none => s) s

/-! ### Scale histories (R163–R166) -/

/-- Fields of a scale-directory entry. -/
def scaleMode (e : Nat) : Nat := bits e 37 36

def scaleFmt (e : Nat) : Nat := bits e 35 32

def scaleExp0 (e : Nat) : Int := signed 8 (bits e 47 40)

/-- The largest of the `h` newest history values of an entry, none when it holds none. -/
def historyMax (m : Mem) (j h : Nat) : Option Num :=
  let a := scaleOffset j
  let count := (m.read (a + 65)).toNat
  let head := (m.read (a + 66)).toNat
  let l := (List.range (min h count)).map fun k => ofCode 0 (m.readLE (a + 2 * ((head + 32 - k) % 32)) 2)
  match l with
  | [] => none
  | v :: t => some (t.foldl numMax v)

/-- The write exponent that a history gives: E_F − log₂ A − m, clamped (R166). -/
def State.historyExp (s : State) (fmt : Nat) (a : Num) : Int :=
  if a.isZero then 0 else max (-64) (min 64 (fmtTop fmt - ceilLog2 a - (s.get 0x7030 3 : Int)))

/-- The write and read exponents of an entry for the step that opens (R164). -/
def State.entryExps (s : State) (e j : Nat) : Int × Int :=
  let m := s.locket.ownCommitted
  let prev := signed 8 (m.read (scaleOffset j + 64)).toNat
  let top := historyMax m j (s.get 0x7030 2)
  match scaleMode e with
  | 0 => let w := (top.map (s.historyExp (scaleFmt e))).getD 0; (w, w)
  | 1 => ((top.map (s.historyExp (scaleFmt e))).getD prev, prev)
  | _ => (scaleExp0 e, scaleExp0 e)

/-- The exponents of a step are fixed at its opening tick; a MODE 0 tensor without history is counted, once in a step that may open
again after an abort (R164, R166). -/
def State.openExps (s : State) : State :=
  let dir := s.locket.scaleDir.zip (List.range s.locket.scaleDir.length)
  let cold := (dir.filter fun p => scaleMode p.1 == 0 && (historyMax s.locket.ownCommitted p.2 (s.get 0x7030 2)).isNone).length
  let s := if cold = 0 ∨ s.locket.coldStep = some s.stepCount then s else s.count 0x7033 1 cold
  { s with locket := { s.locket with
    exps := dir.map fun p => s.entryExps p.1 p.2
    maxima := []
    wrote := []
    coldStep := some s.stepCount
    ledger := [] } }

/-- The E8M7 code of a maximum as reported: 1 for +0, else a power of two by its exponent plus 200 (log 36). -/
def maximumCode (c : Nat) : Nat := if c = 1 then 0 else toE8M7 (Num.pow2 (max (-133) ((c : Int) - 200)))

/-- e_prev of a carried tensor takes the write exponent of a step that wrote it (R164). -/
def State.sealPrev (s : State) (m : Mem) (e j : Nat) : Mem :=
  if scaleMode e = 1 ∧ s.locket.wrote.contains j then m.writeLE (scaleOffset j + 64) 1 (twos 8 (s.locket.exps.getD j (0, 0)).1) else m

/-- Appends the step's maximum to an entry's history, and moves e_prev (R164, R165, R319). -/
def State.sealScale (s : State) (m : Mem) (e j : Nat) : Mem :=
  let m := s.sealPrev m e j
  match kget 0 s.locket.maxima j with
  | 0 => m
  | c =>
    let a := scaleOffset j
    let count := (m.read (a + 65)).toNat
    let head := if count = 0 then 0 else ((m.read (a + 66)).toNat + 1) % 32
    let m := m.writeLE (a + 2 * head) 2 (maximumCode c)
    m.writeN (a + 65) [BitVec.ofNat 8 (min 32 (count + 1)), BitVec.ofNat 8 head]

/-! ### Ledger records (R209, R210, Table 8.8) -/

/-- Three E8M7 codes as they stand in a ledger record. -/
def packSums (x : Nat × Nat × Nat) : Nat := packFields [(16, x.1), (16, x.2.1), (16, x.2.2)]

/-- A ledger record after what a step staged for its layer. -/
def ledgerAfter (layer record : Nat) (x : Staged) : Nat :=
  let factor := x.factor.getD (bits record 79 64)
  match x.sums with
  | none => packFields [(32, layer), (32, bits record 63 32), (16, factor), (144, bits record 223 80)]
  | some sums =>
    let new := packSums sums
    let held := x.withheld
    let base := if held then bits record 35 34 else min 2 (bits record 35 34 + 1)
    let holds := if held then min 65535 (bits record 63 48 + 1) else 0
    let b1 := if held then bits record 175 128 else new
    let b2 := if held then bits record 223 176 else bits record 175 128
    packFields [(32, layer), (1, b2n x.watch), (1, b2n held), (2, base), (12, 0), (16, holds), (16, factor), (48, new), (48, b1), (48, b2)]

/-- The staged entries join the ledger of a record. -/
def State.sealLedger (s : State) (m : Mem) : Mem :=
  (s.layerIds.zip (List.range s.layerIds.length)).foldl (fun (m : Mem) p =>
    let x := s.staged p.1
    if x = {} then m else m.writeLE (ledgerOffset p.2) 32 (ledgerAfter p.1 (m.readLE (ledgerOffset p.2) 32) x)) m

/-! ### Building records (R317–R319) -/

/-- The cursor block a record takes: the block in HBM, or STEP alone where object 0x8031.01 is 0 (R318). -/
def State.cursorBlock (s : State) (step : Nat) : List Byte :=
  if s.get 0x8031 1 = 0 then fitBytes 64 (leBytes 8 step) else s.hbmRead (s.get 0x8031 1) 64

/-- The header of a record but for LENGTH and the CRCs. -/
def State.recordHeader (s : State) (m : Mem) (step seed : Nat) (stitch first : Bool) : Mem :=
  m.writeN 0 (leBytes 256 (packFields [(32, 0x544C3645), (8, 1), (8, 0), (12, s.moduleId), (4, 0),
    (12, s.memberIndex.getD 0), (52, 0), (16, s.get 0x5001 2), (48, 0), (64, step), (64, seed), (32, s.get 0x6050 2),
    (32, recordFlags stitch first), (32, s.get 0x6050 5)]))

/-- Finishes a record: contents, LENGTH, CRCs. -/
def State.finishRecord (s : State) (m : Mem) : Mem :=
  let r := s.putSmall m
  signRecord (r.1.writeLE 56 4 r.2)

/-- OWN_COMMITTED as START writes it: STEP 0, the seed of object 0x7030.01, empty histories and ledger (R317). -/
def State.freshRecord (s : State) : Mem :=
  let m := s.recordHeader {} 0 (s.get 0x7030 1) (s.get 0x6050 3 == 1) (s.get 0x6050 4 == 1)
  let m := m.writeN 0x100 (s.cursorBlock 0)
  let m := (s.locket.scaleDir.zip (List.range s.locket.scaleDir.length)).foldl (fun (m : Mem) p =>
    m.writeLE (scaleOffset p.2 + 64) 1 (bits p.1 47 40)) m
  s.finishRecord m

/-- OWN_SEALED: the state that the commit of the step will leave, as long as it carries no flip (R319; log 34). -/
def State.sealRecord (s : State) : Mem :=
  let n := s.stepCount + 1
  let m := s.recordHeader s.locket.ownCommitted n s.seed (s.get 0x6050 3 == 1 || s.program.regrew) false
  let m := m.writeN 0x100 (s.cursorBlock n)
  let m := (s.locket.scaleDir.zip (List.range s.locket.scaleDir.length)).foldl (fun (m : Mem) p => s.sealScale m p.1 p.2) m
  s.finishRecord (s.sealLedger m)

/-- A record as a commit that carries a flip leaves it (R140; log 34). -/
def flipRecord (m : Mem) (regrew : Bool) : Mem :=
  signRecord ((m.writeLE 40 4 (m.readLE 40 4 + 1)).writeLE 44 1 (recordFlags regrew true))

/-! ### SEAL (R319) -/

/-- A report of LOCKET_SKEW: the owner, the check, the expected and the found STEP; `halt` where R320 halts. -/
def State.skew (s : State) (owner check expected found : Nat) (halt : Bool) : State :=
  let r : Report :=
    { code := 0x312, source := 0x78, die := 1, ctx := 0, frame := s.clock.frame, cycle := s.clock.cycle,
      detail := packFields [(12, owner), (4, check), (48, 0), (64, expected), (64, found)], halt := halt,
      replay := s.faults.replay.isSome }
  { s with faults := { s.faults with inFlight := s.faults.inFlight ++ [(0, r)] } }

/-- SEAL builds OWN_SEALED from what is visible on die C; its work lasts 1,024 cycles and one for every 256 bytes. A second
SEAL in a step is illegal (R319). -/
def startSeal (i : Issue) (s : State) : State :=
  if s.commit.sealed then s.invalid i
  else
    let n := s.stepCount + 1
    let found := leNat ((s.cursorBlock n).take 8)
    let s := if found = n then s else s.skew s.moduleId 1 n found false
    let m := s.sealRecord
    let s := { s with
      locket := { s.locket with ownSealed := m, lengths := s.locket.lengths.set 1 (recordLength m) }
      commit := { s.commit with sealed := true } }
    s.startWork 1 i (some (1024 + cdiv (recordLength m) 256)) .none

def execSeal (i : Issue) (s : State) : Host.Outcome State Fault Refusal := goOn (s.gate 1 i startSeal)

/-- Sends a record to a member as LOCKET_DATA flits of 232 record bytes (Table 12.8). -/
def State.sendRecord (s : State) (m : Mem) (len dst owner : Nat) : State :=
  (List.range (cdiv len 232)).foldl (fun (s : State) j =>
    s.originate 0x78 (resilFlit dst 0 owner s.step32 (leBytes 4 (232 * j) ++ m.readN (232 * j) (min 232 (len - 232 * j))))) s

/-- SEAL_COMPLETE: the record goes to the ring successors (R319). -/
def sealComplete (s : State) : State :=
  if s.workOver 0x78 [1] then
    let s := (s.endWork 0x78).settle
    let s := { s with commit := { s.commit with sealSent := true } }
    s.successors.foldl (fun (s : State) m => s.sendRecord s.locket.ownSealed (recordLength s.locket.ownSealed) m s.moduleId) s
  else s

def execSealComplete (s : State) : Host.Outcome State Fault Refusal := goOn (sealComplete s)

/-! ### Copies of the predecessors (R319, R330) -/

/-- Which predecessor a member is: 0 nearest, 1 second. -/
def State.predecessorIndex (s : State) (m : Nat) : Option Nat := s.predecessors.findIdx? fun x => x == m

/-- The sealed copy of a predecessor, and its committed copy. -/
def State.predSealed (s : State) (k : Nat) : Mem := if k = 0 then s.locket.pred1Sealed else s.locket.pred2Sealed

def State.predCommitted (s : State) (k : Nat) : Mem := if k = 0 then s.locket.pred1Committed else s.locket.pred2Committed

/-- Replaces the sealed or the committed copy of a predecessor. -/
def State.setPredSealed (s : State) (k : Nat) (m : Mem) : State :=
  { s with locket := if k = 0 then { s.locket with pred1Sealed := m } else { s.locket with pred2Sealed := m } }

def State.setPredCommitted (s : State) (k : Nat) (m : Mem) : State :=
  { s with locket := if k = 0 then { s.locket with pred1Committed := m } else { s.locket with pred2Committed := m } }

/-- Bytes of a buffer filled so far: 0 to 5 as in `lengths`. -/
def State.filled (s : State) (k : Nat) : Nat := s.locket.lengths.getD k 0

def State.setFilled (s : State) (k n : Nat) : State :=
  { s with locket := { s.locket with lengths := s.locket.lengths.set k n } }

/-- The sealed copy of predecessor `k` is whole. -/
def State.predHeld (s : State) (k : Nat) : Bool :=
  decide (256 ≤ s.filled (2 * k + 3)) && decide (recordLength (s.predSealed k) ≤ s.filled (2 * k + 3))

/-- Takes bytes of a record in transfer: offset 0 begins it afresh. -/
def takeRecord (m : Mem) (have_ offset : Nat) (bytes : List Byte) : Mem × Nat :=
  let m := if offset = 0 then {} else m
  let n := if offset = 0 then 0 else have_
  (m.writeN offset bytes, max n (offset + bytes.length))

/-- A sealed copy from a predecessor in a running step: stored, and answered with LOCKET_ACK when it is whole (R319). -/
def State.takeSealed (s : State) (k owner offset : Nat) (bytes : List Byte) : State :=
  let r := takeRecord (s.predSealed k) (s.filled (2 * k + 3)) offset bytes
  let s := (s.setPredSealed k r.1).setFilled (2 * k + 3) r.2
  if s.predHeld k then s.originate 0x78 (resilFlit owner 1 owner s.step32 (leBytes 4 (recordCrc (s.predSealed k)))) else s

/-- LOCKET_ACK counts when its CRC is that of OWN_SEALED (R322). -/
def takeLocketAck (_ : Nat) (f : Flit) (s : State) : State :=
  if s.concerns f && f.subject == s.moduleId && s.successors.contains f.src &&
      leNat f.payload == s.locket.ownSealed.readLE 252 4 then
    { s with commit := { s.commit with acks := insertNat f.src s.commit.acks } }
  else s

def execLocketAckReceive (p : Nat) (raw : List Byte) (s : State) : Host.Outcome State Fault Refusal :=
  goOn (receive p raw (ofKind 1) takeLocketAck s)

/-! ### Comparison (R320) -/

/-- OWN_SEALED and the sealed copies of every predecessor are held. -/
def State.recordsHeld (s : State) : Bool :=
  s.commit.sealSent && (List.range s.predecessors.length).all s.predHeld

/-- STEP of a record. -/
def recordStep (m : Mem) : Nat := m.readLE 24 8

/-- One record is outvoted by the two others. -/
def State.outvoted (s : State) (owner expected found : Nat) : State :=
  (s.count 0x8021 4 1).skew owner 2 expected found false

/-- LOCKET_COMPARE: the first row of Table 12.7 that applies. -/
def locketCompare (s : State) : State :=
  if s.commit.compareDone || !s.recordsHeld then s
  else
    let done := fun (s : State) (ok : Bool) => { s with commit := { s.commit with compareDone := true, compared := ok } }
    let own := s.locket.ownSealed
    let p1 := s.predSealed 0
    let p2 := s.predSealed 1
    let a := commonFields own
    let b := commonFields p1
    let c := commonFields p2
    match s.predecessors with
    | [] => done s true
    | [m1] => if a = b then done s true else done (s.skew m1 3 (recordStep own) (recordStep p1) true) false
    | m1 :: m2 :: _ =>
      if a = b ∧ b = c then done s true
      else if a = b then done (s.outvoted m2 (recordStep own) (recordStep p2)) false
      else if a = c then done (s.outvoted m1 (recordStep own) (recordStep p1)) false
      else if b = c then done (s.outvoted s.moduleId (recordStep p1) (recordStep own)) false
      else done (s.skew m1 3 (recordStep own) (recordStep p1) true) false

def execLocketCompare (s : State) : Host.Outcome State Fault Refusal := goOn (locketCompare s)

end Sys2Proof.Machine
end

