-- ==== Sys2Proof/Machine/Slices.lean ====
section
/-! DEFINITION. Heartbeat, census and fence of the slice (R297–R300, R304). -/

namespace Sys2Proof.Machine

/-! ### Heartbeat (R297) -/

/-- The two neighbours in ring order: after and before the module. -/
def State.neighbours (s : State) : List Nat := s.successors.take 1 ++ s.predecessors.take 1

/-- The HEARTBEATs of cycle 0 of a frame: the frame within the step, the member index, the step counter and the census
number. -/
def State.sendHeartbeats (s : State) : State :=
  if s.training ∧ 2 ≤ s.slotCount then
    let pay := packFields [(16, s.memberIndex.getD 0xFFFF), (48, s.stepCount), (16, s.get 0x5040 1)]
    s.neighbours.foldl (fun (s : State) m => s.originate 0 (plainFlit 8 0 m s.program.stepFrame (leBytes 10 pay))) s
  else s

/-- HEARTBEAT from a neighbour: it is noted, and the difference of the frames within the step is reported in object
0x5040.06, the successor's in the low half, the predecessor's in the high half (R304). -/
def takeHeartbeat (_ : Nat) (f : Flit) (s : State) : State :=
  let diff := twos 16 ((f.addr : Int) - (s.program.stepFrame : Int))
  let next := s.successors.head? == some f.src
  let prev := s.predecessors.head? == some f.src
  let old := s.get 0x5040 6
  let s := if next then { s with fabric := { s.fabric with beatNext := some s.clock.frame } } else s
  let s := if prev then { s with fabric := { s.fabric with beatPrev := some s.clock.frame } } else s
  let s := if next || prev then { s with fabric := { s.fabric with lossRaised := false } } else s
  let lo := if next then diff else bits old 15 0
  let hi := if prev then diff else bits old 31 16
  if next || prev then s.put 0x5040 6 (lo + 65536 * hi) else s

def execHeartbeatReceive (p : Nat) (raw : List Byte) (s : State) : Host.Outcome State Fault Refusal :=
  goOn (receive p raw (ofType 8) takeHeartbeat s)

/-- A neighbour has been silent in the frame that ends and the three before it. -/
def silent (beat : Option Nat) (frame : Nat) : Bool :=
  match beat with
  | some n => decide (n + 4 ≤ frame)
  | none => false

/-- The slice heartbeat is lost (R297). -/
def State.heartbeatGone (s : State) : Bool :=
  s.training && decide (2 ≤ s.slotCount) && !s.fabric.lossRaised &&
  (silent s.fabric.beatNext s.clock.frame || silent s.fabric.beatPrev s.clock.frame)

/-! ### Census (R298) -/

/-- A part of a bitmap in bytes: 236, 236 and 40 of them. -/
def censusPart (bitmap : List Nat) (part : Nat) : List Byte :=
  (List.range (if part = 2 then 40 else 236)).map fun j =>
    BitVec.ofNat 8 (((List.range 8).filter fun k => bitmap.contains (8 * (236 * part + j) + k)).foldl (fun a k => a + 2 ^ k) 0)

/-- The members that a part names. -/
def censusMembers (part : Nat) (bytes : List Byte) : List Nat :=
  ((bytes.zip (List.range bytes.length)).flatMap fun p =>
    ((List.range 8).filter fun k => p.1.getLsbD k).map fun k => 8 * (236 * part + p.2) + k).filter fun m => decide (m < 4096)

/-- Sends the three parts on every port of the slice. -/
def State.sendCensus (s : State) : State :=
  (List.range 3).foldl (fun (s : State) part =>
    s.flood (s.own (plainFlit 9 0 0 (packFields [(16, s.get 0x5040 1), (2, part)]) (censusPart s.fabric.bitmap part))) none) s

/-- Starts or joins the census of a number, with what has been received of its bitmap. -/
def State.joinCensus (s : State) (number : Nat) (received : List Nat) : State :=
  let own := match s.memberIndex with | some j => [j] | none => []
  let bitmap := received.foldl (fun l m => insertNat m l) own
  let s := s.put 0x5040 1 (number % 65536)
  ({ s with fabric := { s.fabric with census := some s.clock.frame, bitmap := bitmap } }).sendCensus

/-- Starts a census with the last number plus one. -/
def State.startCensus (s : State) : State := s.joinCensus (s.get 0x5040 1 + 1) []

/-- CENSUS: a higher number is joined; the bitmap of the open census is merged and sent again where it grows. -/
def takeCensus (_ : Nat) (f : Flit) (s : State) : State :=
  let number := bits f.addr 15 0
  let members := censusMembers (bits f.addr 17 16) f.payload
  if s.get 0x5040 1 < number then s.joinCensus number members
  else if number = s.get 0x5040 1 ∧ s.fabric.census.isSome then
    let bitmap := members.foldl (fun l m => insertNat m l) s.fabric.bitmap
    if bitmap = s.fabric.bitmap then s else ({ s with fabric := { s.fabric with bitmap := bitmap } }).sendCensus
  else s

def execCensusReceive (p : Nat) (raw : List Byte) (s : State) : Host.Outcome State Fault Refusal :=
  goOn (receive p raw (ofType 9) takeCensus s)

/-- HEARTBEAT_LOST: reported, and a census starts (R297; log 40). -/
def heartbeatLost (s : State) : State :=
  if s.heartbeatGone then
    let s := { s with fabric := { s.fabric with lossRaised := true } }
    (s.raiseTick 0x30F 0 1 0 0).startCensus
  else s

def execHeartbeatLost (s : State) : Host.Outcome State Fault Refusal := goOn (heartbeatLost s)

/-! ### Closing (R299) -/

/-- The members of the bitmap that are LIVE. -/
def State.reached (s : State) : List Nat :=
  s.fabric.bitmap.filter fun j => match s.members[j]? with | some e => memberState e == 0 | none => false

/-- The anchor: the lowest member index that was LIVE at the last committed step (R296). -/
def State.anchor (s : State) : Option Nat := if s.fabric.anchor.isSome then s.fabric.anchor else s.lowestLive

/-- The module continues (R299): 2R > N, or 2R = N with the anchor reached; a filling module never does. -/
def State.continues (s : State) : Bool :=
  let r := s.reached.length
  let n := s.slotCount
  s.ownState != 1 && (decide (n < 2 * r) || (decide (2 * r = n) && (match s.anchor with | some a => s.fabric.bitmap.contains a | none => false)))

/-- What a member reports of its step (Table 12.8): 0 committed, 1 READY not sent, 2 READY sent. -/
def State.outcome (s : State) : Nat := if s.commitState = 3 then 0 else if s.commitState = 2 then 2 else 1

/-- OUTCOME to every member of the bitmap, about the step that is undecided (R329). -/
def State.sendOutcomes (s : State) : State :=
  let step := if s.commitState = 3 then s.stepCount - 1 else s.stepCount
  let ids := s.reached.filterMap fun j => (s.members[j]?).map memberId
  let s := (ids.filter fun m => m != s.moduleId).foldl (fun (s : State) m =>
    s.originate 0 (resilFlit m 8 s.moduleId (step % 2 ^ 32) (leBytes 4 s.outcome))) s
  { s with commit := { s.commit with censusFrame := some s.clock.frame, outcomes := [(s.moduleId, s.outcome)] } }

/-- The module fences: PARTITION_FENCE, and its program stops (R299). -/
def State.fence (s : State) : State := ((s.put 0x5040 5 1).raiseTick 0x310 0 1 0 0).stopProgram 0x310 true

/-- CENSUS_CLOSE: the module continues, with OUTCOMEs where a training step is open, or fences (R299, R329). -/
def censusClose (s : State) : State :=
  if s.fabric.census.isSome then
    let s := { s with fabric := { s.fabric with census := none } }
    let s := s.put 0x5040 2 (s.reached.length % 65536)
    if s.continues then (if s.training then s.sendOutcomes else s) else s.fence
  else s

end Sys2Proof.Machine
end

