-- ==== Sys2Proof/Machine/Commit.lean ====
section
/-! DEFINITION. The commit protocol (R54, R139–R141, R321–R324, R329): votes, READY, the coordinator's decision, the commit
of a member, timeouts, outcomes and Resolve. -/

namespace Sys2Proof.Machine

/-! ### Schedule tables (R52, R54) -/

/-- The table ids whose directory entry has ARMED set. -/
def State.armedTables (s : State) : List Nat :=
  if s.program.kind = 0 then [] else (List.range 256).filter fun t => bit (s.tableEntry t) 227

/-- The READY bit of the alternate slot of a table. -/
def State.alternateReady (s : State) (t : Nat) : Bool :=
  let e := s.tableEntry t
  if tableActive e then bit e 225 else bit e 226

/-- The flip vote of R139: ready, and whether any entry is armed. -/
def State.flipVote (s : State) : Bool × Bool :=
  let armed := s.armedTables
  (armed.all s.alternateReady && (s.get 0x6050 3 == 0 || s.get 0x6050 10 == 1), !armed.isEmpty)

/-- Writes bit `n` of a table's directory entry. -/
def State.setTableBit (s : State) (t n : Nat) (v : Bool) : State :=
  let a := s.program.tableDir + 32 * t + n / 8
  let b := (s.mem.hbm.read a).toNat
  let m := 2 ^ (n % 8)
  let c := if bit b (n % 8) then (if v then b else b - m) else (if v then b + m else b)
  let blk := a / 512
  s.writeThrough 1 a [BitVec.ofNat 8 c] (s.mem.poison.contains blk)

/-- Flips one armed table: ACTIVE is the alternate slot, READY of the old one and ARMED are clear (R54). -/
def State.flipTable (s : State) (t : Nat) : State :=
  let active := tableActive (s.tableEntry t)
  ((s.setTableBit t 224 (!active)).setTableBit t (if active then 226 else 225) false).setTableBit t 227 false

/-- A user slot published for a flipped table reads as flipped (R234, R238). -/
def State.slotsFlipped (s : State) (tables : List Nat) : State :=
  (List.range 16).foldl (fun (s : State) c =>
    let u := s.uctx c
    let slots := u.slots.map fun x =>
      if tables.contains x.1 && x.2.2.2.2 == 2 then (x.1, x.2.1, x.2.2.1, x.2.2.2.1, 3) else x
    if u.slots.isEmpty then s else s.setUctx c { u with slots := slots }) s

/-! ### The commit of a member (R324) -/

/-- Withheld and watched layers of the committed step (R219). -/
def State.countWatch (s : State) : State :=
  s.locket.ledger.foldl (fun (s : State) p =>
    if p.2.sums.isNone then s
    else
      let s := s.countIf p.2.watch 0x7042 1
      if p.2.withheld then (s.count 0x7042 2 1).put 0x7042 3 (s.get 0x7042 3 + 1) else s) (s.put 0x7042 3 0)

/-- What a commit keeps of the commit unit's registers. -/
def Commit.next (c : Commit) : Commit :=
  { fills := c.fills
    fillTotal := c.fillTotal
    fillDone := c.fillDone
    fillSteps := c.fillSteps
    resumed := c.resumed
    holdAt := c.holdAt
    holding := c.holding
    exportAt := c.exportAt
    exportRelease := c.exportRelease
    haltRevert := c.haltRevert
    poisonNext := if c.poisonNext.isSome then c.poisonNext else c.readyFault }

/-- The records of the step become committed, as a flip leaves them if the COMMIT carries one (R319, R324; log 34). -/
def State.commitRecords (s : State) (flip : Bool) : State :=
  let r := fun (m : Mem) => if flip then flipRecord m s.program.regrew else m
  let l := s.locket
  { s with locket := { l with
    ownCommitted := r l.ownSealed
    pred1Committed := if s.predHeld 0 then r l.pred1Sealed else l.pred1Committed
    pred2Committed := if s.predHeld 1 then r l.pred2Sealed else l.pred2Committed
    ownSealed := {}
    pred1Sealed := {}
    pred2Sealed := {}
    lengths := [l.lengths.getD 1 0, 0, if s.predHeld 0 then l.lengths.getD 3 0 else l.lengths.getD 2 0, 0,
      if s.predHeld 1 then l.lengths.getD 5 0 else l.lengths.getD 4 0, 0]
    maxima := []
    ledger := [] } }

/-- A commit that asked for a flip and carries none because some module voted not ready is counted (R140). The coordinator
knows the votes; a member knows its own, and where that leaves both cases open the count is free (log 42). -/
def State.countNotReady (s : State) : State :=
  if !s.commit.flipAsked then s
  else if s.isCoordinator then s.countIf (s.commit.readys.any fun r => !r.2.1) 0x6050 8
  else if !s.commit.vote || s.commit.armed then s.count 0x6050 8 1
  else let r := s.draw; r.2.countIf (r.1.getLsbD 0) 0x6050 8

/-- A stitch opens: its frames and STITCH_LATE start afresh (R126, R138). -/
def State.openStitch (s : State) : State := { s.put 0x6050 5 0 with thallus := { s.thallus with late := false, stitching := [] } }

/-- A commit without a flip sets stitch open where a REGROW ran in the step (R126). -/
def State.stitchAfter (s : State) (regrew : Bool) : State := if regrew then (s.put 0x6050 3 1).openStitch else s

/-- The mask flip of a commit: stitch state, counters and schedule tables (R54, R126, R137, R139–R141). -/
def State.flipStep (s : State) (flip : Bool) : State :=
  let regrew := s.program.regrew
  let s := s.put 0x6050 4 0
  if flip then
    let armed := s.armedTables
    if armed.all s.alternateReady then
      let s := (armed.foldl (fun (s : State) t => s.flipTable t) s).slotsFlipped armed
      let s := (((s.count 0x6050 2 1).put 0x6050 3 (b2n regrew)).put 0x6050 10 0).put 0x6050 4 1
      let s := { s with thallus := { s.thallus with stitching := [] } }
      (if regrew then s.openStitch else s).plicAll 4
    else
      let s := (s.raise 0x30A 0 1 0 0).stitchAfter regrew
      { s with commit := { s.commit with poisonNext := some 0x30A } }
  else s.countNotReady.stitchAfter regrew

/-- The program's marks of a step are cleared at its commit. -/
def Program.committed (p : Program) : Program := { p with regrew := false, pointStep := false, pointFrame := none }

/-- The holds of R333 and R414 that a commit of step `n` begins. -/
def State.beginHolds (s : State) (n : Nat) : State :=
  let s := if s.commit.exportAt == some n then s.put 0x8050 2 2 else s
  if s.commit.holdAt == some n then { s with commit := { s.commit with holdAt := none, holding := true } } else s

/-- A member commits (R324): records, step counter, counters, revert logs, flip, and the holds of R333 and R414. -/
def State.commitStep (s : State) (flip : Bool) : State :=
  let n := s.stepCount
  let flip := flip && s.commit.flipAsked
  let s := (s.countWatch.commitRecords flip).flipStep flip
  let s := { s with
    mem := { s.mem with revert := [] }
    commit := s.commit.next
    fabric := { s.fabric with anchor := s.lowestLive }
    program := s.program.committed }
  let s := ((s.put 0x8020 1 s.stepCount).count 0x8021 1 1).beginHolds n
  (s.setCommit 3).plicAll 3

/-! ### READY (R322) -/

/-- The conditions of R322 that are the member's own. -/
def State.readyNow (s : State) : Bool :=
  s.training && s.commitState == 1 && s.commit.deltas.isEmpty && s.commit.sealSent &&
  s.successors.all s.commit.acks.contains && s.commit.compareDone && s.commit.compared

/-- The coordinator notes a READY. -/
def State.noteReady (s : State) (m : Nat) (vote armed : Bool) : State :=
  { s with commit := { s.commit with readys := (s.commit.readys.filter fun r => r.1 != m) ++ [(m, vote, armed)] } }

/-- READY_SEND: the member is READY and tells the coordinator, with its flip vote (R322). -/
def readySend (s : State) : State :=
  if s.readyNow then
    let s := s.setCommit 2
    if s.isCoordinator then s.noteReady s.moduleId s.commit.vote s.commit.armed
    else s.originate 0 (resilFlit s.coordinator 3 s.moduleId s.step32 (leBytes 4 (b2n s.commit.vote + 2 * b2n s.commit.armed)))
  else s

def execReadySend (s : State) : Host.Outcome State Fault Refusal := goOn (readySend s)

/-- READY reaches the coordinator (R323). -/
def takeReady (_ : Nat) (f : Flit) (s : State) : State :=
  if s.isCoordinator && s.concerns f && s.live.contains f.src then
    s.noteReady f.src (bit (leNat f.payload) 0) (bit (leNat f.payload) 1)
  else s

def execReadyReceive (p : Nat) (raw : List Byte) (s : State) : Host.Outcome State Fault Refusal :=
  goOn (receive p raw (ofKind 3) takeReady s)

/-- DELTA_ACK of a parity holder (R316). -/
def takeDeltaAck (_ : Nat) (f : Flit) (s : State) : State :=
  if s.concerns f then
    { s with commit := { s.commit with deltas := s.commit.deltas.filter fun d => d != (f.subject, bits (leNat f.payload) 19 0) } }
  else s

def execDeltaAckReceive (p : Nat) (raw : List Byte) (s : State) : Host.Outcome State Fault Refusal :=
  goOn (receive p raw (ofKind 2) takeDeltaAck s)

/-! ### Decision (R323) -/

/-- The coordinator holds READY from every LIVE member. -/
def State.allReady (s : State) : Bool := s.live.all fun m => s.commit.readys.any fun r => r.1 == m

/-- The flip bit of a COMMIT: every vote ready and some entry armed (R140). -/
def State.flipBit (s : State) : Bool := s.commit.readys.all (fun r => r.2.1) && s.commit.readys.any fun r => r.2.2

/-- The tick that has just passed ended one of the two frames at whose ends the coordinator decides. -/
def State.decisionFrame (s : State) : Bool :=
  match s.commit.frame with
  | some f => s.clock.cycle == 0 && (s.clock.frame == f + 2 || s.clock.frame == f + 3)
  | none => false

/-- COORDINATOR_DECISION: with every READY at hand the coordinator commits itself in the cycle of the tick and sends COMMIT to
the other LIVE members, ascending; otherwise it does not decide. The next step opens at the tick after (R323, R324). -/
def coordinatorDecision (s : State) : State :=
  if s.isCoordinator && s.training && s.commitState == 2 && !s.commit.decided && s.decisionFrame && s.allReady then
    let flip := s.flipBit
    let s := s.tell 0 s.live 4 s.moduleId (leBytes 4 (b2n flip))
    s.commitStep flip
  else s

def execCoordinatorDecision (s : State) : Host.Outcome State Fault Refusal := goOn (coordinatorDecision s)

/-- COMMIT from the coordinator: a READY member commits in this cycle (R323, R324). -/
def takeCommit (_ : Nat) (f : Flit) (s : State) : State :=
  if s.concerns f && s.commitState == 2 && f.src == s.coordinator then s.commitStep (bit (leNat f.payload) 0) else s

def execCommitReceive (p : Nat) (raw : List Byte) (s : State) : Host.Outcome State Fault Refusal :=
  goOn (receive p raw (ofKind 4) takeCommit s)

/-- DETAIL of COMMIT_TIMEOUT and COMMIT_UNKNOWN: the coordinator and the READYs of the low 48 members (Table 13.7). -/
def State.commitDetail (s : State) : Nat :=
  let ready := (List.range 48).filter fun j => match s.members[j]? with
    | some e => s.commit.readys.any fun r => r.1 == memberId e
    | none => false
  packFields [(12, s.coordinator), (4, 0), (48, ready.foldl (fun a j => a + 2 ^ j) 0)]

/-- COMMIT_TIMEOUT: the coordinator lacks a READY at the tick that ends f + 2 and aborts the step; a READY member without
decision at the tick that ends f + 3 starts a census (R323, R329). -/
def commitTimeout (s : State) : State :=
  match s.commit.frame with
  | none => s
  | some f =>
    if !s.training then s
    else if s.isCoordinator ∧ !s.commit.decided ∧ s.commitState ≤ 2 ∧ s.clock.frame = f + 2 ∧ !s.allReady then
      let s := (s.count 0x8021 3 1).raiseTick 0x313 0 1 0 s.commitDetail
      s.coordinatorAborts s.moduleId 0x313
    else if s.commitState = 2 ∧ s.clock.frame = f + 3 then
      ((s.count 0x8021 3 1).raiseTick 0x313 0 1 0 s.commitDetail).startCensus
    else s

def execCommitTimeout (s : State) : Host.Outcome State Fault Refusal := goOn (commitTimeout s)

/-! ### Outcomes (R329) -/

/-- OUTCOME of a member; one that already runs a later step has committed this one (log 41). -/
def takeOutcome (_ : Nat) (f : Flit) (s : State) : State :=
  if s.training && s.commit.censusFrame.isSome then
    let code := if s.concerns f then bits (leNat f.payload) 1 0 else 0
    { s with commit := { s.commit with outcomes := (s.commit.outcomes.filter fun o => o.1 != f.src) ++ [(f.src, code)] } }
  else s

def execOutcomeReceive (p : Nat) (raw : List Byte) (s : State) : Host.Outcome State Fault Refusal :=
  goOn (receive p raw (ofKind 8) takeOutcome s)

/-- The member commits without a COMMIT: whether the step flips is not stated, so it is free (R329; log 2). -/
def State.commitUnasked (s : State) : State := let r := s.draw; r.2.commitStep (r.1.getLsbD 0)

/-- OUTCOME_DECISION, in the cycle of the tick: the first row of Table 12.11 that matches; a report carries the last cycle of the
frame that the tick ended (R329). -/
def outcomeDecision (s : State) : State :=
  match s.commit.censusFrame with
  | none => s
  | some _ =>
    let l := s.commit.outcomes
    let reached := s.reached.filterMap fun j => (s.members[j]?).map memberId
    let s := { s with commit := { s.commit with censusFrame := none, outcomes := [] } }
    if l.any fun o => o.2 == 0 then (if s.commitState = 2 then s.commitUnasked else s)
    else if (l.any fun o => o.2 == 1) || reached.contains s.coordinator then
      (if s.commitState ≤ 2 then s.enterAborting else s)
    else if s.commitState = 2 then
      let s := (s.raiseAt (s.clock.frame - 1) (s.flen - 1) 0x314 0 1 0 s.commitDetail).setCommit 7
      { s with commit := { s.commit with unknown := true } }
    else s

def execOutcomeDecision (s : State) : Host.Outcome State Fault Refusal := goOn (outcomeDecision s)

/-- A write of object 0x8020.03 "Resolve": 1 commit, 2 abort, only in HALTED after COMMIT_UNKNOWN (R329). -/
def resolveStep (v : Nat) (s : State) : State × Nat :=
  if s.commitState = 7 ∧ s.commit.unknown ∧ (v = 1 ∨ v = 2) then
    let s := { s with commit := { s.commit with unknown := false } }
    (if v = 1 then s.commitUnasked else s.enterAborting, 0)
  else (s, 0x07)

end Sys2Proof.Machine
end

