-- ==== Sys2Proof/Machine/Recovery.lean ====
section
/-! DEFINITION. Revert and restart (R327, R328), and the fill of a member (R330–R332): what a filling module asks for, what a
source serves, and the restore checks. -/

namespace Sys2Proof.Machine

/-! ### Revert (R327) -/

/-- Rewrites bytes of HBM block by block through the slices; a poisoned block stays poisoned (R257, R327). -/
def State.rewrite (s : State) (a : Nat) (bytes : List Byte) : State :=
  (cutBlocks 1 bytes.length a bytes).foldl (fun (s : State) p => s.writeThrough 0 p.1 p.2 (s.mem.poison.contains (p.1 / 512))) s

/-- The contents of a class 0x03 tensor in a record, and whether its directory has it. -/
def recordTensor (m : Mem) (tensor : Nat) : Option (List Byte) :=
  ((List.range 256).find? fun j => m.readLE (smallOffset j) 4 == tensor && m.readLE (smallOffset j + 8) 4 != 0).map fun j =>
    m.readN (m.readLE (smallOffset j + 4) 4) (m.readLE (smallOffset j + 8) 4)

/-- Undoes one entry of a revert log: the record is XORed into the state and zeroed, or the state is rewritten from
OWN_COMMITTED. -/
def State.applyUndo (s : State) (u : Undo) : State :=
  match u.record with
  | some r =>
    let new := xorBytes (s.hbmRead u.base u.length) (s.hbmRead r u.length)
    (s.rewrite u.base new).rewrite r (List.replicate u.length 0)
  | none =>
    match recordTensor s.locket.ownCommitted u.tensor with
    | some l => s.rewrite u.base (l.take u.length)
    | none => s

/-- Bytes a controller moves for its log: four times a record range, a class 0x03 range once. -/
def undoBytes (l : List Undo) : Nat := l.foldl (fun n u => n + (if u.record.isSome then 4 else 1) * u.length) 0

/-- The reference cycles of the revert at the sustained rate: the controllers work side by side. -/
def State.revertCycles (s : State) : Nat :=
  (List.range 12).foldl (fun n mc => max n (cdiv (undoBytes (s.undoLog mc)) mcRate)) 0

/-- Work of the step that a revert waits for; an armed RECV is disarmed by it (log 33). -/
def State.stepWork (s : State) : Bool :=
  unitIds.any fun u => s.unfinished u && !(decide (0x50 ≤ u ∧ u ≤ 0x60) && s.worksAs u [2])

/-- Disarms the RECV entries and drops the STREAM flits that wait, uncounted. -/
def State.disarm (s : State) : State :=
  let s := s.fabric.recvs.foldl (fun (s : State) r => s.endWork r.cmd.issue.unit) s
  ({ s with fabric := { s.fabric with recvs := [], unmatched := [] } }).settle

/-- Discards the sealed records and what the step staged; the coordinator keeps its decision and the REVERTEDs it has. -/
def State.discardSealed (s : State) : State :=
  { s with
    locket := { s.locket with
      ownSealed := {}
      pred1Sealed := {}
      pred2Sealed := {}
      lengths := [s.filled 0, 0, s.filled 2, 0, s.filled 4, 0]
      maxima := []
      ledger := [] }
    commit := { s.commit.next with
      poisonNext := none, decided := s.commit.decided, reverteds := s.commit.reverteds }
    program := s.program.committed }

/-- REVERT_START: the member goes through its revert logs in order (R327). -/
def revertStart (s : State) : State :=
  if (s.commitState = 4 ∨ (s.commitState = 7 ∧ s.commit.haltRevert)) ∧ !s.commit.reverting ∧ !s.stepWork then
    let s := s.disarm.discardSealed
    let left := s.revertCycles
    let s := (List.range 12).foldl (fun (s : State) mc => (s.undoLog mc).reverse.foldl (fun (s : State) u => s.applyUndo u) s) s
    { s with
      mem := { s.mem with revert := [] }
      commit := { s.commit with reverting := true, revertLeft := left, revertFrames := 0 } }
  else s

def execRevertStart (s : State) : Host.Outcome State Fault Refusal := goOn (revertStart s)

/-- RESTART reaches a member: the revert is complete and the step's stream opens at the next tick (R328). -/
def State.restartStep (s : State) : State :=
  if s.commitState = 5 then { s with commit := { s.commit with reopen := true } } else s

/-- The coordinator sends RESTART once every LIVE member has reverted, none is in FILL and it is not HALTED itself (R328). -/
def State.tryRestart (s : State) : State :=
  if s.isCoordinator && s.training && s.commitState != 7 && s.live.all s.commit.reverteds.contains &&
      s.members.all (fun e => memberState e != 1) then
    let s := s.tell 0 s.live 7 s.moduleId []
    ({ s with commit := { s.commit with reverteds := [], decided := false } }).restartStep
  else s

/-- The coordinator notes a REVERTED. -/
def State.noteReverted (s : State) (m : Nat) : State :=
  ({ s with commit := { s.commit with reverteds := insertNat m s.commit.reverteds } }).tryRestart

/-- The member tells the coordinator that it has reverted. -/
def State.sendReverted (s : State) : State :=
  let s := s.setCommit 5
  if s.isCoordinator then s.noteReverted s.moduleId
  else s.originate 0 (resilFlit s.coordinator 6 s.moduleId s.step32 [])

/-- The units that faults reset have returned, and replay has ended (R327, R357). -/
def State.resetsDone (s : State) : Bool := s.faults.frondReset.isEmpty && s.faults.clusterReset.isEmpty && s.faults.replay.isNone &&
  s.faults.replayNext.isNone

/-- REVERT_DONE: the logs are empty and every unit that was reset has returned (R327). -/
def revertDone (s : State) : State :=
  if s.commit.reverting ∧ s.resetsDone then
    let s := s.put 0x8021 6 (s.commit.revertFrames % 2 ^ 32)
    let s := { s with commit := { s.commit with reverting := false, revertLeft := 0, haltRevert := false } }
    if s.commitState = 4 then s.sendReverted else s
  else s

def execRevertDone (s : State) : Host.Outcome State Fault Refusal := goOn (revertDone s)

/-- REVERTED reaches the coordinator. -/
def takeReverted (_ : Nat) (f : Flit) (s : State) : State :=
  if s.isCoordinator && s.concerns f && s.live.contains f.src then s.noteReverted f.src else s

def execRevertedReceive (p : Nat) (raw : List Byte) (s : State) : Host.Outcome State Fault Refusal :=
  goOn (receive p raw (ofKind 6) takeReverted s)

/-- RESTART from the coordinator. -/
def takeRestart (_ : Nat) (f : Flit) (s : State) : State := if s.concerns f then s.restartStep else s

def execRestartReceive (p : Nat) (raw : List Byte) (s : State) : Host.Outcome State Fault Refusal :=
  goOn (receive p raw (ofKind 7) takeRestart s)

/-! ### Groups (R313, Table 12.4) -/

/-- The group-table entry of a group, as a number of 96 bytes. -/
def State.groupRow (s : State) (g : Nat) : Option Nat :=
  ((List.range (s.domains.groupTable.length / 96)).map fun j => leNat ((s.domains.groupTable.drop (96 * j)).take 96)).find?
    fun e => bits e 15 0 == g

/-- SBLOCKS, and the module and tensor of a place. -/
def groupBlocks (e : Nat) : Nat := bits e 63 32

def placeModule (e p : Nat) : Nat := bits e (64 * p + 139) (64 * p + 128)

def placeTensor (e p : Nat) : Nat := bits e (64 * p + 191) (64 * p + 160)

/-- A member survives: it is LIVE and the last census, if there was one, reached it (R330). -/
def State.survives (s : State) (m : Nat) : Bool :=
  match s.members.findIdx? fun e => memberId e == m with
  | some j => memberState (s.members.getD j 0) == 0 && (s.fabric.bitmap.isEmpty || s.fabric.bitmap.contains j)
  | none => false

/-- The surviving places of a group other than `own`, ascending. -/
def State.survivors (s : State) (e own : Nat) : List Nat :=
  (List.range 10).filter fun p => p != own && s.survives (placeModule e p)

/-- The coefficient of source place `src` for the lost place (R330). -/
def fillFactor (lost : Nat) (sources : List Nat) (src : Nat) : Nat :=
  let k := (sources.findIdx? fun p => p == src).getD 0
  if 8 ≤ lost ∧ sources.all (fun p => decide (p < 8)) then (soredia lost src).toNat
  else (fillCoefficient lost sources k).toNat

/-! ### Fill (R330, R331) -/

/-- A class C fault: state is lost and the slice halts for restore (R331). -/
def State.stateLost (s : State) : State := s.raise 0x315 0 1 0 0

/-- Asks a source for a tensor in one FILL_REQ, noting what is to come. -/
def State.askFill (s : State) (x : Fill) : State :=
  let s := { s with commit := { s.commit with
    fills := s.commit.fills ++ [x]
    fillTotal := s.commit.fillTotal + x.left } }
  s.originate 0 (resilFlit x.source 9 s.moduleId s.step32 (leBytes 16 (packFields [(32, x.tensor), (32, 0), (32, x.left / 512), (32, x.dest)])))

/-- Zeroes a range of HBM as a record clear or the zero fill does. -/
def State.zeroFill (s : State) (a n : Nat) : State := s.writeThrough 0 a (List.replicate n 0) false

/-- The rebuild of one place of a group: the tensor is cleared and the eight lowest surviving places are asked. -/
def State.fillGroup (s : State) (d : Nat) : State :=
  let tensor := bits d 63 32
  let own := bits d 371 368
  match s.groupRow (bits d 367 352) with
  | none => s
  | some e =>
    let sources := (s.survivors e own).take 8
    if sources.length < 8 then s.stateLost
    else
      let s := s.zeroFill (tensorBase d) (tensorLength d)
      sources.foldl (fun (s : State) p => s.askFill
        { source := placeModule e p, tensor := placeTensor e p, dest := tensor, coef := fillFactor own sources p,
          left := 512 * groupBlocks e }) s

/-- What a filling module does for one tensor, by its class (R330). -/
def State.fillTensor (s : State) (d : Nat) : State :=
  let base := tensorBase d
  let n := tensorLength d
  let rec_ := tensorRecord d
  match bits d 207 200 with
  | 1 => s.fillGroup d
  | 5 => (s.fillGroup d).zeroFill rec_ n
  | 4 =>
    let r0 := bits d 459 448
    let r1 := bits d 471 460
    let s := s.zeroFill rec_ n
    if s.survives r0 then s.askFill { source := r0, tensor := bits d 63 32, dest := bits d 63 32, coef := 0, left := n }
    else if s.survives r1 then s.askFill { source := r1, tensor := bits d 63 32, dest := bits d 63 32, coef := 0, left := n }
    else s.stateLost
  | 2 => (s.zeroFill base n).zeroFill rec_ n
  | 3 => s
  | _ => s.zeroFill base n

/-- The records: the module's own from its nearest successor that survives, the predecessors' from themselves. -/
def State.fillRecords (s : State) : State :=
  let ask := fun (s : State) (m owner : Nat) => s.originate 0 (resilFlit m 0xB owner s.step32 (leBytes 4 0))
  match s.successors.find? s.survives with
  | some m => s.predecessors.foldl (fun (s : State) p => ask s p p) (ask s m s.moduleId)
  | none => s.stateLost

/-- A member in membership state FILL begins to rebuild its state (R330). -/
def State.beginFill (s : State) : State :=
  let s := { s.setCommit 6 with commit := { s.commit with
    fills := []
    fillTotal := 0
    fillDone := 0
    fillSteps := []
    resumed := false } }
  let s := ((List.range (s.dirCount 0)).map fun j => s.desc 0 j).foldl (fun (s : State) d => s.fillTensor d) s
  s.fillRecords

/-- The member indexes that count as erased: not LIVE, or unreached (R331). -/
def State.erased (s : State) : List Nat :=
  (List.range s.members.length).filter fun j => memberState (s.members.getD j 0) != 0 ||
    !(s.fabric.bitmap.isEmpty || s.fabric.bitmap.contains j)

/-- A new erasure during a fill starts it afresh (R331). -/
def State.restartFill (s : State) (before : List Nat) : State :=
  if s.commitState = 6 ∧ s.erased.any (fun j => !before.contains j) then (s.count 0x8042 2 1).beginFill else s

/-- CENSUS_CLOSE (R299); an erasure that it finds starts a fill afresh. -/
def execCensusClose (s : State) : Host.Outcome State Fault Refusal := goOn ((censusClose s).restartFill s.erased)

/-- FILL_REQ: a source in REVERTED or HALTED serves its committed state by reads of class 2 as FILL_DATA of 228 bytes (R330). -/
def takeFillReq (_ : Nat) (f : Flit) (s : State) : State :=
  let pay := leNat f.payload
  let first := bits pay 63 32
  let n := bits pay 95 64
  match s.tensorDesc (bits pay 31 0) with
  | none => s
  | some d =>
    if !(s.commitState == 5 || s.commitState == 7) then s
    else
      let base := tensorBase d + 512 * first
      (List.range (cdiv (512 * n) 228)).foldl (fun (s : State) j =>
        s.askRead (0x40 + stackOf base) 0 2 false (base + 228 * j) (min 228 (512 * n - 228 * j)) 0 0 (addressDie base)
          (.fillData f.src (bits pay 127 96) (512 * first + 228 * j))) s

def execFillReqReceive (p : Nat) (raw : List Byte) (s : State) : Host.Outcome State Fault Refusal :=
  goOn (receive p raw (ofKind 9) takeFillReq s)

/-- Progress in thousandths (object 0x8042.01). -/
def State.fillProgress (s : State) : State :=
  s.put 0x8042 1 (if s.commit.fillTotal = 0 then 1000 else 1000 * s.commit.fillDone / s.commit.fillTotal)

/-- FILL_DATA lands: added with the coefficient of its source, or stored (R330). -/
def takeFillData (_ : Nat) (f : Flit) (s : State) : State :=
  let pay := leNat (f.payload.take 8)
  let dest := bits pay 31 0
  let off := 4 * bits pay 63 32
  let bytes := f.payload.drop 8
  match s.commit.fills.find? (fun x => x.source == f.src && x.dest == dest), s.tensorDesc dest with
  | some x, some d =>
    let a := tensorBase d + off
    let s :=
      if x.coef = 0 then s.writeThrough 0 a bytes f.poison
      else
        let old := s.readThrough (0x40 + stackOf a) 0 a bytes.length
        old.1.writeThrough 0 a (combine 7 (BitVec.ofNat 8 x.coef) old.2.1 bytes) (f.poison || old.2.2)
    let y := { x with left := x.left - bytes.length }
    ({ s with commit := { s.commit with
      fills := if y.left = 0 then s.commit.fills.erase x else s.commit.fills.map fun z => if z == x then y else z
      fillDone := s.commit.fillDone + bytes.length
      fillSteps := insertNat (bits f.addr 47 16) s.commit.fillSteps } }).fillProgress
  | _, _ => s

def execFillDataReceive (p : Nat) (raw : List Byte) (s : State) : Host.Outcome State Fault Refusal :=
  goOn (receive p raw (ofKind 0xA) takeFillData s)

/-- LOCKET_REQ: the committed copy of the record asked for is sent (R330). -/
def takeLocketReq (_ : Nat) (f : Flit) (s : State) : State :=
  let m : Option (Mem × Nat) :=
    if f.subject = s.moduleId then some (s.locket.ownCommitted, recordLength s.locket.ownCommitted)
    else (s.predecessorIndex f.subject).map fun k => (s.predCommitted k, recordLength (s.predCommitted k))
  match m with
  | some r => s.sendRecord r.1 r.2 f.src f.subject
  | none => s

def execLocketReqReceive (p : Nat) (raw : List Byte) (s : State) : Host.Outcome State Fault Refusal :=
  goOn (receive p raw (ofKind 0xB) takeLocketReq s)

/-- A record that a filling module asked for arrives: OWN_COMMITTED, from which the class 0x03 tensors and the cursor
block are written back, or a predecessor's committed copy (R330). -/
def State.takeFilled (s : State) (owner offset : Nat) (bytes : List Byte) : State :=
  if owner = s.moduleId then
    let r := takeRecord s.locket.ownCommitted (s.filled 0) offset bytes
    let s := { s with locket := { s.locket with ownCommitted := r.1 } }.setFilled 0 r.2
    if 256 ≤ r.2 ∧ recordLength r.1 ≤ r.2 then
      let s := s.getSmall r.1
      if s.get 0x8031 1 = 0 then s else s.hbmWrite (s.get 0x8031 1) (r.1.readN 0x100 64) false
    else s
  else match s.predecessorIndex owner with
    | some k =>
      let r := takeRecord (s.predCommitted k) (s.filled (2 * k + 2)) offset bytes
      (s.setPredCommitted k r.1).setFilled (2 * k + 2) r.2
    | none => s

/-- LOCKET_DATA: a predecessor's sealed copy, or in a fill a record that was asked for (R319, R330). -/
def takeLocketData (_ : Nat) (f : Flit) (s : State) : State :=
  let offset := leNat (f.payload.take 4)
  let bytes := f.payload.drop 4
  if 2 ^ 20 < offset + bytes.length then s
  else if s.commitState = 6 then s.takeFilled f.subject offset bytes
  else if s.concerns f then
    match s.predecessorIndex f.subject with
    | some k => s.takeSealed k f.subject offset bytes
    | none => s
  else s

def execLocketDataReceive (p : Nat) (raw : List Byte) (s : State) : Host.Outcome State Fault Refusal :=
  goOn (receive p raw (ofKind 0) takeLocketData s)

/-! ### Resume and restore (R332) -/

/-- The state step: that of every FILL_DATA, or object 0x8041.02 for a restore by host software. -/
def State.stateStepOk (s : State) : Bool :=
  match s.commit.fillSteps with
  | [] => s.stepCount == s.get 0x8041 2
  | l => l.all fun n => n == s.step32

/-- The restore checks of Table 12.12, in order: the failing check with the expected and found values. -/
def State.restoreCheck (s : State) : Option (Nat × Nat × Nat) :=
  let m := s.locket.ownCommitted
  let head := m.readLE 0 16
  let cursor := if s.get 0x8031 1 = 0 then m.readLE 0x100 8 else s.hbmLE (s.get 0x8031 1) 8
  if bits head 31 0 ≠ 0x544C3645 ∨ bits head 39 32 ≠ 1 ∨ m.readLE 252 4 ≠ recordCrc m then
    some (4, 0x544C3645, bits head 31 0)
  else if bits head 59 48 ≠ s.moduleId then some (4, s.moduleId, bits head 59 48)
  else if m.readLE 16 2 ≠ s.get 0x5001 2 then some (4, s.get 0x5001 2, m.readLE 16 2)
  else if !s.stateStepOk then some (5, s.commit.fillSteps.headD (s.get 0x8041 2), s.stepCount)
  else if cursor ≠ s.stepCount then some (6, s.stepCount, cursor)
  else none

/-- A write of 1 to object 0x8041.01 "Resume": the checks pass, or LOCKET_SKEW refuses (R332). -/
def resumeFill (v : Nat) (s : State) : State × Nat :=
  if v ≠ 1 ∨ s.commitState ≠ 6 then (s, if v = 1 then 0x07 else 0)
  else match s.restoreCheck with
    | some (check, expected, found) =>
      let s := s.skew s.moduleId check expected found false
      ({ s with domains := { s.domains with mismatch := leBytes 8 expected ++ leBytes 8 found } }, 0x07)
    | none => ({ s with commit := { s.commit with resumed := true } }, 0)

/-- The record of an external restore becomes OWN_COMMITTED (R332). -/
def restoreOwn (bytes : List Byte) (s : State) : State × Nat :=
  if bytes.length > 2 ^ 20 then (s, 0x08)
  else ({ s with
    locket := { s.locket with ownCommitted := Mem.writeN {} 0 bytes, lengths := s.locket.lengths.set 0 bytes.length }
    domains := { s.domains with restoreRecord := bytes } }, 0)

/-- A write of 1 to object 0x8041.05 "Re-encode": each parity tensor is rebuilt from its data places (R332). -/
def reEncodeParity (v : Nat) (s : State) : State × Nat :=
  if v ≠ 1 then (s, 0)
  else
    let ds := (((List.range (s.dirCount 0)).map fun j => s.desc 0 j).filter fun d => bits d 207 200 == 5)
    (ds.foldl (fun (s : State) d =>
      match s.groupRow (bits d 367 352) with
      | none => s
      | some e =>
        let own := bits d 371 368
        let s := s.zeroFill (tensorBase d) (tensorLength d)
        (List.range 8).foldl (fun (s : State) p => s.askFill
          { source := placeModule e p, tensor := placeTensor e p, dest := bits d 63 32, coef := (soredia own p).toNat,
            left := 512 * groupBlocks e }) s) s, 0)

/-! ### Switch of the routing banks (R283, R302) -/

/-- The inactive bank. -/
def State.inactiveBank (s : State) : Bank := if s.get 0x5012 2 = 0 then s.fabric.bank1 else s.fabric.bank0

/-- A routing entry holds a reserved code, or a local delivery for another module, or a reserved field (R283). -/
def routeBad (own dst e : Nat) : Bool :=
  let bad := fun (c : Nat) => decide (17 ≤ c ∧ c ≤ 30) || (c == 16 && dst != own)
  bad (e % 32) || bad (e / 32 % 32) || e / 1024 != 0

/-- The inactive bank passes the checks of R283. -/
def Bank.ok (b : Bank) (own : Nat) : Bool :=
  b.routes.all (fun r => !routeBad own (r.1 % 4096) r.2) &&
  b.members.all (fun e => e / 2 ^ 14 == 0 && memberState e != 3) &&
  b.groups.all fun g => bits g.2 11 0 == 0xFFF || bits g.2 15 14 == 0

/-- What a new membership does to the member: entering FILL begins a fill, a resumed one that is LIVE sends REVERTED, and an
erasure elsewhere restarts a fill (R302, R330–R332). -/
def State.newMembership (s : State) (was : Nat) (before : List Nat) : State :=
  if s.ownState = 1 ∧ was ≠ 1 then s.beginFill
  else if s.ownState = 0 ∧ was = 1 ∧ s.commit.resumed then
    ({ s with commit := { s.commit with resumed := false } }).sendReverted
  else if s.commitState = 6 then s.restartFill before
  else s.tryRestart

/-- ROUTING_BANK_SWITCH: the banks exchange after the checks, or the switch is refused with CONFIG_INVALID (R283). -/
def routingBankSwitch (s : State) : State :=
  match s.fabric.switchAt with
  | none => s
  | some _ =>
    let s := { s with fabric := { s.fabric with switchAt := none } }
    if s.inactiveBank.ok s.moduleId then
      let was := s.ownState
      let before := s.erased
      let s := (s.put 0x5012 2 (1 - s.get 0x5012 2)).put 0x5012 3 2
      s.newMembership was before
    else (s.put 0x5012 3 0x80).raiseTick 0x30D 0 1 0 0

def execRoutingBankSwitch (s : State) : Host.Outcome State Fault Refusal := goOn (routingBankSwitch s)

end Sys2Proof.Machine
end

