-- ==== Sys2Proof/Machine/Images.lean ====
section
/-! DEFINITION. Boot flash images: headers, image sets and their checks (R401–R403), measurement (R405), the settings area
(R390), and what a boot leaves (R404). -/

namespace Sys2Proof.Machine

/-! ### Headers and sets (R402) -/

/-- The fields of an image header (Table 15.9). -/
structure ImageHeader where
  magic : Nat
  version : Nat
  type : Nat
  key : Nat
  svn : Nat
  imgver : Nat
  length : Nat
  target : Nat
  reserved : Bool
  digest : List Byte
  signed : List Byte
  signature : List Byte
  deriving DecidableEq, Repr

/-- The header at the start of an image; `reserved` says that a reserved bit is set. -/
def imageHeader (b : List Byte) : ImageHeader :=
  let h := leNat (b.take 128)
  { magic := bits h 31 0
    version := bits h 39 32
    type := bits h 47 40
    key := bits h 49 48
    svn := bits h 95 64
    imgver := bits h 127 96
    length := bits h 191 128
    target := bits h 223 192
    reserved := bits h 63 50 != 0 || bits h 255 224 != 0 || bits h 1023 512 != 0
    digest := (b.drop 32).take 32
    signed := b.take 128
    signature := (b.drop 128).take 384 }

/-- Check 0x01 of one header. -/
def ImageHeader.ok (h : ImageHeader) : Bool :=
  h.magic == 0x4D493645 && h.version == 1 && [1, 2, 3, 4, 5, 7, 8, 0x10].contains h.type && !h.reserved

/-- Checks 0x02 and 0x03: the directory's key matches its fuse slot, and is not revoked. -/
def keyMatches (k : Nat) : Bool := sha256 (beBytes 384 (Config.keyModulus k) ++ beBytes 4 (Config.keyExponent k)) == Config.keyHash k

def State.keyRevoked (s : State) (k : Nat) : Bool := bit (s.get 0xA001 2) k

/-- The signature of a header verifies with the directory's key. -/
def ImageHeader.signed? (h : ImageHeader) : Bool :=
  pssVerify (Config.keyModulus h.key) (Config.keyExponent h.key) h.signed h.signature

/-- An entry of the manifest: TYPE, offset in the slot, length, SHA-256. -/
structure ManifestEntry where
  type : Nat
  offset : Nat
  length : Nat
  digest : List Byte
  deriving DecidableEq, Repr

/-- The entries of a manifest body. -/
def manifestEntries (body : List Byte) : List ManifestEntry :=
  (List.range (leNat (body.take 4))).map fun j =>
    let e := (body.drop (4 + 48 * j)).take 48
    { type := leNat (e.take 4)
      offset := leNat ((e.drop 4).take 4)
      length := leNat ((e.drop 8).take 4)
      digest := (e.drop 16).take 32 }

/-- The bytes of a listed image. -/
def ManifestEntry.image (e : ManifestEntry) (set : List Byte) : List Byte := (set.drop e.offset).take e.length

/-- A listed image lies within the set and holds a header. -/
def ManifestEntry.inside (e : ManifestEntry) (set : List Byte) : Bool :=
  decide (512 ≤ e.length) && decide (e.offset + e.length ≤ set.length)

/-- Check 0x07 of one listed image, against the manifest's SVN. -/
def State.imageOk (s : State) (img : List Byte) (svn : Nat) : Bool :=
  let h := imageHeader img
  keyMatches h.key && !s.keyRevoked h.key && h.signed? && h.svn == svn && sha256 ((img.drop 512).take h.length) == h.digest

/-- Check 0x08: the types of a set, with the TARGET bitmaps of its microcode. -/
def compositionOk (hs : List ImageHeader) : Bool :=
  let n := fun (t : Nat) => (hs.filter fun (h : ImageHeader) => h.type == t).length
  let targets := (hs.filter fun (h : ImageHeader) => h.type == 3).map ImageHeader.target
  n 1 == 1 && n 2 == 1 && n 4 == 1 && n 5 == 1 && decide (n 7 ≤ 1) && n 8 == 0 &&
  (List.range 32).all fun b => decide ((targets.filter fun t => bit t b).length ≤ 1)

/-- The checks of Table 15.10 on an image set, in order: the set, or the failing check with the TYPE of the image it names
(log 52). -/
def State.checkSet (s : State) (set : List Byte) : ImageSet ⊕ (Nat × Nat) :=
  let m := imageHeader set
  let body := (set.drop 512).take m.length
  let entries := manifestEntries body
  let inside := entries.filter fun e => e.inside set
  let headers := inside.map fun e => imageHeader (e.image set)
  match headers.find? fun h => !h.ok with
  | some h => if m.ok && m.type == 0x10 then .inr (1, h.type) else .inr (1, m.type)
  | none =>
    if !m.ok || m.type != 0x10 || set.length < 512 then .inr (1, m.type)
    else if !keyMatches m.key then .inr (2, 0x10)
    else if s.keyRevoked m.key then .inr (3, 0x10)
    else if !m.signed? || sha256 body != m.digest then .inr (4, 0x10)
    else if m.svn < s.get 0xA002 1 then .inr (5, 0x10)
    else match entries.find? fun e => !e.inside set || sha256 (e.image set) != e.digest with
      | some e => .inr (6, e.type % 256)
      | none => match entries.find? fun e => !s.imageOk (e.image set) m.svn with
        | some e => .inr (7, e.type % 256)
        | none =>
          if !compositionOk headers then .inr (8, 0x10)
          else .inl
            { version := m.imgver
              svn := m.svn
              key := m.key
              images := (0x10, sha256 (set.take (512 + m.length))) :: entries.map fun e => ((imageHeader (e.image set)).type, e.digest)
              revoke := ((entries.find? fun e => (imageHeader (e.image set)).type == 7).map fun e =>
                leNat (((e.image set).drop 512).take 1) % 16).getD 0
              bytes := set
              committed := false
              made := false }

/-! ### Slots -/

/-- The set of a slot: 0 slot A, 1 slot B. -/
def State.slot (s : State) (k : Nat) : Option ImageSet := if k = 0 then s.security.slotA else s.security.slotB

def State.setSlot (s : State) (k : Nat) (x : Option ImageSet) : State :=
  if k = 0 then { s with security := { s.security with slotA := x } } else { s with security := { s.security with slotB := x } }

/-- IMGVER, SVN and images of a set. -/
def ImageSet.imgver (x : ImageSet) : Nat := if x.made then Config.madeVersion.toNat else x.version

def ImageSet.secure (x : ImageSet) : Nat := if x.made then Config.madeSvn else x.svn

def ImageSet.digests (x : ImageSet) : List (Nat × List Byte) := if x.made then Config.madeImages else x.images

/-- The SHA-256 of the image of a TYPE. -/
def ImageSet.digest (x : ImageSet) (type : Nat) : List Byte := ((x.digests.find? fun p => p.1 == type).map (·.2)).getD []

/-- What can have changed since a slot passed the checks of R403: its key revoked, the counter past its SVN. The set of
manufacture is valid until then (log 5). -/
def State.slotValid (s : State) (k : Nat) : Bool :=
  match s.slot k with
  | some x => (x.made || !s.keyRevoked x.key) && decide (s.get 0xA002 1 ≤ x.secure)
  | none => false

/-! ### The directory (R401, R430) -/

/-- The copy of the directory that the module uses: that of the valid CRC and the higher generation. -/
def Security.copyInForce (x : Security) : Nat :=
  let a := x.directories.getD 0 (0, 0, false)
  let b := x.directories.getD 1 (0, 0, false)
  if b.2.2 && (!a.2.2 || decide (a.1 < b.1)) then 1 else 0

def Security.directory (x : Security) : Nat × Nat × Bool := x.directories.getD x.copyInForce (0, 0, false)

/-- The active slot that the directory names. -/
def Security.active (x : Security) : Nat := x.directory.2.1

/-- A new directory goes to the other copy, its generation one higher. -/
def Security.writeDirectory (x : Security) (k : Nat) : Security :=
  { x with directories := x.directories.set (1 - x.copyInForce) (x.directory.1 + 1, k, true) }

/-! ### Measurement (R405) -/

/-- Measures one digest of a TYPE; the log holds 65,536 entries. -/
def State.measure (s : State) (type : Nat) (d : List Byte) : State :=
  let x := s.security
  { s with security := { x with
    mreg := sha256 (x.mreg ++ d)
    mlog := if x.mcount < 65536 then (leBytes 4 type ++ d) :: x.mlog else x.mlog
    mcount := x.mcount + 1 } }

/-- Measures every image of a set, the manifest first. -/
def State.measureSet (s : State) (x : ImageSet) : State := x.digests.foldl (fun (s : State) p => s.measure p.1 p.2) s

/-! ### Settings (R390) -/

/-- A persistent object. -/
def persistent (key : Nat) : Bool :=
  let index := key / 256
  let sub := key % 256
  [objKey 0x1003 2, objKey 0x1003 3, objKey 0x2001 1, objKey 0x3030 1, objKey 0x4030 1, objKey 0x5060 1, objKey 0x6001 2].contains key ||
  index == 0x4020 || index == 0x4021 || (decide (0x3011 ≤ index ∧ index ≤ 0x3014) && sub != 0)

/-- The values that differ from the defaults among the persistent objects. -/
def State.settings (s : State) : KMap Nat := s.dict.filter fun p => persistent p.1

/-! ### Boot (R404) -/

/-- An object that no module reset changes: fuses, the boot flash's own, and what Table 13.12 keeps. -/
def keptObject (key : Nat) : Bool :=
  [objKey 0x1002 2, objKey 0x2008 1, objKey 0x3041 7, objKey 0x3002 1, objKey 0xA001 2, objKey 0xA002 1].contains key ||
  [0x2005, 0x2006, 0x2007, 0x4042, 0x4043].contains (key / 256)

/-- The sampled straps (R393, R425). -/
def State.sampleStraps (s : State) : State :=
  (s.put 0x1006 1 s.security.straps).put 0x1003 1 (s.security.straps % 128)

/-- The node id in force: 0 listens only (R393). -/
def State.node (s : State) : Nat := s.get 0x1003 1

/-- The boot ROM's choice: the active slot, else the other, else recovery (R404); a boot from the other slot is counted. -/
def State.bootFrom (s : State) (k : Nat) : State :=
  match s.slot k with
  | some x =>
    let s := { s with security := { s.security with inUse := k, firmware := k, calibration := k, frequency := k, tables := k, recovery := false } }
    (s.put 0x1002 3 k).measureSet x
  | none => s

def State.boot (s : State) : State :=
  let a := s.security.active
  let s := { s.sampleStraps with security := { s.security with mreg := List.replicate 32 0, mlog := [], mcount := 0 } }
  if s.slotValid a then s.bootFrom a
  else if s.slotValid (1 - a) then (s.count 0x1002 2 1).bootFrom (1 - a)
  else { s with security := { s.security with recovery := true } }

/-- The module state of object 0x1002.01: 0 recovery, 2 ready, 3 program running, 4 maintenance, 5 factory test; 1 while the
module is off or boots. -/
def State.moduleState (s : State) : Nat :=
  if s.security.recovery then 0 else if !s.power.on || s.faults.moduleReset.isSome then 1
  else if s.running then 3 else if s.factory then 5 else if s.maintenance then 4 else 2

end Sys2Proof.Machine
end

