-- ==== Sys2Proof/Machine/Dump.lean ====
section
/-! DEFINITION. The record of a fault (Table 13.5), unit snapshots (R361) and crash dumps (R359–R363), and the metadata of a
block (R253). -/

namespace Sys2Proof.Machine

/-! ### Records -/

/-- The 64 bytes of Table 13.5 for a report, with the action carried out and the low 24 bits of the step counter. -/
def recordWord (r : Report) (action step : Nat) (overflow : Bool) : Nat :=
  packFields [(12, r.code), (2, r.code / 256 - 1), (1, b2n r.replay), (1, b2n overflow), (8, r.source), (2, r.die), (2, 0), (4, r.ctx),
    (48, r.frame), (20, r.cycle), (3, action), (1, 0), (24, step), (384, r.detail)]

/-- Object 0x3001.01: the latched record, zero where none is latched. -/
def State.firstFault (s : State) : Nat :=
  match s.faults.record with
  | some (r, a, n) => recordWord r a n s.faults.overflow
  | none => 0

/-! ### Metadata (R253) -/

/-- Table 10.6 for an HBM block: the CRC of its HBM copy, which a dirty line leaves behind. -/
def State.blockMetadata (s : State) (b : Nat) : Nat :=
  let crc := match (s.slice (b / 2 ^ 28)).find? fun l => l.block == b && l.dirty with
    | some l => l.oldCrc
    | none => s.blockCrc b
  packFields [(32, crc), (1, b2n (s.mem.poison.contains b)), (1, b2n (s.mem.evacuated.contains b))]

/-! ### Snapshots (R361) -/

/-- The 64-byte snapshot of a unit in the layout of Table 13.14. -/
def State.snapshot (s : State) (u : Nat) : Nat :=
  let x := s.unit u
  let c : Nat × Nat × Nat := match x.last with
    | some c => (c.op, c.issue.ctx, c.issue.arg.toNat)
    | none => (0, 0, 0)
  let at_ := (x.last.map Cmd.at_).getD 0
  packFields [(8, u), (8, c.1), (4, c.2.1), (20, at_), (24, bits c.2.2 23 0), (4, bits c.2.2 27 24), (2, x.waiting.length),
    (1, b2n (s.unfinished u)), (1, b2n x.frozen), (32, x.progress), (24, 0), (48, s.clock.frame), (32, x.debt)]

/-- Every unit's snapshot is kept at the tick. -/
def State.keepSnapshots (s : State) : State :=
  { s with faults := { s.faults with snapshots := unitIds.map fun u => (u, s.snapshot u) } }

/-! ### Dumps (R359–R363) -/

/-- The units of a Frond. -/
def frondUnits (d : Nat) : List Nat := [0x10 + d, 0x18 + d, 0x20 + d, 0x28 + d, 0x30 + d]

/-- The source codes of a cluster's cores. -/
def clusterSources (d : Nat) : List Nat := span (0x88 + 8 * d) 8

/-- Everything that a dump of full scope reads, in ascending source code. -/
def allSources : List Nat := unitIds ++ span 0x88 24

/-- A unit that has hung does not answer (R360; log 44). -/
def State.answers (s : State) (u : Nat) : Bool := !(s.unit u).hung

/-- The section of a source: the snapshot at scan time and the scan image, or the last snapshot of a unit that is absent. -/
def State.dumpSection (s : State) (u : Nat) : List Byte :=
  if s.answers u then leBytes 64 (if u < 0x80 then s.snapshot u else u) ++ Config.scanImage u s.freeCount
  else leBytes 64 (kget 0 s.faults.snapshots u)

/-- The blocks that the latched record's detail names. -/
def State.namedBlocks (s : State) : List Nat :=
  match s.faults.record with
  | some (r, _, _) =>
    if [0x201, 0x202, 0x203, 0x204, 0x207].contains r.code && decide (bits r.detail 63 0 < 2 ^ 41) then [bits r.detail 63 0 / 512] else []
  | none => []

/-- The directory and the sections of a list of sources, the first section at block `k`. -/
def State.dumpBody (s : State) : List Nat → Nat → List Byte × List Byte
  | [], _ => ([], [])
  | u :: t, k =>
    let sec := s.dumpSection u
    let n := cdiv sec.length 512
    let rest := s.dumpBody t (k + n)
    let frame := if s.answers u then 0 else bits (kget 0 s.faults.snapshots u) 175 128
    (leBytes 32 (packFields [(8, u), (1, b2n (!s.answers u)), (23, 0), (32, k), (32, sec.length), (48, frame)]) ++ rest.1,
      fitBytes (512 * n) sec ++ rest.2)

/-- The dump header of Table 13.15 over a body, with CRC zero. -/
def State.dumpHeader (s : State) (full : Bool) (trigger units absent blocks : Nat) : List Byte :=
  fitBytes 512 (leBytes 96 (packFields [(32, 0x44433645), (8, 1), (1, b2n full), (7, 0), (12, s.moduleId), (4, 0), (48, s.clock.frame),
    (16, 0), (16, trigger), (16, units), (16, absent), (16, 0), (32, blocks), (32, 0), (512, s.firstFault)]))

/-- The bytes of a dump, cut at 256 MiB. -/
def State.dumpBytes (s : State) (full : Bool) (trigger : Nat) (sources : List Nat) : List Byte :=
  let first := 1 + cdiv (32 * sources.length) 512
  let body := s.dumpBody sources first
  let meta_ := if full then s.namedBlocks.flatMap fun b => leBytes 8 (s.blockMetadata b) else []
  let rest := (fitBytes (512 * (first - 1)) body.1 ++ body.2 ++ fitBytes (512 * cdiv meta_.length 512) meta_).take (2 ^ 28 - 512)
  let absent := (sources.filter fun u => !s.answers u).length
  let head := s.dumpHeader full trigger sources.length absent (1 + rest.length / 512)
  let all := head ++ rest
  head.take 508 ++ leBytes 4 (crc32c all).toNat ++ rest

/-- The slot of R363, and whether it overwrites a dump that nobody has harvested. -/
def State.dumpSlot (s : State) : Nat × Bool :=
  let l := s.faults.dumps
  let oldest := fun (p : List Byte × Nat × Nat → Bool) =>
    ((l.zip (List.range 3)).filter fun x => p x.1).foldl (fun (best : Option (Nat × Nat)) x =>
      match best with
      | some b => if x.1.2.2 < b.2 then some (x.2, x.1.2.2) else some b
      | none => some (x.2, x.1.2.2)) none
  match l.findIdx? fun x => x.2.1 == 0 with
  | some k => (k, false)
  | none => match oldest fun x => x.2.1 == 2 with
    | some b => (b.1, false)
    | none => ((oldest fun _ => true).map (fun b => (b.1, true))).getD (0, true)

/-- Takes a crash dump. -/
def State.dump (s : State) (full : Bool) (trigger : Nat) (sources : List Nat) : State :=
  let data := s.dumpBytes full trigger sources
  let k := s.dumpSlot
  let age := s.faults.dumps.foldl (fun n x => max n x.2.2) 0 + 1
  let s := if k.2 then s.count 0x3060 6 1 else s
  { s with
    faults := { s.faults with dumps := s.faults.dumps.set k.1 (data, 1, age) }
    freeCount := s.freeCount + 1 }

/-- A write of 1 to object 0x3060.01: a dump of full scope, only while no program runs or the member is HALTED. -/
def requestDump (v : Nat) (s : State) : State × Nat :=
  if v ≠ 1 then (s, 0)
  else if s.running ∧ s.commitState ≠ 7 then (s, 0x07)
  else (s.dump true 0 allSources, 0)

/-- A write of object 0x3060.05: the slot is marked harvested. -/
def harvestDump (v : Nat) (s : State) : State × Nat :=
  if 3 ≤ v then (s, 0x07)
  else
    let x := s.faults.dumps.getD v ([], 0, 0)
    ({ s with faults := { s.faults with dumps := s.faults.dumps.set v (x.1, if x.2.1 = 0 then 0 else 2, x.2.2) } }, 0)

end Sys2Proof.Machine
end

