-- ==== Sys2Proof/Machine/Contexts.lean ====
section
/-! DEFINITION. User contexts (R231–R233): their images, their cores and private memory, their stop. -/

namespace Sys2Proof.Machine

/-- The user contexts. -/
def userContexts : List Nat := span 4 12

/-- Objects of a user context. -/
def State.ctxObject (s : State) (index c : Nat) : Nat := s.get index (c + 1)

/-- State of a context (object 0x6067): 0 empty, 1 loaded, 2 running, 3 stopped, 4 faulted. -/
def State.ctxState (s : State) (c : Nat) : Nat := s.ctxObject 0x6067 c

def State.setCtxState (s : State) (c v : Nat) : State := s.put 0x6067 (c + 1) v

/-- The cores of a context. -/
def State.ctxCores (s : State) (c : Nat) : List Nat := (List.range 24).filter fun k => bit (s.ctxObject 0x6063 c) k

/-- The context runs threads on a core. -/
def State.runsOn (s : State) (c core : Nat) : Bool := s.ctxState c == 2 && bit (s.ctxObject 0x6063 c) core

/-- The firmware context of a core (Table 9.5), none for a user core. -/
def firmwareContext (core : Nat) : Option Nat :=
  if core = 0 ∨ core = 8 ∨ core = 16 ∨ core = 10 ∨ core = 11 then some 2
  else if core = 9 then some 3
  else if core = 12 ∨ core = 1 ∨ core = 17 then some 1
  else none

/-- The context a core starts with: its service's, or the lowest that runs on it (log 57). -/
def State.firstContext (s : State) (core : Nat) : Nat :=
  match firmwareContext core with
  | some c => c
  | none => (userContexts.find? fun c => s.runsOn c core).getD 0

/-! ### Images (R231) -/

/-- The program headers of an ELF image: type, offset, virtual address, bytes in the file and in memory. -/
def State.segments (s : State) (a : Nat) : List (Nat × Nat × Nat × Nat × Nat) :=
  let off := s.hbmLE (a + 32) 8
  (List.range (s.hbmLE (a + 56) 2)).map fun j =>
    let p := a + off + 56 * j
    (s.hbmLE p 4, s.hbmLE (p + 8) 8, s.hbmLE (p + 16) 8, s.hbmLE (p + 32) 8, s.hbmLE (p + 40) 8)

/-- The segments that are loaded. -/
def State.loads (s : State) (a : Nat) : List (Nat × Nat × Nat × Nat × Nat) := (s.segments a).filter fun g => g.1 == 1

/-- Bytes of an image: to the end of the last thing its headers name (log 56). -/
def State.imageLength (s : State) (a : Nat) : Nat :=
  ((s.segments a).map fun g => g.2.1 + g.2.2.2.1).foldl max
    (max (max 64 (s.hbmLE (a + 32) 8 + 56 * s.hbmLE (a + 56) 2)) (s.hbmLE (a + 40) 8 + s.hbmLE (a + 58) 2 * s.hbmLE (a + 60) 2))

/-- The image is an ELF64 little-endian executable for RISC-V with the LP64D ABI, wholly in populated memory. -/
def State.imageValid (s : State) (a : Nat) : Bool :=
  populated a 64 && s.hbmLE a 4 == 0x464C457F && s.hbmLE (a + 4) 1 == 2 && s.hbmLE (a + 5) 1 == 1 && s.hbmLE (a + 16) 2 == 2 &&
  s.hbmLE (a + 18) 2 == 243 && bits (s.hbmLE (a + 48) 4) 2 1 == 2 && s.hbmLE (a + 54) 2 == 56 && populated a (s.imageLength a) &&
  (s.loads a).all fun g => decide (g.2.2.2.1 ≤ g.2.2.2.2)

/-- START finds every named image valid, on a core set of user cores. -/
def State.imagesValid (s : State) : Bool :=
  userContexts.all fun c => s.ctxObject 0x6062 c == 0 ||
    (s.imageValid (s.ctxObject 0x6062 c) && s.ctxObject 0x6063 c != 0 && s.ctxObject 0x6063 c % 2 ^ 24 == s.ctxObject 0x6063 c &&
      s.ctxObject 0x6063 c &&& s.get 0x6060 1 == 0)

/-- The quotas of the contexts whose lowest die is `d` fit its pool of 8 GB. -/
def State.quotaOk (s : State) : Bool :=
  (List.range 3).all fun d =>
    decide ((((userContexts.filter fun c => s.ctxObject 0x6062 c != 0 && (s.ctxCores c).head?.map (· / 8) == some d).map
      fun c => s.ctxObject 0x6064 c * 2 ^ 20).foldl (· + ·) 0) ≤ 8000000000)

/-- The grant list of a context (R232). -/
def State.grantList (s : State) (c : Nat) : List (Nat × Nat × Bool) :=
  let g := s.ctxObject 0x6065 c
  (List.range (g % 256)).map fun j =>
    let e := s.hbmLE (g / 256 * 256 + 32 * j) 32
    (bits e 63 0, bits e 127 64, bit e 128)

/-- Private memory as a load leaves it. -/
def State.loadedImage (s : State) (a : Nat) : Mem :=
  (s.loads a).foldl (fun (m : Mem) g => m.writeN g.2.2.1 (s.hbmRead (a + g.2.1) g.2.2.2.1)) {}

/-- The image fits the context's quota. -/
def State.fitsQuota (s : State) (c : Nat) : Bool :=
  decide (((s.loads (s.ctxObject 0x6062 c)).map fun g => g.2.2.2.2).foldl (· + ·) 0 ≤ s.ctxObject 0x6064 c * 2 ^ 20)

/-- The threads of a context as they start, at the entry point: `a0` holds the core number (R231). -/
def State.freshThreads (s : State) (c : Nat) : KMap Thread := (s.ctxCores c).map fun k => (k, { a0 := BitVec.ofNat 64 k, pc := BitVec.ofNat 64 (s.hbmLE (s.ctxObject 0x6062 c + 24) 8) })

/-! ### Stop (R233) -/

/-- The next context after `c` that runs on a core, in ascending order and round (R231; log 57). -/
def State.nextContext (s : State) (core c : Nat) : Nat :=
  let l := userContexts.filter fun x => s.runsOn x core
  ((l.find? fun x => decide (c < x)).orElse fun _ => l.head?).getD 0

/-- The supervisor gives a core to its next context. -/
def State.switchCore (s : State) (core : Nat) : State :=
  let x := s.core core
  let c := s.nextContext core x.tctx
  s.setCore core { x with tctx := c, mode := if 4 ≤ c then 0 else 1, quantum := 0 }

/-- A context stops: state 3 after EXIT, 4 after an exception or a breach of its quota. A critical context's stop is
CONTEXT_FAULT. -/
def State.stopContext (s : State) (c core state pc cause : Nat) : State :=
  let s := s.setCtxState c state
  let s := ((s.ctxCores c).filter fun k => (s.core k).tctx == c).foldl (fun (s : State) k => s.switchCore k) s
  if s.ctxObject 0x6061 c = 1 then
    s.raise 0x308 (0x88 + core) (core / 8) c (packFields [(5, core), (64, pc), (64, cause)])
  else s

/-! ### Start (R231) -/

/-- Loads the image of a context into private memory; one that exceeds its quota is stopped at once, a critical one with CONTEXT_FAULT,
whose cause is free (R233; log 2). -/
def State.loadContext (s : State) (c : Nat) : State :=
  let a := s.ctxObject 0x6062 c
  let u := s.uctx c
  let s := s.setUctx c { u with
    queue := []
    maps := []
    grants := s.grantList c
    priv := s.loadedImage a
    entry := s.hbmLE (a + 24) 8
    segs := (s.loads a).map fun g => (g.2.2.1, g.2.2.2.2)
    pages := []
    threads := s.freshThreads c }
  if s.fitsQuota c then s.setCtxState c 2
  else let r := s.draw; r.2.stopContext c ((s.ctxCores c).headD 0) 4 (s.hbmLE (a + 24) 8) r.1.toNat

/-- A core as it takes up a context: user contexts run in user mode, services in supervisor mode (R229). -/
def coreStart (c : Nat) : CoreState := { tctx := c, mode := if 4 ≤ c then 0 else 1 }

/-- Every core of a list takes up its first context. -/
def State.startCores (s : State) (l : List Nat) : State :=
  l.foldl (fun (s : State) k => s.setCore k (coreStart (s.firstContext k))) s

/-- START measures and loads every named image, in ascending context id, and starts the threads (R231, R405). -/
def State.startContexts (s : State) : State :=
  let s := userContexts.foldl (fun (s : State) c =>
    let a := s.ctxObject 0x6062 c
    if a = 0 then (s.setUctx c {}).setCtxState c 0
    else
      let s := s.measure 0x20 (sha256 (s.hbmRead a (s.imageLength a)))
      (s.setUctx c {}).loadContext c) s
  s.startCores (List.range 24)

end Sys2Proof.Machine
end

