-- ==== Sys2Proof/Machine/Resets.lean ====
section
/-! DEFINITION. Reset domains (R240, R351–R354), the end of power (R421, R429) and power-up (R428). -/

namespace Sys2Proof.Machine

/-! ### Frond reset (R351) -/

/-- A unit as a reset leaves it: its debt counters run on, and an armed injection of a hang stays (R351). -/
def UnitState.cleared (x : UnitState) : UnitState := { debt := x.debt, stalled := x.stalled, inReset := true }

/-- Clears what R93, R124 and R193 list and the pending commands of the Frond's units; counters stay. -/
def State.clearFrond (s : State) (d : Nat) : State :=
  let s := (frondUnits d).foldl (fun (s : State) u => s.onUnit u UnitState.cleared) s
  let s := [0x10 + d, 0x18 + d].foldl (fun (s : State) u => s.setArray u { gatedRest := (s.array u).gatedRest }) s
  let g := s.engine d
  ((s.setFiligree d {}).setSorus d { serial := g.serial, cycles := g.cycles }).settle

/-- A Frond reset begins: a dump of unit scope, and the Frond is cleared (log 49). A domain in reset gains nothing (R342). -/
def State.beginFrondReset (s : State) (d code : Nat) : State :=
  if s.faults.frondReset.contains d then s
  else
    let s := (s.dump false code (frondUnits d)).clearFrond d
    { s with faults := { s.faults with frondReset := insertNat d s.faults.frondReset } }

/-- The units of a Frond take commands again. -/
def State.releaseFrond (s : State) (d : Nat) : State :=
  (frondUnits d).foldl (fun (s : State) u => s.onUnit u fun x => { x with inReset := false }) s

/-- FROND_RESET_DONE: the Frond returns at 1.25 GHz and is counted, or the self-test failed and it stays in reset (R351). -/
def frondResetDone (d : Nat) (passed : Bool) (s : State) : State :=
  if !s.faults.frondReset.contains d then s
  else if passed then
    let s := { s with
      faults := { s.faults with frondReset := s.faults.frondReset.filter fun x => x != d }
      clock := { s.clock with phase := s.clock.phase.set d 0 } }
    ((s.releaseFrond d).put 0x2004 (d + 1) 1250).count 0x3041 (d + 1) 1
  else s.raise 0x104 (0x10 + d) d 0 0

def execFrondResetDone (d : Nat) (passed : Bool) (s : State) : Host.Outcome State Fault Refusal := goOn (frondResetDone d passed s)

/-- A write of object 0x3040.02: the Frond is reset, which aborts any step in progress (R351). -/
def requestFrondReset (d : Nat) (s : State) : State × Nat :=
  if 3 ≤ d then (s, 0x07) else ((s.abortStep 0).beginFrondReset d 0, 0)

/-! ### Cluster reset (R240, R352) -/

/-- The context ran on the cluster and is critical, or its services hold the step-critical one (Table 9.5). -/
def State.clusterCritical (s : State) (d : Nat) : Bool :=
  d == 1 || userContexts.any fun c =>
    s.ctxState c == 2 && s.ctxObject 0x6061 c == 1 && (s.ctxCores c).any fun k => k / 8 == d

/-- Cores, caches with their dirty lines, PLIC and window registers of a cluster are reset, and with cluster C the server's sessions and requests
(R240, R398). Every cluster runs a stitcher core, so the stitch starts again. -/
def State.clearCluster (s : State) (d : Nat) : State :=
  let t := s.thallus
  let s := { s with
    thallus := { t with
      cores := t.cores.filter fun p => p.1 / 8 != d
      plic := kset 0 t.plic d 0
      plicServing := kset 0 t.plicServing d 0
      plicHeld := kset 0 t.plicHeld d 0
      plicPriority := t.plicPriority.filter fun p => p.1 / 16 != d
      plicEnable := t.plicEnable.filter fun p => p.1 / 16 != d
      plicThreshold := t.plicThreshold.filter fun p => p.1 / 16 != d
      l1 := t.l1.filter fun p => p.1 / 2048 != d
      l2 := t.l2.filter fun p => p.1 / 8192 != d
      cycles := kset 0 t.cycles d 0
      phase := kset 0 t.phase d 0
      windows := t.windows.filter fun p => p.1 / 4 != d
      stitchAgain := true }
    fabric := { s.fabric with boardReqs := s.fabric.boardReqs.filter fun r => r.core / 8 != d } }
  if d = 1 then { s with server := { s.server with sessions := [], ring := [] } } else s

/-- A cluster reset begins: a dump of unit scope over its cores; the step aborts only under R240. -/
def State.beginClusterReset (s : State) (d code : Nat) : State :=
  if s.faults.clusterReset.contains d then s
  else
    let s := if s.clusterCritical d then s.abortStep code else s
    let s := (s.dump false code (clusterSources d)).clearCluster d
    { s with faults := { s.faults with clusterReset := insertNat d s.faults.clusterReset } }

/-- The contexts on a cluster restart from their images (R352). -/
def State.restartContexts (s : State) (d : Nat) : State :=
  let l := userContexts.filter fun c => s.ctxState c == 2 && (s.ctxCores c).any fun k => k / 8 == d
  (l.foldl (fun (s : State) c => s.loadContext c) s).startCores (span (8 * d) 8)

/-- A module reset is decided, with the code its dump carries (R353). -/
def State.beginModuleReset (s : State) (code : Nat) : State :=
  if s.faults.moduleReset.isSome then s else { s with faults := { s.faults with moduleReset := some code } }

/-- CLUSTER_RESET_DONE: the cluster returns and is counted; an image that differs from its measurement takes a module reset
instead (R352). -/
def clusterResetDone (d : Nat) (matches_ : Bool) (s : State) : State :=
  if !s.faults.clusterReset.contains d then s
  else if !matches_ then (s.abortStep 0).beginModuleReset 0
  else
    let s := { s with faults := { s.faults with clusterReset := s.faults.clusterReset.filter fun x => x != d } }
    (s.restartContexts d).count 0x3041 (d + 4) 1

def execClusterResetDone (d : Nat) (imageMatches : Bool) (s : State) : Host.Outcome State Fault Refusal :=
  goOn (clusterResetDone d imageMatches s)

/-- A write of object 0x3040.03. -/
def requestClusterReset (d : Nat) (s : State) : State × Nat :=
  if 3 ≤ d then (s, 0x07) else (s.beginClusterReset d 0, 0)

/-- A write of 1 to object 0x3040.01 (R353). -/
def requestModuleReset (v : Nat) (s : State) : State × Nat :=
  if v ≠ 1 then (s, 0) else ((s.abortStep 0).beginModuleReset 0, 0)

/-! ### Module reset (R353, R354) -/

/-- The dictionary after a module reset: fuses, flash and Table 13.12 keep theirs, the persistent objects take their stored
values, every other object its default. -/
def State.dictAfter (s : State) : KMap Nat :=
  let kept := s.dict.filter fun p => keptObject p.1
  (s.server.stored.getD []).foldl (fun d p => kset (objDefault p.1) d p.1 p.2) kept

/-- Fault collector state that survives (Table 13.12). -/
def Faults.kept (f : Faults) : Faults :=
  { record := f.record
    overflow := f.overflow
    log := f.log
    dumps := f.dumps
    shutdown := f.shutdown }

/-- HBM with its metadata survives; the Clasp is written back, the operand stores are zeroed, and a repair is abandoned with
its blocks restored (R268, R354). -/
def Memory.kept (m : Memory) : Memory :=
  { hbm := m.hbm
    poison := m.poison
    repaired := m.repaired
    flawed := m.flawed.filter fun f => !m.lines.any fun k => k.2.any fun l => l.block == f.1 && l.dirty
    chances := m.chances
    chancesBefore := m.chances }

/-- Boot flash, fuses, pins and JTAG. -/
def Security.kept (x : Security) : Security :=
  { slotA := x.slotA
    slotB := x.slotB
    directories := x.directories
    serial := x.serial
    straps := x.straps
    jtag := x.jtag
    shift := x.shift
    boundary := x.boundary }

/-- What the regulators and the boot flash keep of power (R353, R373). -/
def Power.kept (p : Power) : Power :=
  { on := p.on
    latched := p.latched
    railsOff := p.railsOff
    drooping := p.drooping
    offsets := p.offsets
    maxima := p.maxima }

/-- Ageing maximums that waited for a START are in the boot flash and hold after the reset (R373). -/
def State.takeMaxima (s : State) : State :=
  let l := s.power.maxima
  l.foldl (fun (s : State) p => { s with dict := kset (objDefault p.1) s.dict p.1 p.2 }) { s with power := { s.power with maxima := [] } }

/-- Ports train again, from unused or to full width (R271; log 45). -/
def State.trainPorts (s : State) (was : State) : State :=
  (List.range 17).foldl (fun (s : State) p => if was.get 0x5020 (p + 1) = 0 then s else s.put 0x5020 (p + 1) 1) s

/-- The temperature and stack objects are sensors, and stay what they read. -/
def State.keepSensors (s : State) (was : State) : State :=
  let l := was.dict.filter fun p => p.1 / 256 == 0x2030 || p.1 / 256 == 0x4050 || p.1 / 256 == 0x4051
  l.foldl (fun (s : State) p => { s with dict := kset (objDefault p.1) s.dict p.1 p.2 }) s

/-- The flits the ports have put on the wire have left the module. -/
def State.sent (s : State) : Fabric :=
  { ports := (s.fabric.ports.filter fun p => !p.2.wire.isEmpty).map fun p => (p.1, { wire := p.2.wire }) }

/-- The module as a reset finds it after recovery, but for its boot: every field at its reset value or kept. -/
def State.cleared (s : State) : State :=
  { State.reset with
    dict := s.dictAfter
    faults := s.faults.kept
    mem := s.mem.kept
    power := s.power.kept
    fabric := s.sent
    server := { rates := (kget 3 s.dictAfter (objKey 0x1003 2), kget 3 s.dictAfter (objKey 0x1003 3)), canOut := s.server.canOut, stored := s.server.stored }
    security := s.security.kept
    freeCount := s.freeCount
    pending := s.pending }

/-- Values in force are those the dictionary holds (R265, R341). -/
def State.takeSettings (s : State) : State :=
  let acts := (s.dict.filter fun p => decide (0x3011 ≤ p.1 / 256 ∧ p.1 / 256 ≤ 0x3014)).map fun p =>
    ((p.1 / 256 - 0x3010) * 256 + p.1 % 256, p.2)
  let regs := s.dict.filter fun p => p.1 / 256 == 0x4020 || p.1 / 256 == 0x4021
  { s with
    faults := { s.faults with actions := acts, actionsBefore := acts }
    mem := { s.mem with regulators := regs } }

/-- The stacks whose training fails raise HBM_TRAIN_FAIL; the module stops there and answers nothing (R243, R428; log 101). -/
def State.trainStacks (s : State) (corrupt : List (Nat × Nat)) : State :=
  match corrupt.filter fun x => x.1 == 0x206 with
  | [] => s
  | l =>
    let t := l.foldl (fun (t : State) x => t.raise 0x206 x.2 (unitDie x.2) 0 0) s
    { t with power := { t.power with on := false } }

/-- MODULE_RESET: the full dump, the write-back, and the recovery to ready-for-program (R353, R354). The recovery time is
free, at most 4,000 ms (log 2). Factory test mode goes on while the strap is asserted (R364; log 55). -/
def moduleReset (s : State) : State :=
  match s.faults.moduleReset with
  | none => s
  | some code =>
    let s := s.dump true code allSources
    let n := s.cleared.takeMaxima
    let n := ((n.trainPorts s).keepSensors s).takeSettings
    let n := if s.mem.repair.isSome then n.put 0x4041 1 0x82 else n
    let n := if s.security.activating.isSome then n.put 0x9010 4 0x82 else n
    let n := if s.factory && !bit s.security.straps 7 then n.put 0xA006 2 1 else n
    let r := n.draw
    (((r.2.count 0x3041 7 1).put 0x3042 1 (r.1.toNat % 4001)).boot).trainStacks s.faults.corrupt

def execModuleReset (s : State) : Host.Outcome State Fault Refusal := goOn (moduleReset s)

/-! ### Power (R421, R428, R429) -/

/-- An object that is in fuses or the boot flash, so that it outlasts the input. -/
def flashObject (key : Nat) : Bool :=
  [objKey 0x1002 2, objKey 0x2008 1, objKey 0xA001 2, objKey 0xA002 1].contains key ||
  [0x2005, 0x2006, 0x4042, 0x4043].contains (key / 256)

/-- Every rail is off: what is not in the boot flash or in fuses is lost (R366). -/
def State.powerDown (s : State) : State :=
  { State.reset with
    dict := s.dict.filter fun p => flashObject p.1
    faults := { shutdown := s.faults.shutdown }
    mem := { repaired := s.mem.repaired }
    power := { on := false, latched := true, offsets := s.power.offsets, maxima := s.power.maxima }
    fabric := s.sent
    server := { canOut := s.server.canOut, stored := s.server.stored }
    security := { s.security.kept with jtag := [1, 1, 1], boundary := 0 }
    freeCount := s.freeCount
    pending := s.pending }

/-- The shutdown record of a POWER_OFF: 256 records in the boot flash (R365, R429). -/
def State.shutdownRecord (s : State) (w : Nat) : State :=
  { s with faults := { s.faults with shutdown := (w :: s.faults.shutdown).take 256 } }

/-- POWER_UP: the input has passed 54 V for 10 ms after a turn-off; the module powers up to ready-for-program, every HBM
address zero (R428). The time to ready is free, at most 9,000 ms (log 2). -/
def powerUp (s : State) : State :=
  if s.power.on then s
  else
    let n := s.cleared.takeMaxima
    let n := { n with
      power := { offsets := s.power.offsets }
      mem := { repaired := s.mem.repaired } }.takeSettings
    let r := n.draw
    ((r.2.put 0x2009 1 (r.1.toNat % 9001)).boot).trainStacks s.faults.corrupt

def execPowerUp (s : State) : Host.Outcome State Fault Refusal := goOn (powerUp s)

end Sys2Proof.Machine
end

