-- ==== Sys2Proof/Machine/Collector.lean ====
section
/-! DEFINITION. The fault collector: reports, the first-fault record, the error log and the actions (R25, R340–R347), the
watchdogs (R349, R350), and factory fault injection (R364). -/

namespace Sys2Proof.Machine

/-! ### Actions (R340–R342) -/

/-- The action in force for a report: a report stamped before the frame that runs takes the actions before the last tick
(R341). -/
def State.actionOf (s : State) (r : Report) : Nat :=
  let table := if r.frame < s.clock.frame then s.faults.actionsBefore else s.faults.actions
  kget (((faultRow r.code).map FaultRow.action).getD 0) table r.code

/-- The action carried out for a report: none in a replay (R357); LOCKET_SKEW halts where R320 says so, and does not act
where it refuses a RESUME (R332); ABORT and HALT act as LOG while no program runs (R342; log 48). -/
def State.carried (s : State) (r : Report) : Nat :=
  if r.replay then 0
  else
    let a := if r.halt then 4 else if r.code = 0x312 ∧ 4 ≤ bits r.detail 15 12 then 0 else s.actionOf r
    if (a = 1 ∨ a = 4) ∧ !s.running then 0 else a

/-- HALT: the step aborts and the program stops with the code as reason at the next tick (R340). -/
def State.haltStep (s : State) (code : Nat) : State :=
  let s := s.abortStep code
  match s.program.stopping with
  | some (_, true) => s
  | _ => s.stopProgram code true

/-- POWER_OFF: the shutdown record, then every rail off (R340, R429). -/
def State.turnOff (s : State) (record : Nat) : State := (s.shutdownRecord record).powerDown

/-- Carries out an action for a report. -/
def State.act (s : State) (a : Nat) (r : Report) : State :=
  match a with
  | 1 => if r.source = 0xC0 then s else s.abortStep r.code
  | 2 => (s.abortStep r.code).beginFrondReset r.die r.code
  | 3 => s.beginClusterReset r.die r.code
  | 4 => s.haltStep r.code
  | 5 => (s.abortStep r.code).beginModuleReset r.code
  | 6 => (s.abortStep r.code).turnOff (recordWord r a (s.stepCount % 2 ^ 24) false)
  | _ => s

/-! ### Log and record (R344–R347) -/

/-- Entries of the error log. -/
def logSize : Nat := 1048576

/-- The stamp of a record as one number: frame, cycle and die (R19). -/
def recordStamp (w : Nat) : Nat := bits w 79 32 * 2 ^ 22 + bits w 99 80 * 4 + bits w 25 24

/-- An entry joins the log, which stands newest first: it goes below the entries of a higher stamp, which reached the collector
before it (R19; log 131). -/
def insertRecord (w : Nat) : List Nat → List Nat
  | [] => [w]
  | x :: l => if recordStamp w < recordStamp x then x :: insertRecord w l else w :: x :: l

/-- An entry joins the error log, at most 16 of a code in a frame (R347; log 134). -/
def State.logReport (s : State) (r : Report) (a : Nat) : State :=
  let n := kget 0 s.faults.perFrame r.code
  if 16 ≤ n then s.count 0x3002 5 1
  else
    let f := s.faults
    let s := if f.log.length < logSize then s else s.count 0x3002 4 1
    let s := s.put 0x3002 1 ((s.get 0x3002 1 + 1) % logSize)
    { s with faults := { s.faults with
      log := (insertRecord (recordWord r a (s.stepCount % 2 ^ 24) false) f.log).take logSize
      perFrame := kset 0 f.perFrame r.code (n + 1) } }

/-- A report competes for the record until 48 cycles after the first; one that finds the record latched sets OVERFLOW. -/
def State.compete (s : State) (r : Report) (a : Nat) : State :=
  let f := s.faults
  if f.record.isSome then { s with faults := { f with overflow := true } }
  else { s with faults := { f with
    competing := f.competing ++ [(r, a + 8 * (s.stepCount % 2 ^ 24))]
    deadline := if f.deadline.isSome then f.deadline else some 48 } }

/-- FAULT_REPORT: a report reaches the collector, which counts it, logs it, lets it compete and carries out its action
(R342, R346). -/
def faultReport (r : Report) (s : State) : State :=
  let s := { s with faults := { s.faults with inFlight := s.faults.inFlight.eraseP fun x => x.2 == r } }
  let a := s.carried r
  let s := if (faultRow r.code).isSome then s.count (0x3020 + r.code / 256) (r.code % 256) 1 else s
  ((s.logReport r a).compete r a).act a r

def execFaultReport (r : Report) (s : State) : Host.Outcome State Fault Refusal := goOn (faultReport r s)

/-- Report `a` has the lower stamp (R19, R25). -/
def earlier (a b : Report) : Bool :=
  decide (a.frame < b.frame) || (a.frame == b.frame && (decide (a.cycle < b.cycle) || (a.cycle == b.cycle &&
    (decide (a.die < b.die) || (a.die == b.die && decide (a.source < b.source))))))

/-- The competing report of the lowest stamp, and of two that agree in frame, cycle, die and source, which R25 orders no further,
the one that reached the collector first (DESIGN CHOICE, log 131). -/
def firstReport : List (Report × Nat) → Option (Report × Nat)
  | [] => none
  | x :: t => match firstReport t with
    | none => some x
    | some y => if earlier y.1 x.1 then some y else some x

/-- FIRST_FAULT_LATCH: the record is latched, with OVERFLOW if others competed (R25, R346). -/
def firstFaultLatch (s : State) : State :=
  let f := s.faults
  match f.record, firstReport f.competing with
  | none, some (r, x) =>
    let s := { s with faults := { f with
      record := some (r, x % 8, x / 8)
      overflow := decide (1 < f.competing.length)
      competing := []
      deadline := none } }
    s.plic 1 5
  | _, _ => s

def execFirstFaultLatch (s : State) : Host.Outcome State Fault Refusal := goOn (firstFaultLatch s)

/-- A write of 1 to object 0x3001.03: the record is cleared, and the next report latches afresh (R346). -/
def clearFault (v : Nat) (s : State) : State × Nat :=
  if v ≠ 1 then (s, 0) else ({ s with faults := { s.faults with record := none, overflow := false } }, 0)

/-! ### Watchdogs (R349, R350) -/

/-- DETAIL of FRAME_OVERRUN and the hangs (Table 13.7): the lowest late unit, its work, the late units, the ticks. -/
def State.lateDetail (s : State) (u ticks : Nat) : Nat :=
  let late := (unitIds.filter fun x => s.unfinished x).length
  packFields [(8, u), (32, min (s.remaining u) (2 ^ 32 - 1)), (8, late), (3, ticks)]

/-- The contexts whose bundles commanded the Frond's units in a frame, ascending (R356). -/
def suspectsOf (d : Nat) (cmds : List (Nat × Cmd)) : List Nat :=
  (cmds.filter fun c => (frondUnits d).contains c.2.issue.unit).foldl (fun l c => insertNat c.2.issue.ctx l) []

/-- FROND_HANG is raised: the suspects are recorded, and replay waits for the revert (R356, R357). -/
def State.raiseFrondHang (s : State) (u : Nat) : State :=
  let d := unitDie u
  let h := kget (s.clock.frame, s.program.dispatched) s.faults.hung u
  let suspects := suspectsOf d h.2
  let s := s.raiseTick 0x304 u d (((s.unit u).last.map fun c => c.issue.ctx).getD 0) (s.lateDetail u 4)
  let s := s.put 0x3050 1 (suspects.foldl (fun a c => a + 2 ^ c) 0)
  let cmds := h.2.filter fun c => (frondUnits d).contains c.2.issue.unit
  { s with faults := { s.faults with
    replayNext := some { die := d, left := suspects, suspects := suspects, guilty := [], frame := h.1, cmds := cmds, phase := 0 } } }

/-- Unfinished work of a unit at a fourth tick, not yet raised; the units that replay commands are timed by R357. -/
def State.hangs (s : State) (u : Nat) : Bool :=
  s.unfinished u && decide (3 ≤ (s.unit u).ticks) && !(s.unit u).hung &&
  (match s.faults.replay with | some r => !(frondUnits r.die).contains u | none => true)

/-- FROND_HANG: once for that work. -/
def frondHang (u : Nat) (s : State) : State :=
  if frondUnit u && s.hangs u then (s.onUnit u fun x => { x with hung := true }).raiseFrondHang u else s

def execFrondHang (u : Nat) (s : State) : Host.Outcome State Fault Refusal := goOn (frondHang u s)

/-- UNIT_HANG: once for that work. -/
def unitHang (u : Nat) (s : State) : State :=
  if !frondUnit u && s.hangs u then
    (s.onUnit u fun x => { x with hung := true }).raiseTick 0x305 u (unitDie u)
      (((s.unit u).last.map fun c => c.issue.ctx).getD 0) (s.lateDetail u 4)
  else s

def execUnitHang (u : Nat) (s : State) : Host.Outcome State Fault Refusal := goOn (unitHang u s)

/-- THALLUS_HANG: a core has not written its watchdog register at four ticks in a row. -/
def thallusHang (c pc cause : Nat) (s : State) : State :=
  let s := s.setCore c { s.core c with watchdog := false, missed := 4 }
  s.raiseTick 0x306 (0x88 + c) (c / 8) (s.core c).tctx (packFields [(5, c), (64, pc), (64, cause)])

def execThallusHang (c : Nat) (pc cause : BitVec 64) (s : State) : Host.Outcome State Fault Refusal :=
  goOn (thallusHang c pc.toNat cause.toNat s)

/-! ### Bridges (R17) -/

/-- The packet lands on an address: an operand-store address by its offset, or one of HBM. -/
def Packet.landsOn (p : Packet) (address : Nat) : Bool :=
  match p.deed with
  | .store _ off => bit address 63 && decide (off ≤ opOffset address) && decide (opOffset address < off + p.data.length)
  | d => match d.place with
    | some a => !bit address 63 && decide (a ≤ address) && decide (address < a + p.data.length)
    | none => false

/-- BRIDGE_FAIL: the eighth resend of 64 bytes has failed; they are delivered poisoned, so the block or granule they land in
is poisoned, and the bridge goes on. `address` is where they land: the packet inside the bridge that lands there is late and
poisoned; with no such packet the granule of the die at the bridge's end, or the block, is poisoned at once (log 58). -/
def bridgeFail (east eastward : Bool) (units address : Nat) (s : State) : State :=
  let l := 2 * b2n east + b2n (!eastward)
  let x := s.lane l
  let s := match x.wire.findIdx? fun p => p.2.landsOn address with
    | some j => s.setLane l (x.fail j)
    | none => if bit address 63 then s.poisonOp (laneEnd l) (opOffset address) 64 else s.poisonHbm address 64
  s.raiseBridge east (!eastward) units

def execBridgeFail (east eastward : Bool) (units address : Nat) (s : State) : Host.Outcome State Fault Refusal :=
  goOn (bridgeFail east eastward units address s)

/-! ### Injection (R364) -/

/-- A write of object 0xF010.01: armed in factory test mode, with a KIND and reserved fields of Table 13.17. -/
def requestInjection (request : List Byte) (s : State) : State × Nat :=
  let w := leNat request
  if request.length ≠ 16 then (s, 0x08)
  else if !s.factory || bits w 25 24 == 3 || bits w 15 12 != 0 || bits w 31 26 != 0 || bits w 127 80 != 0 then
    (s.put 0xF010 2 0x80, if s.factory then 0x07 else 0x0D)
  else if bits w 79 64 = 0 then (s.put 0xF010 2 2, 0)
  else
    ({ s with faults := { s.faults with
      injection := some (bits w 11 0, bits w 23 16, bits w 25 24, bits w 63 32, bits w 79 64) } }.put 0xF010 2 1, 0)

/-- The die of a source code. -/
def sourceDie (src : Nat) : Nat := if src = 0x80 then 0 else if 0x84 ≤ src ∧ src ≤ 0x86 then src - 0x84 else unitDie src

/-- A source has a detector that meets an injected corruption later: a controller at its next block, line or retraining; an array at
its next witness; a bridge at the next transfer; an array, a Sorus, a feeder or a Filigree at its next read of the operand store, and an operand store at the next read of any unit. -/
def meetsLater (code src : Nat) : Bool :=
  ([0x201, 0x202, 0x206].contains code && decide (0x40 ≤ src ∧ src ≤ 0x4B)) || (code == 0x101 && unitClass src == 1) ||
  (code == 0x205 && (src == 0x80 || src == 0x81)) ||
  (code == 0x202 && ((decide (1 ≤ unitClass src ∧ unitClass src ≤ 4) && decide (src < 0x40)) || decide (0x84 ≤ src ∧ src ≤ 0x86)))

/-- One injection: a report from the injector; a corruption, which its detector meets later or, in any other source, reports at
once (log 43); or a unit that makes no progress on its next work. -/
def State.inject (s : State) (code src kind : Nat) : State :=
  match kind with
  | 0 => s.raise code 0xF0 (sourceDie src) 0 0
  | 1 =>
    if meetsLater code src then { s with faults := { s.faults with corrupt := s.faults.corrupt ++ [(code, src)] } }
    else s.raise code src (sourceDie src) 0 0
  | _ => if validUnit src then s.onUnit src fun x => { x with stalled := true } else s

/-- INJECTION_FIRE: after its delay, one injection per frame, until COUNT are made. -/
def injectionFire (s : State) : State :=
  match s.faults.injection with
  | some (code, src, kind, 0, n + 1) =>
    let s := s.inject code src kind
    if n = 0 then { s with faults := { s.faults with injection := none } }.put 0xF010 2 2
    else { s with faults := { s.faults with injection := some (code, src, kind, 0, n) } }
  | _ => s

def execInjectionFire (s : State) : Host.Outcome State Fault Refusal := goOn (injectionFire s)

end Sys2Proof.Machine
end

