-- ==== Sys2Proof/Machine/Guilt.lean ====
section
/-! DEFINITION. Guilty-context replay (R356–R358). -/

namespace Sys2Proof.Machine

/-- The replay may start: the revert's logs are empty and every unit that was reset has returned (R357). -/
def State.replayDue (s : State) : Bool :=
  s.faults.replayNext.isSome && s.faults.replay.isNone && s.commit.reverting && s.commit.revertLeft == 0 &&
  s.faults.frondReset.isEmpty && s.faults.clusterReset.isEmpty

/-- The wait frame of a suspect clears the Frond's units as a Frond reset does, without the dump or the self-test. -/
def State.clearForReplay (s : State) (d : Nat) : State := (s.clearFrond d).releaseFrond d

/-- The next suspect's clear frame begins, or replay is over. -/
def State.nextSuspect (s : State) (r : Replay) : State :=
  if r.left.isEmpty then { s with faults := { s.faults with replay := none, replayNext := none } }
  else { s.clearForReplay r.die with faults := { s.faults with replay := some { r with phase := 0 }, replayNext := none } }

/-- At a tick at which it may, the replay takes up its next suspect. -/
def State.openReplay (s : State) : State :=
  match s.faults.replayNext with
  | some r => if s.replayDue then s.nextSuspect r else s
  | none => s

/-- The word of a command (Table 2.4). -/
def cmdWord (c : Cmd) : Nat := packFields [(32, c.issue.arg.toNat), (16, c.issue.dur), (8, c.op), (8, c.issue.unit)]

/-- A command of the hung frame as a bundle of its own. -/
def replayBundle (p : Nat × Cmd) : Bundle :=
  { issue := p.1, ctx := p.2.issue.ctx, seq := p.2.issue.seq, tbl := p.2.issue.tbl, words := [cmdWord p.2] }

/-- REPLAY_FRAME: after the clear frame, only the suspect's commands of the hung frame go to the Frond's units, at their
original issue cycles. -/
def replayFrame (s : State) : State :=
  match s.faults.replay with
  | some r =>
    match r.phase, r.left with
    | 2, c :: _ =>
      { s with
        program := { s.program with bundles := (r.cmds.filter fun p => p.2.issue.ctx == c).map replayBundle }
        faults := { s.faults with replay := some { r with phase := 3 } } }
    | _, _ => s
  | none => s

def execReplayFrame (s : State) : Host.Outcome State Fault Refusal := goOn (replayFrame s)

/-- Some unit of the Frond has work. -/
def State.frondWorks (s : State) (d : Nat) : Bool := (frondUnits d).any s.unfinished

/-- REPLAY_PASS: at the first tick at which no Frond unit has work, the suspect passes. -/
def replayPass (s : State) : State :=
  match s.faults.replay with
  | some r => if 3 ≤ r.phase ∧ !s.frondWorks r.die then s.nextSuspect { r with left := r.left.tail } else s
  | none => s

def execReplayPass (s : State) : Host.Outcome State Fault Refusal := goOn (replayPass s)

/-- The bits of a set of contexts. -/
def contextBits (l : List Nat) : Nat := l.foldl (fun a c => a + 2 ^ c) 0

/-- GUILTY_CONTEXT: work is unfinished at the fourth tick of the replay. The suspect is named; contexts 4 to 15 are
quarantined, contexts 0 to 3 halt the member; the Frond is reset again before the next suspect (R358). -/
def guiltyContext (s : State) : State :=
  match s.faults.replay with
  | some r =>
    match r.left with
    | c :: rest =>
      if 6 ≤ r.phase ∧ s.frondWorks r.die then
        let guilty := insertNat c r.guilty
        let s := s.raiseTick 0x317 0 1 0 (packFields [(16, contextBits r.suspects), (16, contextBits guilty), (48, r.frame)])
        let s := s.put 0x3050 2 (s.get 0x3050 2 ||| 2 ^ c)
        let s := if 4 ≤ c then s.put 0x3050 3 (s.get 0x3050 3 ||| 2 ^ c) else s.stopProgram 0x50B true
        let s := s.beginFrondReset r.die 0x317
        { s with faults := { s.faults with replay := none, replayNext := some { r with left := rest, guilty := guilty, phase := 0 } } }
      else s
    | [] => s
  | none => s

def execGuiltyContext (s : State) : Host.Outcome State Fault Refusal := goOn (guiltyContext s)

/-- A tick passes for the replay: after the clear frame the replay frame is due, and the replay's ticks count. -/
def State.tickReplay (s : State) : State :=
  match s.faults.replay with
  | some r => if r.phase = 2 then s else { s with faults := { s.faults with replay := some { r with phase := r.phase + 1 } } }
  | none => s

end Sys2Proof.Machine
end

