-- ==== Sys2Proof/Machine/Stitch.lean ====
section
/-! DEFINITION. The stitcher's part of a mask epoch: the alternate index (R135, R136), the published slots (R237), Stitch
complete and STITCH_LATE (R138), and the stitch that a cluster reset starts again (R240). -/

namespace Sys2Proof.Machine

/-! ### Directory entries -/

/-- Writes bytes into a table's directory entry, as the stitcher's NC stores do (R237). -/
def State.setTableBytes (s : State) (t off : Nat) (bytes : List Byte) : State :=
  let a := s.program.tableDir + 32 * t + off
  s.writeThrough 1 a bytes (s.mem.poison.contains (a / 512))

/-- Where the alternate slot of a table lies. -/
def State.alternateBase (s : State) (t : Nat) : Nat :=
  let e := s.tableEntry t
  if tableActive e then bits e 63 0 else bits e 127 64

/-- Publishes the alternate slot of a table: COUNT and SPAN, then READY, then ARMED (R55, R237). -/
def State.publish (s : State) (t count span : Nat) : State :=
  let altB := !tableActive (s.tableEntry t)
  let s := s.setTableBytes t (if altB then 18 else 16) (leBytes 2 count)
  let s := s.setTableBytes t (if altB then 24 else 20) (leBytes 3 (span % 2 ^ 20))
  let s := (s.setTableBit t (if altB then 226 else 225) true).setTableBit t 227 true
  { s with thallus := { s.thallus with stitching := insertNat t s.thallus.stitching } }

/-- Takes back READY and ARMED of a table the stitcher has published. -/
def State.unpublish (s : State) (t : Nat) : State :=
  (s.setTableBit t (if tableActive (s.tableEntry t) then 225 else 226) false).setTableBit t 227 false

/-- The vote window of R139 is open. -/
def State.voteWindow (s : State) : Bool := s.training && (s.commitState == 1 || s.commitState == 2)

/-- User slots of tables taken back wait to be published again (R238, R240). -/
def State.slotsBack (s : State) (tables : List Nat) : State :=
  userContexts.foldl (fun (s : State) c =>
    let u := s.uctx c
    let slots := u.slots.map fun x =>
      if tables.contains x.1 && x.2.2.2.2 == 2 then (x.1, x.2.1, x.2.2.1, x.2.2.2.1, 1) else x
    s.setUctx c { u with slots := slots }) s

/-- After the reset of a cluster the stitch starts again, once the vote window is closed (R240; log 54). -/
def State.restartStitch (s : State) : State :=
  if !s.thallus.stitchAgain || s.voteWindow then s
  else
    let l := s.thallus.stitching
    let s := if s.program.kind = 0 then s else (l.foldl (fun (s : State) t => s.unpublish t) s).slotsBack l
    { s.put 0x6050 10 0 with thallus := { s.thallus with stitching := [], stitchAgain := false } }

/-! ### The alternate index (R136) -/

/-- A block of an index: COL, ROW, PAT, PALETTE, VOFF, MOFF. -/
structure Block where
  col : Nat
  row : Nat
  pat : Nat
  palette : Nat
  voff : Nat
  moff : Nat
  deriving DecidableEq, Repr

/-- The blocks that an index in HBM lists. -/
def State.hbmBlocks (s : State) (a : Nat) : List Block :=
  let h := s.hbmLE a 64
  (List.range (bits h 127 96)).map fun t =>
    let w := s.hbmLE (a + bits h 255 224 + 16 * t) 16
    { col := bits w 15 0, row := bits w 31 16, pat := bits w 33 32, palette := bits w 63 48, voff := bits w 95 64, moff := bits w 127 96 }

/-- Value units of 128 bytes and metadata units of 64 bytes of a block of a format (Table 4.1). -/
def valueUnits (fmt pat : Nat) : Nat := cdiv (fmtBytes fmt (patValues pat)) 128

def metaUnits (pat : Nat) : Nat := patMeta pat / 64

/-- The lowest start at which `n` units below `limit` meet none of the intervals in use. -/
def lowestFree (used : List (Nat × Nat)) (n limit : Nat) : Option Nat :=
  let fits := fun (v : Nat) => decide (v + n ≤ limit) && used.all fun u => decide (v + n ≤ u.1) || decide (u.1 + u.2 ≤ v)
  ((0 :: used.map fun u => u.1 + u.2).filter fits).foldl (fun (best : Option Nat) v =>
    match best with
    | some b => some (min b v)
    | none => some v) none

/-- Puts a block into a list ordered by (ROW, COL). -/
def insertBlock (b : Block) : List Block → List Block
  | [] => [b]
  | a :: t => if b.row < a.row ∨ (b.row = a.row ∧ b.col < a.col) then b :: a :: t else a :: insertBlock b t

/-- Places one regrown block: the new list, what is in use, the blocks placed, and how many found no slot. -/
def placeBlock (fmt vlen mlen : Nat) (x : List Block × List (Nat × Nat) × List (Nat × Nat) × List Block × Nat) (b : Block) :
    List Block × List (Nat × Nat) × List (Nat × Nat) × List Block × Nat :=
  let v := lowestFree x.2.1 (valueUnits fmt b.pat) vlen
  let m := if metaUnits b.pat = 0 then some 0 else lowestFree x.2.2.1 (metaUnits b.pat) mlen
  match v, m with
  | some v, some m =>
    let b := { b with voff := v, moff := m, palette := if b.pat = 1 then 0xC953 else 0 }
    (insertBlock b x.1, (v, valueUnits fmt b.pat) :: x.2.1, if metaUnits b.pat = 0 then x.2.2.1 else (m, metaUnits b.pat) :: x.2.2.1,
      x.2.2.2.1 ++ [b], x.2.2.2.2)
  | _, _ => (x.1, x.2.1, x.2.2.1, x.2.2.2.1, x.2.2.2.2 + 1)

/-- A delta list in HBM: the blocks pruned and, in ascending (ROW, COL), those to be regrown (Table 5.2). -/
def State.deltaList (s : State) (a : Nat) : List (Nat × Nat) × List Block :=
  let h := s.hbmLE a 16
  let entry := fun (j : Nat) => s.hbmLE (a + 16 + 4 * j) 4
  let all := (List.range (bits h 79 64 + bits h 95 80)).map entry
  ((all.filter fun e => bits e 17 16 == 0).map fun e => (bits e 7 0, bits e 15 8),
    (all.filter fun e => bits e 17 16 == 1).foldl (fun l e =>
      insertBlock { col := bits e 7 0, row := bits e 15 8, pat := bits e 19 18, palette := 0, voff := 0, moff := 0 } l) [])

/-- The blocks of the alternate index: kept ones in place, regrown ones in the lowest free slots; pruned slots stay
unclaimed (R136). -/
def State.stitchBlocks (s : State) (job : StitchJob) : List Block × List Block × Nat :=
  let h := s.hbmLE job.oldIndex 64
  let fmt := bits h 27 24
  let old := s.hbmBlocks job.oldIndex
  let delta := s.deltaList job.delta
  let kept := old.filter fun b => !delta.1.contains (b.col, b.row)
  let vs := old.map fun b => (b.voff, valueUnits fmt b.pat)
  let ms := (old.filter fun b => metaUnits b.pat != 0).map fun b => (b.moff, metaUnits b.pat)
  let r := delta.2.foldl (placeBlock fmt (bits h 159 128) (bits h 191 160)) (kept, vs, ms, [], 0)
  (r.1, r.2.2.2.1, r.2.2.2.2)

/-- A directory over lines: the first position of each line and the end, with the SPILL bits of the old one. -/
def directoryWords (lines : Nat) (line : Block → Nat) (blocks : List Block) (spill : Nat → Bool) : List Byte :=
  (List.range (lines + 1)).flatMap fun x =>
    leBytes 4 ((blocks.filter fun b => decide (line b < x)).length + (if x < lines ∧ spill x then 2 ^ 24 else 0))

/-- The blocks in column order with their ordinals: by COL, then ascending ROW. -/
def columnList (lines : Nat) (blocks : List Block) : List Nat :=
  let z := blocks.zip (List.range blocks.length)
  (List.range lines).flatMap fun c => (z.filter fun p => p.1.col == c).map (·.2)

/-- The bytes of an index over blocks, its parts in the order of Table 4.2, with the header fields and SPILL bits of the old
one (log 60). -/
def State.indexBytes (s : State) (old : Nat) (blocks : List Block) : List Byte :=
  let h := s.hbmLE old 64
  let nr := bits h 79 64
  let nc := bits h 95 80
  let cdir := roundUp (64 + 4 * (nr + 1)) 64
  let entries := roundUp (cdir + 4 * (nc + 1)) 64
  let clist := roundUp (entries + 16 * blocks.length) 64
  let ilen := roundUp (clist + 4 * blocks.length) 64
  let head := leBytes 64 (packFields [(64, bits h 63 0), (32, bits h 95 64), (32, blocks.length), (32, bits h 159 128), (32, bits h 191 160),
    (32, cdir), (32, entries), (32, clist), (32, ilen), (64, bits h 383 320), (64, bits h 447 384)])
  let rows := directoryWords nr Block.row blocks fun x => bit (s.hbmLE (old + 64 + 4 * x) 4) 24
  let cols := directoryWords nc Block.col blocks fun x => bit (s.hbmLE (old + bits h 223 192 + 4 * x) 4) 24
  let list := blocks.flatMap fun b => leBytes 16 (packFields [(16, b.col), (16, b.row), (2, b.pat), (14, 0), (16, b.palette), (32, b.voff), (32, b.moff)])
  let ords := (columnList nc blocks).flatMap fun o => leBytes 4 o
  fitBytes (cdir - 64) rows |> fun r => head ++ r ++ fitBytes (entries - cdir) cols ++ fitBytes (clist - entries) list ++ fitBytes (ilen - clist) ords

/-- The bitmaps of two positions among eight. -/
def pairMasks : List Nat := (List.range 256).filter fun m => ((List.range 8).filter (bit m)).length == 2

/-- Metadata of a regrown block: the manual names no positions, so they are free among those the pattern allows (R97;
log 59). -/
def State.freshMeta (s : State) (pat : Nat) : State × List Byte :=
  if pat = 0 then (s, [])
  else
    let n := s.freeCount
    let byte := fun (j : Nat) => (Config.freeByte n j).toNat
    ({ s with freeCount := n + 1 }, (List.range (patMeta pat)).map fun j =>
      BitVec.ofNat 8 (if pat = 3 then pairMasks.getD (byte j % 28) 3 else byte j))

/-- The scale plane of the alternate index: 32 bytes for each ordinal, a kept block's as they were at its old ordinal, a regrown one's
those of a block of zeros (R99, R158; log 59). -/
def State.scaleBytes (s : State) (job : StitchJob) (blocks : List Block) : List Byte :=
  let old := s.hbmBlocks job.oldIndex
  blocks.flatMap fun b =>
    match old.findIdx? fun x => x.row == b.row && x.col == b.col && x.voff == b.voff with
    | some t => s.hbmRead (job.oldScales + 32 * t) 32
    | none => List.replicate 32 0

/-- What a stitch of a tensor writes after its index: the metadata of the regrown blocks, the scales, the alternate descriptors and
the bundles of the alternate slots (R135, R136). -/
def State.stitchWrites (s : State) (job : StitchJob) (blocks fresh : List Block) : State :=
  let scales := if bits (s.hbmLE job.oldIndex 64) 27 24 = 4 then s.scaleBytes job blocks else []
  let s := fresh.foldl (fun (s : State) b =>
    let m := s.freshMeta b.pat
    m.1.writeThrough 1 (job.metaPlane + 64 * b.moff) m.2 false) s
  let s := s.writeThrough 1 job.newScales scales false
  let s := job.descs.foldl (fun (s : State) d => s.writeThrough 1 (s.dirBase d.1 + 64 * d.2.1) (leBytes 64 d.2.2) false) s
  job.tables.foldl (fun (s : State) t => s.writeThrough 1 (s.alternateBase t.1) (t.2.2.flatMap fun w => leBytes 64 w) false) s

/-- One tensor of a stitch: the alternate index and what goes with it, then the slots published. -/
def State.stitchTensor (s : State) (job : StitchJob) : State :=
  let r := s.stitchBlocks job
  let data := s.indexBytes job.oldIndex r.1
  let s := (s.stitchWrites job r.1 r.2.1).writeThrough 1 job.newIndex data false
  let s := if r.2.2 = 0 then s else s.count 0x6050 9 r.2.2
  job.tables.foldl (fun (s : State) t => s.publish t.1 t.2.2.length t.2.1) s

/-- STITCH_COMPLETE: every tensor of the epoch is stitched, its slots are published, and object 0x6050.0A reads 1 (R135). -/
def stitchComplete (jobs : List StitchJob) (s : State) : State :=
  (jobs.foldl (fun (s : State) j => s.stitchTensor j) s).put 0x6050 10 1

def execStitchComplete (jobs : List StitchJob) (s : State) : Host.Outcome State Fault Refusal := goOn (stitchComplete jobs s)

/-- The stitch of the epoch is open and not complete. -/
def State.stitchRuns (s : State) : Bool := s.get 0x6050 3 == 1 && s.get 0x6050 10 == 0

/-- The count of stitch frames reaches the budget at the tick that ends this frame, and STITCH_LATE has not been raised. -/
def State.stitchDue (s : State) : Bool := s.stitchRuns && !s.thallus.late && decide (s.get 0x6050 1 ≤ s.get 0x6050 5 + 1)

/-- STITCH_LATE: once for an epoch; the old schedule runs on (R138). The source is the stitcher's coordinating core (log 61). -/
def stitchLate (s : State) : State :=
  if s.stitchDue then
    let s := (s.count 0x6050 6 1).raiseTick 0x309 0x94 1 1 0
    { s with thallus := { s.thallus with late := true } }
  else s

def execStitchLate (s : State) : Host.Outcome State Fault Refusal := goOn (stitchLate s)

end Sys2Proof.Machine
end

