-- ==== Sys2Proof/Machine/Fetch.lean ====
section
/-! DEFINITION. The stream fetcher (R37–R43, R47, R48, R53, R58, R60): the next frame's bundles, those of the tables it calls,
and their checks. -/

namespace Sys2Proof.Machine

/-! ### Which frame comes next (R38) -/

/-- The stream of the step or round that opens next: its address and frames. -/
def State.streamStart (s : State) : Nat × Nat :=
  if s.firstStream then (s.program.firstBase, s.program.firstFrames)
  else (s.program.steadyBase, s.program.steadyFrames)

/-- The next step may open: the last has committed and no hold of R414 stands, or an aborted one restarts. -/
def State.stepOpens (s : State) : Bool :=
  s.training && ((s.commitState == 3 && !s.commit.holding) || (s.commitState == 5 && s.commit.reopen))

/-- A stream's next frame, none for a wait frame. -/
def State.nextIndex (s : State) : Option Nat :=
  if s.program.stopping.isSome || s.program.kind == 0 then none
  else if s.program.opening then some 0
  else match s.program.at_ with
    | some j =>
      if 4 ≤ s.commitState then none
      else if j + 1 < s.program.frames then some (j + 1)
      else if s.program.kind = 2 ∨ s.stepOpens then some 0
      else none
    | none => if s.stepOpens then some 0 else none

/-! ### Reading -/

/-- The raw bundles of a frame from an address, to FRAME_END, at most `n`. -/
def State.rawFrame (s : State) (a : Nat) : Nat → List Nat
  | 0 => []
  | n + 1 => let w := s.hbmLE a 64; if bit w 27 then [w] else w :: s.rawFrame (a + 64) n

/-- The raw bundles of the active slot of a table. -/
def State.rawTable (s : State) (t : Nat) : List Nat :=
  let slot := tableSlot (s.tableEntry t)
  (List.range slot.2.1).map fun j => s.hbmLE (slot.1 + 64 * j) 64

/-- A finding of the fetcher: the context and the DETAIL of the report. -/
abbrev Finding := Nat × Nat

/-- The detail that names a bundle's header. -/
def headerFinding (ctx seq : Nat) (tbl : Option TblRef) : Finding :=
  (ctx, bundleDetail { unit := 0xFF, dur := 0, arg := 0, ctx, seq, slot := 0, tbl } false)

/-- The header rules of R40, R42 and R53 for a bundle that must carry `seq`, after bundles up to cycle `last` of which `same`
share that cycle; `base` is the cycle its issue counts from. -/
def headerOk (w seq last same base flen : Nat) (table : Bool) : Bool :=
  let issue := bits w 19 0
  bits w 31 28 == 0 && bits w 63 48 == 0 && bits w 47 32 == seq % 65536 && decide (w < 2 ^ (64 * (bits w 26 24 + 1))) &&
  decide (base + issue < flen) && decide (last ≤ issue) && (issue != last || decide (same < 4)) &&
  (!table || (bits w 23 20 == 0 && !bit w 27))

/-- The first header of a list that breaks a rule; `ctx` is the caller's context for a table. -/
def badHeader (flen base ctx : Nat) (tbl : Option TblRef) : List Nat → Nat → Nat → Nat → Option Finding
  | [], _, _, _ => none
  | w :: t, seq, last, same =>
    if headerOk w seq last same base flen tbl.isSome then
      badHeader flen base ctx tbl t (seq + 1) (bits w 19 0) (if bits w 19 0 = last then same + 1 else 1)
    else some (headerFinding (if tbl.isSome then ctx else bits w 23 20) (bits w 47 32) tbl)

/-- The tables that the commands of a list of bundles call, with cycle, context, SEQ and slot of the CALL. -/
def calledTables (l : List Bundle) : List (Nat × Nat × Nat × Nat × Nat) :=
  l.flatMap fun b => (b.commands.filter fun p => p.2.unit == 0 && p.1 == 1).map fun p => (p.2.arg.toNat, b.issue, b.ctx, b.seq, p.2.slot)

/-- Every command of a list of bundles in order, with its cycle and opcode. -/
def frameCommands (l : List Bundle) : List (Nat × Nat × Issue) := l.flatMap fun b => b.commands.map fun p => (b.issue, p)

/-! ### Checks of commands (R43, R47, R48, R53) -/

/-- A command is a product of an array. -/
def isMatmul (p : Nat × Nat × Issue) (u : Nat) : Bool := p.2.2.unit == u && p.2.1 == 1

/-- The products of the arrays of a Frond between the SWAPs of R48: the tag of array A's and of B's products so far agree. -/
def State.swapRule (s : State) (d : Nat) (p : Nat × Nat × Issue) : List (Nat × Nat × Issue) → Bool
  | [] => true
  | q :: t =>
    if q.2.2.unit = 0x28 + d ∧ q.2.1 = 3 then true
    else (if (isMatmul p (0x10 + d) && isMatmul q (0x18 + d)) || (isMatmul p (0x18 + d) && isMatmul q (0x10 + d))
      then (s.tile p.2.2).tag == (s.tile q.2.2).tag else true) && s.swapRule d p t

/-- The command follows commands `before`, newest first, without a combination that R43, R48 and R53 forbid. -/
def State.combines (s : State) (p : Nat × Nat × Issue) (before : List (Nat × Nat × Issue)) : Bool :=
  !(before.any fun q => q.1 == p.1 && q.2.2.unit == p.2.2.unit) &&
  (List.range 3).all (fun d => !(isMatmul p (0x10 + d) || isMatmul p (0x18 + d)) || s.swapRule d p before) &&
  !(p.2.2.unit == 0 && p.2.1 == 2 && before.any fun q => q.2.2.unit == 0 && q.2.1 == 2) &&
  !(p.2.2.unit == 0 && p.2.1 == 1 && p.2.2.tbl.isSome)

/-- The first command that breaks a rule. -/
def State.badCommand (s : State) : List (Nat × Nat × Issue) → List (Nat × Nat × Issue) → Option Finding
  | _, [] => none
  | before, p :: t =>
    if s.fixedOk p.2.1 p.2.2 p.1 && s.combines p before then s.badCommand (p :: before) t
    else some (p.2.2.ctx, bundleDetail p.2.2 false)

/-! ### The background table (R58) -/

/-- The reserve of a frame of length `l`: its cycles, at the fraction of the program's header or, where that gives 0 or no program
runs, of object 0x6001.02 as it stands. -/
def State.reserveCycles (s : State) (l : Nat) : Nat :=
  l * (if s.program.kind = 0 ∨ s.program.reserve = 0 then s.get 0x6001 2 else s.program.reserve) / 1000

/-- Firmware has supplied table 0xFF: the count of its active slot is not 0. With 0 frame control calls nothing and finds nothing
(DESIGN CHOICE, log 111). -/
def State.hasBackground (s : State) : Bool := s.program.kind != 0 && (tableSlot (s.tableEntry 0xFF)).2.1 != 0

/-- The table's entry is legal at a call at cycle `c` of a frame of `l` cycles. -/
def State.callOk (s : State) (t c l : Nat) : Bool :=
  tableReserved (s.tableEntry t) && (tableSlot (s.tableEntry t)).2.1 != 0 && decide (c + (tableSlot (s.tableEntry t)).2.2 ≤ l)

/-! ### The frame (R39, R60) -/

/-- The reference to a table called by SEQ `seq`. -/
def State.tblRef (s : State) (t seq : Nat) : TblRef := { table := t, slotB := tableActive (s.tableEntry t), callSeq := seq }

/-- The bundles of a stream frame as read. -/
def streamBundles (raw : List Nat) : List Bundle := raw.map fun w => bundleOf w (bits w 23 20) (bits w 19 0) none

/-- The finding of an illegal CALL (R53): its slot and unit; the background table has no CALL. -/
def callFinding (ctx seq slot : Nat) : Finding :=
  (ctx, bundleDetail { unit := if slot = 0 then 0xFF else 0, dur := 0, arg := 0, ctx, seq, slot, tbl := none } false)

/-- The bundle with which a frame has more than 4,096, the bundles of each table counted at its call: the context and SEQ of the
stream bundle, or those of the table's bundle with the caller's context. -/
def State.tooMany (s : State) (stream : List Bundle) (tables : List (Nat × Nat × Nat × Nat × Nat)) : Option Finding :=
  let all := (stream.map fun b => (b.ctx, b.seq, none)) ++ tables.flatMap fun t =>
    (List.range (tableSlot (s.tableEntry t.1)).2.1).map fun j => (t.2.2.1, j, some (s.tblRef t.1 t.2.2.2.1))
  all[4096]?.map fun x => headerFinding x.1 x.2.1 x.2.2

/-- The first finding in the directory, then in the headers of the stream frame, then of its tables. A directory entry has no
bundle: the finding names context 0 and the SEQ of the frame's first (DESIGN CHOICE, log 112). -/
def State.badHeaders (s : State) (l seq : Nat) (raw : List Nat) (tables : List (Nat × Nat × Nat × Nat × Nat)) : Option Finding :=
  if !s.dirsOk then some (headerFinding 0 (seq % 65536) none)
  else match badHeader l 0 0 none raw seq 0 0 with
  | some x => some x
  | none => tables.findSome? fun t =>
      if s.callOk t.1 t.2.1 l then badHeader l t.2.1 t.2.2.1 (some (s.tblRef t.1 t.2.2.2.1)) (s.rawTable t.1) 0 0 0
      else some (callFinding t.2.2.1 t.2.2.2.1 t.2.2.2.2)

/-- The frame holds an UPDATE, or a BCAST with DSRC (R333). -/
def State.beforeExport (s : State) (l : List (Nat × Nat × Issue)) : Bool :=
  l.any fun p => (unitClass p.2.2.unit == 4 && p.2.1 == 2) ||
    (unitClass p.2.2.unit == 6 && p.2.1 == 3 && bits (s.descOf p.2.2) 487 424 != 0)

/-- A COMMIT_POINT that the running frame still has to dispatch. -/
def State.pointAhead (s : State) : Bool := (frameCommands s.program.bundles).any fun p => p.2.2.unit == 0 && p.2.1 == 2

/-- Reads frame `index` of a stream at an address, or a wait frame, with its tables, and checks it: the frame, and the
finding that refuses it. Of several findings the first is reported: directory and headers of the stream, those of the tables, the
number of bundles, then the commands in the order of their cycles (DESIGN CHOICE, log 112). -/
def State.readFrame (s : State) (index : Option Nat) (a seq : Nat) : Fetched × Option Finding :=
  let l := s.program.flen
  let k := { s.put 0x6001 1 l with program := { s.program with pointStep := s.program.pointStep && index != some 0 } }
  let raw := if index.isSome then k.rawFrame a 4097 else []
  let stream := streamBundles raw
  let called := (calledTables stream).filter fun t => t.1 < 0xFF
  let back := if k.hasBackground then [(0xFF, l - k.reserveCycles l, 2, 0, 0)] else []
  let tables := called ++ back
  let added := tables.map fun t => k.tableBundles t.1 t.2.1 t.2.2.1 t.2.2.2.1
  let all := added.foldl (fun (x : List Bundle) b => b.foldl (fun y c => insertBundle c y) x) stream
  let cmds := frameCommands all
  let bad := match k.badHeaders l seq raw tables with
    | some x => some x
    | none =>
      match k.tooMany stream tables with
      | some x => some x
      | none => match k.badCommand [] cmds with
        | some x => some x
        | none =>
          if index != some 0 && s.pointAhead then
            (cmds.find? fun p => p.2.2.unit == 0 && p.2.1 == 2).map fun p => (p.2.2.ctx, bundleDetail p.2.2 false)
          else none
  ({ index
     bundles := if bad.isSome then [] else all.map k.withDescs
     next := a + 64 * raw.length
     seq := (seq + raw.length) % 65536
     calls := tables.map fun t => (t.1, t.2.2.2.1)
     exports := k.beforeExport cmds }, bad)

/-- Where the next frame's bundles lie and the SEQ they begin with. -/
def State.nextPlace (s : State) (index : Option Nat) : Nat × Nat :=
  match index with
  | some 0 => (s.streamStart.1, 0)
  | some _ => (s.program.next, s.program.seq)
  | none => (s.program.next, s.program.seq)

/-- The fetcher has work: a program runs and the next frame has not been read. -/
def State.fetchDue (s : State) : Bool :=
  s.program.kind != 0 && s.faults.replay.isNone && (s.program.fetched.map Fetched.index) != some s.nextIndex

/-- The blocks of HBM that the fetcher read for a frame at an address: the stream's bundles, the entries and the active slots of the
tables, the directory, and the descriptors of the commands, each with those it names (R39). -/
def State.fetchBlocks (s : State) (f : Fetched) (a : Nat) : List Nat :=
  let entry := fun (e i : Nat) => blocks (s.dirBase e + 64 * i) 64
  let descs := (frameCommands f.bundles).flatMap fun p =>
    let x := p.2.2
    let n := x.arg.toNat
    let own := if x.held.isEmpty then [] else entry (bits n 27 24) (bits n 23 0)
    let next := match unitClass x.unit, p.2.1 with
      | 2, 2 | 4, 3 | 4, 4 => entry 1 (s.maskOp x).tile ++
          (if 2 < x.held.length then entry 5 (s.maskTile (s.maskOp x)).route else [])
      | _, _ => if 1 < x.held.length then entry 5 (s.tile x).route else []
    own ++ next
  let tables := f.calls.flatMap fun t =>
    let slot := tableSlot (s.tableEntry t.1)
    blocks (s.program.tableDir + 32 * t.1) 32 ++ blocks slot.1 (64 * slot.2.1)
  (blocks a (f.next - a) ++ blocks s.program.descDir 256 ++ tables ++ descs).foldl (fun l b => insertNat b l) []

/-- STREAM_FETCH: the next frame is read and checked; a finding is BUNDLE_INVALID, and no command of that frame is
dispatched (R39, R60). The blocks are read through the Clasp; a poisoned one is reported, and its bytes are taken as they
stand (R255–R258; log 113). -/
def streamFetch (s : State) : State :=
  if s.fetchDue then
    let p := s.nextPlace s.nextIndex
    let r := s.readFrame s.nextIndex p.1 p.2
    let s := (s.fetchBlocks r.1 p.1).foldl (fun (s : State) b => (s.readBlock 0 0 b 0 0).1) s
    let s := { s with program := { s.program with fetched := some r.1 } }
    match r.2 with
    | some x => s.raise 0x303 0 1 x.1 x.2
    | none => s
  else s

def execStreamFetch (s : State) : Host.Outcome State Fault Refusal := goOn (streamFetch s)

end Sys2Proof.Machine
end

