-- ==== Sys2Proof/Machine/Clocks.lean ====
section
/-! DEFINITION. FRAME_SYNC (R33–R36, R423) and REFCLK (R422). Times are in cycle-times, counted from the last tick. -/

namespace Sys2Proof.Machine

/-- The length in time of the frame that runs (R32). -/
def State.frameTime (s : State) : Nat := ((s.flen : Int) - s.clock.advance + s.clock.stretch).toNat

/-! ### Edges (R33, R423) -/

/-- Cycles since the last edge sampled, if it was in this frame or the last. -/
def State.sinceEdge (s : State) : Option Nat :=
  match s.clock.lastEdge with
  | some (f, c) =>
    if f = s.clock.frame then some (s.clock.cycle - c) else if f + 1 = s.clock.frame then some (s.clock.cycle + s.flen - c) else none
  | none => none

/-- Two edges less than 8 ns apart count as one. -/
def State.sameEdge (s : State) : Bool :=
  match s.sinceEdge with
  | some n => decide (n < 10)
  | none => false

/-- FRAME_SYNC_EDGE: the edge is sampled and its sync point lies 64 cycles on; at program start it places the tick that
opens the first frame, and after a re-arm it is measured (R33, R36). -/
def frameSyncEdge (s : State) : State :=
  if s.sameEdge || !s.power.on then s
  else
    let c := s.clock
    let c := { c with lastEdge := some (c.frame, c.cycle) }
    if c.placing then
      { s with clock := { c with placing := false, tickIn := some 64, syncPoint := none } }
    else if c.arming then
      { s with clock := { c with arming := false, tracking := true, freeRun := false, quiet := 0, syncPoint := some (c.cycle + 64) } }
    else if c.tracking && !c.freeRun then { s with clock := { c with syncPoint := some (c.cycle + 64) } }
    else { s with clock := c }

def execFrameSyncEdge (s : State) : Host.Outcome State Fault Refusal := goOn (frameSyncEdge s)

/-! ### The offset at a tick (R33, R36) -/

/-- The offset at the tick that ends this frame: its time minus that of the nearest sync point, the edges one frame length
apart; none in a frame without an edge (log 64). -/
def State.tickOffset (s : State) : Option Int :=
  match s.clock.syncPoint with
  | none => none
  | some p =>
    let t : Int := s.frameTime
    let o := t - (p * s.frameTime / s.flen : Nat)
    some (if (s.flen : Int) < 2 * o then o - s.flen else o)

/-- The offset lies in the window. -/
def inWindow (o : Int) : Bool := decide (-8192 ≤ o) && decide (o ≤ 8192)

/-- Tracking is lost at the tick that ends this frame: an offset outside the window, or the sixteenth tick without an edge. -/
def State.syncGone (s : State) : Bool :=
  s.clock.tracking && !s.clock.freeRun && !s.clock.placing && s.clock.tickIn.isNone &&
  (match s.tickOffset with
   | some o => !inWindow o
   | none => decide (15 ≤ s.clock.quiet))

/-- The offset measured at the tick is reported (R33). -/
def State.reportOffset (s : State) : State :=
  match s.tickOffset with
  | some o => s.put 0x6002 2 (twos 32 o)
  | none => s

/-- SYNC_LOST: the module reports the offset it measured, raises it and free-runs; object 0x6002.02 then keeps that offset (R33,
R36; DESIGN CHOICE, log 110). -/
def syncLost (s : State) : State :=
  if s.syncGone then
    { s.reportOffset.raiseTick 0x302 0 1 0 0 with clock := { s.clock with freeRun := true, syncPoint := none, quiet := 0 } }
  else s

def execSyncLost (s : State) : Host.Outcome State Fault Refusal := goOn (syncLost s)

/-- A write of 1 to object 0x6002.01: under a program that enables tracking the offset is measured at the next edge (R33, R36). -/
def armTracking (v : Nat) (s : State) : State × Nat :=
  if v ≠ 1 ∨ !s.program.tracked then (s, 0) else ({ s with clock := { s.clock with arming := true } }, 0)

/-! ### Correction (R34, R35) -/

/-- A Frond has work in a list of bundles. -/
def frondWork (d : Nat) (l : List Bundle) : Bool :=
  l.any fun b => b.commands.any fun p => (frondUnits d).contains p.2.unit &&
    !(p.1 == 0 || (unitClass p.2.unit == 1 && p.1 == 2) || (unitClass p.2.unit == 2 && p.1 == 3))

/-- The largest advance that the Fronds with work in the frame can follow at their current maximums (R35). -/
def State.followable (s : State) (bundles : List Bundle) (l : Nat) : Nat :=
  (List.range 3).foldl (fun n d => if frondWork d bundles then min n (l - cdiv (1250 * l) (s.get 0x2005 (d + 4))) else n) l

/-- The correction of the next frame, of length `l` and stretch `stretch`, for an offset. -/
def State.correction (s : State) (o : Int) (bundles : List Bundle) (l stretch : Nat) : Int :=
  if 0 < stretch then 0
  else if 5 ≤ o then (min (min o.toNat (min 1024 (l / 64))) (s.followable bundles l) : Nat)
  else if o ≤ -5 then -((min (-o).toNat 1024 : Nat) : Int)
  else 0

/-- At a tick: the offset is measured and reported, and the next frame, of bundles, length and stretch as given, takes its
correction. In free run nothing is reported, and object 0x6002.02 keeps the last offset (DESIGN CHOICE, log 110). -/
def State.syncTick (s : State) (bundles : List Bundle) (l stretch : Nat) : State :=
  let c := s.clock
  if !c.tracking || c.freeRun || c.placing then { s with clock := { c with advance := 0, syncPoint := none } }
  else match s.tickOffset with
    | some o =>
      { s.reportOffset with clock := { c with
        advance := s.correction o bundles l stretch
        syncPoint := none
        quiet := if inWindow o then 0 else c.quiet + 1 } }
    | none => { s with clock := { c with advance := 0, quiet := if c.tickIn.isSome then 0 else c.quiet + 1 } }

/-! ### REFCLK (R422) -/

/-- REFCLK_LOSS: the PLLs switch to the holdover oscillator; the counter and every link keep running. -/
def refclkLoss (s : State) : State :=
  if s.get 0x1005 1 = 1 ∨ !s.power.on then { s with power := { s.power with returning := false } }
  else { (s.put 0x1005 1 1).count 0x1005 2 1 with power := { s.power with returning := false, holdRest := 0 } }

def execRefclkLoss (s : State) : Host.Outcome State Fault Refusal := goOn (refclkLoss s)

/-- The PLLs lock to REFCLK again. -/
def State.relock (s : State) : State := { s.put 0x1005 1 0 with power := { s.power with returning := false, holdRest := 0 } }

/-- A wait frame of R38 runs. -/
def State.waitFrame (s : State) : Bool := s.running && s.program.at_.isNone && !s.program.opening

/-- REFCLK_RETURN: REFCLK has stayed in range for 10 ms; the PLLs switch back at once without a program, else at the first
wait frame. -/
def refclkReturn (s : State) : State :=
  if s.get 0x1005 1 = 0 then s
  else if !s.running || s.waitFrame then s.relock
  else { s with power := { s.power with returning := true } }

def execRefclkReturn (s : State) : Host.Outcome State Fault Refusal := goOn (refclkReturn s)

end Sys2Proof.Machine
end

