-- ==== Sys2Proof/Machine/Power.lean ====
section
/-! DEFINITION. The power controller's plan (R374–R380), the fast limits (R381, R382), thermal control (R383), rails and input
(R367–R369, R421), energy coefficients and ageing (R371–R373). -/

namespace Sys2Proof.Machine

/-! ### Domains (R374, R376, R377) -/

/-- The control domains: Frond, SRAM, HBM and Thallus 0 to 2 each, SerDes, I/O. -/
def controlDomains : List Nat := List.range 14

/-- The units whose work opcodes give a domain work (log 66). -/
def domainUnit (d u : Nat) : Bool :=
  let k := d % 3
  if d < 3 then (frondUnits k).contains u
  else if d < 6 then decide (0x40 + 4 * k ≤ u ∧ u < 0x44 + 4 * k) || (k == 1 && [0, 0x78, 0x7C, 0x7F].contains u)
  else if d < 9 then decide (0x40 + 4 * k ≤ u ∧ u < 0x44 + 4 * k)
  else if d < 12 then u == 0x70 + k
  else d == 12 && decide (0x50 ≤ u ∧ u ≤ 0x60)

/-- The opcode is a work opcode of its unit (Table 2.5). -/
def workOp (u op : Nat) : Bool :=
  !(op == 0 || (unitClass u == 1 && op == 2) || (unitClass u == 2 && op == 3) || (unitClass u == 10 && op == 1))

/-- A domain has work in a frame of these commands. -/
def domainWorks (d : Nat) (cmds : List (Nat × Nat × Issue)) : Bool := cmds.any fun p => domainUnit d p.2.2.unit && workOp p.2.2.unit p.2.1

/-- The learned value of a domain in a phase, or the static table's. -/
def State.predicted (s : State) (d p : Nat) (works : Bool) : Nat :=
  match kget 0 s.power.learned (d * 256 + p) with
  | 0 => s.power.static.getD (3 * d + (if works then 0 else 1)) 0
  | n + 1 => n

/-- The static share of a domain: as measured, else of Table 14.5. -/
def State.share (s : State) (d : Nat) : Nat := kget (s.power.static.getD (3 * d + 2) 0) s.power.shares d

/-! ### What the fetcher gives (R375) -/

/-- The phase in force at the end of the running frame. -/
def State.lastPhase (s : State) : Nat :=
  (frameCommands s.program.bundles).foldl (fun n p => if p.2.2.unit = 0x7C ∧ p.2.1 = 1 then p.2.2.arg.toNat % 256 else n) s.program.phaseId

/-- The phase spans of commands in a frame of `l` cycles: each phase with its cycles. -/
def phaseSpans (l : Nat) : List (Nat × Nat × Issue) → Nat → Nat → List (Nat × Nat)
  | [], phase, start => [(phase, l - start)]
  | p :: t, phase, start =>
    if p.2.2.unit = 0x7C ∧ p.2.1 = 1 then (phase, p.1 - start) :: phaseSpans l t (p.2.2.arg.toNat % 256) p.1
    else phaseSpans l t phase start

/-- The highest FLOOR of a Frond among commands. -/
def floorOf (d : Nat) (cmds : List (Nat × Nat × Issue)) : Nat :=
  cmds.foldl (fun n p => if p.2.2.unit = 0x7C ∧ p.2.1 = 2 ∧ bits p.2.2.arg.toNat 23 16 = 0x10 + d then max n (bits p.2.2.arg.toNat 15 0) else n) 1250

/-- The bundles that the fetcher has for the next frame. -/
def State.nextBundles (s : State) : List Bundle := (s.program.fetched.map Fetched.bundles).getD []

/-- The length of the next frame. -/
def State.nextLength (s : State) : Nat :=
  if s.program.kind = 0 ∨ s.program.stopping.isSome then 65536 else if s.program.opening ∧ s.clock.placing then s.flen else s.program.flen

/-! ### The plan (R378) -/

/-- φ of Table 14.3 in thousandths, by step above 1,250 MHz. -/
def phi (k : Nat) : Nat := [1000, 1045, 1092, 1141, 1192, 1245, 1300].getD k 1300

/-- The step of a Frond frequency, rounded up. -/
def frondStep (mhz : Nat) : Nat := cdiv (mhz - 1250) 25

/-- The offset that the end of this frame will have, as measured at the last tick and corrected since. -/
def State.projected (s : State) : Int := signed 32 (s.get 0x6002 2) + s.clock.stretch - s.clock.advance

/-- What the plan works on: the frame length, the commands, and predicted W · cycles by domain. -/
structure Forecast where
  l : Nat
  cmds : List (Nat × Nat × Issue)
  pred : List Nat
  deriving DecidableEq, Repr

def State.forecast (s : State) : Forecast :=
  let l := s.nextLength
  let cmds := frameCommands s.nextBundles
  let spans := phaseSpans l cmds s.lastPhase 0
  let pred := controlDomains.map fun d => (spans.map fun x => s.predicted d x.1 (domainWorks d cmds) * x.2).foldl (· + ·) 0
  { l, cmds, pred }

/-- A Frond's floor step: the highest FLOOR, at least 1,275 MHz when the counter must run fast, rounded up. -/
def State.floorStep (s : State) (f : Forecast) (d : Nat) : Nat :=
  let fast := s.clock.tracking && !s.clock.freeRun && decide (5 ≤ s.projected) && domainWorks d f.cmds
  frondStep (max (floorOf d f.cmds) (if fast then 1275 else 1250))

/-- Predicted power of die `d` at a Frond step, in W · cycles · 1000: the Frond by φ, its SRAM by 2 % per step. -/
def Forecast.die (f : Forecast) (d step : Nat) : Nat := f.pred.getD d 0 * phi step + f.pred.getD (3 + d) 0 * (1000 + 20 * step)

/-- The whole prediction at Frond steps; the Thallus prediction does not depend on the step (log 67). -/
def Forecast.total (f : Forecast) (steps : List Nat) : Nat :=
  ((List.range 3).map fun d => f.die d (steps.getD d 0)).foldl (· + ·) 0 + (((f.pred.drop 6).map (1000 * ·)).foldl (· + ·) 0)

/-- The Frond that is raised next: with work, below its maximum and not throttled, at the lowest step, ties to the lowest die. -/
def State.raisable (s : State) (f : Forecast) (throttled : List Nat) (steps : List Nat) : Option Nat :=
  ((List.range 3).filter fun d => domainWorks d f.cmds && !throttled.contains d &&
    decide (1250 + 25 * (steps.getD d 0 + 1) ≤ s.get 0x2005 (d + 4))).foldl (fun (best : Option Nat) d =>
      match best with
      | some b => if steps.getD d 0 < steps.getD b 0 then some d else best
      | none => some d) none

/-- Raises Fronds until the budget or their maximums end it; at most 18 raises exist. -/
def State.raiseFronds (s : State) (f : Forecast) (throttled : List Nat) (budget : Nat) : Nat → List Nat → List Nat
  | 0, steps => steps
  | n + 1, steps =>
    match s.raisable f throttled steps with
    | some d =>
      let up := steps.set d (steps.getD d 0 + 1)
      if f.total up ≤ budget then s.raiseFronds f throttled budget n up else steps
    | none => steps

/-- The current maximum of a cluster: the least of its cores'. -/
def State.clusterMax (s : State) (k : Nat) : Nat := ((span (8 * k) 8).map fun c => s.get 0x2006 (c + 25)).foldl min 2400

/-- Some junction sensor of a die, or some stack, is at or above limits in 1/16 °C. -/
def State.hotter (s : State) (d : Nat) (junction stack : Int) : Bool :=
  (span (8 * d) 8).any (fun n => decide (junction ≤ signed 16 (s.get 0x2030 (n + 1)))) ||
  (span (24 + 4 * d) 4).any fun n => decide (stack ≤ signed 16 (s.get 0x2030 (n + 1)))

/-- The throttled dies and the thermal stretch of a plan of frame length `l` (R383). -/
def State.throttling (s : State) (l : Nat) : List Nat × Nat :=
  let now := (List.range 3).filter fun d => s.hotter d 1600 1520 || (s.power.throttled.contains d && s.hotter d 1568 1488)
  let persists := s.power.throttled.any fun d => s.hotter d 1600 1520
  (now, if persists then min (s.power.thermal + l / 64) (l / 8) else if now.isEmpty then s.power.thermal - l / 64 else s.power.thermal)

/-- The stretch that a prediction needs against a budget and static shares, all in W · cycles · 1000 (R378). -/
def needed (total budget shares l : Nat) : Nat :=
  if total ≤ budget then 0
  else if budget ≤ shares then l / 8
  else min (64 * cdiv ((total - budget) * l) (64 * (budget - shares))) (l / 8)

/-- The prediction exceeds the budget even with the full stretch (R380). -/
def breach (total budget shares : Nat) : Bool := decide (budget < total) && decide (9 * (budget - shares) < 8 * (total - shares))

/-- The stretch that keeps the offset in the window under tracking (R379). -/
def State.stretchRoom (s : State) (l : Nat) : Nat :=
  if s.clock.tracking && !s.clock.freeRun then ((8192 - s.projected) / 64).toNat * 64 else l / 8

/-- The fallback plan: floors, 1,600 MHz, the last fixed stretch (R375). -/
def State.fallback (s : State) : State :=
  let f := s.forecast
  let steps := (List.range 3).map fun d => 1250 + 25 * s.floorStep f d
  { s.count 0x2003 5 1 with power := { s.power with plan := some (steps, [1600, 1600, 1600], min s.power.lastStretch (f.l / 8)) } }

/-- The controller's plan: Frond clocks, cluster clocks and stretch (R378–R380, R383). -/
def State.fixPlan (s : State) : State :=
  let f := s.forecast
  let k := 1000 * f.l
  let s := s.put 0x2001 2 (s.get 0x2001 1)
  let budget := s.get 0x2001 1 * s.get 0x2002 3 * f.l
  let shares := (controlDomains.map s.share).foldl (· + ·) 0 * k
  let t := s.throttling f.l
  let steps := s.raiseFronds f t.1 budget 18 ((List.range 3).map fun d => s.floorStep f d)
  let total := f.total steps
  let clusters := (List.range 3).map fun d =>
    if budget < total ∨ t.1.contains d then 1600 else min (s.clusterMax d) (s.get 0x2004 (d + 4) + 100)
  let need := needed total budget shares f.l
  let wish := min (max t.2 s.power.limiter) (s.stretchRoom f.l)
  let stretch := max need wish
  let s := s.countIf (breach total budget shares) 0x2003 1
  let s := t.1.foldl (fun (s : State) d => s.count 0x2031 (d + 1) 1) s
  { s with power := { s.power with
    plan := some (steps.map fun x => 1250 + 25 * x, clusters, stretch)
    lastStretch := stretch
    throttled := t.1
    thermal := t.2
    limiter := 0 } }

/-- PLAN_FIX: the plan of the next frame is fixed once; without the controller, frame control takes the fallback. -/
def planFix (ready : Bool) (s : State) : State :=
  if s.power.plan.isSome then s
  else if ready && !s.faults.clusterReset.contains 1 then s.fixPlan else s.fallback

def execPlanFix (controllerReady : Bool) (s : State) : Host.Outcome State Fault Refusal := goOn (planFix controllerReady s)

/-- The plan takes effect at the tick that opens the frame. -/
def State.takePlan (s : State) : State :=
  match s.power.plan with
  | some (fronds, clusters, stretch) =>
    let s := (List.range 3).foldl (fun (s : State) d =>
      (s.put 0x2004 (d + 1) (fronds.getD d 1250)).put 0x2004 (d + 4) (clusters.getD d 1600)) s
    let s := if stretch = 0 then s else (s.count 0x2003 2 1).count 0x2003 3 stretch
    { s with
      clock := { s.clock with stretch := stretch }
      power := { s.power with plan := none } }
  | none => s

/-- While the counter runs fast, every Frond with work runs at least as fast (R35). -/
def State.keepUp (s : State) (bundles : List Bundle) : State :=
  if 0 < s.clock.advance then
    (List.range 3).foldl (fun (s : State) d => if frondWork d bundles then s.put 0x2004 (d + 1) (max 1275 (s.get 0x2004 (d + 1))) else s) s
  else s

/-- A learned value, one more than its watts, after an observation: the first replaces the static table's, a later one moves it by one
eighth of the difference, rounded down (R376; log 132). -/
def learn (old seen : Nat) : Nat :=
  match old with
  | 0 => seen + 1
  | n + 1 => (7 * n + seen) / 8 + 1

/-- The frame's observation of its phases: the measured power by domain is free, since the attribution it rests on is not in
the manual (R370, R376; log 2). -/
def State.observe (s : State) (phases : List Nat) : State :=
  phases.foldl (fun (s : State) p =>
    let n := s.freeCount
    let learned := controlDomains.foldl (fun (m : KMap Nat) d =>
      kset 0 m (d * 256 + p) (learn (kget 0 m (d * 256 + p)) ((Config.freeBits (n + d)).toNat % 65536))) s.power.learned
    { s with
      power := { s.power with learned := learned }
      freeCount := n + 14 }) s

/-! ### Samples (R369, R374, R381) -/

/-- The 1 ms mean in mW. -/
def meanPower (samples : List Nat) : Nat := samples.foldl (· + ·) 0 / 100

/-- A rail's sample: voltage, current, and its energy of 10 µs in units of 10 pJ, counted in whole mJ. -/
def State.sampleRail (s : State) (r mv ma : Nat) : State :=
  let e := kget 0 s.power.energyRest r + mv * ma
  let s := ((s.put 0x2010 (r + 1) (mv % 65536)).put 0x2011 (r + 1) ma).count 0x2012 (r + 1) (e / 100000000)
  { s with power := { s.power with energyRest := kset 0 s.power.energyRest r (e % 100000000) } }

/-- The rails' power of a sample in mW, the bus left out. -/
def railPower (rails : List (Nat × Nat)) : Nat := ((rails.take 17).map fun r => r.1 * r.2 / 1000).foldl (· + ·) 0

/-- POWER_SAMPLE: input and rails are sampled; a mean over 3,800 W is OVERCURRENT with rail 17 (R369, R381). -/
def powerSample (mv ma : Nat) (rails : List (Nat × Nat)) (s : State) : State :=
  if !s.power.on then s
  else
    let before := meanPower s.power.samples
    let samples := (mv * ma / 1000 :: s.power.samples).take 100
    let mean := meanPower samples
    let s := ((rails.take 18).zip (List.range 18)).foldl (fun (s : State) r => s.sampleRail r.2 r.1.1 r.1.2) (s.put 0x2002 2 (mv % 65536))
    let s := { s with power := { s.power with
      samples := samples
      overCap := if 1050 * s.get 0x2001 2 < mean then s.power.overCap + 1 else 0
      frameIn := s.power.frameIn + mv * ma / 1000
      frameRails := s.power.frameRails + railPower rails
      frameSamples := s.power.frameSamples + 1 } }
    if 3800000 < mean ∧ before ≤ 3800000 then s.raise 0x401 0xB2 1 0 (packFields [(8, 17), (24, ma)]) else s

def execPowerSample (millivolts milliamps : Nat) (rails : List (Nat × Nat)) (s : State) : Host.Outcome State Fault Refusal :=
  goOn (powerSample millivolts milliamps rails s)

/-- The limiter is due: ten samples in a row with the mean more than 5 % over the cap, and the frame not yet at the full
stretch. -/
def State.limiterDue (s : State) : Bool := decide (10 ≤ s.power.overCap) && decide (s.clock.stretch < s.flen / 8)

/-- INPUT_LIMITER: the frame's stretch rises to the full eighth, and the next plan's is at least as large (R381). -/
def inputLimiter (s : State) : State :=
  if s.limiterDue then
    let full := s.flen / 8
    let s := (s.count 0x2003 4 1).countIf (s.clock.stretch == 0) 0x2003 2
    let s := s.count 0x2003 3 (full - s.clock.stretch)
    { s with
      clock := { s.clock with stretch := full }
      power := { s.power with limiter := full } }
  else s

def execInputLimiter (s : State) : Host.Outcome State Fault Refusal := goOn (inputLimiter s)

/-- At a tick: the frame's mean input power and the efficiency of the last 1,024 frames are reported (R374). -/
def State.powerTick (s : State) : State :=
  let p := s.power
  if p.frameSamples = 0 then s
  else
    let history := ((p.frameIn, p.frameRails) :: p.history).take 1024
    let input := (history.map (·.1)).foldl (· + ·) 0
    let rails := (history.map (·.2)).foldl (· + ·) 0
    let s := s.put 0x2002 1 (p.frameIn / p.frameSamples / 1000 % 65536)
    let s := if history.length = 1024 ∧ 0 < input then s.put 0x2002 3 (min 65535 (1000 * rails / input)) else s
    { s with power := { s.power with
      history := history
      frameIn := 0
      frameRails := 0
      frameSamples := 0 } }

/-! ### Rails and input (R367, R368, R382, R421) -/

/-- INPUT_RANGE: the input lies outside 56 to 64 V. -/
def inputRange (mv : Nat) (s : State) : State :=
  if s.power.on ∧ (mv < 56000 ∨ 64000 < mv) then s.raise 0x405 0xB2 1 0 (packFields [(8, 0), (24, mv)]) else s

def execInputRange (millivolts : Nat) (s : State) : Host.Outcome State Fault Refusal := goOn (inputRange millivolts s)

/-- INPUT_UNDERVOLTAGE: below 52 V every rail turns off at once, without a record. -/
def inputUndervoltage (mv : Nat) (s : State) : State := if s.power.on ∧ mv < 52000 then s.powerDown else s

def execInputUndervoltage (millivolts : Nat) (s : State) : Host.Outcome State Fault Refusal := goOn (inputUndervoltage millivolts s)

/-- INPUT_OVERVOLTAGE: above 68 V every rail turns off at once, without a record. -/
def inputOvervoltage (mv : Nat) (s : State) : State := if s.power.on ∧ 68000 < mv then s.powerDown else s

def execInputOvervoltage (millivolts : Nat) (s : State) : Host.Outcome State Fault Refusal := goOn (inputOvervoltage millivolts s)

/-- The die a rail feeds; the common rails count as die C. -/
def railDie (r : Nat) : Nat := if r < 15 then r % 3 else 1

/-- OVERCURRENT: the regulator turns its rail off on its own, and the fault is raised (R368). -/
def overcurrent (r measured : Nat) (s : State) : State :=
  if !s.power.on then s
  else
    let s := if r < 17 then { s with power := { s.power with railsOff := insertNat r s.power.railsOff } } else s
    s.raise 0x401 (if r = 17 then 0xB2 else 0xB0) (railDie r) 0 (packFields [(8, r), (24, measured)])

def execOvercurrent (rail measured : Nat) (s : State) : Host.Outcome State Fault Refusal := goOn (overcurrent rail measured s)

/-- REGULATOR_FAULT (R368). -/
def regulatorFault (r measured : Nat) (s : State) : State :=
  if s.power.on then s.raise 0x402 0xB0 (railDie r) 0 (packFields [(8, r), (24, measured)]) else s

def execRegulatorFault (rail measured : Nat) (s : State) : Host.Outcome State Fault Refusal := goOn (regulatorFault rail measured s)

/-- DROOP: the clock fed by the rail runs at half rate, and the event is counted (R382). -/
def droop (r : Nat) (s : State) : State :=
  if !s.power.on || s.power.drooping.contains r then s
  else
    let p := s.power
    let s := { s with power := { p with
      drooping := insertNat r p.drooping
      recovering := p.recovering.filter fun x => x.1 != r } }
    s.count 0x2020 (r + 1) 1

def execDroop (rail : Nat) (s : State) : Host.Outcome State Fault Refusal := goOn (droop rail s)

/-- DROOP_RECOVERY: the voltage has recovered; the clock is restored 64 cycles later (R382). -/
def droopRecovery (r : Nat) (s : State) : State :=
  if s.power.drooping.contains r then
    { s with power := { s.power with
      drooping := s.power.drooping.filter fun x => x != r
      recovering := s.power.recovering ++ [(r, 64)] } }
  else s

def execDroopRecovery (rail : Nat) (s : State) : Host.Outcome State Fault Refusal := goOn (droopRecovery rail s)

/-- The clock of a rail runs at half rate. -/
def State.halfRate (s : State) (r : Nat) : Bool := s.power.drooping.contains r || s.power.recovering.any fun x => x.1 == r

/-- Rails 0 to 8 feed the Frond and cluster clocks; those of the SRAM halve the Frond clock of the die. -/
def State.frondHalved (s : State) (d : Nat) : Bool := s.halfRate d || s.halfRate (3 + d)

/-- A cycle passes for the droops: half-rate cycles are counted, and recovered clocks are restored. -/
def State.droopCycle (s : State) : State :=
  let slow := (List.range 9).filter s.halfRate
  if slow.isEmpty then s
  else
    let s := slow.foldl (fun (s : State) r => s.count 0x2021 (r + 1) 1) s
    { s with power := { s.power with
      recovering := (s.power.recovering.map fun x => (x.1, x.2 - 1)).filter fun x => x.2 != 0 } }

/-! ### Thermal limits (R383, R242) -/

/-- THERMAL_SAMPLE: a sensor reads a temperature in 1/16 °C; the limits act on the first sample that reaches them. -/
def thermalSample (n : Nat) (t : Int) (s : State) : State :=
  if !s.power.on then s
  else
    let before := signed 16 (s.get 0x2030 (n + 1))
    let d := if n < 24 then n / 8 else (n - 24) / 4
    let detail := packFields [(8, n), (24, twos 24 t)]
    let s := s.put 0x2030 (n + 1) (twos 16 t)
    let s := if n < 24 then s else (s.put 0x4051 (n - 23) (twos 16 (t / 16))).put 0x4050 (n - 23) (if 1360 < t then 2 else 1)
    let limit : Int := if n < 24 then 1680 else 1600
    let s := if limit ≤ t ∧ before < limit then s.raise 0x403 0xB1 d 0 detail else s
    if n < 24 ∧ 1840 ≤ t ∧ before < 1840 then
      let s := s.raise 0x404 0xB1 d 0 detail
      if s.faults.replay.isSome then s.powerDown else s
    else s

def execThermalSample (sensor : Nat) (sixteenths : Int) (s : State) : Host.Outcome State Fault Refusal :=
  goOn (thermalSample sensor sixteenths s)

/-! ### Coefficients and ageing (R371, R373) -/

/-- COEFFICIENT_RECALIBRATION: every coefficient of a rail is multiplied by the ratio of measured to modelled energy, clamped
to 0.5 to 2.0, and a calibration table that waits comes into use (R412); `measured` gives each rail's ratio in thousandths (R371; log 68). -/
def recalibrate (measured : List Nat) (s : State) : State :=
  let s := { s with security := { s.security with calibration := s.security.tables } }
  (measured.zip (List.range 18)).foldl (fun (s : State) m =>
    let c := max 500 (min 2000 m.1)
    let g := kget (1, 1) s.power.gains m.2
    let s := s.countIf (decide (m.1 < 800 ∨ 1250 < m.1)) 0x2051 0x13
    { s with power := { s.power with gains := kset (1, 1) s.power.gains m.2 (g.1 * c, g.2 * 1000) } }) (s.count 0x2051 0x12 1)

def execCoefficientRecalibration (measured : List Nat) (s : State) : Host.Outcome State Fault Refusal := goOn (recalibrate measured s)

/-- The voltage of a clock step before the part offset, in mV (Tables 14.3 and 14.4). -/
def stepMillivolts (frond : Bool) (mhz : Nat) : Nat :=
  if frond then [750, 765, 780, 795, 810, 830, 850].getD ((mhz - 1250) / 25) 850
  else [700, 720, 740, 760, 780, 810, 840, 870, 900].getD ((mhz - 1600) / 100) 900

/-- The set voltage of the clock of Frond 0 to 2 or cluster 3 to 5, in mV: that of its step with the fused offset of −30 to +30 mV and
what its age has raised (R372, R373; log 5). -/
def State.setVoltage (s : State) (place : Nat) : Nat :=
  stepMillivolts (decide (place < 3)) (s.get 0x2004 (place + 1)) + min 60 (Config.fusedOffset place) +
    kget 0 s.power.offsets place - 30

/-- A current maximum drops one step, at once without a program, else at the next START (R373). -/
def State.lowerMaximum (s : State) (key step : Nat) (now : Nat) : State :=
  if s.running then { s with power := { s.power with maxima := kset 0 s.power.maxima key (now - step) } }
  else s.put (key / 256) (key % 256) (now - step)

/-- The maximum that an ageing record leaves for a clock. -/
def State.agedMaximum (s : State) (key : Nat) : Nat := kget (s.get (key / 256) (key % 256)) s.power.maxima key

/-- The margin of one clock, Frond or core `j`, in hundredths of a percent: below 3 % the maximum drops a step, at the lowest
maximum the offset rises 10 mV, and then the margin is exhausted. -/
def State.checkAge (s : State) (j margin : Nat) : State :=
  let frond := decide (j < 3)
  let key := if frond then objKey 0x2005 (j + 4) else objKey 0x2006 (j - 3 + 25)
  let lowest := if frond then 1250 else 1600
  let step := if frond then 25 else 100
  let place := if frond then j else 3 + (j - 3) / 8
  let now := s.agedMaximum key
  let s := s.put 0x2007 (j + 1) (margin % 65535)
  if 300 ≤ margin then s
  else if lowest < now then s.lowerMaximum key step now
  else if kget 0 s.power.offsets place < 30 then
    { s with power := { s.power with offsets := kset 0 s.power.offsets place (kget 0 s.power.offsets place + 10) } }
  else s.put 0x2007 (j + 1) 0xFFFF

/-- AGEING_CHECK: the monitors of three Fronds and 24 cores are read (R373). -/
def ageingCheck (margins : List Nat) (s : State) : State :=
  (margins.zip (List.range 27)).foldl (fun (s : State) m => s.checkAge m.2 m.1) s

def execAgeingCheck (margins : List Nat) (s : State) : Host.Outcome State Fault Refusal := goOn (ageingCheck margins s)

end Sys2Proof.Machine
end

