-- ==== Sys2Proof/Machine/Calls.lean ====
section
/-! DEFINITION. The Thallus mailboxes (R235, R236), the system calls of user contexts (R231–R234, R237, R238), the end of a quantum
and of a context. -/

namespace Sys2Proof.Machine

/-! ### Mailboxes -/

/-- The entry of Table 9.7 stamped now on a die. -/
def State.mailEntry (s : State) (msg ctx : Nat) (core : Option Nat) (die : Nat) : Nat :=
  packFields [(32, msg), (4, ctx), (1, b2n core.isSome), (5, core.getD 0), (6, 0), (48, s.clock.frame), (20, s.clock.cycle), (2, die), (10, 0)]

/-- The stamp of an entry, and whether a core pushed it: entries stand in stamp order, a POST before a core's push of its cycle
(R235). -/
def entryKey (e : Nat) : Nat := (bits e 95 48 * 2 ^ 20 + bits e 115 96) * 2 + bits e 36 36

/-- Puts an entry behind those that do not come after it. -/
def insertEntry (e : Nat) : List Nat → List Nat
  | [] => [e]
  | a :: t => if entryKey e < entryKey a then e :: a :: t else a :: insertEntry e t

/-- The ring of a die has no room for an entry. -/
def State.boxFull (s : State) (d : Nat) : Bool := decide (256 ≤ (s.box d).ring.length + (s.box d).landing.length)

/-- An entry comes to a ring that has room; it is readable from the next cycle. -/
def State.mail (s : State) (d entry : Nat) : State :=
  let b := s.box d
  s.setBox d { b with landing := insertEntry entry b.landing }

/-- What came in the last cycle is readable, which raises PLIC source 1 (R235). -/
def State.mailCycle (s : State) (d : Nat) : State :=
  let b := s.box d
  if b.landing.isEmpty then s
  else (s.setBox d { b with ring := b.landing.foldl (fun l e => insertEntry e l) b.ring, landing := [] }).plic d 1

/-- POST: the message joins the ring of the die in its issue cycle; a full ring drops it, which is counted, with MAILBOX_OVERFLOW
(R235, R236). -/
def startPost (i : Issue) (s : State) : State :=
  let d := i.unit - 0x70
  if s.boxFull d then
    ((s.setBox d { s.box d with overflow := true }).count 0x6068 (d + 1) 1).raise 0x307 i.unit d i.ctx 0
  else s.mail d (s.mailEntry i.arg.toNat i.ctx none d)

def execPost (i : Issue) (s : State) : Host.Outcome State Fault Refusal := goOn (s.gate 1 i startPost)

/-! ### Memory as a user thread sees it (R232) -/

/-- The HBM address of a grant base, where it is local or the module's own board space (R50; log 62). -/
def State.grantLocal (s : State) (base : Nat) : Option Nat :=
  if bit base 62 then (if bits base 44 41 = s.boardIndex then some (bits base 40 0) else none)
  else if base < 2 ^ 41 then some base else none

/-- The mapping that covers a virtual address, with its grant. -/
def State.mappingAt (s : State) (c va : Nat) : Option (Nat × Nat × Nat × Bool) :=
  (s.uctx c).maps.findSome? fun m =>
    match (s.uctx c).grants[m.2]? with
    | some g => if m.1 ≤ va ∧ va < m.1 + g.2.1 then some (m.1, g) else none
    | none => none

/-- The HBM address behind a range of a mapping, where the range lies in it and in populated memory. -/
def State.mappedRange (s : State) (m : Nat × Nat × Nat × Bool) (va n : Nat) : Option Nat :=
  match s.grantLocal m.2.1 with
  | some base =>
    let a := base + (va - m.1)
    if va + n ≤ m.1 + m.2.2.1 ∧ populated a n then some a else none
  | none => none

/-- A region of a grant covers a range of an address field: both in board form or both local, the module's own index being local. -/
def State.grantCovers (s : State) (g : Nat × Nat × Bool) (field n : Nat) : Bool :=
  match s.grantLocal g.1, s.grantLocal field with
  | some b, some a => decide (b ≤ a) && decide (a + n ≤ b + g.2.1)
  | none, none => decide (g.1 ≤ field) && decide (field + n ≤ g.1 + g.2.1)
  | _, _ => false

/-- Frames of a stream from an address on, as ranges: each to its FRAME_END. -/
def State.streamRange (s : State) : Nat → Nat → List (Nat × Nat)
  | _, 0 => []
  | a, n + 1 => let k := 64 * (s.rawFrame a 4096).length; (a, k) :: s.streamRange (a + k) n

/-- What the stream fetcher reads: the program header, both streams, the descriptor directory and the active slots (R239). -/
def State.streamRanges (s : State) : List (Nat × Nat) :=
  let p := s.program
  [(s.get 0x6010 1, 64), (p.descDir, 256)] ++ s.streamRange p.steadyBase p.steadyFrames ++ s.streamRange p.firstBase p.firstFrames ++
  (List.range 256).map fun t => let slot := tableSlot (s.tableEntry t); (slot.1, 64 * slot.2.1)

/-- A range lies on a page of 4 KiB that holds what the fetcher reads, while a program runs (R239). -/
def State.streamPage (s : State) (a n : Nat) : Bool :=
  s.running && s.streamRanges.any fun r =>
    r.2 != 0 && overlaps (r.1 / 4096 * 4096) (roundUp (r.1 % 4096 + r.2) 4096) (a / 4096 * 4096) (roundUp (a % 4096 + n) 4096)

/-- The status codes of R234 that the calls of Table 9.9 answer with. -/
def notPermitted : Int := -1

def badArgument : Int := -2

def overQuota : Int := -3

def busyOrFull : Int := -4

def rejected : Int := -5

def timedOut : Int := -6

/-- The pages that a range of private memory would take beside the loaded segments and the pages already taken. -/
def UserCtx.newPages (u : UserCtx) (va n : Nat) : List Nat :=
  ((span (va / 4096) (cdiv (va % 4096 + n) 4096)).filter fun p =>
    !u.pages.contains p && !u.segs.any fun g => decide (g.1 ≤ 4096 * p) && decide (4096 * p + 4096 ≤ g.1 + g.2))

/-- Bytes of private memory in use. -/
def UserCtx.used (u : UserCtx) : Nat := (u.segs.map fun g => g.2).foldl (· + ·) 0 + 4096 * u.pages.length

/-- What keeps a context from a range of its memory: the answer of the call that names it (R232–R234, R239; log 51). -/
def State.userStop (s : State) (c va n : Nat) (write : Bool) : Option Int :=
  match s.mappingAt c va with
  | some m =>
    if write && !m.2.2.2 then some badArgument
    else match s.mappedRange m va n with
      | none => some badArgument
      | some a => if s.streamPage a n then some notPermitted else none
  | none =>
    let u := s.uctx c
    if write && decide (s.ctxObject 0x6064 c * 2 ^ 20 < u.used + 4096 * (u.newPages va n).length) then some overQuota else none

/-- Bytes at a virtual address of a context: a mapped region through its slice, or private memory where nothing is mapped (log 51). -/
def State.userRead (s : State) (c core va n : Nat) : State × List Byte :=
  match s.mappingAt c va with
  | some m => match s.mappedRange m va n with
    | some a => let r := s.readThrough (0x88 + core) c a n; (r.1, r.2.1)
    | none => (s, [])
  | none => (s, (s.uctx c).priv.readN va n)

/-- Stores bytes at a virtual address of a context. -/
def State.userWrite (s : State) (c va : Nat) (bytes : List Byte) : State :=
  match s.mappingAt c va with
  | some m => match s.mappedRange m va bytes.length with
    | some a => s.writeThrough c a bytes false
    | none => s
  | none =>
    let u := s.uctx c
    s.setUctx c { u with priv := u.priv.writeN va bytes, pages := u.pages ++ u.newPages va bytes.length }

/-! ### Threads and answers (R234) -/

/-- The thread of a context on a core. -/
def State.thread (s : State) (c core : Nat) : Thread := kget {} (s.uctx c).threads core

def State.setThread (s : State) (c core : Nat) (x : Thread) : State :=
  s.setUctx c { s.uctx c with threads := kset {} (s.uctx c).threads core x }

/-- A call answers in `a0`. -/
def State.answerCall (s : State) (c core : Nat) (v : Int) : State := s.setThread c core { s.thread c core with a0 := BitVec.ofInt 64 v }

/-- The user context whose thread runs on a core. -/
def State.caller (s : State) (core : Nat) : Option Nat :=
  let c := (s.core core).tctx
  if 4 ≤ c ∧ s.runsOn c core ∧ s.power.on then some c else none

/-- A call of the thread on a core; a core that runs no user thread makes none. -/
def State.call (s : State) (core : Nat) (f : Nat → State → State) : State :=
  match s.caller core with
  | some c => f c s
  | none => s

/-! ### MAP and UNMAP (R232) -/

/-- MAP: maps a grant region at a virtual address; regions and address in units of 4 KiB, mappings apart, and nothing that the stream
reads (R239). -/
def mapGrant (core grant va : Nat) (s : State) : State :=
  s.call core fun c s =>
    let u := s.uctx c
    match u.grants[grant]? with
    | none => s.answerCall c core badArgument
    | some g =>
      let clash := u.maps.any fun m => match u.grants[m.2]? with
        | some h => overlaps m.1 h.2.1 va g.2.1
        | none => false
      if (match s.grantLocal g.1 with | some a => s.streamPage a g.2.1 | none => false) then s.answerCall c core notPermitted
      else if va % 4096 ≠ 0 ∨ g.1 % 4096 ≠ 0 ∨ g.2.1 % 4096 ≠ 0 ∨ g.2.1 = 0 ∨ clash then s.answerCall c core badArgument
      else (s.setUctx c { u with maps := u.maps ++ [(va, grant)] }).answerCall c core 0

def execMap (core grant va : Nat) (s : State) : Host.Outcome State Fault Refusal := goOn (mapGrant core grant va s)

/-- UNMAP: removes the mapping at a virtual address. -/
def unmapGrant (core va : Nat) (s : State) : State :=
  s.call core fun c s =>
    let u := s.uctx c
    if u.maps.any fun m => m.1 == va then
      (s.setUctx c { u with maps := u.maps.filter fun m => m.1 != va }).answerCall c core 0
    else s.answerCall c core badArgument

def execUnmap (core va : Nat) (s : State) : Host.Outcome State Fault Refusal := goOn (unmapGrant core va s)

/-! ### MBOX_RECV (R234, R235) -/

/-- Hands an entry to a thread's buffer. -/
def State.handEntry (s : State) (c core buffer entry : Nat) : State :=
  match s.userStop c buffer 16 true with
  | none => (s.userWrite c buffer (leBytes 16 entry)).answerCall c core 0
  | some code => s.answerCall c core code

/-- The oldest entry of the context's queue goes to a buffer. -/
def State.takeEntry (s : State) (c core buffer : Nat) : State :=
  match (s.uctx c).queue with
  | e :: rest => (s.setUctx c { s.uctx c with queue := rest }).handEntry c core buffer e
  | [] => s

/-- MBOX_RECV: copies the oldest entry, or waits for one up to the timeout in µs. -/
def mailReceive (core buffer timeout : Nat) (s : State) : State :=
  s.call core fun c s =>
    if (s.userStop c buffer 16 true).isSome then s.answerCall c core ((s.userStop c buffer 16 true).getD 0)
    else if !(s.uctx c).queue.isEmpty then s.takeEntry c core buffer
    else if timeout = 0 then s.answerCall c core timedOut
    else s.setThread c core { s.thread c core with waiting := some (buffer, timeout * 1250) }

def execMboxRecv (core buffer timeout : Nat) (s : State) : Host.Outcome State Fault Refusal := goOn (mailReceive core buffer timeout s)

/-- The running context whose thread on a core has the least of its time left to wait. -/
def State.expired (s : State) (core : Nat) : Option Nat :=
  let waits := userContexts.filterMap fun c => if s.runsOn c core then (s.thread c core).waiting.map fun w => (c, w.2) else none
  (waits.foldl (fun (best : Option (Nat × Nat)) w =>
    match best with
    | some b => if w.2 < b.2 then some w else some b
    | none => some w) none).map fun w => w.1

/-- MBOX_RECV_TIMEOUT: the wait of a thread on the core ends without an entry. -/
def mailTimeout (core : Nat) (s : State) : State :=
  match s.expired core with
  | some c => s.setThread c core { s.thread c core with waiting := none, a0 := BitVec.ofInt 64 timedOut }
  | none => s

def execMboxRecvTimeout (core : Nat) (s : State) : Host.Outcome State Fault Refusal := goOn (mailTimeout core s)

/-- The thread of a context that waits for an entry, on the lowest core. -/
def State.waiter (s : State) (c : Nat) : Option (Nat × Nat) :=
  (s.ctxCores c).findSome? fun k => (s.thread c k).waiting.map fun w => (k, w.1)

/-! ### Delivery (R235, R236) -/

/-- The die agent delivers an entry to the destination it names; a user context without a running image or with a full queue
loses it, which is counted. -/
def State.deliver (s : State) (d entry : Nat) : State :=
  let dest := bits entry 31 28
  let key := 4 * d + dest
  if dest < 4 then { s with thallus := { s.thallus with agent := kset [] s.thallus.agent key (entry :: kget [] s.thallus.agent key) } }
  else if s.ctxState dest ≠ 2 ∨ 256 ≤ (s.uctx dest).queue.length then s.count 0x6068 (d + 1) 1
  else match s.waiter dest with
    | some (core, buffer) => (s.setThread dest core { s.thread dest core with waiting := none }).handEntry dest core buffer entry
    | none => s.setUctx dest { s.uctx dest with queue := (s.uctx dest).queue ++ [entry] }

/-- MAILBOX_POP: the oldest entry retires, delivered to its destination. -/
def mailPop (d : Nat) (s : State) : State :=
  let b := s.box d
  match b.ring with
  | [] => s
  | e :: rest => (s.setBox d { b with ring := rest, head := (b.head + 1) % 256 }).deliver d e

def execMailboxPop (die : Nat) (s : State) : Host.Outcome State Fault Refusal := goOn (mailPop die s)

/-- A core's push comes to the ring of a die and its call is answered; a full ring drops it, which is counted, and clears PUSHED
(R234, R236). -/
def State.pushMail (s : State) (d entry : Nat) : State :=
  let c := bits entry 35 32
  let core := bits entry 41 37
  let full := s.boxFull d
  let s := s.setBox d { s.box d with pushed := !full }
  if full then (s.count 0x6068 (d + 1) 1).answerCall c core busyOrFull else (s.mail d entry).answerCall c core 0

/-- MBOX_SEND: pushes a message for a user context to a die's mailbox, over the bridges to another die (R21, R234, R236; log 130). -/
def mailSend (core d : Nat) (msg : Nat) (s : State) : State :=
  s.call core fun c s =>
    let entry := s.mailEntry msg c (some core) (core / 8)
    if bits msg 31 28 < 4 ∨ 3 ≤ d then s.answerCall c core badArgument
    else if d = core / 8 then s.pushMail d entry
    else s.carry (s.packet (0x88 + core) c 5 (core / 8) d (leBytes 16 entry) false (.mail d entry))

def execMboxSend (core die : Nat) (message : BitVec 32) (s : State) : Host.Outcome State Fault Refusal :=
  goOn (mailSend core die message.toNat s)

/-! ### Slots (R237, R238) -/

/-- The directory entry that holds the descriptors an opcode takes (Table 2.5). -/
def descriptorEntry (u op : Nat) : Option Nat :=
  match unitClass u, op with
  | 1, 1 | 2, 1 | 3, 1 | 3, 2 => some 1
  | 2, 2 | 4, 3 | 4, 4 => some 6
  | 4, 1 => some 3
  | 4, 2 => some 4
  | 4, 5 => some 5
  | 5, 1 | 5, 2 | 5, 3 | 5, 4 | 6, 1 | 6, 2 | 6, 3 | 7, 1 | 7, 2 => some 2
  | _, _ => none

/-- What R40 to R48 ask of a command as far as it alone fixes it. -/
def aloneOk (op : Nat) (i : Issue) : Bool :=
  let a := i.arg.toNat
  validUnit i.unit &&
  (match descriptorEntry i.unit op with
   | some e => bits a 31 28 == 0 && bits a 27 24 == e
   | none =>
     match unitClass i.unit, op with
     | 0, 0 | 1, 0 | 1, 2 | 2, 0 | 2, 3 | 3, 0 | 4, 0 | 5, 0 | 6, 0 | 7, 0 => a == 0
     | 0, 2 => i.dur == 0 && decide (a ≤ 1)
     | 0, 3 | 3, 3 | 9, 1 => i.dur == 0 && a == 0
     | 0, 4 => true
     | 8, 1 => i.dur == 0
     | 10, 1 => decide (a < 256)
     | 10, 2 => i.dur == 0 && bits a 31 24 == 0
     | 11, 1 => i.dur == 0 && decide (1 ≤ a ∧ a ≤ 7)
     | _, _ => false)

/-- A context's table set holds a table. -/
def State.inTableSet (s : State) (c t : Nat) : Bool := bit (leNat (kget [] s.domains.tableSets c)) t

/-- The first failing check of Table 9.11 for a slot of raw bundles. -/
def State.slotCheck (s : State) (c t count span : Nat) (raw : List Nat) : Option Nat :=
  let bundles := raw.map fun w => bundleOf w c (bits w 19 0) (some { table := t, slotB := false, callSeq := 0 })
  let cmds := frameCommands bundles
  let sameUnit := fun (p q : Nat × Nat × Issue) => p.1 == q.1 && p.2.2.unit == q.2.2.unit
  if !s.inTableSet c t || t == 0xFF then some 1
  else if count = 0 ∨ 4096 < count ∨ s.flen ≤ span then some 2
  else if (badHeader s.flen 0 c (some { table := t, slotB := false, callSeq := 0 }) raw 0 0 0).isSome ||
      !(cmds.all fun p => aloneOk p.2.1 p.2.2) || decide (1 < (cmds.filter fun p => p.2.2.unit == 0 && p.2.1 == 2).length) || (cmds.any fun p => decide (1 < (cmds.filter (sameUnit p)).length)) then some 3
  else if !(cmds.all fun p => s.permitted p.2.2) then some 4
  else if cmds.any fun p => match descriptorEntry p.2.2.unit p.2.1 with
      | some e => decide (s.dirCount e ≤ bits p.2.2.arg.toNat 23 0)
      | none => false then some 5
  else if cmds.any fun p => decide (span < p.1 + p.2.2.dur) then some 6
  else none

/-- A submission of the table that has not flipped yet. -/
def State.slotPending (s : State) (t : Nat) : Bool :=
  userContexts.any fun c => (s.uctx c).slots.any fun x => x.1 == t && (x.2.2.2.2 == 1 || x.2.2.2.2 == 2)

/-- SLOT_SUBMIT: the checks of Table 9.11; an accepted slot's bundles are written to the alternate slot, and the slot is
published at the next tick (R238; log 63). -/
def submitSlot (core t buffer count span : Nat) (s : State) : State :=
  s.call core fun c s =>
    if s.program.kind = 0 ∨ s.slotPending t then s.answerCall c core busyOrFull
    else
      let n := if count ≤ 4096 then count else 0
      match s.userStop c buffer (64 * n) false with
      | some code => s.answerCall c core code
      | none =>
        let r := s.userRead c core buffer (64 * n)
        let s := r.1
        let data := r.2
        let raw := (List.range n).map fun j => leNat ((data.drop (64 * j)).take 64)
        match s.slotCheck c t count span raw with
        | some code =>
          (s.count 0x606A (c + 1) 1).setThread c core
            { s.thread c core with a0 := BitVec.ofInt 64 rejected, a1 := BitVec.ofNat 64 code }
        | none =>
          let a := s.alternateBase t
          if !populated a (64 * n) then s.answerCall c core busyOrFull
          else
            let s := s.writeThrough 1 a data false
            let u := s.uctx c
            (s.setUctx c { u with slots := (u.slots.filter fun x => x.1 != t) ++ [(t, buffer, count, span, 1)] }).answerCall c core 0

def execSlotSubmit (core table buffer count span : Nat) (s : State) : Host.Outcome State Fault Refusal :=
  goOn (submitSlot core table buffer count span s)

/-- The stitcher publishes what waits, outside the vote window (R237, R238). -/
def State.publishSlots (s : State) : State :=
  if s.voteWindow || s.program.kind == 0 then s
  else userContexts.foldl (fun (s : State) c =>
    let u := s.uctx c
    let due := u.slots.filter fun x => x.2.2.2.2 == 1
    if due.isEmpty then s
    else
      let s := due.foldl (fun (s : State) x => s.publish x.1 x.2.2.1 x.2.2.2.1) s
      let slots := u.slots.map fun x => if x.2.2.2.2 == 1 then (x.1, x.2.1, x.2.2.1, x.2.2.2.1, 2) else x
      s.setUctx c { u with slots := slots }) s

/-- SLOT_STATUS: 0 idle, 1 pending, 2 published, 3 flipped. -/
def slotState (core t : Nat) (s : State) : State :=
  s.call core fun c s =>
    let v := (((s.uctx c).slots.find? fun x => x.1 == t).map fun x => x.2.2.2.2).getD 0
    s.answerCall c core v

def execSlotStatus (core table : Nat) (s : State) : Host.Outcome State Fault Refusal := goOn (slotState core table s)

/-! ### YIELD, LOG, EXIT and the ends of a quantum and a context (R231, R233) -/

/-- YIELD: the thread's quantum ends. -/
def yieldThread (core : Nat) (s : State) : State := s.call core fun c s => (s.answerCall c core 0).switchCore core

def execYield (core : Nat) (s : State) : Host.Outcome State Fault Refusal := goOn (yieldThread core s)

/-- LOG: a telemetry record of kind 2 with frame, cycle, context, length and the bytes. -/
def logRecord (core buffer length : Nat) (s : State) : State :=
  s.call core fun c s =>
    if 256 < length then s.answerCall c core badArgument
    else match s.userStop c buffer length false with
      | some code => s.answerCall c core code
      | none =>
        let r := s.userRead c core buffer length
        let s := r.1
        ({ s with thallus := { s.thallus with
          telemetry := [2, s.clock.frame, s.clock.cycle, c, length, leNat r.2] :: s.thallus.telemetry } }).answerCall c core 0

def execLog (core buffer length : Nat) (s : State) : Host.Outcome State Fault Refusal := goOn (logRecord core buffer length s)

/-- EXIT: the context stops in state 3. The program counter a critical context's fault reports is free, the cause an
environment call's (R233; log 2). -/
def exitContext (core : Nat) (_ : Nat) (s : State) : State :=
  s.call core fun c s => let r := s.draw; r.2.stopContext c core 3 r.1.toNat 8

def execExit (core status : Nat) (s : State) : Host.Outcome State Fault Refusal := goOn (exitContext core status s)

/-- QUANTUM_EXPIRY: the supervisor gives a core of a user context to the next (R231). -/
def quantumEnd (core : Nat) (s : State) : State := s.call core fun _ s => s.switchCore core

def execQuantumExpiry (core : Nat) (s : State) : Host.Outcome State Fault Refusal := goOn (quantumEnd core s)

/-- USER_CONTEXT_EXCEPTION: the context of the core stops in state 4 (R233). -/
def contextException (core pc cause : Nat) (s : State) : State := s.call core fun c s => s.stopContext c core 4 pc cause

def execUserContextException (core : Nat) (pc cause : BitVec 64) (s : State) : Host.Outcome State Fault Refusal :=
  goOn (contextException core pc.toNat cause.toNat s)

end Sys2Proof.Machine
end

