-- ==== Sys2Proof/Machine/Cores.lean ====
section
/-! DEFINITION. The accesses of the Thallus cores (R220–R230, R232, R239): counters and CSRs, physical memory protection, the caches,
the operand-store windows and the cluster devices. -/

namespace Sys2Proof.Machine

/-! ### Counters (R222) -/

/-- A core meets events of a code of Table 9.1: its counters that select the code count them. -/
def State.coreEvent (s : State) (c code n : Nat) : State :=
  let x := s.core c
  let hit := (List.range 4).filter fun k => (kget 0 x.csrs (0x323 + k)).toNat == code
  if hit.isEmpty ∨ n = 0 then s
  else s.setCore c { x with events := hit.foldl (fun (m : KMap Nat) k => kset 0 m (3 + k) (kget 0 m (3 + k) + n)) x.events }

/-- A core retires an instruction. -/
def State.retire (s : State) (c : Nat) : State := s.setCore c { s.core c with retired := (s.core c).retired + 1 }

/-! ### CSRs (R220, R222, R223) -/

/-- The CSRs of the extensions that R220 lists. -/
def csrKnown (n : Nat) : Bool :=
  [1, 2, 3, 8, 9, 0xA, 0xF, 0xC20, 0xC21, 0xC22, 0x100, 0x104, 0x105, 0x106, 0x10A, 0x140, 0x141, 0x142, 0x143, 0x144, 0x180, 0x300, 0x301,
    0x302, 0x303, 0x304, 0x305, 0x306, 0x30A, 0x320, 0x340, 0x341, 0x342, 0x343, 0x344, 0x3A0, 0x3A2, 0x5C0, 0xB00, 0xC01, 0xCC0, 0xCC1,
    0xF11, 0xF12, 0xF13, 0xF14, 0xF15].contains n ||
  decide (0x323 ≤ n ∧ n ≤ 0x33F) || decide (0x3B0 ≤ n ∧ n ≤ 0x3BF) || decide (0xB02 ≤ n ∧ n ≤ 0xB1F) || decide (0xC02 ≤ n ∧ n ≤ 0xC1F) ||
  n == 0xC00

/-- The sources of a cluster that a PLIC context has pending and enabled, with a priority. -/
def State.plicReady (s : State) (d ctx : Nat) : List Nat :=
  (span 1 8).filter fun k =>
    bit (kget 0 s.thallus.plic d) k && bit (kget 0 s.thallus.plicEnable (16 * d + ctx)) k && kget 0 s.thallus.plicPriority (16 * d + k) != 0

/-- The interrupt line of a PLIC context: a ready source above its threshold (R230). -/
def State.plicLine (s : State) (d ctx : Nat) : Bool :=
  (s.plicReady d ctx).any fun k => decide (kget 0 s.thallus.plicThreshold (16 * d + ctx) < kget 0 s.thallus.plicPriority (16 * d + k))

/-- The value of a CSR of a core. -/
def State.csr (s : State) (c n : Nat) : Nat :=
  let x := s.core c
  let stored := (kget 0 x.csrs n).toNat
  let lines := 2 ^ 9 * b2n (s.plicLine (c / 8) (2 * (c % 8) + 1)) + 2 ^ 11 * b2n (s.plicLine (c / 8) (2 * (c % 8)))
  match n with
  | 0xF14 => c
  | 0xB00 | 0xC00 => (kget 0 s.thallus.cycles (c / 8) + x.cycleBase) % 2 ^ 64
  | 0xC01 => s.clock.uptime / 8
  | 0xB02 | 0xC02 => x.retired % 2 ^ 64
  | 0xCC0 => s.clock.frame
  | 0xCC1 => s.clock.cycle % 2 ^ 20 + 2 ^ 20 * coreDie c
  | 0x5C0 => x.tctx
  | 0xC22 => 64
  | 0x144 | 0x344 => stored ||| lines
  | 0x301 | 0xF11 | 0xF12 | 0xF13 | 0xF15 => (Config.coreIdentity n).toNat
  | _ =>
    if 0xB03 ≤ n ∧ n ≤ 0xB1F then kget 0 x.events (n - 0xB00) % 2 ^ 64
    else if 0xC03 ≤ n ∧ n ≤ 0xC1F then kget 0 x.events (n - 0xC00) % 2 ^ 64
    else stored

/-- Writes a CSR of a core; counters 7 to 31 and their selectors stay zero (R222). -/
def State.putCsr (s : State) (c n v : Nat) : State :=
  let x := s.core c
  match n with
  | 0x5C0 => s.setCore c { x with tctx := v % 16 }
  | 0xB00 => s.setCore c { x with cycleBase := (v + 2 ^ 64 - kget 0 s.thallus.cycles (c / 8) % 2 ^ 64) % 2 ^ 64 }
  | 0xB02 => s.setCore c { x with retired := v }
  | _ =>
    if 0xB03 ≤ n ∧ n ≤ 0xB06 then s.setCore c { x with events := kset 0 x.events (n - 0xB00) v }
    else if (0xB07 ≤ n ∧ n ≤ 0xB1F) ∨ (0x327 ≤ n ∧ n ≤ 0x33F) then s
    else s.setCore c { x with csrs := kset 0 x.csrs n (BitVec.ofNat 64 v) }

/-- A core takes an illegal-instruction exception. -/
def State.illegalCore (s : State) (c : Nat) : State := s.setCore c { s.core c with illegal := true }

/-- A core reads a CSR, and writes it where a value stands. A CSR that is not implemented, of a higher mode or, for a write, read-only
raises an illegal-instruction exception (R221, R232). -/
def State.csrAccess (s : State) (c n : Nat) (write : Option (BitVec 64)) : State :=
  if !csrKnown n || decide ((s.core c).mode < bits n 9 8) || (write.isSome && bits n 11 10 == 3) then s.illegalCore c
  else
    let old := s.csr c n
    let s := match write with | some v => s.putCsr c n v.toNat | none => s
    s.setCore c { s.core c with data := leBytes 8 old, accessFault := false, misaligned := false, illegal := false }

/-! ### What an access may reach (R220, R232, R239) -/

/-- The range of a PMP entry: none where it is off, top of range, four bytes, or a naturally aligned power of two. -/
def CoreState.pmpRange (x : CoreState) (j : Nat) : Option (Nat × Nat) :=
  let addr := fun (k : Nat) => (kget 0 x.csrs (0x3B0 + k)).toNat % 2 ^ 54
  let cfg := bits (kget 0 x.csrs (0x3A0 + 2 * (j / 8))).toNat (8 * (j % 8) + 7) (8 * (j % 8))
  match bits cfg 4 3 with
  | 1 => let lo := if j = 0 then 0 else addr (j - 1); if lo < addr j then some (4 * lo, 4 * (addr j - lo)) else none
  | 2 => some (4 * addr j, 4)
  | 3 =>
    let k := ((List.range 54).find? fun i => !bit (addr j) i).getD 54
    some (4 * (addr j - addr j % 2 ^ (k + 1)), 2 ^ (k + 3))
  | _ => none

/-- Physical memory protection lets a core reach a range: the lowest entry that meets it decides, for machine mode only a locked one,
and where none does the access goes on (R220; log 127). -/
def CoreState.pmpAllows (x : CoreState) (a n need : Nat) : Bool :=
  match (List.range 16).find? fun j => match x.pmpRange j with | some r => overlaps r.1 r.2 a n | none => false with
  | none => true
  | some j =>
    let cfg := bits (kget 0 x.csrs (0x3A0 + 2 * (j / 8))).toNat (8 * (j % 8) + 7) (8 * (j % 8))
    let whole := match x.pmpRange j with | some r => decide (r.1 ≤ a) && decide (a + n ≤ r.1 + r.2) | none => false
    whole && (bit cfg need || (x.mode == 3 && !bit cfg 7))

/-- A core's software may reach a range of an address field: a user context only what its mapped grants cover, a service not the
pages that the stream reads, unless it reads them or is the stitcher (R232, R239). -/
def State.coreMay (s : State) (c field n : Nat) (write : Bool) : Bool :=
  let held := match s.grantLocal field with | some a => s.streamPage a n | none => false
  match s.caller c with
  | some x =>
    !held && (s.uctx x).maps.any fun m => match (s.uctx x).grants[m.2]? with
      | some g => s.grantCovers g field n && (!write || g.2.2)
      | none => false
  | none => !(write && held && (s.core c).tctx != 1)

/-! ### Caches (R224, R226) -/

/-- A line in the L2 of a cluster. -/
def State.l2Line (s : State) (d line : Nat) : Option CoreLine := (kget [] s.thallus.l2 (8192 * d + line % 8192)).find? fun x => x.line == line

/-- Puts a line of the L2 in place of what it held of it. -/
def State.setL2 (s : State) (d : Nat) (x : CoreLine) : State :=
  let key := 8192 * d + x.line % 8192
  { s with thallus := { s.thallus with
    l2 := kset [] s.thallus.l2 key ((kget [] s.thallus.l2 key).map fun y => if y.line = x.line then x else y) } }

/-- A line leaves the L2 of a cluster and, as the L2 is inclusive, its L1s. -/
def State.dropLine (s : State) (d line : Nat) : State :=
  let key := 8192 * d + line % 8192
  let l1 := (List.range 16).foldl (fun (m : KMap (List Nat)) k =>
    let j := (16 * d + k) * 128 + line % 128
    if (kget [] m j).contains line then kset [] m j ((kget [] m j).erase line) else m) s.thallus.l1
  { s with thallus := { s.thallus with
    l1 := l1
    l2 := kset [] s.thallus.l2 key ((kget [] s.thallus.l2 key).filter fun y => y.line != line) } }

/-- A dirty line goes to HBM: it becomes an event as it leaves the L2 (R226). -/
def State.writeBack (s : State) (c : Nat) (x : CoreLine) : State :=
  if x.dirty then s.sendWrite (0x88 + c) (s.core c).tctx 5 (coreDie c) (64 * x.line) (s.landTensor (64 * x.line)) 0 0 x.data false else s

/-- A line comes into the L2 of a core's cluster; from a full set another leaves, whichever (R224; log 2). -/
def State.installLine (s : State) (c : Nat) (x : CoreLine) : State :=
  let d := c / 8
  let key := 8192 * d + x.line % 8192
  let set := kget [] s.thallus.l2 key
  let s := if set.length < 16 then s
    else
      let r := s.draw
      match set[r.1.toNat % 16]? with
      | some y => (r.2.writeBack c y).dropLine d y.line
      | none => r.2
  { s with thallus := { s.thallus with l2 := kset [] s.thallus.l2 key (kget [] s.thallus.l2 key ++ [x]) } }

/-- An access of a core finds its line in an L1, or misses there, which is counted, and brings it in (R222, R224; log 2). -/
def State.touchL1 (s : State) (c line : Nat) (fetch : Bool) : State :=
  let key := (2 * c + b2n fetch) * 128 + line % 128
  let set := kget [] s.thallus.l1 key
  if set.contains line then s
  else
    let s := s.coreEvent c (if fetch then 2 else 1) 1
    let r := s.draw
    let (s, set) := if set.length < 8 then (s, set) else (r.2, set.eraseIdx (r.1.toNat % 8))
    { s with thallus := { s.thallus with l1 := kset [] s.thallus.l1 key (set ++ [line]) } }

/-- A write of a core to a line ends the reservations that other cores hold on it (R227; log 128). -/
def State.breakReservations (s : State) (c a : Nat) : State :=
  (List.range 24).foldl (fun (s : State) k =>
    match (s.core k).reservation with
    | some r => if k ≠ c ∧ r.1 / 64 = a / 64 then s.setCore k { s.core k with reservation := none } else s
    | none => s) s

/-- Bytes of a line in place of those from an offset on. -/
def putBytes (l : List Byte) (off : Nat) (bytes : List Byte) : List Byte := l.take off ++ bytes ++ l.drop (off + bytes.length)

/-- A core's store into a line of its cluster. -/
def State.storeLine (s : State) (c a : Nat) (x : CoreLine) (bytes : List Byte) : State :=
  (s.setL2 (c / 8) { x with data := putBytes x.data (a % 64) bytes, dirty := true }).breakReservations c a

/-- A core holds a reservation of a range. -/
def State.reserves (s : State) (c a n : Nat) : Bool := (s.core c).reservation == some (a, n)

/-- A core's access to a line that its cluster holds (R224, R226, R227). -/
def State.hitLine (s : State) (c a : Nat) (access : MemAccess) (x : CoreLine) : State :=
  let part := fun (n : Nat) => (x.data.drop (a % 64)).take n
  let d := c / 8
  match access with
  | .fetch n => (s.touchL1 c x.line true).coreData c (part n) false
  | .load n => (s.touchL1 c x.line false).coreData c (part n) false
  | .store bytes => ((s.touchL1 c x.line false).storeLine c a x bytes).coreData c [] false
  | .amo op wide v =>
    let n := if wide then 8 else 4
    let old := leNat (part n)
    ((s.touchL1 c x.line false).storeLine c a x (leBytes n (amo op n old (v.toNat % 256 ^ n)))).coreData c (leBytes n old) false
  | .loadReserved wide =>
    let n := if wide then 8 else 4
    let s := (s.touchL1 c x.line false).coreData c (part n) false
    s.setCore c { s.core c with reservation := some (a, n) }
  | .storeConditional wide v =>
    let n := if wide then 8 else 4
    let s := s.touchL1 c x.line false
    let t := if s.reserves c a n then (s.storeLine c a x (leBytes n v.toNat)).coreData c [0] false else s.coreData c [1] false
    t.setCore c { t.core c with reservation := none }
  | .cache .clean => (s.writeBack c x).setL2 d { x with dirty := false }
  | .cache .flush => (s.writeBack c x).dropLine d x.line
  | .cache .inval => s.dropLine d x.line

/-- A cacheable access of a core: a hit is served at once, a miss asks HBM for the line, and an operation of Zicbom on a line that is
not held does nothing. -/
def State.cachedAccess (s : State) (c a : Nat) (access : MemAccess) : State :=
  match s.l2Line (c / 8) (a / 64), access with
  | some x, _ => s.hitLine c a access x
  | none, .cache _ => s
  | none, _ =>
    (s.coreEvent c 3 1).ask {
      ask := .read (a / 64 * 64) 64 0 0
      packet := s.packet (0x88 + c) (s.core c).tctx 5 (addressDie a) (coreDie c) [] false (.fill c a access) }

/-- The line that an access missed has come: it is kept, unless another access has brought it, and the access goes on; poison raises
an access fault (R224, R257). -/
def State.fillLine (s : State) (c a : Nat) (access : MemAccess) (data : List Byte) (poison : Bool) : State :=
  if s.faults.clusterReset.contains (c / 8) then s
  else if poison then s.accessFault c
  else
    let s := if (s.l2Line (c / 8) (a / 64)).isSome then s else s.installLine c { line := a / 64, data := data, dirty := false }
    s.cachedAccess c a access

/-! ### Local HBM (R225–R227) -/

/-- The bytes an access reaches. -/
def accessBytes : MemAccess → Nat
  | .fetch n | .load n => n
  | .store l => l.length
  | .amo _ wide _ | .loadReserved wide | .storeConditional wide _ => if wide then 8 else 4
  | .cache _ => 1

/-- It may change memory, for which it needs the right to write. -/
def accessWrites : MemAccess → Bool
  | .store _ | .amo _ _ _ | .storeConditional _ _ => true
  | _ => false

/-- The permission bit of a PMP entry that an access needs: read, write, execute. -/
def accessNeed : MemAccess → Nat
  | .fetch _ => 2
  | .load _ | .loadReserved _ | .cache _ => 0
  | _ => 1

/-- An atomic operation is legal at an address: its code and its alignment. -/
def atomicOk (a : Nat) : MemAccess → Bool
  | .amo op wide _ => decide (op ≤ 8) && a % (if wide then 8 else 4) == 0
  | .loadReserved wide | .storeConditional wide _ => a % (if wide then 8 else 4) == 0
  | _ => true

/-- An access that is misaligned and crosses a 64-byte boundary raises an address-misaligned exception (R222). -/
def crosses (a n : Nat) : Bool := decide (n ≤ 64) && decide (64 < a % 64 + n)

def State.misalignedCore (s : State) (c : Nat) : State := s.setCore c { s.core c with misaligned := true }

/-- An uncached access of a core to local HBM: an event as it leaves the L2; AMOs and conditional stores take effect at the memory
controller (R226, R227; log 128). -/
def State.uncachedAccess (s : State) (c a : Nat) (access : MemAccess) : State :=
  match access with
  | .fetch n | .load n => s.coreLocal c a (.load n)
  | .store bytes => (s.coreLocal c a (.store bytes)).breakReservations c a
  | .amo op wide v => (s.coreLocal c a (.amo op wide v)).breakReservations c a
  | .loadReserved wide =>
    let n := if wide then 8 else 4
    let s := s.coreLocal c a (.load n)
    s.setCore c { s.core c with reservation := some (a, n) }
  | .storeConditional wide v =>
    let n := if wide then 8 else 4
    let t := if s.reserves c a n then ((s.coreLocal c a (.store (leBytes n v.toNat))).breakReservations c a).coreData c [0] false
      else s.coreData c [1] false
    t.setCore c { t.core c with reservation := none }
  | .cache _ => s.cachedAccess c a access

/-- The page of a user context's mapping is NC in the board address space and PMA elsewhere (R232). -/
def State.pageOf (s : State) (c : Nat) (page : Page) : Page := if (s.caller c).isSome then .pma else page

/-- An access of a core to local HBM. -/
def State.localAccess (s : State) (c a : Nat) (page : Page) (access : MemAccess) : State :=
  let n := accessBytes access
  if !populated a n || !(s.core c).pmpAllows a n (accessNeed access) || !s.coreMay c a n (accessWrites access) || !atomicOk a access then s.accessFault c
  else if crosses a n then s.misalignedCore c
  else if s.pageOf c page = .pma then s.cachedAccess c a access
  else s.uncachedAccess c a access

/-! ### Operand-store windows (R228) -/

/-- The range of the operand store behind a window access, where the window is mapped and the access lies inside its limit. -/
def State.windowRange (s : State) (c a n : Nat) (write : Bool) : Option Nat :=
  let off := a % 2 ^ 27
  let w := kget 0 s.thallus.windows (4 * (c / 8) + bits a 28 27)
  if bit w 60 && decide (off + n ≤ bits w 58 32 + 1) && (!write || bit w 59) && inStore (bits w 26 0 + off) n then some (bits w 26 0 + off)
  else none

/-- A window access of a core: outside user mode a load or a store, which waits for its bank. -/
def State.windowAccess (s : State) (c a : Nat) (access : MemAccess) : State :=
  let n := accessBytes access
  let wait := fun (write : Option (List Byte)) =>
    match s.windowRange c a n write.isSome with
    | some off => s.setCore c { s.core c with window := (s.core c).window ++ [(off, n, write)] }
    | none => s.accessFault c
  if (s.caller c).isSome then s.accessFault c
  else if crosses a n then s.misalignedCore c
  else match access with
    | .load _ => wait none
    | .store bytes => wait (some bytes)
    | .cache _ => s
    | _ => s.accessFault c

/-- A window access has its bank: the bytes are read or written. -/
def State.windowServed (s : State) (c : Nat) (w : Nat × Nat × Option (List Byte)) : State :=
  let d := c / 8
  match w.2.2 with
  | none => s.coreData c (s.opRead d w.1 w.2.1) (s.opPoisoned d w.1 w.2.1)
  | some bytes => (s.opWrite d w.1 bytes (s.opPoisoned d w.1 bytes.length)).coreData c [] false

/-! ### Cluster devices (R228, R230, R235) -/

/-- The mailbox status register (Table 9.8). -/
def Mailbox.status (b : Mailbox) : Nat :=
  packFields [(9, b.ring.length), (7, 0), (8, b.head), (1, 0), (1, b2n b.pushed), (6, 0), (1, b2n b.overflow), (31, 0)]

/-- A claim of a PLIC context: the ready source of the highest priority, the lowest among equals, goes into service (R230). -/
def State.plicClaim (s : State) (d ctx : Nat) : State × Nat :=
  let best := (s.plicReady d ctx).foldl (fun (best : Option Nat) k =>
    match best with
    | some b => if kget 0 s.thallus.plicPriority (16 * d + b) < kget 0 s.thallus.plicPriority (16 * d + k) then some k else some b
    | none => some k) none
  match best with
  | none => (s, 0)
  | some k =>
    ({ s with thallus := { s.thallus with
      plic := kset 0 s.thallus.plic d (kget 0 s.thallus.plic d - 2 ^ k)
      plicServing := kset 0 s.thallus.plicServing d (kget 0 s.thallus.plicServing d ||| 2 ^ k) } }, k)

/-- The completion of a source by a context that has it enabled: one that was raised meanwhile is pending again (R230; log 129). -/
def State.plicComplete (s : State) (d ctx k : Nat) : State :=
  let t := s.thallus
  let held := kget 0 t.plicHeld d
  if !(bit (kget 0 t.plicServing d) k && bit (kget 0 t.plicEnable (16 * d + ctx)) k) then s
  else { s with thallus := { t with
    plicServing := kset 0 t.plicServing d (kget 0 t.plicServing d - 2 ^ k)
    plicHeld := if bit held k then kset 0 t.plicHeld d (held - 2 ^ k) else t.plicHeld
    plic := if bit held k then kset 0 t.plic d (kget 0 t.plic d ||| 2 ^ k) else t.plic } }

/-- What a device register of a cluster reads, and the state after the read: a claim takes a source. -/
def State.deviceRead (s : State) (d : Nat) (r : DeviceReg) : State × Nat :=
  let t := s.thallus
  match r with
  | .window k => (s, kget 0 t.windows (4 * d + k))
  | .mailEntry h => (s, bits ((s.box d).ring.headD 0) (64 * h + 63) (64 * h))
  | .mailStatus => (s, (s.box d).status)
  | .plicPriority k => (s, kget 0 t.plicPriority (16 * d + k))
  | .plicPending => (s, kget 0 t.plic d)
  | .plicEnable x => (s, kget 0 t.plicEnable (16 * d + x))
  | .plicThreshold x => (s, kget 0 t.plicThreshold (16 * d + x))
  | .plicClaim x => s.plicClaim d x
  | .watchdog => (s, 0)

/-- The fields of a window register that a write sets (Table 9.4): BASE in multiples of 65,536. -/
def windowWord (v : Nat) : Nat :=
  packFields [(16, 0), (11, bits v 26 16), (5, 0), (27, bits v 58 32), (1, bits v 59 59), (1, bits v 60 60), (3, 0)]

/-- A write of the mailbox status register: POP retires the oldest entry, and a 1 clears OVERFLOW (Table 9.8). -/
def State.statusWrite (s : State) (d v : Nat) : State :=
  let s := if bit v 24 then mailPop d s else s
  if bit v 32 then s.setBox d { s.box d with overflow := false } else s

/-- A write of a device register of a cluster by a core. -/
def State.deviceWrite (s : State) (c : Nat) (r : DeviceReg) (v : Nat) : State :=
  let d := c / 8
  let t := s.thallus
  match r with
  | .window k => { s with thallus := { t with windows := kset 0 t.windows (4 * d + k) (windowWord v) } }
  | .mailStatus => s.statusWrite d v
  | .plicPriority k => { s with thallus := { t with plicPriority := kset 0 t.plicPriority (16 * d + k) (v % 2 ^ 32) } }
  | .plicEnable x => { s with thallus := { t with plicEnable := kset 0 t.plicEnable (16 * d + x) (v &&& 0x1FE) } }
  | .plicThreshold x => { s with thallus := { t with plicThreshold := kset 0 t.plicThreshold (16 * d + x) (v % 2 ^ 32) } }
  | .plicClaim x => s.plicComplete d x v
  | .watchdog => s.setCore c { s.core c with watchdog := true, missed := 0 }
  | .mailEntry _ | .plicPending => s

/-- The register exists: four windows, two halves, eight sources, sixteen contexts. -/
def deviceExists : DeviceReg → Bool
  | .window k => decide (k < 4)
  | .mailEntry h => decide (h < 2)
  | .plicPriority k => decide (1 ≤ k ∧ k ≤ 8)
  | .plicEnable x | .plicThreshold x | .plicClaim x => decide (x < 16)
  | _ => true

/-- A core reads a device register of its cluster, or writes it where a value stands; only supervisor and machine mode reach it. -/
def State.deviceAccess (s : State) (c : Nat) (r : DeviceReg) (write : Option (BitVec 64)) : State :=
  if (s.caller c).isSome || (s.core c).mode == 0 || !deviceExists r then s.accessFault c
  else match write with
    | some v => (s.deviceWrite c r v.toNat).coreData c [] false
    | none => let x := s.deviceRead (c / 8) r; x.1.coreData c (leBytes 8 x.2) false

/-! ### The physical address map (R225) -/

/-- An access of a core to the board address space: LR and SC raise an access fault, and nothing of it is cached (R226, R227). -/
def State.boardAccess (s : State) (c address : Nat) (access : MemAccess) : State :=
  match access with
  | .fetch n | .load n => boardReach c address (.load n) s
  | .store bytes => boardReach c address (.store bytes) s
  | .amo op wide v => boardReach c address (.amo op wide v) s
  | .cache _ => s
  | _ => s.accessFault c

/-- A core's access to the board address space by its board address: within its rights, and where it does not cross a 64-byte
boundary. -/
def State.boardChecked (s : State) (c address n : Nat) (write : Bool) (act : State → State) : State :=
  if !s.coreMay c (2 ^ 62 + address) n write then s.accessFault c
  else if crosses address n then s.misalignedCore c
  else act s

/-- An access of a core to a physical address of Table 9.3; the cluster devices are reached by the names of their registers
(log 126). -/
def State.physicalAccess (s : State) (c a : Nat) (page : Page) (access : MemAccess) : State :=
  if a < 2 ^ 41 then s.localAccess c a page access
  else if a < 0x220000000000 then
    s.boardChecked c (a - 2 ^ 41) (accessBytes access) (accessWrites access) fun s => s.boardAccess c (a - 2 ^ 41) access
  else if 0x300000000000 ≤ a ∧ a < 0x300020000000 then s.windowAccess c a access
  else s.accessFault c

/-- BOARD_SPACE_ACCESS: an access of a core, which retires an instruction. A cluster in reset makes none. -/
def boardSpaceAccess (c address : Nat) (access : CoreAccess) (s : State) : State :=
  if s.faults.clusterReset.contains (c / 8) then s
  else
    let s := s.retire c
    match access with
    | .load n => s.boardChecked c address n false (boardReach c address access)
    | .store bytes => s.boardChecked c address bytes.length true (boardReach c address access)
    | .amo _ wide _ => s.boardChecked c address (if wide then 8 else 4) true (boardReach c address access)
    | .physical page m => s.physicalAccess c address page m
    | .device r write => s.deviceAccess c r write
    | .csr n write => s.csrAccess c n write

def execBoardSpaceAccess (c address : Nat) (access : CoreAccess) (s : State) : Host.Outcome State Fault Refusal :=
  goOn (boardSpaceAccess c address access s)

end Sys2Proof.Machine
end

