-- ==== Sys2Proof/Machine/Frames.lean ====
section
/-! DEFINITION. START and STOP (R33, R37, R45, R437 and the checks it orders) and the frame tick (R32, R38, R45, R61, R139, R333, R341,
R349). -/

namespace Sys2Proof.Machine

/-! ### The program header (Table 2.2) -/

/-- The header of 64 bytes is legal (R37). -/
def headerLegal (h : Nat) : Bool :=
  let reserve := bits h 95 80
  bits h 31 0 == 0x54443645 && bits h 47 32 == 1 && (bits h 55 48 == 1 || bits h 55 48 == 2) && bits h 63 56 == 0 &&
  decide (4 ≤ bits h 79 64 ∧ bits h 79 64 ≤ 256) && (reserve == 0 || decide (5 ≤ reserve ∧ reserve ≤ 100)) && bits h 127 96 != 0 &&
  ((bits h 223 192 == 0) == (bits h 319 256 == 0)) && bits h 255 224 == 0 && bits h 479 449 == 0 && bits h 511 480 == 0

/-- The program that a header describes, about to open. -/
def programOf (h : Nat) : Program where
  kind := bits h 55 48
  reserve := bits h 95 80
  flen := 4096 * bits h 79 64
  steadyFrames := bits h 127 96
  steadyBase := bits h 191 128
  firstFrames := bits h 223 192
  firstBase := bits h 319 256
  tracked := bit h 448
  descDir := bits h 383 320
  tableDir := bits h 447 384
  opening := true

/-! ### Checks of START (R437) -/

/-- The role map fits the program's kind (R27). -/
def State.rolesOk (s : State) : Bool :=
  let r := (List.range 3).map s.role
  if s.program.kind = 1 then r.all (fun x => decide (x ≤ 1)) && (r.filter fun x => x == 0).length == 1
  else r.all (fun x => x == 2 || x == 3) && r.contains 2

/-- The entries of the scale directory. -/
def State.scaleEntries (s : State) : List Nat :=
  (List.range (s.get 0x7030 5)).map fun j => s.hbmLE (s.get 0x7030 4 + 16 * j) 16

/-- No value stands twice in a list. -/
def distinct (l : List Nat) : Bool := l.eraseDups.length == l.length

/-- The scale directory is legal (R163). -/
def State.scaleOk (s : State) : Bool :=
  let l := s.scaleEntries
  distinct (l.map fun e => e % 2 ^ 32) && l.all fun e =>
    decide (1 ≤ bits e 35 32 ∧ bits e 35 32 ≤ 3) && bits e 37 36 != 3 && bits e 39 38 == 0 && bits e 127 48 == 0 &&
    decide (-64 ≤ signed 8 (bits e 47 40)) && decide (signed 8 (bits e 47 40) ≤ 64)

/-- The descriptors of a directory entry. -/
def State.descriptors (s : State) (e : Nat) : List Nat := (List.range (s.dirCount e)).map fun j => s.desc e j

/-- The tensor descriptors are legal (R49, R249). -/
def State.tensorsOk (s : State) : Bool :=
  let l := s.descriptors 0
  distinct (l.map fun d => bits d 63 32) && l.all fun d =>
    tensorBase d % 512 == 0 && tensorLength d != 0 && tensorLength d % 512 == 0 && decide (tensorBase d < 2 ^ 41) &&
    programArea (tensorBase d) (tensorLength d) && decide (bits d 195 192 ≤ 5) && bits d 199 197 == 0 && bits d 223 208 == 0 &&
    bits d 31 16 == 0 && bits d 15 0 == 0x101

/-- The PROT field holds nothing but what its class names (Table 12.2). -/
def protReserved (d : Nat) : Bool :=
  match bits d 207 200 with
  | 0 | 3 => bits d 511 352 == 0
  | 1 => bits d 511 372 == 0
  | 2 => bits d 383 352 == 0 && bits d 511 448 == 0
  | 4 => bits d 383 352 == 0 && bits d 511 472 == 0
  | 5 => bits d 383 372 == 0 && bits d 511 448 == 0
  | _ => false

/-- A shard descriptor fits its group's row: place, module, tensor and length (R313, R314). -/
def State.shardOk (s : State) (d : Nat) : Bool :=
  let p := bits d 371 368
  match s.groupRow (bits d 367 352) with
  | none => false
  | some e =>
    (if bits d 207 200 = 1 then decide (p < 8) else decide (8 ≤ p ∧ p ≤ 9)) && placeModule e p == s.moduleId && placeTensor e p == bits d 63 32

/-- A row of the group table: its ten modules are distinct members, its reserved fields zero, and every place the module
holds names a shard that fits (R313, R314). -/
def State.groupRowOk (s : State) (e : Nat) : Bool :=
  let modules := (List.range 10).map (placeModule e)
  let held := (List.range 10).filter fun p => placeModule e p == s.moduleId
  (held.isEmpty || (distinct modules && modules.all fun m => s.members.any fun x => memberId x == m)) &&
  held.all fun p => match s.tensorDesc (placeTensor e p) with
    | some d => (bits d 207 200 == 1 || bits d 207 200 == 5) && bits d 367 352 == bits e 15 0 && bits d 371 368 == p &&
        tensorLength d == 512 * groupBlocks e
    | none => false

/-- Rows of the group table. -/
def State.groupRows (s : State) : List Nat :=
  (List.range (s.domains.groupTable.length / 96)).map fun j => leNat ((s.domains.groupTable.drop (96 * j)).take 96)

/-- The protection of every tensor is legal (R309, R314). -/
def State.protectionOk (s : State) : Bool :=
  ((s.descriptors 0).all fun d =>
    let c := bits d 207 200
    let rec_ := tensorRecord d
    protReserved d && (c != 1 || decide (4194304 ≤ tensorLength d)) && (c != 3 || decide (tensorLength d ≤ 65536)) &&
    (!(c == 2 || c == 4 || c == 5) || (rec_ % 512 == 0 && decide (rec_ < 2 ^ 41) && programArea rec_ (tensorLength d))) &&
    (c != 4 || (bits d 459 448 != 0xFFF && bits d 471 460 != 0xFFF && bits d 459 448 != s.moduleId && bits d 471 460 != s.moduleId &&
      bits d 459 448 != bits d 471 460)) &&
    (!(c == 1 || c == 5) || s.shardOk d)) && s.groupRows.all s.groupRowOk

/-- The class 0x03 tensors fit the Locket record (R309, Table 12.5). -/
def State.smallFits (s : State) : Bool :=
  decide (s.smallTensors.length ≤ 256) && decide ((smallLayout s.smallTensors).2 ≤ 2 ^ 20)

/-- The layer ids of the layer descriptors. -/
def State.namedLayers (s : State) : List Nat := ((s.descriptors 4).map fun d => bits d 95 64).eraseDups

/-- The first failing check of START in the order of R437, the program of the header in place; 0 where none fails. -/
def State.startReason (s : State) (h : Nat) : Nat :=
  if s.maintenance then 0x50D
  else if s.factory then 0x50C
  else if !headerLegal h then 0x303
  else if !s.rolesOk then 0x501
  else if s.moduleId = 0xFFF ∨ s.get 0x5001 2 = 0 then 0x508
  else if !s.scaleOk then 0x502
  else if !s.tensorsOk then 0x507
  else if !s.protectionOk then 0x509
  else if !s.smallFits then 0x50A
  else if 64 < s.privileged.length then 0x503
  else if 4096 < s.namedLayers.length then 0x504
  else if !s.imagesValid then 0x505
  else if !s.quotaOk then 0x506
  else 0

/-! ### START and STOP -/

/-- The Locket as START writes it: OWN_COMMITTED with STEP 0 and the seed, the scale directory copied (R160, R163, R317). -/
def State.freshLocket (s : State) : State :=
  let s := { s with locket := { scaleDir := s.scaleEntries } }
  let m := s.freshRecord
  { s with locket := { s.locket with ownCommitted := m, lengths := [recordLength m, 0, 0, 0, 0, 0] } }

/-- Bytes that the module holds of a protection class (R314). -/
def State.classBytes (s : State) (c : Nat) : Nat :=
  (((s.descriptors 0).filter fun d => bits d 207 200 == c).map tensorLength).foldl (· + ·) 0

/-- Counters that run from START, the quarantine of the last program, and the bytes of classes 0x01 and 0x05 held (R314, R358). -/
def State.freshCounters (s : State) : State :=
  let s := (((s.put 0x6050 2 0).put 0x8021 1 0).put 0x8020 1 0).put 0x3050 3 0
  ((s.put 0x7047 1 (s.privileged.length % 256)).put 0x8011 1 (s.classBytes 1 % 2 ^ 64)).put 0x8011 2 (s.classBytes 5 % 2 ^ 64)

/-- The program is committed: what START sets up (R33, R37, R231, R317, R376). -/
def State.startAccepted (s : State) (tracking : Bool) : State :=
  let s := s.takeMaxima.freshLocket.freshCounters
  let s := { s with
    commit := {}
    clock := { s.clock with tracking := tracking, placing := tracking, freeRun := false, arming := false, quiet := 0, syncPoint := none, tickIn := none }
    power := { s.power with learned := [] }
    mem := { s.mem with revert := [] }
    faults := { s.faults with replay := none, replayNext := none }
    security := { s.security with frequency := s.security.tables }
    fabric := { s.fabric with anchor := s.lowestLive }
    thallus := { s.thallus with stitching := [], late := false } }
  ((s.startContexts).put 0x6010 3 1).put 0x6010 4 0

/-- START: the checks of R437 refuse it with a reason, or the first frame opens at the next tick, under tracking at the sync
point of the next edge (R33, R37). -/
def startProgram (s : State) : State × Nat :=
  if s.running then (s, 0x0D)
  else
    let h := s.hbmLE (s.get 0x6010 1) 64
    let n := { s with program := { programOf h with clearing := s.program.clearing } }
    match n.startReason h with
    | 0 => (n.startAccepted (bit h 448), 0)
    | reason => ((s.put 0x6010 3 0x80).put 0x6010 4 reason, 0x07)

/-- STOP ends the program at the next tick. -/
def stopCommand (s : State) : State × Nat := (if s.program.stopping.isSome then s else s.stopProgram 0 false, 0)

/-- A write of object 0x6010.02: 1 START, 2 STOP. -/
def programCommand (v : Nat) (s : State) : State × Nat :=
  if v = 1 then startProgram s else if v = 2 then stopCommand s else (s, 0x07)

/-! ### The end of a frame -/

/-- Units late at the tick: unfinished work or pending commands; frame control while bundles are undispatched (R61). -/
def State.lateUnits (s : State) : List Nat :=
  unitIds.filter fun u => s.unfinished u || s.lateUnit u || !(s.unit u).waiting.isEmpty || (u == 0 && !s.program.bundles.isEmpty)

/-- FRAME_OVERRUN, once a frame, with the counters of object 0x6040; not while the member is ABORTING or REVERTED (R61, R343). -/
def State.overrun (s : State) : State :=
  match s.lateUnits with
  | [] => s
  | u :: rest =>
    let s := (u :: rest).foldl (fun (s : State) x => s.count 0x6040 (x + 1) 1) s
    if s.commitState = 4 ∨ s.commitState = 5 then s
    else s.raiseTick 0x301 u (unitDie u) (((s.unit u).last.map fun c => c.issue.ctx).getD 0)
      (packFields [(8, u), (32, min (s.remaining u) (2 ^ 32 - 1)), (8, rest.length + 1), (3, (s.unit u).ticks + 1)])

/-- The ticks at which the same work was unfinished are counted; a Frond unit's first notes the frame and its commands for
replay (R349, R356). -/
def State.countTicks (s : State) : State :=
  unitIds.foldl (fun (s : State) u =>
    let x := s.unit u
    if s.unfinished u then
      let s := s.setUnit u { x with ticks := x.ticks + 1 }
      if frondUnit u ∧ x.ticks = 0 then
        { s with faults := { s.faults with hung := kset (0, []) s.faults.hung u (s.clock.frame, s.program.dispatched) } }
      else s
    else if x.ticks = 0 then s
    else { s.setUnit u { x with ticks := 0 } with faults := { s.faults with hung := kset (0, []) s.faults.hung u (0, []) } }) s

/-- The flip vote at the tick that ends the frame of a COMMIT_POINT; the member is VOTED (R139, R325). -/
def State.castVote (s : State) : State :=
  match s.program.pointFrame with
  | some asked =>
    let s := { s with program := { s.program with pointFrame := none } }
    if s.training && s.commitState == 0 then
      let v := s.flipVote
      { s.setCommit 1 with commit := { s.commit with frame := some s.clock.frame, flipAsked := asked, vote := v.1, armed := v.2 } }
    else s
  | none => s

/-- Counters of a frame: stitch frames (R138) and revert frames (R327). -/
def State.countFrames (s : State) : State :=
  let s := if s.stitchRuns then s.count 0x6050 5 1 else s
  if s.commit.reverting then { s with commit := { s.commit with revertFrames := s.commit.revertFrames + 1 } } else s

/-- Actions, regulator rates and bursts written in the frame take effect at its tick (R265, R341). -/
def State.takeWritten (s : State) : State := { s.takeSettings with faults := { s.takeSettings.faults with actionsBefore := s.faults.actions } }

/-- Reserve work that intrusions left no room for is postponed; the static shares of domains without intrusion are measured anew
(R384; log 2). -/
def State.reserveTick (s : State) : State :=
  let shared := controlDomains.filter fun d => unitIds.all fun u => !domainUnit d u || (s.unit u).intrusion == 0
  let s := if s.power.frameSamples = 0 then s
    else
      let n := s.freeCount
      let shares := shared.foldl (fun (m : KMap Nat) d => kset (s.power.static.getD (3 * d + 2) 0) m d ((Config.freeBits (n + d)).toNat % 65536)) s.power.shares
      { s with
        power := { s.power with shares := shares }
        freeCount := n + 14 }
  unitIds.foldl (fun (s : State) u => if (s.unit u).intrusion = 0 then s else s.onUnit u fun x => { x with intrusion := 0 }) s

/-- The delay of an armed injection runs in frames (R364). -/
def State.injectionTick (s : State) : State :=
  match s.faults.injection with
  | some (c, src, kind, d + 1, n) => { s with faults := { s.faults with injection := some (c, src, kind, d, n) } }
  | _ => s

/-- What the tick closes of the frame that ends. A fence in progress is over, but for one that a transfer inside a bridge still
holds (R22). -/
def State.closeFrame (s : State) : State :=
  let quiet := s.lateUnits.isEmpty && s.commitState != 4 && s.commitState != 5 && s.faults.replay.isNone && s.running &&
    s.power.frameSamples != 0
  let phases := s.program.phases
  let s := ((s.overrun.countTicks.keepSnapshots.castVote).countFrames.takeWritten).reserveTick.injectionTick
  let s := (if quiet then s.observe phases else s).powerTick
  let s := unitIds.foldl (fun (s : State) u => s.closeDebt u) s
  { s with
    mem := { s.mem with consumed := [] }
    faults := { s.faults with perFrame := [] }
    program := { s.program with
      fences := (s.program.fences.filter s.fenceWaits).map fun f => { f with left := 0, late := true } } }

/-! ### The end of a program (R45) -/

/-- The program ends at the tick with a reason: modes end, pending commands go, unfinished work runs on, and the lines of the Clasp
lose their protection (R261). `halt` leaves the member HALTED (R340). -/
def State.endProgram (s : State) (reason : Nat) (halt : Bool) : State :=
  let s := unitIds.foldl (fun (s : State) u => s.onUnit u fun x => { x with mode := 0, modeLeft := none, waiting := [] }) s
  let reverting := s.commitState == 4
  let s := ((s.put 0x6010 3 0).put 0x6010 4 reason).put 0x6001 1 65536
  let s := { s with
    mem := { s.mem with lines := s.mem.lines.map fun (k : Nat × List Line) => (k.1, k.2.map fun (l : Line) => { l with protect := false }) }
    program := { clearing := true, kind := if s.commit.unknown then s.program.kind else 0, descDir := s.program.descDir, tableDir := s.program.tableDir }
    faults := { s.faults with replay := none, replayNext := none }
    clock := { s.clock with tracking := false, placing := false, freeRun := false, arming := false, advance := 0, syncPoint := none }
    commit := { s.commit with haltRevert := halt && (reverting || s.commit.haltRevert) } }
  (if halt then s.setCommit 7 else if s.commit.unknown then s else s.setCommit 0).settle

/-! ### The next frame (R38, R333, R414) -/

/-- The bundles of the background table among a frame's. -/
def backgroundOf (l : List Bundle) : List Bundle := l.filter fun b => match b.tbl with
  | some t => t.table == 0xFF
  | none => false

/-- A frame of a stream opens. -/
def State.openStream (s : State) (f : Fetched) (j frames : Nat) : State :=
  { s.put 0x6010 3 1 with program := { s.program with
    at_ := some j
    frames := frames
    next := f.next
    seq := f.seq
    bundles := f.bundles
    calls := f.calls
    fetched := none } }

/-- A wait frame carries the background reserve only. -/
def State.openWait (s : State) (f : Option Fetched) (keep : Bool) : State :=
  let l := (f.map fun x => backgroundOf x.bundles).getD []
  { s.put 0x6010 3 (if s.program.kind = 1 then 2 else 1) with program := { s.program with
    at_ := if keep then s.program.at_ else none
    bundles := l
    calls := if l.isEmpty then [] else [(0xFF, 0)]
    fetched := if keep then f else none } }

/-- The opening tick of a step: RUNNING, exponents fixed, heartbeats counted from here; a fault after the last decision
poisons it (R164, R297, R325, R326). -/
def State.openStep (s : State) : State :=
  let before := s.clock.frame - 1
  let poison := s.commit.poisonNext
  let s := { s.setCommit 0 with
    commit := { s.commit with reopen := false, poisonNext := none, frame := none, decided := false }
    program := { s.program with stepFrame := 0, pointStep := false, pointFrame := none, opening := false }
    fabric := { s.fabric with beatNext := some before, beatPrev := some before, lossRaised := false, poisonSeen := none } }
  let s := s.openExps
  match poison with
  | some code => s.abortStep code
  | none => s

/-- The first frame of a program: its length holds from here; a filling member fills instead (R31, R330). -/
def State.openProgram (s : State) (f : Fetched) : State :=
  let s := s.put 0x6001 1 s.program.flen
  let start := s.streamStart
  if s.program.kind = 1 then
    if s.ownState = 1 then
      (({ s with program := { s.program with opening := false } }).beginFill).openWait none false
    else (s.openStream f 0 start.2).openStep
  else { (s.setCommit 0).openStream f 0 start.2 with program := { ((s.setCommit 0).openStream f 0 start.2).program with opening := false } }

/-- The export hold stands before this frame (R333). -/
def State.exportHolds (s : State) (f : Fetched) : Bool := s.training && s.get 0x8050 2 == 2 && f.exports

/-- A program that halts after its step was committed poisons the step whose opening tick this is, before it stops (R141, R326). -/
def State.poisonAhead (s : State) : State :=
  match s.commit.poisonNext with
  | some code => if s.training && s.commitState == 3 then s.sendPoison code else s
  | none => s

/-- Decides and opens the frame that the tick begins. -/
def State.openFrame (s : State) : State :=
  let s := if s.commit.exportRelease then { s.put 0x8050 2 3 with commit := { s.commit with exportRelease := false } } else s
  match s.program.stopping with
  | some (reason, halt) => (if halt then s.poisonAhead else s).endProgram reason halt
  | none =>
    if s.program.kind = 0 ∨ !s.running then { s with program := { s.program with bundles := [], calls := [] } }
    else match s.program.fetched with
      | none => s
      | some f =>
        if s.program.opening then
          if s.clock.placing || s.clock.tickIn.getD 0 != 0 then { s with program := { s.program with bundles := [] } } else s.openProgram f
        else if s.exportHolds f then (s.openWait (some f) true).count 0x8050 4 1
        else match f.index with
          | none => s.openWait (some f) false
          | some 0 => if s.program.kind = 1 then (s.openStream f 0 s.streamStart.2).openStep else s.openStream f 0 s.streamStart.2
          | some j => s.openStream f j s.program.frames

/-! ### FRAME_TICK -/

/-- The clocks of the next frame: offset, correction, plan, frame number (R32–R35, R375). -/
def State.turnFrame (s : State) : State :=
  let bundles := s.nextBundles
  let l := s.nextLength
  let stretch := (s.power.plan.map fun p => p.2.2).getD 0
  let s := ((s.syncTick bundles l stretch).takePlan).keepUp bundles
  { s with
    clock := { s.clock with
      frame := (s.clock.frame + 1) % 2 ^ 48
      cycle := 0
      tickIn := match s.clock.tickIn with
        | some (n + 1) => some (n + 1)
        | _ => none }
    program := { s.program with
      floors := [1250, 1250, 1250]
      dispatched := []
      phases := [s.program.phaseId]
      stepFrame := s.program.stepFrame + 1 } }

/-- The ports that object 0x5025.01 named retrain in a wait frame, or at a tick without a program (R279). -/
def State.restorePorts (s : State) : State :=
  if s.running && !s.waitFrame then s
  else (List.range 17).foldl (fun (s : State) p =>
    let x := s.port p
    if x.restoreAsked then s.setPort p { x with restoreAsked := false, retraining := some true } else s) s

/-- FRAME_TICK: the frame number increments, what the tick checks and counts is done, and the next frame opens; a replay takes
its turn, slots are published, and heartbeats go out (R32, R237, R297, R357). -/
def frameTick (s : State) : State :=
  if !s.power.on then s
  else
    let s := streamFetch s
    let s := if s.power.plan.isNone then s.fallback else s
    let s := s.closeFrame.turnFrame.openFrame
    let s := s.openReplay.tickReplay
    let s := (s.restartStitch.publishSlots).plicAll 2
    let s := s.restorePorts
    let s := if s.power.returning && (!s.running || s.waitFrame) then s.relock else s
    s.sendHeartbeats

def execFrameTick (s : State) : Host.Outcome State Fault Refusal := goOn (frameTick s)

end Sys2Proof.Machine
end

