-- ==== Sys2Proof/Machine/Repairs.lean ====
section
/-! DEFINITION. Post-package repair (R267, R268) and the objects that inspect a block (R247, R253). -/

namespace Sys2Proof.Machine

/-! ### Rows and blocks (R247) -/

/-- Blocks of a stack. -/
def stackBlocks : Nat := 187500000

/-- The block of a stack at position `j` of a pseudo-channel. -/
def blockAt (pc j : Nat) : Nat := 64 * j + ((pc ^^^ (j % 64)) ^^^ (j / 64 % 64))

/-- Stack, pseudo-channel, bank and row of a local address, in the layout of object 0x4045.02. -/
def translation (a : Nat) : Nat :=
  let b := stackOffset a / 512
  let j := b / 64
  let i := j / 2
  packFields [(8, stackOf a), (8, pseudoChannel b), (8, i % 64), (32, i / 64)]

/-- The two blocks of a row, as local block numbers. -/
def rowBlocks (stack pc bank row : Nat) : List Nat :=
  let i := 64 * row + bank
  [2 * i, 2 * i + 1].map fun j => stack * 2 ^ 28 + blockAt pc j

/-- The blocks of a repair's row range. -/
def Repair.blocks (r : Repair) : List Nat := (span r.row r.rows).flatMap fun w => rowBlocks r.stack r.pc r.bank w

/-! ### The request (R267) -/

/-- Reads a repair request (Table 10.11). -/
def repairOf (w : Nat) : Repair where
  stack := bits w 7 0
  pc := bits w 15 8
  bank := bits w 23 16
  rows := bits w 31 24
  row := bits w 63 32
  hard := bit w 64
  live := bit w 65 && !bit w 64

/-- Its fields are in range and its reserved bits zero. -/
def repairLegal (w : Nat) : Bool :=
  let r := repairOf w
  bits w 127 66 == 0 && decide (r.stack < 12) && decide (r.pc < 64) && decide (r.bank < 64) && decide (1 ≤ r.rows ∧ r.rows ≤ 16) &&
  (span r.row r.rows).all fun x => (rowBlocks 0 r.pc r.bank x).all fun b => decide (b < stackBlocks)

/-- A write of object 0x4040.01: refused outside the cases of R267, and while a repair runs. -/
def requestRepair (request : List Byte) (s : State) : State × Nat :=
  let w := leNat request
  let r := repairOf w
  if request.length ≠ 16 then (s, 0x08)
  else if s.mem.repair.isSome then (s, 0x0A)
  else if !repairLegal w then (s.put 0x4041 1 0x80, 0x07)
  else if !r.live && (!s.maintenance || (r.hard && s.running)) then (s.put 0x4041 1 0x80, 0x0D)
  else ({ s with mem := { s.mem with repair := some r } }.put 0x4041 1 (if r.live then 1 else 2), 0)

/-! ### A live soft repair (R268) -/

/-- REPAIR_EVACUATION_DONE: the blocks are served from the evacuation buffer. -/
def evacuated (s : State) : State :=
  match s.mem.repair with
  | some r =>
    if r.live ∧ s.get 0x4041 1 = 1 then
      { s with mem := { s.mem with evacuated := r.blocks.foldl (fun l b => insertNat b l) s.mem.evacuated } }
    else s
  | none => s

def execRepairEvacuationDone (s : State) : Host.Outcome State Fault Refusal := goOn (evacuated s)

/-- The range has been evacuated. -/
def State.evacuationDone (s : State) (r : Repair) : Bool := r.blocks.all s.mem.evacuated.contains

/-- The frames in which phase 2 may run: no program, a wait frame of a hold, or a wait frame after READY with every RECV of
class 2 ended. -/
def State.repairFrame (s : State) : Bool :=
  !s.running || (s.waitFrame && (s.commit.holding || s.get 0x8050 2 == 2 ||
    (s.commitState == 2 && s.fabric.recvs.all fun r => (s.transfer r.cmd.issue).cls != 2)))

/-- REPAIR_SOFT: in a permitted frame the soft repair is issued, which holds the pseudo-channel for 20 µs; restoring follows at the
end of the hold. -/
def softRepair (s : State) : State :=
  match s.mem.repair with
  | some r =>
    if r.live && s.get 0x4041 1 == 1 && s.evacuationDone r && s.repairFrame then
      { s.put 0x4041 1 2 with mem := { s.mem with repairHold := some (r.stack, r.pc, 25000) } }
    else s
  | none => s

def execRepairSoft (s : State) : Host.Outcome State Fault Refusal := goOn (softRepair s)

/-- The rows of a repair, each as stack, pseudo-channel, bank and row. -/
def Repair.list (r : Repair) : List (Nat × Nat × Nat × Nat) := (span r.row r.rows).map fun w => (r.stack, r.pc, r.bank, w)

/-- The soft repairs in force are counted by stack in object 0x4043. -/
def State.recountRepairs (s : State) (k : Nat) : State := s.put 0x4043 (k + 1) (s.mem.repaired.filter fun x => x.1 == k).length

/-- A soft repair is in force and recorded in the boot flash; a hard one replaces it and uses spares. -/
def State.recordRepair (s : State) (r : Repair) : State :=
  let rest := s.mem.repaired.filter fun x => !r.list.contains x
  let s := { s with mem := { s.mem with repaired := if r.hard then rest else rest ++ r.list } }
  (if r.hard then s.put 0x4042 (r.stack + 1) (s.get 0x4042 (r.stack + 1) - r.rows) else s).recountRepairs r.stack

/-- REPAIR_RESTORE_DONE: the blocks are copied back, and the controller reports 4. A hold that 20 µs have not ended has ended
sooner then (R268: at most). -/
def restored (s : State) : State :=
  match s.mem.repair with
  | some r =>
    if r.live && (s.get 0x4041 1 == 2 || s.get 0x4041 1 == 3) then
      let s := (s.recordRepair r).put 0x4041 1 4
      { s with mem := { s.mem with
        repair := none
        repairHold := none
        evacuated := s.mem.evacuated.filter fun b => !r.blocks.contains b } }
    else s
  | none => s

def execRepairRestoreDone (s : State) : Host.Outcome State Fault Refusal := goOn (restored s)

/-- REPAIR_COMPLETE: a repair in maintenance mode ends: 4, 0x81 without a spare row, 0x82 if it failed. The manual does not say
what the repaired rows hold, so they are free (log 70). -/
def repairEnds (spare repaired : Bool) (s : State) : State :=
  match s.mem.repair with
  | some r =>
    if r.live then s
    else
      let s := { s with mem := { s.mem with repair := none } }
      if !spare then s.put 0x4041 1 0x81
      else if !repaired then s.put 0x4041 1 0x82
      else
        let s := r.blocks.foldl (fun (s : State) b =>
          { s with
            mem := { s.mem with hbm := s.mem.hbm.havoc (512 * b) 512 s.freeCount }
            freeCount := s.freeCount + 1 }) s
        (s.recordRepair r).put 0x4041 1 4
  | none => s

def execRepairComplete (spare repaired : Bool) (s : State) : Host.Outcome State Fault Refusal := goOn (repairEnds spare repaired s)

/-! ### Inspection (R247, R253) -/

/-- A write of object 0x4044.01: object 0x4044.02 then reads the metadata of the block; bit 63 marks that one is named. -/
def nameBlock (a : Nat) (s : State) : State × Nat :=
  if a < 2 ^ 41 ∧ populated a 1 then (s.put 0x4044 1 (a + 2 ^ 63), 0) else (s, 0x07)

/-- Object 0x4044.02. -/
def State.namedMetadata (s : State) : Nat :=
  let a := s.get 0x4044 1
  if bit a 63 then s.blockMetadata (bits a 40 0 / 512) else 0

/-- A write of object 0x4045.01: the address is translated into object 0x4045.02. -/
def translateAddress (a : Nat) (s : State) : State × Nat :=
  if a < 2 ^ 41 ∧ populated a 1 then (s.put 0x4045 2 (translation a), 0) else (s, 0x07)

end Sys2Proof.Machine
end

