-- ==== Sys2Proof/Machine/Updates.lean ====
section
/-! DEFINITION. Live update (R404, R406, R411–R414), settings (R390), attestation (R408), maintenance and factory test modes (R409,
R410), and the export hold (R333). -/

namespace Sys2Proof.Machine

/-! ### Update commands (Table 15.11) -/

/-- The update status. -/
def State.updateStatus (s : State) : Nat := s.get 0x9010 4

/-- An update command runs. -/
def State.updating (s : State) : Bool := [1, 3, 5].contains s.updateStatus

/-- A command of Table 15.11: BUSY while one runs, REFUSED in a status it is not allowed in. -/
def State.updateCommand (s : State) (allowed : List Nat) (f : State → State × Nat) : State × Nat :=
  if s.updating then (s, 0x0A) else if allowed.contains s.updateStatus then f s else (s, 0x07)

/-- The inactive slot; in recovery, slot A (R404). -/
def State.otherSlot (s : State) : Nat := if s.security.recovery then 0 else 1 - s.security.active

/-- VERIFY: the set in HBM, or the set staged over CAN FD where no length is given or HBM is not trained. -/
def updateVerify (s : State) : State × Nat :=
  s.updateCommand [0, 2, 4, 7, 0x80, 0x81, 0x82] fun s =>
    let n := s.get 0x9010 2
    let set := if n = 0 ∨ s.security.recovery then s.security.stagedCan else s.hbmRead (s.get 0x9010 1) n
    ({ s with security := { s.security with checking := some set, verified := none } }.put 0x9010 4 1, 0)

/-- VERIFY_COMPLETE: the outcome of the checks of R403. -/
def verifyComplete (s : State) : State :=
  match s.updateStatus, s.security.checking with
  | 1, some set =>
    match s.checkSet set with
    | .inl x => ({ s with security := { s.security with checking := none, verified := some x } }.put 0x9010 5 0).put 0x9010 4 2
    | .inr (check, type) =>
      ({ s with security := { s.security with checking := none } }.put 0x9010 5 (type + 256 * check)).put 0x9010 4 0x80
  | _, _ => s

def execVerifyComplete (s : State) : Host.Outcome State Fault Refusal := goOn (verifyComplete s)

/-- INSTALL erases the inactive slot. -/
def updateInstall (s : State) : State × Nat :=
  s.updateCommand [2] fun s => (({ s with security := { s.security with written := true } }.setSlot s.otherSlot none).put 0x9010 4 3, 0)

/-- INSTALL_COMPLETE: the set read back passes R403, or not; in recovery the boot ROM restarts (R404, R411). -/
def installComplete (s : State) : State :=
  match s.updateStatus, s.security.verified with
  | 3, some x =>
    match s.checkSet x.bytes with
    | .inl y =>
      let s := ((s.setSlot s.otherSlot (some y)).put 0x9010 5 0).put 0x9010 4 4
      if s.security.recovery then s.boot else s
    | .inr (check, type) => (s.put 0x9010 5 (type + 256 * check)).put 0x9010 4 0x81
  | _, _ => s

def execInstallComplete (s : State) : Host.Outcome State Fault Refusal := goOn (installComplete s)

/-- ACTIVATE and REVERT take up the order of Table 15.12 with the inactive slot's set. -/
def State.activate (s : State) (back : Bool) : State :=
  { s with security := { s.security with activating := some (1, s.otherSlot, back) } }.put 0x9010 4 5

def updateActivate (s : State) : State × Nat := s.updateCommand [4] fun s => (s.activate false, 0)

def updateRevert (s : State) : State × Nat :=
  s.updateCommand [6] fun s => if (s.slot s.otherSlot).isSome then (s.activate true, 0) else (s, 0x07)

/-- COMMIT burns the counter up to the SVN of the set in use and the revocations it holds (R406). -/
def updateCommit (s : State) : State × Nat :=
  s.updateCommand [6] fun s =>
    if !s.maintenance then (s, 0x0D)
    else match s.slot s.security.active with
      | none => (s, 0x07)
      | some x =>
        let revoked := s.get 0xA001 2 ||| x.revoke
        if x.revoke ≠ 0 ∧ (bit x.revoke x.key ∨ revoked % 16 = 15) then (s, 0x07)
        else
          let s := s.setSlot s.security.active (some { x with committed := true })
          (((s.put 0xA002 1 (max (s.get 0xA002 1) (min 64 x.secure))).put 0xA001 2 revoked).put 0x9010 4 7, 0)

/-- ABANDON discards the staged set, and erases the inactive slot if it was written. -/
def updateAbandon (s : State) : State × Nat :=
  s.updateCommand [2, 4, 0x80, 0x81, 0x82] fun s =>
    let s := if s.security.written then s.setSlot s.otherSlot none else s
    ({ s with security := { s.security with stagedCan := [], checking := none, verified := none, written := false } }.put 0x9010 4 0, 0)

/-! ### Activation (R412, R413) -/

/-- The unit classes that the microcode of a set is for; a set of manufacture is for all (log 5). -/
def ImageSet.targets (x : ImageSet) : Nat :=
  if x.made then 0xFE
  else
    let entries := manifestEntries ((x.bytes.drop 512).take (imageHeader x.bytes).length)
    ((entries.map fun e => imageHeader (e.image x.bytes)).filter fun (h : ImageHeader) => h.type == 3).foldl (fun n h => n ||| h.target) 0

/-- The order of the classes in step 3: memory controllers, ports, Stavlink, Filigree, feeders, Sorus, arrays. -/
def classOrder : List Nat := [5, 6, 7, 4, 3, 2, 1]

/-- The units whose microcode a set replaces, in order. -/
def ImageSet.units (x : ImageSet) : List Nat :=
  classOrder.flatMap fun c => if bit x.targets c then unitIds.filter fun u => unitClass u == c else []

/-- The tick that opens a step has just passed, or no program runs. -/
def State.stepOpening (s : State) : Bool := !s.running || (s.program.at_ == some 0 && s.clock.cycle == 0)

/-- Units switch to their other microcode bank. -/
def State.switchBanks (s : State) (l : List Nat) : State :=
  { s with security := { s.security with
    microcode := l.foldl (fun (m : KMap Nat) u => kset 0 m u (1 - kget 0 m u)) s.security.microcode
    loading := s.security.loading.filter fun u => !l.contains u } }

/-- The units of a list that may switch now: a controller, a port or Stavlink per wait frame; a Frond class all together as a step
opens. -/
def State.quiescent (s : State) : List Nat → List Nat
  | [] => []
  | u :: l =>
    if frondUnit u then (if s.stepOpening then (u :: l).filter fun x => unitClass x == unitClass u else [])
    else if !s.running || s.waitFrame then [u]
    else []

/-- The microcode of units is read back: the first unit where it differs, which is an error of the hardware (R413; logs 102 and 136). -/
def State.readBack (s : State) : List Nat → State × Option Nat
  | [] => (s, none)
  | u :: l =>
    let key := objKey 0x9010 5
    if Config.freeErrors key (kget 0 s.mem.chances key) then (s.chance 0x9010 5, some u) else (s.chance 0x9010 5).readBack l

/-- A read-back mismatch stops the activation of slot `k`: the units already switched return, in reverse order (R413). -/
def State.stopActivation (s : State) (k u : Nat) : State :=
  let x := s.security
  let all := ((s.slot k).map ImageSet.units).getD []
  ({ s with security := { x with
    activating := none, loading := [], returning := (all.take (all.length - x.loading.length)).reverse } }.put 0x9010 4 0x82).put
      0x9010 5 (256 * u)

/-- A switch of step 3 to the set of slot `k` (R412). -/
def State.switchNext (s : State) (k : Nat) : State :=
  let l := s.quiescent s.security.loading
  match s.readBack l with
  | (s, none) => s.switchBanks l
  | (s, some u) => s.stopActivation k u

/-- Units return to their previous bank (R413). -/
def State.returnNext (s : State) : State :=
  let l := s.quiescent s.security.returning
  let s := s.switchBanks l
  { s with security := { s.security with returning := s.security.returning.filter fun u => !l.contains u } }

/-- A cluster restarts without dump (Table 13.10). -/
def State.restartCluster (s : State) (d : Nat) : State :=
  let s := s.clearCluster d
  { s with faults := { s.faults with clusterReset := insertNat d s.faults.clusterReset } }

/-- The activation goes on with a step. -/
def State.atStep (s : State) (n k : Nat) (back : Bool) : State :=
  { s with security := { s.security with activating := some (n, k, back) } }

/-- The end of the activation: the directory with the new active slot, and the status of Table 15.11. -/
def State.activated (s : State) (k : Nat) (back : Bool) : State :=
  let x := s.security
  let done := ((s.slot k).map ImageSet.committed).getD false
  { s with security := { x.writeDirectory k with inUse := k, activating := none, loading := [] } }.put 0x9010 4
    (if !back then 6 else if done then 7 else 4)

/-- Step 2: the set's calibration table comes into use at the next recalibration, its frequency table at the next START or, without a
program, at once. -/
def State.nextTables (s : State) (k : Nat) : State :=
  { s with security := { s.security with tables := k, frequency := if s.running then s.security.frequency else k } }

/-- ACTIVATE_STEP: the next step of Table 15.12 runs at its quiescent point once the one before it is complete. Steps 4 and 5
here are the clusters W and E, 6 cluster C, 7 the directory. Units that a mismatch sends back do so first. -/
def activateStep (s : State) : State :=
  match s.security.activating with
  | none => s.returnNext
  | some (n, k, back) =>
    match s.slot k with
    | none => s
    | some x =>
      match n with
      | 1 => ({ s with security := { s.security with firmware := k, loading := x.units } }.measureSet x).atStep 2 k back
      | 2 => (s.nextTables k).atStep 3 k back
      | 3 =>
        if s.security.loading.isEmpty then s.atStep 4 k back
        else if s.security.returning.isEmpty then s.switchNext k
        else s.returnNext
      | 4 => (s.restartCluster 0).atStep 5 k back
      | 5 => if s.faults.clusterReset.contains 0 then s else (s.restartCluster 2).atStep 6 k back
      | 6 =>
        if s.faults.clusterReset.contains 2 || !(!s.running || (s.commit.holding && s.waitFrame)) then s
        else (s.restartCluster 1).atStep 7 k back
      | _ => if s.faults.clusterReset.contains 1 then s else s.activated k back

def execActivateStep (s : State) : Host.Outcome State Fault Refusal := goOn (activateStep s)

/-! ### Settings (R390) -/

/-- A write of object 0x1010.01: the persistent values go to the boot flash; BUSY until an earlier such write has ended. -/
def storeSettings (v : Nat) (s : State) : State × Nat :=
  if v ≠ 0x65766173 then (s, 0x07)
  else if s.server.saving.isSome then (s, 0x0A)
  else ({ s with server := { s.server with saving := some (some s.settings, none) } }, 0)

/-- A write of object 0x1010.02: the stored values are erased. -/
def restoreDefaults (v : Nat) (s : State) : State × Nat :=
  if v ≠ 0x64616F6C then (s, 0x07)
  else if s.server.saving.isSome then (s, 0x0A)
  else ({ s with server := { s.server with saving := some (none, none) } }, 0)

/-! ### Quotes (R408) -/

/-- Bytes 0 to 255 of a quote (Table 15.11a). -/
def State.quoteBody (s : State) (nonce : List Byte) : List Byte :=
  let x := s.security
  leBytes 8 (packFields [(32, 0x51413645), (8, 1), (8, s.get 0x1002 3), (8, s.get 0xA002 1)]) ++ x.serial ++ nonce ++ x.mreg ++
  fitBytes 168 (leBytes 10 (packFields [(32, x.mcount), (48, s.clock.frame)]))

/-- A write of object 0xA004.01 starts a quote. -/
def startQuote (nonce : List Byte) (s : State) : State × Nat :=
  if nonce.length ≠ 32 then (s, 0x08)
  else if s.security.forming.isSome then (s, 0x0A)
  else ({ s with security := { s.security with forming := some (s.quoteBody nonce) } }.put 0xA004 3 1, 0)

/-- QUOTE_COMPLETE: the quote with its signature is written; key and salt are on no path, so the signature is free (log 2). -/
def quoteComplete (s : State) : State :=
  match s.security.forming with
  | some body =>
    { s with
      security := { s.security with forming := none, quote := body ++ fitBytes 384 (Config.quoteSignature s.freeCount) }
      freeCount := s.freeCount + 1 }.put 0xA004 3 2
  | none => s

def execQuoteComplete (s : State) : Host.Outcome State Fault Refusal := goOn (quoteComplete s)

/-! ### Modes (R409, R410) -/

/-- A write of object 0x9001.01: maintenance mode is entered only while no program runs. -/
def maintenanceMode (v : Nat) (s : State) : State × Nat :=
  if v = 0 then (s.put 0x9001 1 0, 0)
  else if v ≠ 1 then (s, 0x07)
  else if s.running then (s, 0x0D)
  else (s.put 0x9001 1 1, 0)

/-- The token passes checks 0x01 to 0x03, its signature verifies, and it names this module and this reset period. -/
def State.tokenOk (s : State) (token : List Byte) : Bool :=
  let h := imageHeader token
  let body := (token.drop 512).take h.length
  h.ok && h.type == 8 && keyMatches h.key && !s.keyRevoked h.key && h.signed? && sha256 body == h.digest && h.length == 20 &&
  body.take 16 == s.security.serial && leNat ((body.drop 16).take 4) == s.get 0x3041 7

/-- A write of object 0xA006.01: factory test mode is entered, or object 0xA006.02 reads 0x80 and nothing else changes; FACTORY_N
is bit 7 of the straps, asserted when 0. -/
def factoryToken (token : List Byte) (s : State) : State × Nat :=
  if !bit (s.get 0x1006 1) 7 && !s.running && s.tokenOk token then (s.put 0xA006 2 1, 0) else (s.put 0xA006 2 0x80, 0x07)

/-! ### Holds (R333, R414) -/

/-- Object 0x9002.03: 0 none, 1 armed, 2 holding. -/
def State.holdState (s : State) : Nat := if s.commit.holding then 2 else if s.commit.holdAt.isSome then 1 else 0

/-- A write of object 0x9002.01 arms a hold at the commit of a step. -/
def holdStep (v : Nat) (s : State) : State × Nat := ({ s with commit := { s.commit with holdAt := some v } }, 0)

/-- A write of 1 to object 0x9002.02 releases it. -/
def holdRelease (v : Nat) (s : State) : State × Nat :=
  if v ≠ 1 then (s, 0) else ({ s with commit := { s.commit with holdAt := none, holding := false } }, 0)

/-- A write of object 0x8050.01 arms the export hold. -/
def exportStep (v : Nat) (s : State) : State × Nat := ({ s with commit := { s.commit with exportAt := some v } }.put 0x8050 2 1, 0)

/-- A write of 1 to object 0x8050.03 releases the export hold at the next tick. -/
def exportDone (v : Nat) (s : State) : State × Nat :=
  if v ≠ 1 then (s, 0)
  else if s.get 0x8050 2 = 2 then ({ s with commit := { s.commit with exportAt := none, exportRelease := true } }, 0)
  else (s, 0x07)

end Sys2Proof.Machine
end

