-- ==== Sys2Proof/Machine/Dictionary.lean ====
section
/-! DEFINITION. The dictionary server's rules: access (R386–R389), values read and written (R391, the object tables), and the
commands that are writes of one object. -/

namespace Sys2Proof.Machine

/-! ### Access (R388, R389, R396) -/

/-- The object gives a right to read. -/
def Access.reads (a : Access) : Bool :=
  match a with
  | .woBoth | .woHost | .woMgmt | .woFactory => false
  | _ => true

/-- The object gives a role the right to write; in factory test mode both paths hold what it gives FACTORY as well. -/
def Access.writes (a : Access) (role : Role) (factory : Bool) : Bool :=
  match a with
  | .const | .ro => false
  | .rwBoth | .woBoth => true
  | .rwHost | .rwlHost | .rwBank | .rwIdle | .woHost => role == .host
  | .woMgmt => role == .mgmt
  | .woFactory | .fx => factory

/-- The objects that the boot ROM serves in recovery (R404). -/
def recoveryObject (index : Nat) : Bool :=
  decide (0x1000 ≤ index ∧ index ≤ 0x1FFF) || decide (0x9010 ≤ index ∧ index ≤ 0x9012) || decide (0xA000 ≤ index ∧ index ≤ 0xAFFF)

/-- The status of a read by a role, before the value (R396). -/
def State.readStatus (s : State) (role : Role) (index sub : Nat) : Nat :=
  if objHighest index = 0 ∨ (s.security.recovery ∧ !recoveryObject index) then 1
  else if sub = 0 then 0
  else match objRow index sub with
    | none => 2
    | some r => if r.access.reads then 0 else if r.access.writes role s.factory then 4 else 3

/-- The status of a write by a role, before the value: an object that is RO while a program runs is an RO object then (log 71). -/
def State.writeStatus (s : State) (role : Role) (index sub : Nat) : Nat :=
  if objHighest index = 0 ∨ (s.security.recovery ∧ !recoveryObject index) then 1
  else if sub = 0 then 5
  else match objRow index sub with
    | none => 2
    | some r =>
      if r.access.writes role s.factory then
        if r.access = .rwlHost ∧ s.running then 6 else if r.access = .rwIdle ∧ s.running then 5 else 0
      else if r.access.reads then 5 else 3

/-! ### Values read -/

/-- Text in UTF-8, all of it ASCII. -/
def textBytes (t : String) : List Byte := t.toList.map fun c => BitVec.ofNat 8 c.toNat

/-- A number object; some are computed from the state that they report. -/
def State.number (s : State) (index sub : Nat) : Nat :=
  match index with
  | 0x1001 => if sub = 1 then Config.bootRomVersion.toNat
      else if sub = 2 then (if s.security.recovery then 0 else ((s.slot s.security.inUse).map ImageSet.imgver).getD 0)
      else ((s.slot 0).map ImageSet.imgver).getD 0 + 2 ^ 32 * ((s.slot 1).map ImageSet.imgver).getD 0
  | 0x1002 => if sub = 1 then s.moduleState else s.get index sub
  | 0x2050 => Config.freeEnergy (objKey index sub) s.clock.frame % 2 ^ 64
  | 0x2051 => if sub ≤ 0x11 then Config.freeEnergy (objKey index sub) s.clock.frame % 2 ^ 64 else s.get index sub
  | 0x4012 | 0x4015 | 0x4016 => s.errors index sub % objLimit index sub
  | 0x3031 => b2n (!s.healthy)
  | 0x3060 => leNat ((s.faults.dumps.map fun x => BitVec.ofNat 8 x.2.1))
  | 0x4044 => s.namedMetadata
  | 0x5001 => if sub = 3 then s.boardIndex else s.get index sub
  | 0x5004 => s.memberIndex.getD 0xFFFF
  | 0x5011 => kget 0 s.bank.tags (sub - 1)
  | 0x6030 => s.get index sub % 2 ^ 12
  | 0x7030 => if sub = 1 ∧ s.running then s.seed else s.get index sub
  | 0x9002 => s.holdState
  | 0x9012 => s.security.active
  | _ => s.get index sub

/-- A table of numbers of `width` bytes, `n` of them from a key. -/
def tableBytes (default width base n : Nat) (m : KMap Nat) : List Byte :=
  (List.range n).flatMap fun j => leBytes width (kget default m (base + j))

/-- The error-log entry that object 0x3002.02 names, zero where none has been written (R347). -/
def State.logEntry (s : State) : Nat := s.faults.log.getD ((s.get 0x3002 1 + 2 * logSize - 1 - s.get 0x3002 2) % logSize) 0

/-- The dump slot that object 0x3060.02 selects. -/
def State.dumpData (s : State) : List Byte := (s.faults.dumps.getD (s.get 0x3060 2) ([], 0, 0)).1

/-- The census bitmap in 512 bytes. -/
def bitmapBytes (l : List Nat) : List Byte := censusPart l 0 ++ censusPart l 1 ++ censusPart l 2

/-- An entry of the group table with zeros in the reserved fields of Table 12.4. -/
def groupEntryRead (bytes : List Byte) : List Byte :=
  let w := leNat bytes
  leBytes 96 (packFields ((16, bits w 15 0) :: (16, 0) :: (32, bits w 63 32) :: (64, 0) :: (List.range 10).flatMap fun p =>
    [(12, w >>> (64 * p + 128)), (20, 0), (32, w >>> (64 * p + 160))]))

/-- An object of type STR, BLOB or DOMAIN; reserved fields read as zero (R7). The shutdown log and the measurement log stand in the order of R405, oldest first
(log 72). -/
def State.domain (s : State) (index sub : Nat) : List Byte :=
  match index with
  | 0x1000 => if sub = 1 then textBytes "Tarborun Devices" else if sub = 2 then textBytes "TBR-E6-1152" else s.security.serial
  | 0x2040 => (List.range 14).flatMap fun d => tableBytes 0 2 (256 * d) 256 s.power.learned
  | 0x2041 => s.power.static.flatMap (leBytes 2)
  | 0x3001 => leBytes 64 s.firstFault
  | 0x3002 => leBytes 64 s.logEntry
  | 0x3060 => s.dumpData
  | 0x3061 => Config.scanMap
  | 0x3070 => fitBytes 16384 (s.faults.shutdown.reverse.flatMap (leBytes 64))
  | 0x5002 => tableBytes 0xFFFF 2 0 16 s.bank.board
  | 0x5003 => s.bank.members.flatMap fun m => leBytes 4 (m % 2 ^ 14)
  | 0x5010 => (List.range 4096).flatMap fun j => leBytes 2 (kget 0x03FF s.bank.routes (4096 * (sub - 1) + j) % 2 ^ 10)
  | 0x5013 => tableBytes 0xFFFF 2 0 4096 s.bank.groups
  | 0x5050 => bitmapBytes s.fabric.bitmap
  | 0x6066 => kget [] s.domains.tableSets (sub - 1)
  | 0x7034 => s.locket.exps.flatMap fun p => leBytes 1 (twos 8 p.1)
  | 0x7043 => s.layerIds.flatMap fun l => leBytes 32 (s.ledgerRecord l)
  | 0x8010 => (List.range (s.domains.groupTable.length / 96)).flatMap fun j =>
    groupEntryRead ((s.domains.groupTable.drop (96 * j)).take 96)
  | 0x8030 =>
    if sub = 1 then s.locket.ownCommitted.readN 0 (s.filled 0)
    else if sub = 2 then s.locket.pred1Committed.readN 0 (s.filled 2)
    else s.locket.pred2Committed.readN 0 (s.filled 4)
  | 0x8041 => s.domains.mismatch
  | 0xA001 => (List.range 4).flatMap fun k => fitBytes 32 (Config.keyHash k)
  | 0xA003 => Config.certificates
  | 0xA004 => s.security.quote
  | 0xA005 => if sub = 1 then s.security.mreg else s.security.mlog.reverse.flatten
  | _ => []

/-- The type code of an object: subindex 0 is a U8 (R386). -/
def objType (index sub : Nat) : Nat := if sub = 0 then 2 else ((objRow index sub).map ObjRow.type).getD 0

/-- The bytes that a read of an object returns (R4, R387). -/
def State.readValue (s : State) (index sub : Nat) : List Byte :=
  if sub = 0 then leBytes 1 (objHighest index)
  else if typeLen (objType index sub) = 0 then s.domain index sub
  else leBytes (typeLen (objType index sub)) (s.number index sub)

/-! ### Values written -/

/-- R341: an action object refuses a code below its lowest action, a fixed code, 7, and CLUSTER_RESET where the lowest action is
ABORT or FROND_RESET. -/
def actionOk (index sub v : Nat) : Bool :=
  match faultOfObject 0x3010 index sub with
  | some f => (match f.lowest with
    | some low => decide (low ≤ v ∧ v ≤ 6) && !(v == 3 && (low == 1 || low == 2))
    | none => false)
  | none => false

/-- A bound on a number object of the manual's tables; a BOOL is 0 or 1 (Table 15.1). -/
def boundOk (index sub v : Nat) : Bool :=
  match index with
  | 0x1003 => decide (v ≤ 3)
  | 0x2001 => decide (1500 ≤ v ∧ v ≤ 3400)
  | 0x3002 => decide (v < logSize)
  | 0x3030 => decide (v ≤ 6)
  | 0x3060 => decide (v ≤ 2)
  | 0x4020 => decide (v ≤ 2048)
  | 0x4021 => decide (1 ≤ v ∧ v ≤ 4096)
  | 0x4030 => decide (3600 ≤ v ∧ v ≤ 86400)
  | 0x5060 => decide (10 ≤ v ∧ v ≤ 10000)
  | 0x6001 => decide (5 ≤ v ∧ v ≤ 100)
  | 0x6030 => sub == 1 || !(bit v 0 || bit v 9 || bit v 10)
  | 0x6046 | 0x604C => v == 0
  | 0x6050 => decide (256 ≤ v ∧ v ≤ 1048576)
  | 0x6061 => decide (v ≤ 1)
  | 0x7030 =>
    if sub = 2 then decide (1 ≤ v ∧ v ≤ 32) else if sub = 3 then decide (v ≤ 8) else if sub = 4 then v % 512 == 0
    else if sub = 5 then decide (v ≤ 4096) else true
  | 0x7040 => decide (1 ≤ v ∧ v ≤ 64)
  | 0x8031 => v % 64 == 0
  | _ => true

/-- A fused maximum is a step of its clock (Tables 14.3 and 14.4) and no lower than the current one (R372; log 103). -/
def State.fusedOk (s : State) (index sub v : Nat) : Bool :=
  if index = 0x2005 then decide (max 1250 (s.get 0x2005 (sub + 3)) ≤ v ∧ v ≤ 1400) && v % 25 == 0
  else decide (max 1600 (s.get 0x2006 (sub + 24)) ≤ v ∧ v ≤ 2400) && v % 100 == 0

/-- The value of a number object is one that its rule accepts: bounds, the ratio factors (1 ≤ S < H), the fused maxima, and the
staging address in the program area. -/
def State.valueOk (s : State) (index sub v : Nat) : Bool :=
  if 0x3011 ≤ index ∧ index ≤ 0x3014 then actionOk index sub v
  else if index = 0x7041 ∧ sub = 1 then
    !(ofCode 0 v).lt (Num.ofNat 1) && (ofCode 0 v).lt (ofCode 0 (s.get 0x7041 2))
  else if index = 0x2005 ∨ index = 0x2006 then s.fusedOk index sub v
  else if index = 0x7041 then (ofCode 0 (s.get 0x7041 1)).lt (ofCode 0 v)
  else if index = 0x9010 ∧ sub = 1 then v % 512 == 0 && decide (v < 2 ^ 41) && programArea v 512
  else boundOk index sub v

/-- The inactive bank with a change. -/
def State.onInactive (s : State) (f : Bank → Bank) : State :=
  if s.get 0x5012 2 = 0 then { s with fabric := { s.fabric with bank1 := f s.fabric.bank1 } }
  else { s with fabric := { s.fabric with bank0 := f s.fabric.bank0 } }

/-- Numbers of `width` bytes, put from a key upward. -/
def putTable (default width base n : Nat) (bytes : List Byte) (m : KMap Nat) : KMap Nat :=
  (List.range n).foldl (fun m j => kset default m (base + j) (leNat ((bytes.drop (width * j)).take width))) m

/-- A number object takes a value; the CAN rates take effect once the answer has been sent (R392). -/
def State.putNumber (s : State) (index sub v : Nat) : State :=
  match index with
  | 0x1003 =>
    let n := s.put index sub v
    { n with server := { n.server with rates := (n.get 0x1003 2, n.get 0x1003 3) } }
  | 0x5011 => s.onInactive fun b => { b with tags := kset 0 b.tags (sub - 1) v }
  | _ => s.put index sub v

/-- Lengths that the layout of a DOMAIN allows. -/
def domainLength (index n : Nat) : Bool :=
  match index with
  | 0x2041 => n == 84
  | 0x5002 => n == 32
  | 0x5003 => n % 4 == 0 && decide (n ≤ 16384)
  | 0x5010 | 0x5013 => n == 8192
  | 0x6066 => n == 0 || n == 32
  | 0x8010 => n % 96 == 0 && decide (n ≤ 393216)
  | _ => decide (n ≤ 117440512)

/-- A DOMAIN object without behaviour of its own takes a value. -/
def State.putDomain (s : State) (index sub : Nat) (bytes : List Byte) : State :=
  match index with
  | 0x2041 => { s with power := { s.power with static := (List.range 42).map fun j => leNat ((bytes.drop (2 * j)).take 2) } }
  | 0x5002 => s.onInactive fun b => { b with board := putTable 0xFFFF 2 0 16 bytes b.board }
  | 0x5003 => s.onInactive fun b => { b with members := (List.range (bytes.length / 4)).map fun j => leNat ((bytes.drop (4 * j)).take 4) }
  | 0x5010 => s.onInactive fun b => { b with routes := putTable 0x03FF 2 (4096 * (sub - 1)) 4096 bytes b.routes }
  | 0x5013 => s.onInactive fun b => { b with groups := putTable 0xFFFF 2 0 4096 bytes b.groups }
  | 0x6066 => { s with domains := { s.domains with tableSets := kset [] s.domains.tableSets (sub - 1) bytes } }
  | 0x8010 => { s with domains := { s.domains with groupTable := bytes } }
  | 0x9011 => { s with security := { s.security with stagedCan := bytes } }
  | _ => s

/-! ### Objects with a behaviour of their own -/

/-- A write of object 0x5012.01 requests a bank switch at the opening tick of a step (R283). -/
def requestSwitch (v : Nat) (s : State) : State × Nat :=
  ({ s.put 0x5012 3 1 with fabric := { s.fabric with switchAt := some v } }, 0)

/-- A write of 1 to object 0x5040.03 ends the fence (R299). -/
def releaseFence (v : Nat) (s : State) : State × Nat := (if v = 1 then s.put 0x5040 5 0 else s, 0)

/-- A write of 1 to object 0x5040.04 starts a census (R298). -/
def requestCensus (v : Nat) (s : State) : State × Nat := (if v = 1 then s.startCensus else s, 0)

/-- A write of object 0x9010.03 (Table 15.11). -/
def updateOf (v : Nat) (s : State) : State × Nat :=
  match v with
  | 1 => updateVerify s
  | 2 => updateInstall s
  | 3 => updateActivate s
  | 4 => updateRevert s
  | 5 => updateCommit s
  | 6 => updateAbandon s
  | _ => (s, 7)

/-- A BOOL takes 0 or 1 and nothing else (Table 15.1). -/
def asBool (f : Nat → State → State × Nat) (v : Nat) (s : State) : State × Nat := if v ≤ 1 then f v s else (s, 7)

/-- What a write of a number does where the object has a behaviour of its own. -/
def numberBehaviour (index sub : Nat) : Option (Nat → State → State × Nat) :=
  match index, sub with
  | 0x1010, 1 => some storeSettings
  | 0x1010, 2 => some restoreDefaults
  | 0x3001, 3 => some (asBool clearFault)
  | 0x3040, 1 => some (asBool requestModuleReset)
  | 0x3040, 2 => some requestFrondReset
  | 0x3040, 3 => some requestClusterReset
  | 0x3060, 1 => some (asBool requestDump)
  | 0x3060, 5 => some harvestDump
  | 0x4044, 1 => some nameBlock
  | 0x4045, 1 => some translateAddress
  | 0x5012, 1 => some requestSwitch
  | 0x5025, 1 => some restorePort
  | 0x5040, 3 => some (asBool releaseFence)
  | 0x5040, 4 => some (asBool requestCensus)
  | 0x6002, 1 => some (asBool armTracking)
  | 0x6010, 2 => some programCommand
  | 0x8020, 3 => some resolveStep
  | 0x8041, 1 => some (asBool resumeFill)
  | 0x8041, 5 => some (asBool reEncodeParity)
  | 0x8050, 1 => some exportStep
  | 0x8050, 3 => some (asBool exportDone)
  | 0x9001, 1 => some maintenanceMode
  | 0x9002, 1 => some holdStep
  | 0x9002, 2 => some (asBool holdRelease)
  | 0x9010, 3 => some updateOf
  | _, _ => none

/-- What a write of a BLOB or DOMAIN does where the object has a behaviour of its own. -/
def bytesBehaviour (index sub : Nat) : Option (List Byte → State → State × Nat) :=
  match index, sub with
  | 0x4040, 1 => some requestRepair
  | 0x8041, 3 => some restoreOwn
  | 0xA004, 1 => some startQuote
  | 0xA006, 1 => some factoryToken
  | 0xF010, 1 => some requestInjection
  | _, _ => none

/-- Writes a value to an object that the role may write (R387, R391). -/
def State.store (s : State) (index sub : Nat) (bytes : List Byte) : State × Nat :=
  let n := typeLen (objType index sub)
  if n ≠ 0 then
    if bytes.length ≠ n then (s, 8)
    else match numberBehaviour index sub with
      | some f => f (leNat bytes) s
      | none => if s.valueOk index sub (leNat bytes) then (s.putNumber index sub (leNat bytes), 0) else (s, 7)
  else match bytesBehaviour index sub with
    | some f => f bytes s
    | none => if domainLength index bytes.length then (s.putDomain index sub bytes, 0) else (s, 8)

/-! ### Requests -/

/-- The server, or in recovery the boot ROM, answers: the rails are on and cluster C is not in reset (R398, R404). -/
def State.serves (s : State) : Bool := s.power.on && (s.security.recovery || !s.faults.clusterReset.contains 1)

/-- An answer is counted in object 0x1004.01, and one with another status than OK in object 0x1004.02 (R396). -/
def State.counted (s : State) (status : Nat) : State := (s.count 0x1004 1 1).countIf (status != 0) 0x1004 2

/-- A write of one object by a role, its effect `f` where the role has the right. -/
def State.byRole (s : State) (role : Role) (index sub : Nat) (f : State → State × Nat) : State :=
  if !s.serves then s
  else
    let status := s.writeStatus role index sub
    let r := if status = 0 then f s else (s, status)
    r.1.counted r.2

/-- A write of a number that the object's type holds; a number too long for it is refused with LENGTH (R387). -/
def State.command (s : State) (role : Role) (index sub v : Nat) (f : Nat → State → State × Nat) : State :=
  s.byRole role index sub fun s => if v < objLimit index sub then f v s else (s, 8)

/-- PROGRAM_START: a write of 1 to object 0x6010.02 (R37). -/
def execProgramStart (role : Role) (s : State) : Host.Outcome State Fault Refusal := goOn (s.byRole role 0x6010 2 startProgram)

/-- PROGRAM_STOP: a write of 2 to object 0x6010.02 (R45). -/
def execProgramStop (role : Role) (s : State) : Host.Outcome State Fault Refusal := goOn (s.byRole role 0x6010 2 stopCommand)

def execSyncTrackingArm (role : Role) (value : Nat) (s : State) : Host.Outcome State Fault Refusal :=
  goOn (s.command role 0x6002 1 value (asBool armTracking))

def execClearFirstFault (role : Role) (value : Nat) (s : State) : Host.Outcome State Fault Refusal :=
  goOn (s.command role 0x3001 3 value (asBool clearFault))

def execFrondResetRequest (role : Role) (value : Nat) (s : State) : Host.Outcome State Fault Refusal :=
  goOn (s.command role 0x3040 2 value requestFrondReset)

def execClusterResetRequest (role : Role) (value : Nat) (s : State) : Host.Outcome State Fault Refusal :=
  goOn (s.command role 0x3040 3 value requestClusterReset)

def execDumpRequest (role : Role) (value : Nat) (s : State) : Host.Outcome State Fault Refusal :=
  goOn (s.command role 0x3060 1 value (asBool requestDump))

def execDumpHarvested (role : Role) (value : Nat) (s : State) : Host.Outcome State Fault Refusal :=
  goOn (s.command role 0x3060 5 value harvestDump)

def execMaintenanceMode (role : Role) (value : Nat) (s : State) : Host.Outcome State Fault Refusal :=
  goOn (s.command role 0x9001 1 value maintenanceMode)

def execHoldStep (role : Role) (value : Nat) (s : State) : Host.Outcome State Fault Refusal :=
  goOn (s.command role 0x9002 1 value holdStep)

def execHoldRelease (role : Role) (value : Nat) (s : State) : Host.Outcome State Fault Refusal :=
  goOn (s.command role 0x9002 2 value (asBool holdRelease))

def execUpdateVerify (role : Role) (s : State) : Host.Outcome State Fault Refusal := goOn (s.byRole role 0x9010 3 updateVerify)

def execUpdateInstall (role : Role) (s : State) : Host.Outcome State Fault Refusal := goOn (s.byRole role 0x9010 3 updateInstall)

def execUpdateActivate (role : Role) (s : State) : Host.Outcome State Fault Refusal := goOn (s.byRole role 0x9010 3 updateActivate)

def execUpdateRevert (role : Role) (s : State) : Host.Outcome State Fault Refusal := goOn (s.byRole role 0x9010 3 updateRevert)

def execUpdateCommit (role : Role) (s : State) : Host.Outcome State Fault Refusal := goOn (s.byRole role 0x9010 3 updateCommit)

def execUpdateAbandon (role : Role) (s : State) : Host.Outcome State Fault Refusal := goOn (s.byRole role 0x9010 3 updateAbandon)

def execAttestationNonce (role : Role) (nonce : List Byte) (s : State) : Host.Outcome State Fault Refusal :=
  goOn (s.byRole role 0xA004 1 (startQuote nonce))

def execFactoryToken (role : Role) (token : List Byte) (s : State) : Host.Outcome State Fault Refusal :=
  goOn (s.byRole role 0xA006 1 (factoryToken token))

def execInjectionRequest (role : Role) (request : List Byte) (s : State) : Host.Outcome State Fault Refusal :=
  goOn (s.byRole role 0xF010 1 (requestInjection request))

def execRepairRequest (role : Role) (request : List Byte) (s : State) : Host.Outcome State Fault Refusal :=
  goOn (s.byRole role 0x4040 1 (requestRepair request))

def execMetadataAddress (role : Role) (value : Nat) (s : State) : Host.Outcome State Fault Refusal :=
  goOn (s.command role 0x4044 1 value nameBlock)

def execTranslateAddress (role : Role) (value : Nat) (s : State) : Host.Outcome State Fault Refusal :=
  goOn (s.command role 0x4045 1 value translateAddress)

def execPortRestore (role : Role) (value : Nat) (s : State) : Host.Outcome State Fault Refusal :=
  goOn (s.command role 0x5025 1 value restorePort)

def execConfigurationSwitchStep (role : Role) (value : Nat) (s : State) : Host.Outcome State Fault Refusal :=
  goOn (s.command role 0x5012 1 value requestSwitch)

def execFenceRelease (role : Role) (value : Nat) (s : State) : Host.Outcome State Fault Refusal :=
  goOn (s.command role 0x5040 3 value (asBool releaseFence))

def execCensusRequest (role : Role) (value : Nat) (s : State) : Host.Outcome State Fault Refusal :=
  goOn (s.command role 0x5040 4 value (asBool requestCensus))

def execResolve (role : Role) (value : Nat) (s : State) : Host.Outcome State Fault Refusal :=
  goOn (s.command role 0x8020 3 value resolveStep)

def execResume (role : Role) (value : Nat) (s : State) : Host.Outcome State Fault Refusal :=
  goOn (s.command role 0x8041 1 value (asBool resumeFill))

def execRestoreRecord (role : Role) (record : List Byte) (s : State) : Host.Outcome State Fault Refusal :=
  goOn (s.byRole role 0x8041 3 (restoreOwn record))

def execReEncode (role : Role) (value : Nat) (s : State) : Host.Outcome State Fault Refusal :=
  goOn (s.command role 0x8041 5 value (asBool reEncodeParity))

def execExportStep (role : Role) (value : Nat) (s : State) : Host.Outcome State Fault Refusal :=
  goOn (s.command role 0x8050 1 value exportStep)

def execExportDone (role : Role) (value : Nat) (s : State) : Host.Outcome State Fault Refusal :=
  goOn (s.command role 0x8050 3 value (asBool exportDone))

/-- The owed answer to a settings write comes with STORE_SETTINGS_COMPLETE (R390), so only a refusal is counted now. -/
def State.settingsCommand (s : State) (role : Role) (sub v : Nat) (f : Nat → State → State × Nat) : State :=
  if !s.serves then s
  else
    let status := s.writeStatus role 0x1010 sub
    let r := if status ≠ 0 then (s, status) else if v < objLimit 0x1010 sub then f v s else (s, 8)
    if r.2 = 0 then r.1 else r.1.counted r.2

def execStoreSettings (role : Role) (value : Nat) (s : State) : Host.Outcome State Fault Refusal :=
  goOn (s.settingsCommand role 1 value storeSettings)

def execRestoreDefaults (role : Role) (value : Nat) (s : State) : Host.Outcome State Fault Refusal :=
  goOn (s.settingsCommand role 2 value restoreDefaults)

/-- REGISTER_WRITE: a write of an object with a type code and a value: a type that differs from the object's is refused with
LENGTH (R387, R396). -/
def State.register (s : State) (index sub type : Nat) (value : List Byte) : State × Nat :=
  if type ≠ objType index sub then (s, 8) else s.store index sub value

def execRegisterWrite (role : Role) (index sub type : Nat) (value : List Byte) (s : State) : Host.Outcome State Fault Refusal :=
  goOn (if index = 0x1010 then s.settingsCommand role sub (leNat value) (fun _ s => s.register index sub type value)
    else s.byRole role index sub fun s => s.register index sub type value)

end Sys2Proof.Machine
end

