-- ==== Sys2Proof/Machine/Exchange.lean ====
section
/-! DEFINITION. The command KERNEL and its completion, with the exchange kernels PACK and PACKP that build buckets and
privileged transfers (R188, R212–R215). -/

namespace Sys2Proof.Machine

/-- The header block of a bucket or privileged transfer: 64 bytes of Table 8.12 and 448 zero bytes. -/
def State.bucketHeader (s : State) (k : Kernel) (fmt count : Nat) (exp : Int) (present length : Nat) : List Byte :=
  leBytes 512 (packFields [(32, 0x54423645), (8, 1), (4, fmt), (4, 0), (12, s.moduleId), (4, 0), (64, s.stepCount),
    (32, k.tensor), (32, k.origin), (32, count), (8, twos 8 exp), (24, present), (32, length)])

/-- Bytes padded with zeros to whole blocks. -/
def padBlock (l : List Byte) : List Byte := fitBytes (roundUp l.length 512) l

/-- The elements of SRC0 in storage order, `n` of them. -/
def State.packSource (s : State) (d : Nat) (k : Kernel) : List Num :=
  (List.range (k.rows * k.cols)).map fun j => s.elem d 0 k.src0 j 0

/-- A present group of 256 elements of a bucket: its scale byte and its E5M2 conversions, whose saturations are not counted (R158,
R213). -/
def State.packGroup (s : State) (k : Kernel) (g : Nat) (vs : List Num) : Nat × List Stored :=
  let sc := blockScale 3 vs
  (sc, (vs.zip (List.range 256)).map fun p =>
    if sc = 0xFF then { code := 0, sat := false, nonfinite := !p.1.finite }
    else { sr (eScale (127 - (sc : Int)) p.1) 3 (s.rand k.tensor (k.origin * 1024 + 256 * g + p.2) 0x2000) with sat := false })

/-- PACK builds a bucket: header, block mask, scales and values of the groups that are not all zero (R213). -/
def State.pack (s : State) (d : Nat) (k : Kernel) : List Byte × List Stored × Nat :=
  let src := s.packSource d k
  let count := src.length
  let groups := pieces 256 (cdiv count 256) src
  let padded := groups.map fun g => g ++ List.replicate (256 - g.length) Num.zero
  let live := (padded.zip (List.range padded.length)).filter fun p => !p.1.all Num.isZero
  let mask := leBytes (cdiv padded.length 8) (live.foldl (fun a p => a + 2 ^ p.2) 0)
  let coded := live.map fun p => s.packGroup k p.2 p.1
  let body := padBlock mask ++ padBlock (coded.map fun c => BitVec.ofNat 8 c.1) ++
    padBlock (coded.flatMap fun c => c.2.map fun x => BitVec.ofNat 8 x.code)
  (s.bucketHeader k 3 count 0 live.length (1 + body.length / 512) ++ body, coded.flatMap (·.2), padded.length - live.length)

/-- PACKP builds a privileged transfer: the header and the whole value plane in E5M10, or in E8M7 with exponent 0 in the
first-step stream (R215). -/
def State.packPrivileged (s : State) (d : Nat) (k : Kernel) : List Byte × List Stored :=
  let src := s.packSource d k
  let e := s.writeExp k.tensor k.ofmt
  let st := (src.zip (List.range src.length)).map fun p =>
    sr (if e = 0 then p.1 else eScale e p.1) k.ofmt (s.rand k.tensor (k.origin * 1024 + p.2) 0x2000)
  let body := padBlock (st.flatMap fun x => leBytes 2 x.code)
  (s.bucketHeader k k.ofmt src.length e 0 (1 + body.length / 512) ++ body, st)

/-- PACK or PACKP takes effect; it lasts as R188 gives, and does not run where its region leaves the store. -/
def startPack (i : Issue) (s : State) : State :=
  let d := unitDie i.unit
  let k := s.kernel i
  let n := k.rows * k.cols
  let out : List Byte × List Stored × Nat :=
    if k.code = 0x40 then s.pack d k else let p := s.packPrivileged d k; (p.1, p.2, 0)
  if !inStore k.dst out.1.length then s.invalid i
  else
    let read := s.anyTouch i.unit i.ctx (2 ^ 63 + k.src0) (2 * n)
    let s := read.1
    let dirty := read.2
    let s := (s.opWrite d k.dst out.1 dirty).stored d out.2.1
    let s := if out.2.2 = 0 then s else s.count 0x7045 (d + 1) out.2.2
    let s := if k.code = 0x41 then s.reportMax k.tensor (s.packSource d k) else s
    let cycles := 64 + max (cdiv (n * (kernelOps k.code).getD 1) 16384) (cdiv (2 * n + out.1.length) 8192)
    s.startWork 1 i (some cycles) .none

/-- KERNEL takes effect (R188, R212). -/
def startKernel (i : Issue) (s : State) : State :=
  if (s.kernel i).code < 0x40 then startTableKernel i s else startPack i s

def execKernel (i : Issue) (s : State) : Host.Outcome State Fault Refusal := goOn (s.gate 1 i startKernel)

/-- KERNEL_COMPLETE: a standalone kernel has processed all its rows, a drain-fed one has accepted them (R188, R192, R219). -/
def kernelComplete (d : Nat) (s : State) : State :=
  match (s.unit (0x30 + d)).work with
  | some w =>
    if s.kernelDone d then
      let s := s.count 0x6058 (d + 1) 1
      let s := s.countIf (decide (0x40 ≤ (s.kernel w.cmd.issue).code)) 0x7044 (d + 1)
      (s.endWork (0x30 + d)).settle
    else s
  | none => s

def execKernelComplete (d : Nat) (s : State) : Host.Outcome State Fault Refusal := goOn (kernelComplete d s)

end Sys2Proof.Machine
end

