-- ==== Sys2Proof/Machine/Jtag.lean ====
section
/-! DEFINITION. The JTAG instructions of the dies (R427). The boundary register of die C has one cell for each position of J2 rows E
and F; those of dies W and E are empty. -/

namespace Sys2Proof.Machine

/-- A die takes an instruction, and its data register shifts out `data`. -/
def State.jtagTakes (s : State) (die op data : Nat) : State :=
  { s with security := { s.security with
    jtag := s.security.jtag.set die op
    shift := s.security.shift.set die data } }

/-- BYPASS: the bypass register captures 0. -/
def State.jtagBypass (s : State) (die : Nat) : State := s.jtagTakes die 0xFF 0

/-- The boundary register of a die as a number: empty but for die C. -/
def State.boundaryOf (s : State) (die : Nat) : Nat := if die = 1 then s.security.boundary.toNat else 0

/-- EXTEST, CLAMP and HIGHZ act as BYPASS while a program runs. -/
def State.jtagPins (s : State) (die op data : Nat) : State :=
  if s.moduleState = 3 then s.jtagBypass die else s.jtagTakes die op data

/-- EXTEST: the boundary register drives the pins. -/
def execExtest (die : Nat) (s : State) : Host.Outcome State Fault Refusal := goOn (s.jtagPins die 0 (s.boundaryOf die))

/-- The identity of a die (Table 16.9). -/
def dieIdentity (die : Nat) : Nat := 0xB0E60C51 + 0x1000 * (die % 3)

/-- IDCODE: the identity of the die is shifted out. -/
def execIdcode (die : Nat) (s : State) : Host.Outcome State Fault Refusal := goOn (s.jtagTakes die 1 (dieIdentity die))

/-- SAMPLE/PRELOAD: the pins are captured, whose levels the model does not hold and leaves free (log 2), and the boundary
register takes the data shifted in. -/
def samplePreload (die : Nat) (data : BitVec 32) (s : State) : State :=
  if die = 1 then
    let r := s.draw
    let s := r.2.jtagTakes 1 2 (r.1.toNat % 2 ^ 32)
    { s with security := { s.security with boundary := data } }
  else s.jtagTakes die 2 0

def execSamplePreload (die : Nat) (data : BitVec 32) (s : State) : Host.Outcome State Fault Refusal := goOn (samplePreload die data s)

/-- CLAMP: the pins hold what the boundary register drives, and the bypass register is selected. -/
def execClamp (die : Nat) (s : State) : Host.Outcome State Fault Refusal := goOn (s.jtagPins die 5 0)

/-- HIGHZ: the outputs are in high impedance, and the bypass register is selected. -/
def execHighz (die : Nat) (s : State) : Host.Outcome State Fault Refusal := goOn (s.jtagPins die 6 0)

def execBypass (die : Nat) (s : State) : Host.Outcome State Fault Refusal := goOn (s.jtagBypass die)

end Sys2Proof.Machine
end

