-- ==== Sys2Proof/Machine/MaskOps.lean ====
section
/-! DEFINITION. Mask evolution and routing (chapter 5): PRUNE, REGROW, SCORE, ROUTE and their completions. -/

namespace Sys2Proof.Machine

/-- The value plane of the tensor whose mask is evolved (R127). -/
def Tile.valuePlane (t : Tile) : Nat := opOffset t.wsrc

/-- The step is one that the descriptor's PERIOD selects (R125). -/
def State.maskStep (s : State) (p : MaskOp) : Bool := s.stepCount % p.period == p.period - 1

/-- A skipped mask epoch is counted once in its step (R126). -/
def State.countSkip (s : State) : State :=
  if s.program.skippedStep == some s.stepCount then s
  else { s.count 0x6050 7 1 with program := { s.program with skippedStep := some s.stepCount } }

/-- Runs a PRUNE or REGROW only in a step that R125 selects and R126 does not exclude; else one cycle without work. -/
def State.epochGate (s : State) (op : Nat) (i : Issue) (p : MaskOp) (run : State → State) : State :=
  if !s.maskStep p then s.startWork op i (some 1) .none
  else if s.get 0x6050 3 = 1 then s.countSkip.startWork op i (some 1) .none
  else run s

/-- The index checks 0x01 to 0x0A of a mask operation (R134). -/
def State.maskChecks (s : State) (t : Tile) (ix : Index) : Option (Nat × Nat × Nat) :=
  let lines := if t.wt then (t.k / 32, t.n / 32) else (t.n / 32, t.k / 32)
  match s.headChecks ix t t.valuePlane t.wfmt lines with
  | some c => some (c, 0xFFFFFF, 0xFFFF)
  | none => match s.walkChecks ix false ix.fmt ix.linesR false with
    | some c => some c
    | none => if t.wt then s.walkChecks ix true ix.fmt ix.linesC false else none

/-- A mask operation that fails a check: SPARSE_FORMAT, nothing further is written, complete 64 cycles later (R122, R134). -/
def State.rejectMask (s : State) (op : Nat) (i : Issue) (p : MaskOp) (c : Nat × Nat × Nat) : State :=
  if unitClass i.unit = 2 then
    ((s.count 0x7013 (unitDie i.unit + 1) 1).sparseFormat i 1 p.tile c.1 c.2.1 c.2.2).onUnit i.unit fun x => { x with
      tails := x.tails ++ [{ cmd := { op, issue := i }, left := if x.stalled then none else some 64, load := .none }]
      stalled := false }
  else (s.sparseFormat i 1 p.tile c.1 c.2.1 c.2.2).startWork op i (some 64) .none

/-- The candidates in list order: ordinal, row, column. -/
def State.candidates (s : State) (d : Nat) (p : MaskOp) : List (Nat × Nat × Nat) :=
  (List.range p.ccount).map fun i =>
    let w := s.anyLE d (p.cand + 4 * i) 4
    (i, bits w 15 8, bits w 7 0)

/-- Checks 0x0C and 0x0D as far as every mask operation makes them: its `n` bytes at OUT, its score plane and its candidate list lie
in their memories, and every candidate is a block of the tensor (R134; log 121). -/
def State.maskBounds (s : State) (d : Nat) (p : MaskOp) (ix : Index) (n : Nat) : Option (Nat × Nat × Nat) :=
  if !(anyInside p.out n && anyInside p.scores (2 * p.ccount) && anyInside p.cand (4 * p.ccount)) then some (12, 0xFFFFFF, 0xFFFF)
  else if (s.candidates d p).any fun c => !(decide (c.2.1 < ix.linesR) && decide (c.2.2 < ix.linesC)) then
    some (13, 0xFFFFFF, 0xFFFF)
  else none

/-- What a mask operation reads beside the tensor: its candidate list and `n` bytes of its score plane and `m` bytes at OUT. -/
def State.maskReads (s : State) (u ctx : Nat) (p : MaskOp) (n m : Nat) : State :=
  ((((s.anyTouch u ctx p.cand (4 * p.ccount)).1).anyTouch u ctx p.scores n).1.anyTouch u ctx p.out m).1

/-- The magnitude of values: the sum of |w| in E8M31 over a count that is a power of two (R128). -/
def magnitude (vs : List Num) (count : Nat) : Num := eScale (-(Nat.log2 count : Int)) (eSum (vs.map Num.abs))

/-- Stored values of a block, at the tensor's read exponent (R167): (group, value). -/
def State.maskValues (s : State) (ix : Index) (plane : Nat) (e : Entry) : List (Nat × Num) :=
  let x := s.readExp ix.tensor ix.fmt
  (s.blockValues ix plane e).map fun v => (v.1, if x = 0 then v.2.2.2 else eScale (-x) v.2.2.2)

/-- Puts a keyed item into a list by ascending key; equal keys keep their order, a NaN stays behind. -/
def insertByNum {α : Type} (k : Num) (a : α) : List (Num × α) → List (Num × α)
  | [] => [(k, a)]
  | x :: t => if k.lt x.1 || (x.1 == Num.nan && k != Num.nan) then (k, a) :: x :: t else x :: insertByNum k a t

/-- The items in order of ascending key. -/
def sortByNum {α : Type} (l : List (Num × α)) : List α := (l.foldl (fun a p => insertByNum p.1 p.2 a) []).map (·.2)

/-- The bytes of a delta-list header (Table 5.2). -/
def deltaHeader (tensor step pruned regrown : Nat) : List Byte :=
  leBytes 16 (packFields [(32, tensor), (32, step), (16, pruned), (16, regrown), (32, 0)])

/-- A delta-list entry. -/
def deltaEntry (row col action pat : Nat) : List Byte :=
  leBytes 4 (packFields [(8, col), (8, row), (2, action), (2, pat), (12, 0)])

/-- Values stored under an index, and its blocks (Table 5.3). -/
def State.storedValues (s : State) (ix : Index) : Nat := ((s.entriesOf ix).map fun e => patValues e.pat).foldl (· + ·) 0

/-- The blocks a PRUNE of form 1 or 2 selects, in ascending (ROW, COL) (R128). -/
def State.pruneSet (s : State) (p : MaskOp) (ix : Index) (plane : Nat) : List Entry :=
  let mu := fun (e : Entry) => magnitude ((s.maskValues ix plane e).map (·.2)) (patValues e.pat)
  let es := s.entriesOf ix
  if p.op = 1 then es.filter fun e => (mu e).lt (ofCode 0 p.thresh)
  else
    let chosen := (List.range ix.linesR).flatMap fun r =>
      let row := es.filter fun e => e.row == r
      (sortByNum (row.map fun e => (mu e, e.ordinal))).take (min p.ksel (row.length - 1))
    es.filter fun e => chosen.contains e.ordinal

/-- The group-zero bits of a block (R129). -/
def State.groupZeros (s : State) (p : MaskOp) (ix : Index) (plane : Nat) (e : Entry) : Nat :=
  let vs := s.maskValues ix plane e
  let groups := 32 * 32 / patGroup e.pat
  (List.range groups).foldl (fun a g =>
    let mine := (vs.filter fun v => v.1 == g).map (·.2)
    if (magnitude mine mine.length).lt (ofCode 0 p.thresh) then a + 2 ^ g else a) 0

/-- The poisoned operand of a mask operation is consumed (R257). -/
def State.maskConsume (s : State) (i : Issue) (t : Tile) (ix : Index) : State :=
  if s.opPoisoned ix.die t.valuePlane (128 * ix.vlen) || s.opPoisoned ix.die ix.base ix.ilen then
    s.consume i.unit i.ctx (2 ^ 63 + t.valuePlane)
  else s

/-- PRUNE writes prune entries, or the group-zero plane (R128, R129, R132, R133). -/
def State.runPrune (s : State) (i : Issue) (p : MaskOp) : State :=
  let d := unitDie i.unit
  let t := s.maskTile p
  let ix := s.index d t.sidx
  let plane := t.valuePlane
  let s := s.maskConsume i t ix
  match s.maskChecks t ix with
  | some c => s.rejectMask 3 i p c
  | none =>
    let bytes := if p.op = 3 then (s.entriesOf ix).flatMap fun e => leBytes 32 (s.groupZeros p ix plane e)
      else
        let es := s.pruneSet p ix plane
        deltaHeader p.tensor s.stepCount es.length 0 ++ es.flatMap fun e => deltaEntry e.row e.col 0 0
    let cycles := 256 + cdiv (s.storedValues ix) 8192 + (if p.op = 2 then 8 else 4) * ix.present
    match s.maskBounds d p ix bytes.length with
    | some c => s.rejectMask 3 i p c
    | none => ((s.maskReads i.unit i.ctx p 0 0).anyWrite d i.ctx p.tensor p.out bytes false).startWork 3 i (some cycles) .none

/-- PRUNE takes effect (R125, R126). -/
def startPrune (i : Issue) (s : State) : State := let p := s.maskOp i; s.epochGate 3 i p fun s => s.runPrune i p

def execPrune (i : Issue) (s : State) : Host.Outcome State Fault Refusal := goOn (s.gate 3 i startPrune)

/-! ### REGROW -/

/-- The candidates REGROW selects, in ascending (ROW, COL) (R130). -/
def State.regrowSet (s : State) (d : Nat) (p : MaskOp) (ix : Index) (pruned : List (Nat × Nat)) : List (Nat × Nat) :=
  let present := (s.entriesOf ix).map fun e => (e.row, e.col)
  let cs := (s.candidates d p).foldl (fun (l : List (Nat × Nat × Nat)) c =>
    if present.contains c.2 || pruned.contains c.2 || l.any (fun x => x.2 == c.2) then l else l ++ [c]) []
  let best := fun (l : List (Nat × Nat × Nat)) =>
    (sortByNum (l.map fun c => ((s.scoreAt d p c.1).neg, c)))
  let picked := if p.op = 4 then (best cs).take p.ksel
    else (List.range ix.linesR).flatMap fun r => (best (cs.filter fun c => c.2.1 == r)).take p.ksel
  let bound := p.maxPresent - (ix.present - pruned.length)
  let inOrder := picked.foldl (fun l c => insertPair (c.1, 0) l) ([] : List (Nat × Nat))
  let kept := (best (inOrder.filterMap fun o => cs.find? fun c => c.1 == o.1)).take bound
  kept.foldl (fun l c => insertPair c.2 l) []

/-- REGROW appends its entries to the delta list and clears the score plane (R130, R132, R133). -/
def State.runRegrow (s : State) (i : Issue) (p : MaskOp) : State :=
  let d := unitDie i.unit
  let t := s.maskTile p
  let ix := s.index d t.sidx
  let s := s.maskConsume i t ix
  let head := s.anyLE d p.out 16
  let n := bits head 79 64
  let pruned := (List.range n).map fun j =>
    let w := s.anyLE d (p.out + 16 + 4 * j) 4
    (bits w 15 8, bits w 7 0)
  let grown := s.regrowSet d p ix pruned
  match s.maskChecks t ix with
  | some c => s.rejectMask 4 i p c
  | none =>
    match s.maskBounds d p ix (16 + 4 * (n + grown.length)) with
    | some c => s.rejectMask 4 i p c
    | none =>
      if bits head 31 0 != p.tensor || bits head 63 32 != s.stepCount % 2 ^ 32 || decide (ix.present + p.ccount < n + grown.length) then
        s.rejectMask 4 i p (12, 0xFFFFFF, 0xFFFF)
      else
        let entries := grown.flatMap fun g => deltaEntry g.1 g.2 1 p.newPat
        let s := s.maskReads i.unit i.ctx p (2 * p.ccount) (16 + 4 * n)
        let s := s.anyWrite d i.ctx p.tensor p.out (deltaHeader p.tensor s.stepCount n grown.length) false
        let s := s.anyWrite d i.ctx p.tensor (p.out + 16 + 4 * n) entries false
        let s := s.anyWrite d i.ctx (s.scoreTensor p) p.scores (List.replicate (2 * p.ccount) 0) false
        let s := { s with program := { s.program with regrew := true } }
        s.startWork 4 i (some (256 + 2 * p.ccount + 16 * grown.length)) .none

def startRegrow (i : Issue) (s : State) : State := let p := s.maskOp i; s.epochGate 4 i p fun s => s.runRegrow i p

def execRegrow (i : Issue) (s : State) : Host.Outcome State Fault Refusal := goOn (s.gate 4 i startRegrow)

/-! ### SCORE -/

/-- SCORE samples the candidates on the lanes of the Sorus, one job per candidate and slab, and adds to the score plane
(R131, R133, R134). -/
def startScore (i : Issue) (s : State) : State :=
  let d := unitDie i.unit
  let p := s.maskOp i
  let t := s.sparseTile { op := 2, issue := i }
  let ix := s.index d t.sidx
  match (s.maskChecks t ix).orElse fun _ => s.maskBounds d p ix 16 with
  | some c => s.rejectMask 2 i p c
  | none =>
    let cs := s.candidates d p
    let jobs := (List.range (cdiv t.m 64)).flatMap fun b =>
      cs.map fun c => { slab := b, lane := c.1 % 256, line := c.1, place := 65536 * c.2.1 + c.2.2 : Place }
    (s.maskReads i.unit i.ctx p 0 0).takeTile 2 i {
      serial := 0, head := ix.word, todo := jobs, used := [], next := 0, lines := cs.map fun c => (0, c.1)
      masked := s.maskUsable d t, poison := false }

def execScore (i : Issue) (s : State) : Host.Outcome State Fault Refusal := goOn (s.gate 2 i startScore)

/-- MASK_OP_COMPLETE: a PRUNE, REGROW or SCORE has finished (R133). -/
def maskOpComplete (u : Nat) (s : State) : State :=
  if unitClass u = 2 then s.completeTile (unitDie u) 2
  else if unitClass u == 4 && s.workOver u [3, 4] then (s.endWork u).settle
  else s

def execMaskOpComplete (u : Nat) (s : State) : Host.Outcome State Fault Refusal := goOn (maskOpComplete u s)

/-! ### ROUTE (R145–R149) -/

/-- A token's choice: expert, logit rank, gate before and after rounding, unassigned. -/
structure Choice where
  token : Nat
  rank : Nat
  expert : Nat
  value : Num
  gate : Stored
  valid : Bool
  deriving DecidableEq, Repr

/-- The gates of a token's chosen logits in E8M31 (Table 5.5): soft-maximum over the chosen K, over all E, or the raw
logit. The soft-maximum subtracts the largest of the logits it runs over (log 19). -/
def gateValues (mode : Nat) (all chosen : List Num) : List Num :=
  let soft := fun (base : List Num) =>
    let top := base.foldl numMax (Num.inf true)
    let total := eSum (base.map fun x => eExp (eSub x top))
    chosen.map fun x => eDiv (eExp (eSub x top)) total
  match mode with
  | 0 => soft chosen
  | 1 => soft all
  | _ => chosen

/-- The choices of token `t`, each with its gate as it is rounded into E8M7 (R146). -/
def State.choices (s : State) (d : Nat) (r : Route) (t : Nat) : List Choice :=
  let x := s.readExp r.tensor r.lfmt
  let logits := (List.range r.experts).map fun e => s.elem d r.lfmt (opOffset r.logits) (t * r.experts + e) x
  let ranked := (sortByNum ((logits.zip (List.range r.experts)).map fun p => (p.1.neg, p))).take r.k
  let gates := gateValues r.gate logits (ranked.map (·.1))
  (ranked.zip (gates.zip (List.range ranked.length))).map fun p =>
    { token := t, rank := p.2.2, expert := p.1.2, value := p.2.1,
      gate := sr p.2.1 0 (s.rand r.tensor (t * r.k + p.2.2) (0x6000 + (s.program.at_.getD 0) % 4096)),
      valid := p.1.1 != Num.nan : Choice }

/-- A route being built: slots taken (expert, slot, token row, carried), token table words, and the counts. -/
structure RouteBuild where
  slots : List (Nat × Nat × Nat × Bool)
  words : List (Nat × Nat)
  placed : Nat
  deferred : Nat
  dropped : Nat
  carried : Nat
  deriving DecidableEq, Repr

/-- Slots of an expert taken so far, regular or spill. -/
def RouteBuild.taken (b : RouteBuild) (r : Route) (e : Nat) (spill : Bool) : Nat :=
  (b.slots.filter fun x => x.1 == e && (decide (r.cap ≤ x.2.1) == spill)).length

/-- A carried choice takes a spill slot of its expert or is dropped (R147). -/
def RouteBuild.carry (b : RouteBuild) (r : Route) (row e : Nat) : RouteBuild :=
  let k := b.taken r e true
  if k < r.spillCap then { b with slots := b.slots ++ [(e, r.cap + k, row, true)], placed := b.placed + 1, carried := b.carried + 1 }
  else { b with dropped := b.dropped + 1 }

/-- The token-table word of a choice. -/
def Choice.word (c : Choice) (status slot : Nat) : Nat :=
  packFields [(8, c.expert), (2, status), (6, 0), (16, slot), (16, c.gate.code)]

/-- A new choice takes a regular slot, or is deferred or dropped (R147). -/
def RouteBuild.place (b : RouteBuild) (r : Route) (parity : Nat) (c : Choice) : RouteBuild :=
  let ix := c.token * r.k + c.rank
  let k := b.taken r c.expert false
  if !c.valid then { b with words := (ix, c.word 2 0) :: b.words, dropped := b.dropped + 1 }
  else if k < r.cap then
    { b with slots := b.slots ++ [(c.expert, k, parity * r.tok + c.token, false)], words := (ix, c.word 0 k) :: b.words,
             placed := b.placed + 1 }
  else if r.policy && !r.final then { b with words := (ix, c.word 1 0) :: b.words, deferred := b.deferred + 1 }
  else { b with words := (ix, c.word 2 0) :: b.words, dropped := b.dropped + 1 }

/-- The choices the buffer of the other parity marked deferred: token row and expert, by ascending (token, rank). -/
def State.carriedChoices (s : State) (d : Nat) (r : Route) (other : Nat) : List (Nat × Nat) :=
  (List.range (r.tok * r.k)).filterMap fun k =>
    let w := s.tokenWord d r other (k / r.k) (k % r.k)
    if bits w 9 8 = 1 then some (other * r.tok + k / r.k, bits w 7 0) else none

/-- The choices of every token of a route. -/
def State.allChoices (s : State) (d : Nat) (r : Route) : List Choice := (List.range r.tok).flatMap (s.choices d r)

/-- The route of the running frame, from its choices (R146, R147). -/
def State.buildRoute (s : State) (d : Nat) (r : Route) (all : List Choice) : RouteBuild :=
  let parity := s.clock.frame % 2
  let other := 1 - parity
  let head := (s.opStore d).readLE (r.buffer other) 6
  let fresh := head + 1 == s.clock.frame % 2 ^ 48
  let waiting := s.carriedChoices d r other
  let b : RouteBuild := { slots := [], words := [], placed := 0, deferred := 0, dropped := 0, carried := 0 }
  let b := if r.final || !fresh then { b with dropped := waiting.length }
    else waiting.foldl (fun b c => b.carry r c.1 c.2) b
  (List.range r.k).foldl (fun b k => (all.filter fun c => c.rank == k).foldl (fun b c => b.place r parity c) b) b

/-- The bytes of a route buffer (R147). -/
def RouteBuild.bytes (b : RouteBuild) (r : Route) (frame : Nat) : List Byte :=
  let head := packFields [(48, frame), (16, 0), (32, b.placed), (32, b.deferred), (32, b.dropped), (32, b.carried), (320, 0)]
  let per := r.cap + r.spillCap
  let lists := (List.range (r.experts * per)).flatMap fun k =>
    match b.slots.find? fun x => x.1 == k / per && x.2.1 == k % per with
    | some x => leBytes 4 (packFields [(24, x.2.2.1), (1, 1), (1, b2n x.2.2.2)])
    | none => leBytes 4 0
  let table := (List.range (r.tok * r.k)).flatMap fun k =>
    leBytes 8 ((b.words.find? fun w => w.1 == k).map (·.2) |>.getD 0)
  leBytes 64 head ++ fitBytes (r.tokenTable - 64) lists ++ table

/-- ROUTE: the table of the running frame's parity is built from the logits as they stand; it is complete, and visible, after the cycles
of R149. Its gates count as conversions into storage of the route's tensor (R156, R165), and poison in what it reads marks the table
(R257). -/
def startRoute (i : Issue) (s : State) : State :=
  let d := unitDie i.unit
  let r := routeOf (s.descOf i)
  let n := r.tok * r.experts
  let logits := s.anyTouch i.unit i.ctx r.logits (2 * n)
  let other := logits.1.anyTouch i.unit i.ctx (2 ^ 63 + r.buffer (1 - s.clock.frame % 2)) (r.tokenTable + 8 * r.tok * r.k)
  let s := other.1
  let all := s.allChoices d r
  let b := s.buildRoute d r all
  let s := (s.stored d (all.map Choice.gate)).reportMax r.tensor (all.map Choice.value)
  let s := s.count 0x7020 (d + 1) b.placed
  let s := s.count 0x7021 (d + 1) b.deferred
  let s := s.count 0x7022 (d + 1) b.dropped
  s.startWork 5 i (some (256 + cdiv n 8192 + cdiv (r.tok * r.k) 64))
    (.bytes (r.buffer (s.clock.frame % 2)) (b.bytes r (s.clock.frame % 2 ^ 48)) (logits.2 || other.2))

def execRoute (i : Issue) (s : State) : Host.Outcome State Fault Refusal := goOn (s.gate 5 i startRoute)

/-- ROUTE_COMPLETE: the route table is in the operand store (R149). -/
def routeComplete (d : Nat) (s : State) : State :=
  match (s.unit (0x30 + d)).work with
  | some w =>
    match w.cmd.op, w.load, w.left with
    | 5, .bytes at_ data poison, some 0 => ((s.opWrite d at_ data poison).endWork (0x30 + d)).settle
    | _, _, _ => s
  | none => s

def execRouteComplete (d : Nat) (s : State) : Host.Outcome State Fault Refusal := goOn (routeComplete d s)

end Sys2Proof.Machine
end

