-- ==== Sys2Proof/Machine/Nagauk.lean ====
section
/-! DEFINITION. Nagauk: the services of Table 15.3 on CAN FD (R392–R395) and in band (R399), sessions (R397), the end of a settings
write (R390), and bus-off (R392). -/

namespace Sys2Proof.Machine

/-! ### Requests -/

/-- A request as the server takes it: its path and key (node on CAN FD, TAG in band), its service, header and data; `reply` is the
identifier of the answer on CAN FD, its ADDR in band. -/
structure Request where
  inBand : Bool
  key : Nat
  service : Nat
  payload : List Byte
  reply : Nat
  deriving DecidableEq, Repr

/-- The role of a path (R388). -/
def Request.role (r : Request) : Role := if r.inBand then .host else .mgmt

/-- The data bytes of a message (R395, R399). -/
def Request.room (r : Request) : Nat := if r.inBand then 228 else 56

/-- A field of the header. -/
def Request.byte (r : Request) (n : Nat) : Nat := leNat ((r.payload.drop n).take 1)

def Request.index (r : Request) : Nat := leNat (r.payload.take 2)

def Request.sub (r : Request) : Nat := r.byte 2

/-- Header bytes that a service leaves zero, and a whole header (Table 15.3, R396). -/
def Request.clean (r : Request) : Bool :=
  let zero := match r.service with
    | 1 => [3, 4, 5, 6, 7]
    | 2 => [6, 7]
    | 3 => []
    | 4 => [0, 3, 6, 7]
    | _ => [0, 1, 2, 3, 4, 5, 6, 7]
  decide (8 ≤ r.payload.length) && zero.all fun n => r.byte n == 0

/-- An answer header of 8 bytes with data after it. -/
def answerBytes (header : List Nat) (data : List Byte) : List Byte := fitBytes 8 (header.map fun x => BitVec.ofNat 8 x) ++ data

/-- A length as a field of two bytes; what the field reads for a longer value is free (log 2). -/
def lengthField (key n : Nat) : Nat := if n < 65536 then n else Config.freeCounter key n % 65536

/-! ### READ, WRITE, IDENTIFY (R391, R395) -/

/-- READ: the value, or TOO_LONG with its length. The type is that of the object where the object exists (log 73). -/
def State.serveRead (s : State) (r : Request) : List Byte :=
  let status := s.readStatus r.role r.index r.sub
  let type := if status = 1 ∨ status = 2 then 0 else objType r.index r.sub
  if status ≠ 0 then answerBytes [status, type] []
  else
    let v := s.readValue r.index r.sub
    let n := lengthField (objKey r.index r.sub) v.length
    let head := fun (st : Nat) => [st, type, n % 256, n / 256]
    if r.room < v.length then answerBytes (head 9) [] else answerBytes (head 0) v

/-- WRITE: the header's length bounds the value. -/
def State.serveWrite (s : State) (r : Request) : State × Nat :=
  let n := leNat ((r.payload.drop 4).take 2)
  let status := s.writeStatus r.role r.index r.sub
  if status ≠ 0 then (s, status)
  else if r.room < n then (s, 9)
  else if (r.payload.drop 8).length < n then (s, 8)
  else s.register r.index r.sub (r.byte 3) ((r.payload.drop 8).take n)

/-- IDENTIFY: objects 0x1000.02, 0x1000.03, 0x1000.04 and 0x1002.01. -/
def State.identity (s : State) : List Byte :=
  s.readValue 0x1000 2 ++ s.readValue 0x1000 3 ++ s.readValue 0x1000 4 ++ s.readValue 0x1002 1

/-! ### Sessions (R397) -/

/-- The session of a path and key. -/
def State.session (s : State) (inBand : Bool) (key : Nat) : Option Session :=
  s.server.sessions.find? fun x => x.inBand == inBand && x.key == key

/-- Ends a session. -/
def State.endSession (s : State) (inBand : Bool) (key : Nat) : State :=
  { s with server := { s.server with sessions := s.server.sessions.filter fun x => !(x.inBand == inBand && x.key == key) } }

/-- Puts a session in the place of the one with its key. -/
def State.putSession (s : State) (x : Session) : State :=
  { s with server := { s.server with sessions := (s.endSession x.inBand x.key).server.sessions ++ [x] } }

/-- The sessions of a path are all in use: 8 on CAN FD, 16 in band. -/
def State.sessionsFull (s : State) (inBand : Bool) : Bool :=
  decide ((if inBand then 16 else 8) ≤ (s.server.sessions.filter fun x => x.inBand == inBand).length)

/-- SEG_INIT: an open session of the key is discarded; the new one starts where the checks of a READ or WRITE pass (R397). -/
def State.serveInit (s : State) (r : Request) : State × List Byte :=
  let s := s.endSession r.inBand r.key
  let total := leNat ((r.payload.drop 4).take 4)
  let writing := r.byte 3 == 1
  let type := objType r.index r.sub
  let status := if writing then s.writeStatus r.role r.index r.sub else s.readStatus r.role r.index r.sub
  let fixed := typeLen type
  let x : Session :=
    { inBand := r.inBand
      key := r.key
      role := r.role
      index := r.index
      sub := r.sub
      writing := writing
      data := []
      total := total
      seq := 0
      prev := none
      idle := 0 }
  if 1 < r.byte 3 then (s, answerBytes [0xE] [])
  else if status ≠ 0 then (s, answerBytes [status, if status = 1 ∨ status = 2 then 0 else type] [])
  else if s.sessionsFull r.inBand then (s, answerBytes [0xA, type] [])
  else if writing then
    if fixed ≠ 0 ∧ total ≠ fixed then (s, answerBytes [8, type] [])
    else (s.putSession x, (answerBytes [0, type] []).take 4 ++ leBytes 4 total)
  else
    let v := s.readValue r.index r.sub
    (s.putSession { x with data := v, total := v.length }, (answerBytes [0, type] []).take 4 ++ leBytes 4 v.length)

/-- The answer to a SEG: status, SEQ, LAST, length and data. -/
def segAnswer (status seq last : Nat) (data : List Byte) : List Byte :=
  answerBytes [status, seq, last, 0, data.length % 256, data.length / 256] data

/-- A SEG of a reading session: the next data, LAST with the final segment. -/
def State.segRead (s : State) (r : Request) (x : Session) : State × List Byte :=
  let data := x.data.take r.room
  let rest := x.data.drop r.room
  let last := rest.isEmpty
  let a := segAnswer 0 x.seq (b2n last) data
  if last then (s.endSession x.inBand x.key, a)
  else (s.putSession { x with data := rest, seq := (x.seq + 1) % 256, prev := some a, idle := 0 }, a)

/-- A SEG of a writing session: the data is buffered; on LAST the value is written whole if its length is the total. -/
def State.segWrite (s : State) (r : Request) (x : Session) : State × List Byte :=
  let n := leNat ((r.payload.drop 4).take 2)
  if r.room < n ∨ (r.payload.drop 8).length < n then (s, segAnswer 8 x.seq 0 [])
  else
    let buffer := x.data ++ (r.payload.drop 8).take n
    if r.byte 2 = 0 then
      let a := segAnswer 0 x.seq 0 []
      (s.putSession { x with data := buffer, seq := (x.seq + 1) % 256, prev := some a, idle := 0 }, a)
    else
      let s := s.endSession x.inBand x.key
      if buffer.length ≠ x.total then (s, segAnswer 8 x.seq 0 [])
      else
        let status := s.writeStatus x.role x.index x.sub
        let w := if status ≠ 0 then (s, status) else s.store x.index x.sub buffer
        (w.1, segAnswer w.2 x.seq 0 [])

/-- SEG (Table 15.5). -/
def State.serveSeg (s : State) (r : Request) : State × List Byte :=
  match s.session r.inBand r.key with
  | none => (s, segAnswer 0xC (r.byte 1) 0 [])
  | some x =>
    if r.byte 1 = x.seq then (if x.writing then s.segWrite r x else s.segRead r x)
    else match x.prev with
      | some a =>
        if (r.byte 1 + 1) % 256 = x.seq then (s.putSession { x with idle := 0 }, a)
        else (s.endSession r.inBand r.key, segAnswer 0xB (r.byte 1) 0 [])
      | none => (s.endSession r.inBand r.key, segAnswer 0xB (r.byte 1) 0 [])

/-! ### Answers -/

/-- The CAN FD payload length that holds `n` bytes (R395). -/
def canLength (n : Nat) : Nat := ([8, 12, 16, 20, 24, 32, 48, 64].find? fun k => decide (n ≤ k)).getD 64

/-- Sends an answer: a CAN FD frame padded with zeros, or a MGMT flit of class 4 (R394, R395, R399). -/
def State.sendAnswer (s : State) (inBand : Bool) (reply : Nat) (payload : List Byte) : State :=
  if inBand then s.toHost (plainFlit 0xD 4 0 reply payload)
  else { s with server := { s.server with canOut := s.server.canOut ++ [(reply, fitBytes (canLength payload.length) payload)] } }

/-- Sends an answer and counts it by its status (R396). -/
def State.reply (s : State) (r : Request) (payload : List Byte) : State :=
  (s.counted (leNat (payload.take 1))).sendAnswer r.inBand r.reply payload

/-- The answer that a settings write owes comes when the flash write has ended (R390): it is kept, and sent then. -/
def State.replyLater (was s : State) (r : Request) (payload : List Byte) : State :=
  match was.server.saving, s.server.saving with
  | none, some x => { s with server := { s.server with saving := some (x.1, some (r.inBand, r.reply, payload)) } }
  | _, _ => s.reply r payload

/-- Serves a request of one of the services of Table 15.3; any other service, and a non-zero reserved byte, is BAD_REQUEST. -/
def State.serve (s : State) (r : Request) : State :=
  if !r.clean then s.reply r (answerBytes [0xE] [])
  else match r.service with
    | 1 => s.reply r (s.serveRead r)
    | 2 => let w := s.serveWrite r; replyLater s w.1 r (answerBytes [w.2] [])
    | 3 => let w := s.serveInit r; w.1.reply r w.2
    | 4 => let w := s.serveSeg r; replyLater s w.1 r w.2
    | 5 => (s.endSession r.inBand r.key).reply r (answerBytes [0] [])
    | 6 => s.reply r (answerBytes [0] s.identity)
    | _ => s.reply r (answerBytes [0xE] [])

/-! ### The two paths (R393, R394, R399) -/

/-- A CAN FD frame as a request: a 29-bit identifier with RESP 0 and DST the node id, which is not 0, and the port not in bus-off. -/
def State.canRequest (s : State) (id : Nat) (payload : List Byte) : Option Request :=
  let src := bits id 13 7
  if s.server.busOff || s.node == 0 || decide (2 ^ 29 ≤ id) || bit id 25 || bits id 20 14 != s.node || decide (64 < payload.length) then none
  else some
    { inBand := false
      key := src
      service := bits id 24 21
      payload := payload
      reply := packFields [(7, bits id 6 0), (7, s.node), (7, src), (4, bits id 24 21), (1, 1), (3, bits id 28 26)] }

/-- The ADDR of an answer in band: SERVICE, RESP set, and the request's TAG. -/
def replyAddr (addr : Nat) : Nat := packFields [(4, bits addr 3 0), (1, 1), (11, 0), (16, bits addr 31 16)]

/-- A message of the in-band ring as a request. -/
def ringRequest (x : Nat × List Byte) : Request :=
  { inBand := true
    key := bits x.1 31 16
    service := bits x.1 3 0
    payload := x.2
    reply := replyAddr x.1 }

/-- The request of a message, with the state that has taken it from its path. -/
def State.requestOf (s : State) (m : Message) : Option Request × State :=
  match m with
  | .can id payload => (s.canRequest id payload, s)
  | .inBand => match s.server.ring with
    | x :: rest => (some (ringRequest x), { s with server := { s.server with ring := rest } })
    | [] => (none, s)

/-- A Nagauk message of a service, or of a reserved one, is served; the server is silent while cluster C is in reset (R398). -/
def State.message (s : State) (service : Nat) (m : Message) : State :=
  if !s.serves then s
  else match s.requestOf m with
    | (some r, t) => if r.service = service ∨ r.service = 0 ∨ 6 < r.service then t.serve r else s
    | (none, _) => s

def execNagaukRead (m : Message) (s : State) : Host.Outcome State Fault Refusal := goOn (s.message 1 m)

def execNagaukWrite (m : Message) (s : State) : Host.Outcome State Fault Refusal := goOn (s.message 2 m)

def execSegInit (m : Message) (s : State) : Host.Outcome State Fault Refusal := goOn (s.message 3 m)

def execSeg (m : Message) (s : State) : Host.Outcome State Fault Refusal := goOn (s.message 4 m)

def execNagaukAbort (m : Message) (s : State) : Host.Outcome State Fault Refusal := goOn (s.message 5 m)

def execIdentify (m : Message) (s : State) : Host.Outcome State Fault Refusal := goOn (s.message 6 m)

/-- SESSION_TIMEOUT: 100 ms have passed without a SEG; the buffer is discarded without an answer (R397). -/
def execSessionTimeout (inBand : Bool) (key : Nat) (s : State) : Host.Outcome State Fault Refusal := goOn (s.endSession inBand key)

/-- A MGMT flit keeps the layout of R399. -/
def mgmtOk (f : Flit) : Bool := bits f.addr 15 5 == 0 && bits f.addr 47 32 == 0 && decide (8 ≤ f.payload.length)

/-- A request joins the in-band ring of 64 and raises PLIC source 7, or finds it full and is answered BUSY at once (R399). -/
def takeMgmt (p : Nat) (f : Flit) (s : State) : State :=
  if !mgmtOk f then s.dropInvalid p f
  else if bit f.addr 4 || !s.serves then s
  else if 64 ≤ s.server.ring.length then
    (s.counted 0xA).sendAnswer true (replyAddr f.addr) (answerBytes [0xA] [])
  else ({ s with server := { s.server with ring := s.server.ring ++ [(f.addr, f.payload)] } }).plic 1 7

def execMgmtFlitReceive (port : Nat) (raw : List Byte) (s : State) : Host.Outcome State Fault Refusal :=
  goOn (receive port raw (ofType 0xD) takeMgmt s)

/-! ### The end of a settings write (R390) -/

/-- STORE_SETTINGS_COMPLETE: the settings area holds the new record, or none, and the answer is sent. -/
def storeComplete (s : State) : State :=
  match s.server.saving with
  | none => s
  | some (settings, owed) =>
    let s := ({ s with server := { s.server with stored := settings, saving := none } }).counted 0
    match owed with
    | some (inBand, reply, payload) => s.sendAnswer inBand reply payload
    | none => s

def execStoreSettingsComplete (s : State) : Host.Outcome State Fault Refusal := goOn (storeComplete s)

/-! ### Bus-off (R392) -/

/-- CAN_BUS_OFF: counted in object 0x1003.04; the port takes and sends no frame until it recovers. -/
def busOff (s : State) : State :=
  if s.server.busOff then s else { s with server := { s.server with busOff := true } }.count 0x1003 4 1

def execCanBusOff (s : State) : Host.Outcome State Fault Refusal := goOn (busOff s)

/-- CAN_BUS_OFF_RECOVERY: 128 occurrences of 11 recessive bits have passed. -/
def execCanBusOffRecovery (s : State) : Host.Outcome State Fault Refusal :=
  goOn { s with server := { s.server with busOff := false } }

end Sys2Proof.Machine
end

