-- ==== Sys2Proof/Machine/Pending.lean ====
section
/-! DEFINITION. A pending command takes effect (R44, R60, R70, R71, R84). -/

namespace Sys2Proof.Machine

/-- A command of frame control takes effect. -/
def takeUpFrame (op : Nat) (i : Issue) (s : State) : State :=
  match op with
  | 1 => startCall i s
  | 2 => startCommitPoint i s
  | 3 => startHalt i s
  | 4 => startMark i s
  | _ => startNop i s

/-- A command of a Frond unit takes effect, by unit class and opcode (Table 2.5). -/
def takeUpFrond (op : Nat) (i : Issue) (s : State) : State :=
  match unitClass i.unit, op with
  | 1, 1 => startMatmul i s
  | 2, 1 => startSpmm i s
  | 2, 2 => startScore i s
  | 3, 1 => startLoad 1 i s
  | 3, 2 => startLoad 2 i s
  | 3, 3 => startSwap i s
  | 4, 1 => startKernel i s
  | 4, 2 => startUpdate i s
  | 4, 3 => startPrune i s
  | 4, 4 => startRegrow i s
  | 4, 5 => startRoute i s
  | _, _ => startMode op i s

/-- A command of a memory controller, a port, a cluster, the Locket unit, the marker or the fence unit takes effect. -/
def takeUpOther (op : Nat) (i : Issue) (s : State) : State :=
  match unitClass i.unit, op with
  | 5, 1 => startRead i s
  | 5, 2 => startWrite i s
  | 5, 3 => startCopy i s
  | 5, 4 => startReduce i s
  | 6, 1 | 7, 1 => startSend i s
  | 6, 2 | 7, 2 => startRecv i s
  | 6, 3 => startBcast i s
  | 8, 1 => startPost i s
  | 9, 1 => startSeal i s
  | 10, 1 => startPhase i s
  | 10, 2 => startFloor i s
  | 11, 1 => startFence i s
  | _, _ => startMode op i s

/-- A command takes effect at its unit. -/
def takeUp (op : Nat) (i : Issue) (s : State) : State :=
  if unitClass i.unit = 0 then takeUpFrame op i s
  else if frondUnit i.unit then takeUpFrond op i s
  else takeUpOther op i s

/-- Nothing but the unit's own work holds its oldest pending command: the rules that held it at the gate
(R22, R43, R70, R71). -/
def State.mayTakeUp (s : State) (c : Cmd) : Bool :=
  s.power.on && s.dispatching && !(s.unit c.issue.unit).inReset && !s.held c.issue && s.ready c.op c.issue

/-- The unit's oldest pending command takes effect in this cycle. -/
def State.takesUp (s : State) (u : Nat) : Bool :=
  match (s.unit u).waiting with
  | c :: _ => !s.busy u && s.mayTakeUp c
  | [] => false

/-- PENDING_COMMAND_START: the earlier work is complete, and the oldest pending command takes effect; one that breaks the
shadow rules does not run (R44, R48). -/
def pendingStart (u : Nat) (s : State) : State :=
  match (s.unit u).waiting with
  | c :: rest =>
    if s.takesUp u then
      let t := s.onUnit u fun x => { x with waiting := rest }
      if t.shadowOk c.op c.issue then takeUp c.op c.issue (t.current c.op c.issue) else t.invalid c.issue
    else s
  | [] => s

def execPendingCommandStart (unit : Nat) (s : State) : Host.Outcome State Fault Refusal := goOn (pendingStart unit s)

end Sys2Proof.Machine
end

