-- ==== Sys2Proof/Machine/Reserve.lean ====
section
/-! DEFINITION. The background reserve: its intrusions, its work and the postponements (R58, R59, R243, R266, R384). -/

namespace Sys2Proof.Machine

/-! ### Intrusions (R59) -/

/-- A unit's running work belongs to another context than 2 as its reserve begins. -/
def State.intrudes (s : State) (u : Nat) : Bool :=
  s.unfinished u && !(((s.unit u).work.toList ++ (s.unit u).tails).all fun w => w.cmd.issue.ctx == 2)

/-- Cycles of a unit as reference cycles: a Frond unit counts cycles of its Frond's clock. -/
def State.refCycles (s : State) (u n : Nat) : Nat :=
  if frondUnit u then cdiv (1250 * n) (s.get 0x2004 (unitDie u + 1)) else n

/-- Work that ends by an event of its own, which cannot be foreseen: a drain-fed kernel, a window, and work that an injection stalls. -/
def Work.endless (w : Work) : Bool :=
  w.stuck || (w.left.isNone && match w.load with
    | .moving _ _ _ _ _ | .gathering _ _ | .sparse _ => false
    | _ => true)

/-- The cycles of a reserve of `r` cycles that a unit's intruding work takes; work without an end of its own takes them all. -/
def State.intrusionOf (s : State) (u r : Nat) : Nat :=
  if !s.intrudes u then 0
  else if ((s.unit u).work.toList ++ (s.unit u).tails).any Work.endless then r
  else min r (s.refCycles u (s.remaining u))

/-! ### The items of Table 14.8 -/

/-- No frame of a stream runs, so that a retraining needs no reserve. -/
def State.freeFrame (s : State) : Bool := !s.running || s.waitFrame

/-- The blocks of each stack that a frame scrubs: at least one, and enough to finish the pass within the period (R266). -/
def State.scrubBlocks (s : State) : Nat := max 1 (cdiv (stackBytes / 512 * s.flen) (s.get 0x4030 1 * 1250000000))

/-- The items of a unit's reserve in order, each with its cycles: static shares; a retraining that is due; calibration; scrub;
telemetry; link adaptation. Telemetry is taken on every controller, as the example of R384 does. -/
def State.reserveItems (s : State) (u : Nat) : List (Nat × Nat) :=
  (if controlDomains.any fun d => domainUnit d u then [(1, 64)] else []) ++
  (if 0x40 ≤ u ∧ u ≤ 0x4B then
    (if s.mem.retrainDue.contains (u - 0x40) then [(2, if s.freeFrame then 0 else 512)] else []) ++
      [(4, 2 * s.scrubBlocks), (5, 128)]
  else [])

/-- Splits items into those that fit into `room` cycles, in order, and those that do not. -/
def fitItems : Nat → List (Nat × Nat) → List Nat × Nat
  | _, [] => ([], 0)
  | room, x :: t =>
    if x.2 ≤ room then
      let r := fitItems (room - x.2) t
      (x.1 :: r.1, r.2)
    else
      let r := fitItems room t
      (r.1, r.2 + 1)

/-- Scrubs the next blocks of a stack in class 3, but for poisoned ones (R257), and ends its pass after the last (R265, R266). -/
def State.scrub (s : State) (k : Nat) : State :=
  let at_ := s.get 0x4031 (k + 1)
  let total := stackBytes / 512
  let n := min s.scrubBlocks (total - at_)
  let s := (List.range n).foldl (fun (s : State) j =>
    s.ask { ask := .scrub (2 ^ 28 * k + at_ + j), packet := s.packet (0x40 + k) 2 3 (k / 4) (k / 4) [] false .landed }) s
  if at_ + n < total then s.put 0x4031 (k + 1) (at_ + n)
  else
    let s := (s.put 0x4031 (k + 1) 0).count 0x4032 1 1
    { s with mem := { s.mem with scrubTime := kset 0 s.mem.scrubTime k 0 } }

/-- The counters of the dictionary with their values, and the last snapshots, as a record of kind 2 in the telemetry buffer. -/
def State.collect (s : State) : State :=
  let counters := (s.dict.filter fun p => (objRow (p.1 / 256) (p.1 % 256)).any fun r => r.access == .ro).flatMap fun p => [p.1, p.2]
  { s with thallus := { s.thallus with
    telemetry := ([2, s.clock.frame, s.clock.cycle] ++ counters ++ s.faults.snapshots.map fun p => p.2) :: s.thallus.telemetry } }

/-- The channel that is due of a controller's stack is retrained, which takes it for 512 cycles; a training that fails raises
HBM_TRAIN_FAIL (R243). -/
def State.retrain (s : State) (u : Nat) : State :=
  let s := { s with mem := { s.mem with
    retrainDue := s.mem.retrainDue.filter fun k => k != u - 0x40
    retraining := s.mem.retraining ++ [(u - 0x40, s.mem.retrainChannel, 512)] } }
  if s.faults.corrupt.contains (0x206, u) then
    ({ s with faults := { s.faults with corrupt := s.faults.corrupt.erase (0x206, u) } }).raise 0x206 u (unitDie u) 2 0
  else s

/-- An item of a unit's reserve runs. -/
def State.runItem (s : State) (u item : Nat) : State :=
  match item with
  | 2 => s.retrain u
  | 4 => s.scrub (u - 0x40)
  | 5 => if u = 0x44 then s.collect else s
  | _ => s

/-- A unit's reserve of `r` cycles: its intrusion shortens it, what fits runs, and what an intrusion leaves no room for is
postponed and counted. -/
def State.reserveUnit (s : State) (r u : Nat) : State :=
  let x := s.intrusionOf u r
  let f := fitItems (r - x) (s.reserveItems u)
  let s := if x = 0 then s else s.onUnit u fun y => { y with intrusion := x }
  let s := if x = 0 ∨ f.2 = 0 then s else s.count 0x2060 1 f.2
  f.1.foldl (fun (s : State) item => s.runItem u item) s

/-- A retraining that is due finds a frame that could hold it. -/
def State.noteRoom (s : State) (r : Nat) : State :=
  if s.mem.retrainDue.isEmpty || !(s.freeFrame || decide (576 ≤ r)) then s
  else { s with mem := { s.mem with retrainRoom := true } }

/-- BACKGROUND_RESERVE_START: reserve intrusions are counted, the work of Table 14.8 runs, and frame control calls table 0xFF
in context 2. -/
def backgroundReserveStart (s : State) : State :=
  if !s.power.on then s
  else
    let s := s.count 0x6041 2 (unitIds.filter s.intrudes).length
    let r := s.reserveCycles s.flen
    let s := unitIds.foldl (fun (s : State) u => s.reserveUnit r u) (s.noteRoom r)
    if s.hasBackground && s.callOk 0xFF s.clock.cycle s.flen then s.callTable 0xFF 2 0 else s

def execBackgroundReserveStart (s : State) : Host.Outcome State Fault Refusal := goOn (backgroundReserveStart s)

end Sys2Proof.Machine
end

