-- ==== Sys2Proof/Machine/Dispatch.lean ====
section
/-! DEFINITION. The meaning of each command: one arm per constructor of Instr. -/

namespace Sys2Proof.Machine

def exec (i : Instr) (s : State) : Host.Outcome State Fault Refusal :=
  match i with
  | .nop x => Sys2Proof.Machine.execNop x s
  | .call x => Sys2Proof.Machine.execCall x s
  | .commitPoint x => Sys2Proof.Machine.execCommitPoint x s
  | .halt x => Sys2Proof.Machine.execHalt x s
  | .mark x => Sys2Proof.Machine.execMark x s
  | .arrayIdle x => Sys2Proof.Machine.execArrayIdle x s
  | .matmul x => Sys2Proof.Machine.execMatmul x s
  | .arrayHold x => Sys2Proof.Machine.execArrayHold x s
  | .sorusIdle x => Sys2Proof.Machine.execSorusIdle x s
  | .spmm x => Sys2Proof.Machine.execSpmm x s
  | .score x => Sys2Proof.Machine.execScore x s
  | .sorusHold x => Sys2Proof.Machine.execSorusHold x s
  | .feederIdle x => Sys2Proof.Machine.execFeederIdle x s
  | .loadw x => Sys2Proof.Machine.execLoadw x s
  | .loadwT x => Sys2Proof.Machine.execLoadwT x s
  | .swap x => Sys2Proof.Machine.execSwap x s
  | .filigreeIdle x => Sys2Proof.Machine.execFiligreeIdle x s
  | .kernel x => Sys2Proof.Machine.execKernel x s
  | .update x => Sys2Proof.Machine.execUpdate x s
  | .prune x => Sys2Proof.Machine.execPrune x s
  | .regrow x => Sys2Proof.Machine.execRegrow x s
  | .route x => Sys2Proof.Machine.execRoute x s
  | .mcIdle x => Sys2Proof.Machine.execMcIdle x s
  | .read x => Sys2Proof.Machine.execRead x s
  | .write x => Sys2Proof.Machine.execWrite x s
  | .copy x => Sys2Proof.Machine.execCopy x s
  | .reduce x => Sys2Proof.Machine.execReduce x s
  | .portIdle x => Sys2Proof.Machine.execPortIdle x s
  | .portSend x => Sys2Proof.Machine.execPortSend x s
  | .portRecv x => Sys2Proof.Machine.execPortRecv x s
  | .bcast x => Sys2Proof.Machine.execBcast x s
  | .stavlinkIdle x => Sys2Proof.Machine.execStavlinkIdle x s
  | .stavlinkSend x => Sys2Proof.Machine.execStavlinkSend x s
  | .stavlinkRecv x => Sys2Proof.Machine.execStavlinkRecv x s
  | .post x => Sys2Proof.Machine.execPost x s
  | .seal x => Sys2Proof.Machine.execSeal x s
  | .phase x => Sys2Proof.Machine.execPhase x s
  | .floor x => Sys2Proof.Machine.execFloor x s
  | .fence x => Sys2Proof.Machine.execFence x s
  | .pendingCommandStart unit => Sys2Proof.Machine.execPendingCommandStart unit s
  | .loadwComplete die => Sys2Proof.Machine.execLoadwComplete die s
  | .swapComplete die => Sys2Proof.Machine.execSwapComplete die s
  | .matmulComplete unit => Sys2Proof.Machine.execMatmulComplete unit s
  | .spmmComplete die => Sys2Proof.Machine.execSpmmComplete die s
  | .kernelComplete die => Sys2Proof.Machine.execKernelComplete die s
  | .updatePartComplete die => Sys2Proof.Machine.execUpdatePartComplete die s
  | .routeComplete die => Sys2Proof.Machine.execRouteComplete die s
  | .transferComplete unit => Sys2Proof.Machine.execTransferComplete unit s
  | .fenceComplete ctx => Sys2Proof.Machine.execFenceComplete ctx s
  | .reduceWindowExpiry unit => Sys2Proof.Machine.execReduceWindowExpiry unit s
  | .sealComplete => Sys2Proof.Machine.execSealComplete s
  | .frameTick => Sys2Proof.Machine.execFrameTick s
  | .streamFetch => Sys2Proof.Machine.execStreamFetch s
  | .backgroundReserveStart => Sys2Proof.Machine.execBackgroundReserveStart s
  | .frameSyncEdge => Sys2Proof.Machine.execFrameSyncEdge s
  | .syncLost => Sys2Proof.Machine.execSyncLost s
  | .planFix controllerReady => Sys2Proof.Machine.execPlanFix controllerReady s
  | .bridgeFail east eastward units address => Sys2Proof.Machine.execBridgeFail east eastward units address s
  | .streamFlitReceive port raw => Sys2Proof.Machine.execStreamFlitReceive port raw s
  | .bstoreReceive port raw => Sys2Proof.Machine.execBstoreReceive port raw s
  | .breduceReceive port raw => Sys2Proof.Machine.execBreduceReceive port raw s
  | .bloadReceive port raw => Sys2Proof.Machine.execBloadReceive port raw s
  | .bloadRspReceive port raw => Sys2Proof.Machine.execBloadRspReceive port raw s
  | .bamoReceive port raw => Sys2Proof.Machine.execBamoReceive port raw s
  | .bamoRspReceive port raw => Sys2Proof.Machine.execBamoRspReceive port raw s
  | .heartbeatReceive port raw => Sys2Proof.Machine.execHeartbeatReceive port raw s
  | .censusReceive port raw => Sys2Proof.Machine.execCensusReceive port raw s
  | .poisonStepReceive port raw => Sys2Proof.Machine.execPoisonStepReceive port raw s
  | .nakReceive port raw => Sys2Proof.Machine.execNakReceive port raw s
  | .creditReceive port raw => Sys2Proof.Machine.execCreditReceive port raw s
  | .degradeReceive port raw => Sys2Proof.Machine.execDegradeReceive port raw s
  | .retrainDoneReceive port raw => Sys2Proof.Machine.execRetrainDoneReceive port raw s
  | .linkDegraded port => Sys2Proof.Machine.execLinkDegraded port s
  | .portRetrainComplete port trained => Sys2Proof.Machine.execPortRetrainComplete port trained s
  | .portStall port => Sys2Proof.Machine.execPortStall port s
  | .boardLoadTimeout request => Sys2Proof.Machine.execBoardLoadTimeout request s
  | .streamUnmatched => Sys2Proof.Machine.execStreamUnmatched s
  | .heartbeatLost => Sys2Proof.Machine.execHeartbeatLost s
  | .censusClose => Sys2Proof.Machine.execCensusClose s
  | .routingBankSwitch => Sys2Proof.Machine.execRoutingBankSwitch s
  | .locketDataReceive port raw => Sys2Proof.Machine.execLocketDataReceive port raw s
  | .locketAckReceive port raw => Sys2Proof.Machine.execLocketAckReceive port raw s
  | .locketCompare => Sys2Proof.Machine.execLocketCompare s
  | .deltaAckReceive port raw => Sys2Proof.Machine.execDeltaAckReceive port raw s
  | .readySend => Sys2Proof.Machine.execReadySend s
  | .readyReceive port raw => Sys2Proof.Machine.execReadyReceive port raw s
  | .coordinatorDecision => Sys2Proof.Machine.execCoordinatorDecision s
  | .commitTimeout => Sys2Proof.Machine.execCommitTimeout s
  | .commitReceive port raw => Sys2Proof.Machine.execCommitReceive port raw s
  | .abortReceive port raw => Sys2Proof.Machine.execAbortReceive port raw s
  | .revertStart => Sys2Proof.Machine.execRevertStart s
  | .revertDone => Sys2Proof.Machine.execRevertDone s
  | .revertedReceive port raw => Sys2Proof.Machine.execRevertedReceive port raw s
  | .restartReceive port raw => Sys2Proof.Machine.execRestartReceive port raw s
  | .outcomeReceive port raw => Sys2Proof.Machine.execOutcomeReceive port raw s
  | .outcomeDecision => Sys2Proof.Machine.execOutcomeDecision s
  | .fillReqReceive port raw => Sys2Proof.Machine.execFillReqReceive port raw s
  | .fillDataReceive port raw => Sys2Proof.Machine.execFillDataReceive port raw s
  | .locketReqReceive port raw => Sys2Proof.Machine.execLocketReqReceive port raw s
  | .faultReport r => Sys2Proof.Machine.execFaultReport r s
  | .firstFaultLatch => Sys2Proof.Machine.execFirstFaultLatch s
  | .frondHang unit => Sys2Proof.Machine.execFrondHang unit s
  | .unitHang unit => Sys2Proof.Machine.execUnitHang unit s
  | .thallusHang core pc cause => Sys2Proof.Machine.execThallusHang core pc cause s
  | .frondResetDone die passed => Sys2Proof.Machine.execFrondResetDone die passed s
  | .clusterResetDone die imageMatches => Sys2Proof.Machine.execClusterResetDone die imageMatches s
  | .moduleReset => Sys2Proof.Machine.execModuleReset s
  | .replayFrame => Sys2Proof.Machine.execReplayFrame s
  | .replayPass => Sys2Proof.Machine.execReplayPass s
  | .guiltyContext => Sys2Proof.Machine.execGuiltyContext s
  | .stitchLate => Sys2Proof.Machine.execStitchLate s
  | .programStart role => Sys2Proof.Machine.execProgramStart role s
  | .programStop role => Sys2Proof.Machine.execProgramStop role s
  | .syncTrackingArm role value => Sys2Proof.Machine.execSyncTrackingArm role value s
  | .clearFirstFault role value => Sys2Proof.Machine.execClearFirstFault role value s
  | .frondResetRequest role value => Sys2Proof.Machine.execFrondResetRequest role value s
  | .clusterResetRequest role value => Sys2Proof.Machine.execClusterResetRequest role value s
  | .dumpRequest role value => Sys2Proof.Machine.execDumpRequest role value s
  | .dumpHarvested role value => Sys2Proof.Machine.execDumpHarvested role value s
  | .storeSettings role value => Sys2Proof.Machine.execStoreSettings role value s
  | .restoreDefaults role value => Sys2Proof.Machine.execRestoreDefaults role value s
  | .maintenanceMode role value => Sys2Proof.Machine.execMaintenanceMode role value s
  | .holdStep role value => Sys2Proof.Machine.execHoldStep role value s
  | .holdRelease role value => Sys2Proof.Machine.execHoldRelease role value s
  | .updateVerify role => Sys2Proof.Machine.execUpdateVerify role s
  | .updateInstall role => Sys2Proof.Machine.execUpdateInstall role s
  | .installComplete => Sys2Proof.Machine.execInstallComplete s
  | .updateActivate role => Sys2Proof.Machine.execUpdateActivate role s
  | .activateStep => Sys2Proof.Machine.execActivateStep s
  | .updateRevert role => Sys2Proof.Machine.execUpdateRevert role s
  | .updateCommit role => Sys2Proof.Machine.execUpdateCommit role s
  | .updateAbandon role => Sys2Proof.Machine.execUpdateAbandon role s
  | .attestationNonce role nonce => Sys2Proof.Machine.execAttestationNonce role nonce s
  | .quoteComplete => Sys2Proof.Machine.execQuoteComplete s
  | .factoryToken role token => Sys2Proof.Machine.execFactoryToken role token s
  | .injectionRequest role request => Sys2Proof.Machine.execInjectionRequest role request s
  | .injectionFire => Sys2Proof.Machine.execInjectionFire s
  | .repairRequest role request => Sys2Proof.Machine.execRepairRequest role request s
  | .repairEvacuationDone => Sys2Proof.Machine.execRepairEvacuationDone s
  | .repairSoft => Sys2Proof.Machine.execRepairSoft s
  | .repairRestoreDone => Sys2Proof.Machine.execRepairRestoreDone s
  | .metadataAddress role value => Sys2Proof.Machine.execMetadataAddress role value s
  | .translateAddress role value => Sys2Proof.Machine.execTranslateAddress role value s
  | .portRestore role value => Sys2Proof.Machine.execPortRestore role value s
  | .configurationSwitchStep role value => Sys2Proof.Machine.execConfigurationSwitchStep role value s
  | .fenceRelease role value => Sys2Proof.Machine.execFenceRelease role value s
  | .censusRequest role value => Sys2Proof.Machine.execCensusRequest role value s
  | .resolve role value => Sys2Proof.Machine.execResolve role value s
  | .resume role value => Sys2Proof.Machine.execResume role value s
  | .restoreRecord role record => Sys2Proof.Machine.execRestoreRecord role record s
  | .reEncode role value => Sys2Proof.Machine.execReEncode role value s
  | .exportStep role value => Sys2Proof.Machine.execExportStep role value s
  | .exportDone role value => Sys2Proof.Machine.execExportDone role value s
  | .mailboxPop die => Sys2Proof.Machine.execMailboxPop die s
  | .registerWrite role index sub type value => Sys2Proof.Machine.execRegisterWrite role index sub type value s
  | .nagaukRead m => Sys2Proof.Machine.execNagaukRead m s
  | .nagaukWrite m => Sys2Proof.Machine.execNagaukWrite m s
  | .segInit m => Sys2Proof.Machine.execSegInit m s
  | .seg m => Sys2Proof.Machine.execSeg m s
  | .nagaukAbort m => Sys2Proof.Machine.execNagaukAbort m s
  | .identify m => Sys2Proof.Machine.execIdentify m s
  | .sessionTimeout inBand key => Sys2Proof.Machine.execSessionTimeout inBand key s
  | .mgmtFlitReceive port raw => Sys2Proof.Machine.execMgmtFlitReceive port raw s
  | .canBusOffRecovery => Sys2Proof.Machine.execCanBusOffRecovery s
  | .map core grant va => Sys2Proof.Machine.execMap core grant va s
  | .unmap core va => Sys2Proof.Machine.execUnmap core va s
  | .mboxRecv core buffer timeout => Sys2Proof.Machine.execMboxRecv core buffer timeout s
  | .mboxRecvTimeout core => Sys2Proof.Machine.execMboxRecvTimeout core s
  | .mboxSend core die message => Sys2Proof.Machine.execMboxSend core die message s
  | .slotSubmit core table buffer count span => Sys2Proof.Machine.execSlotSubmit core table buffer count span s
  | .slotStatus core table => Sys2Proof.Machine.execSlotStatus core table s
  | .yield core => Sys2Proof.Machine.execYield core s
  | .log core buffer length => Sys2Proof.Machine.execLog core buffer length s
  | .exit core status => Sys2Proof.Machine.execExit core status s
  | .quantumExpiry core => Sys2Proof.Machine.execQuantumExpiry core s
  | .userContextException core pc cause => Sys2Proof.Machine.execUserContextException core pc cause s
  | .powerUp => Sys2Proof.Machine.execPowerUp s
  | .inputRange millivolts => Sys2Proof.Machine.execInputRange millivolts s
  | .inputUndervoltage millivolts => Sys2Proof.Machine.execInputUndervoltage millivolts s
  | .inputOvervoltage millivolts => Sys2Proof.Machine.execInputOvervoltage millivolts s
  | .powerSample millivolts milliamps rails => Sys2Proof.Machine.execPowerSample millivolts milliamps rails s
  | .inputLimiter => Sys2Proof.Machine.execInputLimiter s
  | .overcurrent rail measured => Sys2Proof.Machine.execOvercurrent rail measured s
  | .regulatorFault rail measured => Sys2Proof.Machine.execRegulatorFault rail measured s
  | .droop rail => Sys2Proof.Machine.execDroop rail s
  | .droopRecovery rail => Sys2Proof.Machine.execDroopRecovery rail s
  | .thermalSample sensor sixteenths => Sys2Proof.Machine.execThermalSample sensor sixteenths s
  | .coefficientRecalibration measured => Sys2Proof.Machine.execCoefficientRecalibration measured s
  | .ageingCheck margins => Sys2Proof.Machine.execAgeingCheck margins s
  | .refclkLoss => Sys2Proof.Machine.execRefclkLoss s
  | .refclkReturn => Sys2Proof.Machine.execRefclkReturn s
  | .extest die => Sys2Proof.Machine.execExtest die s
  | .idcode die => Sys2Proof.Machine.execIdcode die s
  | .samplePreload die data => Sys2Proof.Machine.execSamplePreload die data s
  | .clamp die => Sys2Proof.Machine.execClamp die s
  | .highz die => Sys2Proof.Machine.execHighz die s
  | .bypass die => Sys2Proof.Machine.execBypass die s
  | .maskOpComplete unit => Sys2Proof.Machine.execMaskOpComplete unit s
  | .stitchComplete jobs => Sys2Proof.Machine.execStitchComplete jobs s
  | .verifyComplete => Sys2Proof.Machine.execVerifyComplete s
  | .storeSettingsComplete => Sys2Proof.Machine.execStoreSettingsComplete s
  | .repairComplete spare repaired => Sys2Proof.Machine.execRepairComplete spare repaired s
  | .idleReceive port raw => Sys2Proof.Machine.execIdleReceive port raw s
  | .canBusOff => Sys2Proof.Machine.execCanBusOff s
  | .boardSpaceAccess core address access => Sys2Proof.Machine.execBoardSpaceAccess core address access s

end Sys2Proof.Machine
end

