-- ==== Sys2Proof/Machine/Arrivals.lean ====
section
/-! DEFINITION. What is on its way takes effect: requests at the slices (R255, R258, R262, R263), packets that come out of a bridge,
and packets that arrive (R16, R19, R21, R250, R293). -/

namespace Sys2Proof.Machine

/-- A block, or bytes, of a unit's work have landed: a controller's transfer counts blocks, a receive entry bytes. -/
def State.credit (s : State) (p : Packet) : State :=
  if !p.own then s
  else if unitClass p.unit = 5 then s.blockLanded p.unit
  else s.recvLanded p.unit p.data.length

/-- The credit comes `n` cycles on. -/
def State.creditIn (s : State) (n : Nat) (p : Packet) : State :=
  if n = 0 then s.credit p else if p.own then s.arriveIn n { p with deed := .landed } else s

/-- A packet takes effect at the slice of its stack. The work it belongs to waits for HBM under STREAM, and for the reducer
(Table 10.5). -/
def State.putEffect (s : State) (p : Packet) : State :=
  match p.deed with
  | .write a tensor hint uses =>
    let extra := if hint = 1 ∧ !s.cached (a / 512) then 80 else 0
    (s.writeBytes p.ctx tensor a hint uses p.data p.poison).creditIn extra p
  | .reduce r base off => (s.reduceBytes r base off p.data p.poison).creditIn 16 p
  | .header _ j => (s.landLocal p j).creditIn 16 p
  | .piece _ src serial off => (s.landPiece p src serial off).creditIn 16 p
  | _ => s

/-- A read takes effect: its bytes are those the slice holds now, and go on when they are there. -/
def State.readEffect (s : State) (p : Packet) (a n hint uses : Nat) : State :=
  let delay := ((blocks a n).map s.readDelay).foldl max 0
  let data := s.hbmRead a n
  let r := (blocks a n).foldl (fun (r : State × Bool) b =>
    let x := r.1.readBlock p.unit p.ctx b hint uses
    (x.1, r.2 || x.2.2)) (s, false)
  r.1.arriveIn delay { p with data := data, poison := p.poison || r.2 }

/-- An atomic operation takes effect, and its old value goes back. -/
def State.amoEffect (s : State) (p : Packet) (a op n x : Nat) : State :=
  let delay := s.readDelay (a / 512)
  let r := s.atomic p.unit p.ctx a op n x
  let bytes := match p.deed with | .core _ => n | _ => 8
  r.1.arriveIn delay { p with data := leBytes bytes r.2.1, poison := p.poison || r.2.2 }

/-- A request takes effect at the slice of its stack. -/
def State.effect (s : State) (r : StackRequest) : State :=
  match r.ask with
  | .put => s.putEffect r.packet
  | .read a n hint uses => s.readEffect r.packet a n hint uses
  | .amo a op n x => s.amoEffect r.packet a op n x
  | .scrub b => if s.mem.poison.contains b then s else s.checkBlock b 2 304

/-- The requests that take effect in this cycle, in the order in which they were admitted. -/
def State.effects (s : State) : State :=
  let t := s.traffic
  match t.admitted.filter fun r => r.1 == 0 with
  | [] => s
  | due => due.foldl (fun (s : State) r => s.effect r.2) (s.setTraffic { t with admitted := t.admitted.filter fun r => r.1 != 0 })

/-- What a lane brings in this cycle goes on from the die it has come to. -/
def State.laneArrivals (s : State) (l : Nat) : State :=
  let x := s.lane l
  match x.wire.filter fun p => p.1 == 0 with
  | [] => s
  | due => due.foldl (fun (s : State) p => s.carry { p.2 with at_ := laneEnd l })
      (s.setLane l { x with wire := x.wire.filter fun p => p.1 != 0 })

/-- A packet does what it came for. -/
def State.perform (s : State) (p : Packet) : State :=
  match p.deed with
  | .store d off => (s.opWrite d off p.data p.poison).credit p
  | .home j => s.blockHome p j
  | .core c => s.coreData c p.data p.poison
  | .answer q type cls dst id => s.answer q p.unit type cls dst id p.data p.poison
  | .request ask q type cls dst id => s.takeRequest p ask q type cls dst id
  | .fill c a access => s.fillLine c a access p.data p.poison
  | .fillData dst tensor off =>
    s.originate 0 { resilFlit dst 0xA s.moduleId s.step32 (leBytes 8 (packFields [(32, tensor), (32, off / 4)]) ++ p.data) with poison := p.poison }
  | .mail d entry => s.pushMail d entry
  | .landed => s.credit p
  | _ => s

/-- A packet comes to the end of its way within a die: it goes on, waits for the bank it writes to (R248), or does what it came
for. -/
def State.arrive (s : State) (p : Packet) : State :=
  if p.at_ ≠ p.to_ || p.deed.place.isSome then s.carry p
  else match p.deed with
    | .store d off =>
      let bank := off / 512 % 64
      if s.bankTaken d bank then s.arriveIn 1 p else (s.claimBank d bank).perform p
    | _ => s.perform p

/-- The packets that arrive in this cycle. -/
def State.transitArrivals (s : State) : State :=
  let t := s.traffic
  match t.transit.filter fun p => p.1 == 0 with
  | [] => s
  | due => due.foldl (fun (s : State) p => s.arrive p.2) (s.setTraffic { t with transit := t.transit.filter fun p => p.1 != 0 })

/-- Everything that takes effect or arrives as a cycle begins. -/
def State.arrivals (s : State) : State :=
  let s := s.effects
  let s := if s.traffic.lanes.isEmpty then s else (List.range 4).foldl State.laneArrivals s
  s.transitArrivals

end Sys2Proof.Machine
end

