-- ==== Sys2Proof/Machine/Due.lean ====
section
/-! DEFINITION. What is due in a reference cycle before the cycle passes (log 9): the commands of the bundles issued in it, and
the events that follow at once from what stands in the state. -/

namespace Sys2Proof.Machine

/-! ### Commands of the stream as commands of the block -/

/-- The command of frame control by opcode (Table 2.5). -/
def frameInstr (op : Nat) (i : Issue) : Option Instr :=
  match op with
  | 0 => some (.nop i)
  | 1 => some (.call i)
  | 2 => some (.commitPoint i)
  | 3 => some (.halt i)
  | 4 => some (.mark i)
  | _ => none

/-- The command of a Frond unit by class and opcode. -/
def frondInstr (op : Nat) (i : Issue) : Option Instr :=
  match unitClass i.unit, op with
  | 1, 0 => some (.arrayIdle i)
  | 1, 1 => some (.matmul i)
  | 1, 2 => some (.arrayHold i)
  | 2, 0 => some (.sorusIdle i)
  | 2, 1 => some (.spmm i)
  | 2, 2 => some (.score i)
  | 2, 3 => some (.sorusHold i)
  | 3, 0 => some (.feederIdle i)
  | 3, 1 => some (.loadw i)
  | 3, 2 => some (.loadwT i)
  | 3, 3 => some (.swap i)
  | 4, 0 => some (.filigreeIdle i)
  | 4, 1 => some (.kernel i)
  | 4, 2 => some (.update i)
  | 4, 3 => some (.prune i)
  | 4, 4 => some (.regrow i)
  | 4, 5 => some (.route i)
  | _, _ => none

/-- The command of any other unit by class and opcode. -/
def otherInstr (op : Nat) (i : Issue) : Option Instr :=
  match unitClass i.unit, op with
  | 5, 0 => some (.mcIdle i)
  | 5, 1 => some (.read i)
  | 5, 2 => some (.write i)
  | 5, 3 => some (.copy i)
  | 5, 4 => some (.reduce i)
  | 6, 0 => some (.portIdle i)
  | 6, 1 => some (.portSend i)
  | 6, 2 => some (.portRecv i)
  | 6, 3 => some (.bcast i)
  | 7, 0 => some (.stavlinkIdle i)
  | 7, 1 => some (.stavlinkSend i)
  | 7, 2 => some (.stavlinkRecv i)
  | 8, 1 => some (.post i)
  | 9, 1 => some (.seal i)
  | 10, 1 => some (.phase i)
  | 10, 2 => some (.floor i)
  | 11, 1 => some (.fence i)
  | _, _ => none

/-- A command of the stream as a command of the block. -/
def issueInstr (op : Nat) (i : Issue) : Option Instr :=
  if i.unit = 0 then frameInstr op i else if frondUnit i.unit then frondInstr op i else otherInstr op i

/-! ### Dispatch (R43, R384) -/

/-- The first cycle of the reserve of the running frame. -/
def State.reserveStart (s : State) : Nat := s.flen - s.reserveCycles s.flen

/-- The first 64 cycles of the reserve, in which nothing is dispatched to a Frond unit (R384; log 65). -/
def State.quietCycle (s : State) : Bool := decide (s.reserveStart ≤ s.clock.cycle) && decide (s.clock.cycle < s.reserveStart + 64)

/-- The word of a command to a Frond unit. -/
def frondWord (w : Nat) : Bool := frondUnit (bits w 63 56)

/-- What of a bundle waits for the end of the quiet cycles: its words for Frond units; a word of no command, of unit 0 and an
opcode it does not have, stands in the places of the others. -/
def Bundle.deferred (b : Bundle) (until_ : Nat) : Bundle :=
  { b with
    issue := until_
    words := b.words.map fun w => if frondWord w then w else 0xFF * 2 ^ 48 }

/-- The bundles whose issue cycle has come. -/
def State.dueBundles (s : State) : List Bundle := s.program.bundles.filter fun b => decide (b.issue ≤ s.clock.cycle)

/-- The commands of bundles with their opcodes. -/
def commandsOf (l : List Bundle) : List (Nat × Issue) := l.flatMap Bundle.commands

/-- Dispatches the bundles that are due: their commands, and the state without them, which notes the commands to Frond units
for replay (R356). -/
def State.dispatch (s : State) : List Instr × State :=
  let due := s.dueBundles
  let rest := s.program.bundles.filter fun b => !decide (b.issue ≤ s.clock.cycle)
  let quiet := s.quietCycle
  let late := if quiet then (due.filter fun b => b.words.any frondWord).map fun b => b.deferred (s.reserveStart + 64) else []
  let cmds := if quiet then (commandsOf due).filter fun p => !frondUnit p.2.unit else commandsOf due
  let noted := (cmds.filter fun p => frondUnit p.2.unit).map fun p =>
    (s.clock.cycle, ({ op := p.1, issue := p.2, at_ := s.clock.cycle } : Cmd))
  (cmds.filterMap fun p => issueInstr p.1 p.2,
    { s with program := { s.program with
      bundles := late.foldl (fun l b => insertBundle b l) rest
      dispatched := s.program.dispatched ++ noted } })

/-! ### Flits and messages that stand at a door of the module -/

/-- The command that receives a RESIL flit of a kind (Table 12.6). -/
def resilInstr (kind p : Nat) (raw : List Byte) : Option Instr :=
  match kind with
  | 0 => some (.locketDataReceive p raw)
  | 1 => some (.locketAckReceive p raw)
  | 2 => some (.deltaAckReceive p raw)
  | 3 => some (.readyReceive p raw)
  | 4 => some (.commitReceive p raw)
  | 5 => some (.abortReceive p raw)
  | 6 => some (.revertedReceive p raw)
  | 7 => some (.restartReceive p raw)
  | 8 => some (.outcomeReceive p raw)
  | 9 => some (.fillReqReceive p raw)
  | 0xA => some (.fillDataReceive p raw)
  | 0xB => some (.locketReqReceive p raw)
  | _ => none

/-- The command that receives a flit. -/
def flitInstr (p : Nat) (raw : List Byte) : Option Instr :=
  let f := flitOf raw
  match f.type with
  | 0 => some (.idleReceive p raw)
  | 1 => some (.streamFlitReceive p raw)
  | 2 => some (.bstoreReceive p raw)
  | 3 => some (.breduceReceive p raw)
  | 4 => some (.bloadReceive p raw)
  | 5 => some (.bloadRspReceive p raw)
  | 6 => some (.bamoReceive p raw)
  | 7 => some (.bamoRspReceive p raw)
  | 8 => some (.heartbeatReceive p raw)
  | 9 => some (.censusReceive p raw)
  | 0xA => some (.poisonStepReceive p raw)
  | 0xB => resilInstr (bits f.addr 3 0) p raw
  | 0xD => some (.mgmtFlitReceive p raw)
  | _ => none

/-- The command that serves the request at the head of the in-band ring. -/
def State.ringInstr (s : State) : List Instr :=
  match s.server.ring with
  | [] => []
  | x :: _ =>
    if !s.serves then []
    else match (ringRequest x).service with
      | 2 => [.nagaukWrite .inBand]
      | 3 => [.segInit .inBand]
      | 4 => [.seg .inBand]
      | 5 => [.nagaukAbort .inBand]
      | 6 => [.identify .inBand]
      | _ => [.nagaukRead .inBand]

/-! ### Events that follow at once -/

/-- An event under a condition. -/
def when_ (c : Bool) (i : Instr) : List Instr := if c then [i] else []

/-- Events of the fault collector: reports that have arrived, the record, a module reset, a replay frame. -/
def State.dueFaults (s : State) : List Instr :=
  (s.faults.inFlight.filter fun x => x.1 == 0).map (fun x => Instr.faultReport x.2) ++
  when_ (s.faults.deadline == some 0 && s.faults.record.isNone && !s.faults.competing.isEmpty) .firstFaultLatch ++
  when_ s.faults.moduleReset.isSome .moduleReset ++
  when_ (match s.faults.replay with | some r => r.phase == 2 && !r.left.isEmpty | none => false) .replayFrame

/-- Events of the step: the comparison of the records, READY, and the end of a revert. -/
def State.dueStep (s : State) : List Instr :=
  when_ (s.training && !s.commit.compareDone && s.recordsHeld) .locketCompare ++
  when_ s.readyNow .readySend ++
  when_ (s.commit.reverting && s.commit.revertLeft == 0 && s.resetsDone) .revertDone

/-- Events of the fabric: a switch of the banks at the opening of a step, ports to degrade, flits of the module to itself. -/
def State.dueFabric (s : State) : List Instr :=
  when_ (s.running && s.clock.cycle == 0 && s.program.at_ == some 0 && s.program.kind == 1 &&
    s.fabric.switchAt == some s.stepCount) .routingBankSwitch ++
  ((List.range 17).filter fun p => decide (16 ≤ (s.port p).resends) && s.up p && (s.port p).retraining.isNone).map Instr.linkDegraded ++
  match s.fabric.loop with
  | raw :: _ => (flitInstr 17 raw).toList
  | [] => []

/-- Events of the clusters, of the server and of the input: entries of the mailboxes, the in-band ring, the limiter. -/
def State.dueRest (s : State) : List Instr :=
  ((List.range 3).filter fun d => !(s.box d).ring.isEmpty && !s.faults.clusterReset.contains d).map Instr.mailboxPop ++
  s.ringInstr ++ when_ s.limiterDue .inputLimiter

/-- Pending commands whose unit is free. -/
def State.dueStarts (s : State) : List Instr := (unitIds.filter s.takesUp).map Instr.pendingCommandStart

/-- A fetch, and every event that follows at once. -/
def State.dueEvents (s : State) : List Instr :=
  when_ s.fetchDue .streamFetch ++ s.dueFaults ++ s.dueStep ++ s.dueFabric ++ s.dueRest ++ s.dueStarts

/-- A flit of the module to itself that no command receives leaves its path. -/
def State.dropLoop (s : State) : State :=
  match s.fabric.loop with
  | raw :: rest => if (flitInstr 17 raw).isNone then { s with fabric := { s.fabric with loop := rest } } else s
  | [] => s

end Sys2Proof.Machine
end

