-- ==== Sys2Proof/Machine/Tick.lean ====
section
/-! DEFINITION. One reference cycle of the idle block (R14; log 9): the clocks advance, and every event that falls due joins
the queue. -/

namespace Sys2Proof.Machine

/-! ### One cycle of a unit's clock (R14, R44, R84, R117) -/

/-- A command waits for an array or a Sorus, or a SWAP for an array, while it is not in its phase: a cycle of slip, if it is not frozen
either (R84, R117). -/
def State.slips (s : State) (u : Nat) : Bool :=
  let phase := match (s.unit u).work with
    | some w => match s.inEngine w with
      | some e => s.dispatches (unitDie u) e
      | none => true
    | none => false
  (unitClass u == 1 || unitClass u == 2) && !phase &&
  (!(s.unit u).waiting.isEmpty ||
    (unitClass u == 1 && (s.unit (0x28 + unitDie u)).waiting.any fun c => c.op == 3))

/-- One cycle less of work. -/
def Work.tick (w : Work) : Work := { w with left := w.left.map fun n => n - 1, age := w.age + 1 }

/-- A standing mode has a cycle less to hold (R44). -/
def UnitState.modeTick (x : UnitState) : UnitState :=
  { x with
    mode := if x.modeLeft = some 1 then 0 else x.mode
    modeLeft := if x.modeLeft = some 1 then none else x.modeLeft.map fun n => n - 1 }

/-- One reference cycle of a unit outside the Fronds: its mode, and its work where it does not wait. -/
def State.unitCycle (s : State) (u : Nat) : State :=
  let x := s.unit u
  if x.inReset then s
  else
    let s := s.onUnit u UnitState.modeTick
    if s.transferWaits u then s
    else s.onUnit u fun x => { x with work := x.work.map Work.tick, tails := x.tails.map Work.tick }

/-- The unit has something to do in a cycle. -/
def UnitState.active (x : UnitState) : Bool := x.work.isSome || !x.tails.isEmpty || !x.waiting.isEmpty || x.modeLeft.isSome || x.frozen || x.mode != 0

/-- One Frond cycle of a unit by `move`, with its mode, its slip and its debt. -/
def State.frondUnitCycle (s : State) (u : Nat) (move : State → State) : State :=
  if (s.unit u).inReset then s
  else
    let due := s.slips u
    let s := move s
    let s := if due && !(s.unit u).frozen then s.slip u 1 else s
    s.onUnit u UnitState.modeTick

/-- The elements that the running drain-fed kernel of a die accepts in a Frond cycle (R188). -/
def State.kernelRoom (s : State) (d : Nat) : Nat :=
  match (s.unit (0x30 + d)).work with
  | some w => match w.load with
    | .kernel _ _ _ _ => 16384 / max 1 ((kernelOps (s.kernel w.cmd.issue).code).getD 1)
    | _ => 0
  | none => 0

/-- The unit whose drain comes first with a row of a tile with TOKERN, by source: array A, array B, Sorus. -/
def State.offers (s : State) (d src : Nat) : Bool :=
  if src = 2 then
    match (s.engine d).drain with
    | h :: _ => match s.tileNo (0x20 + d) h.serial with
      | some e => e.tile.toKern
      | none => false
    | [] => false
  else
    match ((s.products (if src = 0 then 0x10 + d else 0x18 + d)).filter fun w => !w.fifo.isEmpty).head? with
    | some w => (s.tile w.cmd.issue).toKern
    | none => false

/-- The rows that drains offer and no kernel takes are counted, and those that a kernel leaves waiting, once in a cycle each
(R185, R188, R192). -/
def State.countHolds (s : State) (d : Nat) : State :=
  let offering := (List.range 3).filter (s.offers d)
  let s := s.countIf (offering.any fun x => (s.feeds d x).isSome) 0x6059 (d + 1)
  s.countIf (offering.any fun x => (s.feeds d x).isNone) 0x605B (d + 1)

/-- A Frond cycle of a Filigree's work: a part of an UPDATE moves its bytes (R204). -/
def State.filigreeCycle (s : State) (u : Nat) : State :=
  match (s.unit u).work with
  | some w => if w.cmd.op = 2 ∧ 0 < w.jobs then s.partCycle u w else s.onUnit u fun x => { x with work := x.work.map Work.tick }
  | none => s

/-- One Frond cycle of a die: the banks are granted, then its arrays, its Sorus, its weight feeder and its Filigree work (R248). -/
def State.dieCycle (s : State) (d : Nat) : State :=
  let a := 0x10 + d
  let b := 0x18 + d
  let lost := (s.bankLosers d).map fun w => w.who
  let fed := fun (r : Requester) => !lost.contains r
  let losses := s.deferLosses d
  let s := if losses = 0 then s else s.count 0x605A (d + 1) losses
  let s := s.setFiligree d { s.filigree d with room := s.kernelRoom d }
  let swapped := (s.unit (0x28 + d)).active
  let array := fun (s : State) (u : Nat) (x y : Requester) =>
    if (s.unit u).active || swapped then s.frondUnitCycle u fun s => s.arrayCycle u (fed x) (fed y) else s
  let s := array (array s a .feederA .drainA) b .feederB .drainB
  let s := if (s.unit (0x20 + d)).active || s.engine d != { serial := (s.engine d).serial, cycles := (s.engine d).cycles } then
      s.frondUnitCycle (0x20 + d) fun s => s.sorusCycle (0x20 + d) (fed .staging) (fed .sorusDrain)
    else s
  let s := if swapped then s.frondUnitCycle (0x28 + d) fun s => s.feederCycle (0x28 + d) (fed .weightFeeder) else s
  let s := if (s.unit (0x30 + d)).active then
      s.frondUnitCycle (0x30 + d) fun s => s.filigreeCycle (0x30 + d)
    else s
  s.countHolds d

/-- The frequency of a Frond clock in MHz, halved in a droop (R382). -/
def State.frondClock (s : State) (d : Nat) : Nat := if s.frondHalved d then s.get 0x2004 (d + 1) / 2 else s.get 0x2004 (d + 1)

/-- Cycles of a Frond's clock that end in this reference cycle. -/
def State.frondCycles (s : State) (d : Nat) : Nat := (s.clock.phase.getD d 0 + s.frondClock d) / 1250

/-- A die's Frond has nothing to do. -/
def State.dieIdle (s : State) (d : Nat) : Bool :=
  !((frondUnits d).any fun u => (s.unit u).active) && kget {} s.sorus d == { serial := (s.engine d).serial, cycles := (s.engine d).cycles }

/-- The cycles of every unit's clock that end in this reference cycle. -/
def State.unitCycles (s : State) : State :=
  let k := (List.range 3).map s.frondCycles
  let phase := (List.range 3).map fun d => (s.clock.phase.getD d 0 + s.frondClock d) % 1250
  let s := { s with clock := { s.clock with phase := phase } }
  let s := (List.range 3).foldl (fun (s : State) d =>
    if s.dieIdle d then s else (List.range (k.getD d 1)).foldl (fun (s : State) _ => s.dieCycle d) s) s
  let others := unitIds.filter fun u => !frondUnit u && (s.unit u).active
  let s := others.foldl (fun (s : State) u => s.unitCycle u) s
  if s.traffic.claims.isEmpty then s else s.setTraffic { s.traffic with claims := [] }

/-! ### Completions -/

/-- The command that completes work of a Frond unit. -/
def frondCompletion (u op : Nat) : List Instr :=
  match unitClass u, op with
  | 3, 1 => [.loadwComplete (unitDie u)]
  | 3, 2 => [.loadwComplete (unitDie u)]
  | 3, 3 => [.swapComplete (unitDie u)]
  | 4, 1 => [.kernelComplete (unitDie u)]
  | 4, 2 => [.updatePartComplete (unitDie u)]
  | 4, 3 => [.maskOpComplete u]
  | 4, 4 => [.maskOpComplete u]
  | 4, 5 => [.routeComplete (unitDie u)]
  | _, _ => []

/-- The command that completes a unit's work, whose last cycle has passed. -/
def completionOf (u : Nat) (w : Work) : List Instr :=
  if frondUnit u then frondCompletion u w.cmd.op
  else match unitClass u with
    | 5 => if w.cmd.op = 4 then [.reduceWindowExpiry u] else [.transferComplete u]
    | 9 => [.sealComplete]
    | _ => []

/-- The completions of a unit: of its oldest tail, and of its work. -/
def State.completions (s : State) (u : Nat) : List Instr :=
  let x := s.unit u
  if x.inReset then []
  else
    (match unitClass u, x.tails with
     | 1, w :: _ => if w.left = some 0 ∧ w.drained then [.matmulComplete u] else []
     | 2, _ :: _ => (if (s.sparseDone (unitDie u) 1).isSome then [.spmmComplete (unitDie u)] else []) ++
         if (s.sparseDone (unitDie u) 2).isSome then [.maskOpComplete u] else []
     | _, _ => []) ++
    (match x.work with
     | some w => if w.left = some 0 then completionOf u w else []
     | none => [])

/-! ### Counters of cycles outside the units -/

/-- The regulators' buckets (R265). -/
def State.refillAll (s : State) : State := s.mem.tokens.foldl (fun (s : State) t => s.refill (t.1 / 8) (t.1 % 8)) s

/-- Fences come nearer to their planned completion. One past it is extended, each such cycle is counted, and it is over in the cycle
after the last event it waits for has become visible (R22). -/
def State.fenceCycle (s : State) : State :=
  let late := (s.program.fences.filter fun f => f.left == 0).length
  let t := if late = 0 then s else s.count 0x6041 1 late
  { t with program := { t.program with fences := t.program.fences.map fun f =>
    if f.left = 0 then { f with late := true, ended := !s.fenceWaits f } else { f with left := f.left - 1 } } }

/-- Reports travel, and the decision on the record comes nearer (R16, R25). -/
def State.reportCycle (s : State) : State :=
  { s with faults := { s.faults with
    inFlight := s.faults.inFlight.map fun x => (x.1 - 1, x.2)
    deadline := s.faults.deadline.map fun n => n - 1 } }

/-- What passes through comes nearer (R286), the links carry (R271), ports that hold flits they cannot send count the cycles (R285),
and board accesses wait (R290). -/
def State.fabricCycle (s : State) : State :=
  let s := s.hopCycle
  let s := (s.fabric.ports.map Prod.fst).foldl State.linkCycle s
  let s := s.fabric.ports.foldl (fun (s : State) p =>
    s.setPort p.1 { p.2 with stuck := if p.2.queue.isEmpty then 0 else p.2.stuck + 1 }) s
  { s with fabric := { s.fabric with
    boardReqs := s.fabric.boardReqs.map fun r => { r with left := r.left - 1 } } }

/-- The cycles of a cluster's clock that end in this reference cycle. -/
def State.clusterCycles (s : State) (d : Nat) : Nat :=
  let f := s.get 0x2004 (d + 4)
  kget 0 s.thallus.phase d + if s.halfRate (6 + d) then f / 2 else f

/-- A cluster's cycles are counted (R222). -/
def State.clusterCycle (s : State) (d : Nat) : State :=
  let total := s.clusterCycles d
  { s with thallus := { s.thallus with
    cycles := kset 0 s.thallus.cycles d (kget 0 s.thallus.cycles d + total / 1250)
    phase := kset 0 s.thallus.phase d (total % 1250) } }

/-- A core that has data on a bridge is stalled by it for the cycles it counts (Table 9.1). -/
def State.bridgeStall (s : State) (k n : Nat) : State :=
  if (s.core k).csrs.isEmpty || !(s.crossing.any fun p => p.unit == 0x88 + k) then s else s.coreEvent k 4 n

/-- A core's cycles are charged to the user context it runs, whose quantum runs (R231, R238). -/
def State.coreCycle (s : State) (k : Nat) : State :=
  let n := s.clusterCycles (k / 8) / 1250
  let s := s.bridgeStall k n
  match s.caller k with
  | none => s
  | some c => (s.setCore k { s.core k with quantum := (s.core k).quantum + 1 }).count 0x6069 (c + 1) n

/-- A cycle of a core's window accesses: the oldest is served where no other requester has its bank, which else is counted (R228,
R248). -/
def State.windowCycle (s : State) (k : Nat) : State :=
  match (s.core k).window with
  | [] => s
  | w :: rest =>
    let d := k / 8
    let bank := w.1 / 512 % 64
    if s.traffic.claims.contains (64 * d + bank) || (grantBanks (s.bankWants d)).1.contains bank then s.coreEvent k 5 1
    else ((s.claimBank d bank).setCore k { s.core k with window := rest }).windowServed k w

/-- The window accesses of a cycle, core by core. -/
def State.windowCycles (s : State) : State :=
  (s.thallus.cores.filter fun k => !k.2.window.isEmpty).foldl (fun (s : State) k => s.windowCycle k.1) s

/-- The waits of a context's threads run. -/
def UserCtx.tick (u : UserCtx) : UserCtx :=
  { u with threads := u.threads.map fun t => (t.1, { t.2 with waiting := t.2.waiting.map fun w => (w.1, w.2 - 1) }) }

/-- Cores, mailboxes and threads. -/
def State.thallusCycle (s : State) : State :=
  let s := s.thallus.cores.foldl (fun (s : State) k => s.coreCycle k.1) s
  let s := (List.range 3).foldl (fun (s : State) d => (s.clusterCycle d).mailCycle d) s
  { s with thallus := { s.thallus with ctxs := s.thallus.ctxs.map fun c => (c.1, c.2.tick) } }

/-- Sessions wait for their next SEG (R397), and the holdover oscillator's milliseconds are counted (R422). -/
def State.serverCycle (s : State) : State :=
  let s := { s with server := { s.server with sessions := s.server.sessions.map fun x => { x with idle := x.idle + 1 } } }
  if s.get 0x1005 1 = 0 then s
  else if s.power.holdRest + 1 < 1250000 then { s with power := { s.power with holdRest := s.power.holdRest + 1 } }
  else { s.count 0x1005 3 1 with power := { s.power with holdRest := 0 } }

/-- Retraining falls due, one channel of every stack each 1/32 of 250 ms, and an interval without room for one that is due is
counted (R243, R384). -/
def State.retrainCycle (s : State) : State :=
  let m := s.mem
  let due := decide (m.retrainNext ≤ 1)
  let ends := decide (m.retrainLeft ≤ 1)
  let s := s.countIf (ends && !m.retrainDue.isEmpty && !m.retrainRoom) 0x2060 2
  { s with mem := { s.mem with
    retrainNext := if due then 9765625 else m.retrainNext - 1
    retrainChannel := if due then (m.retrainChannel + 1) % 32 else m.retrainChannel
    retrainDue := if due then List.range 12 else m.retrainDue
    retrainLeft := if ends then 312500000 else m.retrainLeft - 1
    retrainRoom := m.retrainRoom && !ends } }

/-- The scrub passes take their time, and one that overruns its period is counted (R266). -/
def State.scrubCycle (s : State) : State :=
  let period := s.get 0x4030 1 * 1250000000
  let late := ((List.range 12).filter fun k => kget 0 s.mem.scrubTime k == period).length
  let s := if late = 0 then s else s.count 0x4032 2 late
  let times := (List.range 12).foldl (fun (m : KMap Nat) k => kset 0 m k (kget 0 m k + 1)) s.mem.scrubTime
  { s with mem := { s.mem with scrubTime := times } }

/-- The revert's transfer runs (R327). -/
def State.revertCycle (s : State) : State :=
  if s.commit.reverting then { s with commit := { s.commit with revertLeft := s.commit.revertLeft - 1 } } else s

/-- Every transfer issues what it may in the cycle, and the lanes and stacks serve what waits for them (R18, R244, R265). -/
def State.issueTraffic (s : State) : State :=
  let moving := unitIds.filter fun u => decide (0x40 ≤ u ∧ u ≤ 0x60) && !(s.unit u).inReset && (s.unit u).work.isSome
  (moving.foldl (fun (s : State) u => s.issueBlocks u 4) s).serveTraffic (decide (s.reserveStart ≤ s.clock.cycle))

/-- A repair's hold of a pseudo-channel runs, and restoring follows it (R268). -/
def State.repairCycle (s : State) : State :=
  match s.mem.repairHold with
  | some (k, pc, n) =>
    if n ≤ 1 then { s.put 0x4041 1 3 with mem := { s.mem with repairHold := none } }
    else { s with mem := { s.mem with repairHold := some (k, pc, n - 1) } }
  | none => s

/-- What is on its way comes a cycle nearer, and what holds a channel runs (R243, R268). -/
def State.ageTraffic (s : State) : State :=
  let s := (s.setTraffic s.traffic.age).repairCycle
  { s with mem := { s.mem with
    retraining := (s.mem.retraining.map fun x => (x.1, x.2.1, x.2.2 - 1)).filter fun x => x.2.2 != 0 } }

/-- Everything that a reference cycle moves but the cycle number. -/
def State.passCycle (s : State) : State :=
  ((((((s.issueTraffic.windowCycles.unitCycles.refillAll).fenceCycle.reportCycle).fabricCycle).thallusCycle.serverCycle).retrainCycle.scrubCycle).revertCycle).droopCycle.ageTraffic

/-! ### What falls due as a cycle passes -/

/-- A fence completes: at its planned completion, or once an extension of it is over (R22). -/
def State.fenceDue (s : State) (f : Fence) : Bool := f.ended || (f.left == 0 && !f.late && !s.fenceWaits f)

def State.fencesDue (s : State) : List Instr := (s.program.fences.filter s.fenceDue).map fun f => .fenceComplete f.ctx

/-- Waits that end: ports, board accesses, threads, quanta and sessions. -/
def State.waitsDue (s : State) : List Instr :=
  ((s.fabric.ports.filter fun p => p.2.stuck == 1250000).map fun p => Instr.portStall p.1) ++
  ((s.fabric.boardReqs.filter fun r => r.left == 0).map fun r => Instr.boardLoadTimeout r.id) ++
  ((List.range 24).filter fun k => userContexts.any fun c =>
    s.runsOn c k && (match (s.thread c k).waiting with | some (_, 0) => true | _ => false)).map Instr.mboxRecvTimeout ++
  ((s.thallus.cores.filter fun k => decide (250000 ≤ k.2.quantum) && (s.caller k.1).isSome).map fun k => Instr.quantumExpiry k.1) ++
  ((s.server.sessions.filter fun x => decide (125000000 ≤ x.idle)).map fun x => Instr.sessionTimeout x.inBand x.key)

/-- The plan is fixed 8,192 cycles before the tick (R375), and the reserve begins (R58). -/
def State.cycleDue (s : State) : List Instr :=
  when_ (s.clock.cycle + 8192 == s.flen && s.power.plan.isNone) (.planFix (!s.faults.clusterReset.contains 1)) ++
  when_ (s.clock.cycle == s.reserveStart) .backgroundReserveStart

/-! ### The tick (R32) -/

/-- The watchdogs and the clock at the tick. -/
def State.tickWatch (s : State) : List Instr :=
  ((unitIds.filter fun u => frondUnit u && s.hangs u).map Instr.frondHang) ++
  ((unitIds.filter fun u => !frondUnit u && s.hangs u).map Instr.unitHang) ++
  when_ s.stitchDue .stitchLate ++ when_ s.syncGone .syncLost

/-- A replay at the tick: its suspect passes, or is guilty (R357, R358). -/
def State.tickReplays (s : State) : List Instr :=
  match s.faults.replay with
  | some r =>
    when_ (decide (3 ≤ r.phase)) .replayPass ++ when_ (decide (6 ≤ r.phase)) .guiltyContext
  | none => []

/-- The step in the cycle of the tick, after the frame has turned: what the coordinator decides, and what the outcomes of a
census decide (R323, R329). -/
def State.tickDecisions (s : State) : List Instr :=
  let frame := s.clock.frame
  when_ (match s.commit.frame with
    | some f => s.isCoordinator && s.training && !s.commit.decided && (frame == f + 1 || frame == f + 2) && s.allReady
    | none => false) .coordinatorDecision ++
  when_ (match s.commit.censusFrame with | some n => decide (n + 2 ≤ frame) | none => false) .outcomeDecision

/-- The slice and the step at the end of the tick's frame: census, timeouts, heartbeat, waiting flits, the start of a revert where no
work of the step is left. -/
def State.tickSlice (s : State) : List Instr :=
  let frame := s.clock.frame
  when_ (match s.fabric.census with | some n => decide (n + 3 ≤ frame) | none => false) .censusClose ++
  when_ (match s.commit.frame with
    | some f => s.training && ((s.isCoordinator && !s.commit.decided && decide (s.commitState ≤ 2) && frame == f + 2 && !s.allReady) ||
        (s.commitState == 2 && frame == f + 3))
    | none => false) .commitTimeout ++
  when_ s.heartbeatGone .heartbeatLost ++
  ((s.fabric.unmatched.filter fun w => decide (w.2.1 < frame)).map fun _ => Instr.streamUnmatched) ++
  when_ ((s.commitState == 4 || (s.commitState == 7 && s.commit.haltRevert)) && !s.commit.reverting) .revertStart ++
  when_ (!s.running && s.fabric.switchAt.isSome) .routingBankSwitch

/-- The events of the tick in their order, the tick itself, and what the frame it opens begins with. -/
def State.tickEvents (s : State) : List Instr :=
  s.tickWatch ++ s.tickReplays ++ s.tickSlice ++ [.frameTick] ++ s.tickDecisions ++ when_ s.faults.injection.isSome .injectionFire ++
  when_ (s.security.activating.isSome || !s.security.returning.isEmpty) .activateStep

/-- The last cycle of the frame passes: its end, or the tick that a sync point places (R33). -/
def State.frameEnds (s : State) : Bool := decide (s.flen ≤ s.clock.cycle + 1) || s.clock.tickIn == some 1

/-- A cycle passes. At the end of a frame the tick's events wait for what completes in its last cycle. -/
def State.advance (s : State) : State :=
  let ends := s.frameEnds
  let s := s.passCycle
  let s := { s with clock := { s.clock with uptime := s.clock.uptime + 1, tickIn := s.clock.tickIn.map fun n => n - 1 } }
  let s := if ends then s else { s with clock := { s.clock with cycle := s.clock.cycle + 1 } }
  let s := s.arrivals
  let done := unitIds.flatMap s.completions ++ s.fencesDue ++ s.waitsDue
  { s with pending := s.pending ++ done ++ if ends then s.tickEvents else s.cycleDue }

/-- The idle tick: what is due in this cycle joins the queue, or nothing is and the cycle passes. Without power nothing
moves. -/
def State.idle (s : State) : State :=
  if !s.power.on then s
  else
    let s := s.dropLoop
    match s.dueEvents with
    | [] =>
      match s.dispatch with
      | ([], t) => t.advance
      | (l, t) => { t with pending := t.pending ++ l }
    | l => { s with pending := s.pending ++ l }

end Sys2Proof.Machine
end

