-- ==== Sys2Proof/Safety.lean ====
section
/-! DEFINITION. What counts as a safe state, and the conditions under which a command has its effect: the terms in which
claims are stated. -/

namespace Sys2Proof.Safety

open Sys2Proof.Machine

/-- Every byte memory lists its cells in canonical form: addresses strictly rising, no cell equal to what its address
reads as unlisted. -/
def MemoryCanonical (s : State) : Prop := s.mem.wf = true

/-- Nothing turns a command of the stream away or makes it wait: its context is not quarantined (R358), the rails are on,
the member dispatches (R343), the unit is out of reset (R351), the command is legal at this cycle (R60), no fence holds it
(R22), the unit is free and nothing waits before it (R44), and the swap and shadow rules let it start (R48, R71). -/
def TakesEffect (op : Nat) (i : Issue) (s : State) : Prop :=
  s.quarantined i = false ∧ s.power.on = true ∧ s.dispatching = true ∧ (s.unit i.unit).inReset = false ∧
  s.fixedOk op i s.clock.cycle = true ∧ s.held i = false ∧ s.busy i.unit = false ∧
  (s.unit i.unit).waiting = [] ∧ s.ready op i = true ∧ s.shadowOk op i = true

/-- The unit runs the command, with `left` cycles of its clock to go, and delivers `load` when it completes. -/
def Works (t : State) (u op : Nat) (i : Issue) (left : Option Nat) (load : Load) : Prop :=
  ∃ w, (t.unit u).work = some w ∧ w.cmd.op = op ∧ w.cmd.issue = i ∧ w.left = left ∧ w.load = load

/-- The unit has taken up a transfer of `n` blocks of which it has asked for none, the first with the latency given (R252); a unit that
an injection stalls makes no progress on it. The other units are as they were. -/
def MovesBlocks (s t : State) (op : Nat) (i : Issue) (n latency : Nat) : Prop :=
  (∃ w, (t.unit i.unit).work = some w ∧ w.cmd = { op, issue := i } ∧ w.left = none ∧ w.load = freshMove ∧ w.jobs = n ∧
    w.head = latency ∧ w.stuck = (s.unit i.unit).stalled) ∧ ∀ v, v ≠ i.unit → t.unit v = s.unit v

/-- From `s` to `t` the only unit whose record changes is `u`, and nothing but the units changes. -/
def OnlyUnit (s t : State) (u : Nat) : Prop :=
  t = { s with units := t.units } ∧ ∀ v, v ≠ u → t.unit v = s.unit v

/-- A flit reaches the module whole and in order, for this module, with a permitted tag, and it is one that the command
takes: `f` is the flit as the command reads it, and `t` the state when the link has taken it. The three forms: the loop of
the module's own flits (R284), a Blukor port, and Stavlink, where the source reads as the host (R270–R287). -/
def Arrives (port : Nat) (raw : List Byte) (mine : Flit → Bool) (s : State) (f : Flit) (t : State) : Prop :=
  s.power.on = true ∧
  ((port = 17 ∧ s.fabric.loop.head? = some raw ∧ mine (flitOf raw) = true ∧ f = flitOf raw ∧
      t = { s with fabric := { s.fabric with loop := s.fabric.loop.drop 1 } }) ∨
   (port ≤ 16 ∧ s.up port = true ∧ flitIntact raw = true ∧ flitOk port raw = true ∧ mine (flitOf raw) = true ∧
      (flitOf raw).type ≠ 0 ∧ (flitOf raw).seq = (s.port port).rxSeq ∧ t = s.takeFlit port (flitOf raw) ∧
      (((flitOf raw).type = 0xC ∧ f = flitOf raw) ∨
       ((flitOf raw).type ≠ 0xC ∧ port = 16 ∧ f = { flitOf raw with src := 0xFFF }) ∨
       ((flitOf raw).type ≠ 0xC ∧ port ≠ 16 ∧ t.permits port (flitOf raw).slice = true ∧ f = flitOf raw ∧
          ((flitOf raw).type = 0x9 ∨ (flitOf raw).type = 0xA ∨
            ((flitOf raw).dst = t.moduleId ∧ (flitOf raw).slice = t.get 0x5001 2))))))

/-- What a port delivers is on its way to its stack in `u`: 64 cycles in general; from the module's own local path, writes and
reductions wait at the stack at once, and requests come to it at the end of the cycle (R286). -/
def Delivers (p : Nat) (t u : State) (q : Packet) : Prop :=
  (p ≠ 17 → u.traffic.transit = t.traffic.transit ++ [(64, q)]) ∧
  (p = 17 → q.deed.place = none → u.traffic.transit = t.traffic.transit ++ [(0, q)]) ∧
  (p = 17 → ∀ a, q.deed.place = some a → kget [] u.traffic.requests (stackOf a * 8 + q.cls) =
    kget [] t.traffic.requests (stackOf a * 8 + q.cls) ++ [{ ask := .put, packet := q }])

/-- The server answers, and the role may write the object now (R386–R391, R398). -/
def MayWrite (s : State) (role : Role) (index sub : Nat) : Prop :=
  s.serves = true ∧ s.writeStatus role index sub = 0

/-- A user context's thread runs on the core and its context may call (R231, R234). -/
def CallsFrom (s : State) (core c : Nat) : Prop := s.caller core = some c

end Sys2Proof.Safety
end

