-- ==== Sys2Proof/Certificates/Slice0/Obligations.lean ====
section
/-! DEFINITION. The statements for the provers. -/

open Sys2Proof Sys2Proof.Machine Sys2Proof.Safety

/-! ### The queue, the state after reset, and the invariants of every step -/

/-- The command at the front of the queue runs on the state with the queue's rest, whatever command and state. On an empty
queue one reference cycle passes (the model's choice, log 9), and an unpowered module does nothing. -/
def Obligations.StepRunsTheFrontOrIdles : Prop :=
  (∀ (c : Instr) (rest : List Instr) (s : State),
     step { s with pending := c :: rest } = exec c { s with pending := rest }) ∧
  (∀ s : State, s.pending = [] → step s = .next s.idle ∧ (s.power.on = false → step s = .next s))

/-- After reset: frame 0, cycle 0, no program, default frames of 65,536 cycles, no fault recorded, every unit without work,
objects at the defaults of their tables (the cap at 3,000 W, the efficiency at 930, a Frond at 1,250 MHz, maintenance mode
off), no memory listed, and no command waiting (R19, R31, R385, R390). That HBM lists nothing at reset is also the model's
choice (log 3). After reset every byte memory is in canonical form and no command waits. -/
def Obligations.ResetLeaves : Prop :=
  (MemoryCanonical State.reset ∧ State.reset.pending = [] ∧
   State.reset.clock.frame = 0 ∧ State.reset.clock.cycle = 0 ∧ State.reset.flen = 65536 ∧ State.reset.running = false ∧
   State.reset.faults.record = none ∧ State.reset.faults.inFlight = [] ∧ State.reset.mem.hbm = {} ∧
   (∀ u, (State.reset.unit u).work = none ∧ (State.reset.unit u).waiting = [] ∧ (State.reset.unit u).mode = 0) ∧
   State.reset.get 0x2001 1 = 3000 ∧ State.reset.get 0x2002 3 = 930 ∧ State.reset.get 0x2004 1 = 1250 ∧
   State.reset.get 0x9001 1 = 0 ∧ State.reset.get 0x6010 3 = 0 ∧ State.reset.get 0x9010 4 = 0) ∧
  (MemoryCanonical State.reset ∧ State.reset.pending = [])

/-- Every step from a state with canonical memories leaves canonical memories: the command at the front of the queue,
whichever it is, and the reference cycle of an empty queue. -/
def Obligations.StepKeepsMemoryCanonical : Prop :=
  ∀ s t : State, MemoryCanonical s → step s = .next t → MemoryCanonical t

/-- No command changes the queue of the commands that wait, and no command stops the machine: each answers a next state. -/
def Obligations.EveryCommandGoesOnAndKeepsTheQueue : Prop :=
  ∀ (c : Instr) (s : State), ∃ t, exec c s = .next t ∧ t.pending = s.pending

/-- Bytes written to HBM are read back, every other byte reads as before, a whole block of data that is not poisoned clears
its mark, and poisoned data marks every block it touches (R257). Bytes written to an operand store are read back on that die,
and every other byte of the three stores reads as before. -/
def Obligations.MemoriesReadWhatWasWritten : Prop :=
  (∀ (s : State) (a : Nat) (bytes : List Byte) (poisoned : Bool),
     (s.hbmWrite a bytes poisoned).hbmRead a bytes.length = bytes ∧
     (∀ c, c < a ∨ a + bytes.length ≤ c → (s.hbmWrite a bytes poisoned).mem.hbm.read c = s.mem.hbm.read c) ∧
     (∀ b, b ∈ (s.hbmWrite a bytes poisoned).mem.poison ↔
       if poisoned then b ∈ s.mem.poison ∨ b ∈ blocks a bytes.length
       else b ∈ s.mem.poison ∧ ¬(a ≤ b * 512 ∧ b * 512 + 512 ≤ a + bytes.length))) ∧
  (∀ (s : State) (d off : Nat) (bytes : List Byte) (poisoned : Bool), d < s.mem.ops.length →
     (s.opWrite d off bytes poisoned).opRead d off bytes.length = bytes ∧
     ∀ e c, e ≠ d ∨ c < off ∨ off + bytes.length ≤ c →
       ((s.opWrite d off bytes poisoned).opStore e).read c = (s.opStore e).read c)

/-! ### Frame control, the marker, the fence and the standing modes -/

/-- NOP does nothing but stand as its unit's current command; COMMIT_POINT marks frame and step and keeps ARG[0]; HALT has the
program end at the next tick; MARK writes frame, cycle, context and value into telemetry (R45, R46, R139). Each is given
whole: nothing else changes. CALL of a table not yet called by this bundle: every bundle of the active slot, with the
descriptors that its commands name, waits for dispatch at its issue cycle counted from the call, no bundle that waited is
lost, and only frame control's unit and the program change (R53). -/
def Obligations.FrameControlCommands : Prop :=
  (∀ (i : Issue) (s : State),
     (TakesEffect 0 i s → exec (.nop i) s = .next (s.current 0 i)) ∧
     (TakesEffect 2 i s → exec (.commitPoint i) s = .next { s.current 2 i with
       program := { s.program with pointStep := true, pointFrame := some (i.arg.getLsbD 0) } }) ∧
     (TakesEffect 3 i s → exec (.halt i) s = .next { s.current 3 i with
       program := { s.program with stopping := some (0, false) } }) ∧
     (TakesEffect 4 i s → exec (.mark i) s = .next { s.current 4 i with
       thallus := { s.thallus with
         telemetry := [1, s.clock.frame, s.clock.cycle, i.ctx, i.arg.toNat] :: s.thallus.telemetry } })) ∧
  (∀ (i : Issue) (s : State), TakesEffect 1 i s → s.program.calls.contains (i.arg.toNat, i.seq) = false →
     ∃ t, exec (.call i) s = .next t ∧
       (∀ b, b ∈ t.program.bundles ↔
         b ∈ s.program.bundles ∨
           b ∈ ((s.current 1 i).tableBundles i.arg.toNat s.clock.cycle i.ctx i.seq).map (s.current 1 i).withDescs) ∧
       t.program.calls = s.program.calls ++ [(i.arg.toNat, i.seq)] ∧
       t = { s.current 1 i with program := { s.program with bundles := t.program.bundles, calls := t.program.calls } })

/-- PHASE sets the phase id and adds it to the phases of the frame; FLOOR raises a Frond's floor and never lowers it; FENCE is
in progress for 8 cycles on one die and 256 on more; FENCE_COMPLETE takes away the oldest fence of its context that is past
its planned completion and has nothing of its own in a bridge, or that has ended at a tick (R22, R57). The standing modes: the
unit takes the mode of the command, for its duration if it gives one, its record alone changes (R44, R46, R82, R116). -/
def Obligations.MarkersFencesAndStandingModes : Prop :=
  ((∀ (i : Issue) (s : State), TakesEffect 1 i s → exec (.phase i) s = .next { s.current 1 i with
       program := { s.program with
         phaseId := i.arg.toNat % 256, phases := insertNat (i.arg.toNat % 256) s.program.phases } }) ∧
   (∀ (i : Issue) (s : State), TakesEffect 2 i s → exec (.floor i) s = .next { s.current 2 i with
       program := { s.program with
         floors := s.program.floors.set (bits i.arg.toNat 23 16 - 0x10)
           (max (s.program.floors.getD (bits i.arg.toNat 23 16 - 0x10) 1250) (bits i.arg.toNat 15 0)) } }) ∧
   (∀ (i : Issue) (s : State), TakesEffect 1 i s → exec (.fence i) s = .next { s.current 1 i with
       program := { s.program with
         fences := s.program.fences ++
           [{ ctx := i.ctx, mask := i.arg.toNat, frame := s.clock.frame, cycle := s.clock.cycle,
              left := if fenceDies i.arg.toNat = 1 then 8 else 256 }] } }) ∧
   (∀ (c : Nat) (before after_ : List Fence) (f : Fence) (s : State),
     s.program.fences = before ++ f :: after_ → f.ctx = c → f.ended = true ∨ (f.left = 0 ∧ f.late = false) →
     (∀ e ∈ before, ¬(e.ctx = c ∧ (e.ended = true ∨ (e.left = 0 ∧ e.late = false)))) →
     exec (.fenceComplete c) s = .next { s with program := { s.program with fences := before ++ after_ } })) ∧
  (∀ (i : Issue) (s : State) (op : Nat) (c : Instr),
     (c, op) ∈ [(.arrayIdle i, 0), (.arrayHold i, 2), (.sorusIdle i, 0), (.sorusHold i, 3), (.feederIdle i, 0),
       (.filigreeIdle i, 0), (.mcIdle i, 0), (.portIdle i, 0), (.stavlinkIdle i, 0)] →
     TakesEffect op i s →
     ∃ t, exec c s = .next t ∧ OnlyUnit s t i.unit ∧ (t.unit i.unit).mode = op ∧
       (t.unit i.unit).modeLeft = (if i.dur = 0 then none else some i.dur) ∧
       (t.unit i.unit).work = (s.unit i.unit).work ∧ (t.unit i.unit).tails = (s.unit i.unit).tails)

/-! ### Dense arrays, feeders and Sorus -/

/-- LOADW and LOADW_T take effect: the shadow registers of both arrays of the die take the tile's tag and no row yet, the
active registers stay, and the feeder works for 512 cycles; nothing but units and arrays changes (R69). In each cycle of a
load in which the feeder has its banks the next weight row of the tile enters the shadow registers of both arrays, behind the
rows before it; beyond row K none does. Tags, active registers, HBM and operand bytes stay (R69). SWAP holds the feeder for 4
cycles, in which both arrays are frozen by it, and changes its unit alone; at its completion the shadow registers of both
arrays are active and the shadow registers empty (R70, R83). LOADW_COMPLETE, at the end of the 512 cycles, frees the feeder
and leaves the weights and their tags as they are (R69, R89). -/
def Obligations.FeederLoadsAndSwaps : Prop :=
  (∀ (i : Issue) (s : State) (op : Nat) (c : Instr), (c, op) ∈ [(.loadw i, 1), (.loadwT i, 2)] →
     0x28 ≤ i.unit → i.unit ≤ 0x2A → TakesEffect op i s →
     ∃ t, exec c s = .next t ∧
       (∀ u, u = 0x10 + unitDie i.unit ∨ u = 0x18 + unitDie i.unit →
         (t.array u).shadow = { tag := some (s.tile i).tag } ∧ (t.array u).active = (s.array u).active) ∧
       (∀ u, u ≠ 0x10 + unitDie i.unit → u ≠ 0x18 + unitDie i.unit → t.array u = s.array u) ∧
       Works t i.unit op i (if (s.unit i.unit).stalled then none else some 512) .none ∧
       (∀ v, v ≠ i.unit → t.unit v = s.unit v) ∧ t = { s with units := t.units, arrays := t.arrays }) ∧
  (∀ (d n : Nat) (s : State) (w : Work), d < 3 → (s.unit (0x28 + d)).work = some w → w.left = some (n + 1) →
     w.cmd.op = 1 ∨ w.cmd.op = 2 → w.cmd.issue.unit = 0x28 + d →
     ((s.feederCycle (0x28 + d) true).unit (0x28 + d)).work = some { w with left := some n } ∧
     (∀ u, u = 0x10 + d ∨ u = 0x18 + d →
       ((s.feederCycle (0x28 + d) true).array u).shadow.rows = (s.array u).shadow.rows ++
         (if 511 - n < (s.tile w.cmd.issue).k then
           [(List.range (s.tile w.cmd.issue).n).map (s.weight d (s.tile w.cmd.issue) (511 - n))] else []) ∧
       ((s.feederCycle (0x28 + d) true).array u).shadow.tag = (s.array u).shadow.tag ∧
       ((s.feederCycle (0x28 + d) true).array u).active = (s.array u).active) ∧
     (s.feederCycle (0x28 + d) true).mem.hbm = s.mem.hbm ∧ (s.feederCycle (0x28 + d) true).mem.ops = s.mem.ops) ∧
  ((∀ (i : Issue) (s : State), 0x28 ≤ i.unit → i.unit ≤ 0x2A → TakesEffect 3 i s →
     ∃ t, exec (.swap i) s = .next t ∧ OnlyUnit s t i.unit ∧
       Works t i.unit 3 i (if (s.unit i.unit).stalled then none else some 4) .none ∧
       ∀ u lost, u = 0x10 + unitDie i.unit ∨ u = 0x18 + unitDie i.unit → t.freezeCause u lost = 1) ∧
   (∀ (d : Nat) (s : State), d < 3 → s.swapOver d = true → s.program.clearing = false →
     ∃ t, exec (.swapComplete d) s = .next t ∧
       (∀ u, u = 0x10 + d ∨ u = 0x18 + d →
         (t.array u).active = (s.array u).shadow ∧ (t.array u).shadow = {} ∧
         (t.array u).gatedRest = (s.array u).gatedRest) ∧
       (t.unit (0x28 + d)).work = none ∧ t.mem = s.mem ∧ ∀ v, v ≠ 0x28 + d → t.unit v = s.unit v)) ∧
  (∀ (d : Nat) (s : State) (w : Work), d < 3 → (s.unit (0x28 + d)).work = some w → w.cmd.op = 1 ∨ w.cmd.op = 2 →
     w.left = some 0 → s.program.clearing = false →
     ∃ t, exec (.loadwComplete d) s = .next t ∧ (t.unit (0x28 + d)).work = none ∧
       (∀ u, (t.array u).active = (s.array u).active ∧ (t.array u).shadow.tag = (s.array u).shadow.tag ∧
         (t.array u).shadow.rows = (s.array u).shadow.rows) ∧
       t.mem = s.mem ∧ t.program = s.program ∧ ∀ v, v ≠ 0x28 + d → t.unit v = s.unit v)

/-- The row groups of a MATMUL hold its rows in ascending order, and there are ⌈streamed rows / q⌉ of them; where no row is
streamed there is one, of the skipped rows (R73). MATMUL on the active tag, with a fresh route where it gathers or scatters,
and with a row that streams: the array has the row groups of its M rows to stream, one a cycle, with 1,048 cycles of drain to
follow; without such a row only the drain is left. No memory byte and no array register changes. On another tag it does not
run and raises WEIGHT_TAG_MISMATCH, and with a stale route ROUTE_STALE (R71, R73, R148). A row group enters the array with the
products of its rows with the active weights, the rows it skips without one, to leave it 1,048 cycles later; memory bytes stay
(R63, R67, R73, R86). MATMUL_COMPLETE: the oldest product of the array, its tail over and every row passed by the drain,
leaves the unit; without a mask plane to write no operand byte changes (R75, R143). -/
def Obligations.MatmulStreamsAndDrains : Prop :=
  (∀ (q : Nat) (l : List (Nat × Bool)), 0 < q → l ≠ [] →
     (intoGroups q l [] 0).flatten = l ∧
     (intoGroups q l [] 0).length = max 1 (cdiv (l.filter fun p => !p.2).length q)) ∧
  ((∀ (i : Issue) (s : State), TakesEffect 1 i s → 0x10 ≤ i.unit → i.unit ≤ 0x1A →
     (s.array i.unit).active.tag = some (s.tile i).tag → s.swapFreezing (unitDie i.unit) = false →
     ((s.tile i).gather || (s.tile i).scatter) = false ∨
       s.routeFresh (unitDie i.unit) (s.tileRoute (s.tile i)) = true →
     ((∃ m < (s.tile i).m, s.skipped (unitDie i.unit) (s.tile i) m = false) →
       ∃ t w groups poison, exec (.matmul i) s = .next t ∧ (t.unit i.unit).work = some w ∧
         groups = intoGroups (rowRate (s.tile i).wfmt (s.tile i).afmt)
           ((List.range (s.tile i).m).map fun m => (m, s.skipped (unitDie i.unit) (s.tile i) m)) [] 0 ∧
         w.cmd = { op := 1, issue := i } ∧ w.load = .stream groups [] [] poison ∧ w.tail = 1048 ∧
         w.left = (if (s.unit i.unit).stalled then none else some groups.length) ∧
         t.mem.hbm = s.mem.hbm ∧ t.mem.ops = s.mem.ops ∧ t.arrays = s.arrays ∧ ∀ v, v ≠ i.unit → t.unit v = s.unit v) ∧
     ((∀ m < (s.tile i).m, s.skipped (unitDie i.unit) (s.tile i) m = true) →
       ∃ t w, exec (.matmul i) s = .next t ∧ (t.unit i.unit).work = none ∧
         (t.unit i.unit).tails = (s.unit i.unit).tails ++ [w] ∧ w.cmd = { op := 1, issue := i } ∧ w.left = some 1048 ∧
         t.mem.hbm = s.mem.hbm ∧ t.mem.ops = s.mem.ops ∧ t.arrays = s.arrays ∧ ∀ v, v ≠ i.unit → t.unit v = s.unit v)) ∧
   (∀ (i : Issue) (s : State), TakesEffect 1 i s → 0x10 ≤ i.unit → i.unit ≤ 0x1A →
     (s.array i.unit).active.tag ≠ some (s.tile i).tag → s.faults.replay.isSome = false →
     ∃ t r, exec (.matmul i) s = .next t ∧ t.faults.inFlight = s.faults.inFlight ++ [r] ∧
       r.2.code = 0x103 ∧ r.2.source = i.unit ∧ r.2.ctx = i.ctx ∧ (t.unit i.unit).work = none ∧
       t.arrays = s.arrays ∧ t.mem.ops = s.mem.ops) ∧
   (∀ (i : Issue) (s : State), TakesEffect 1 i s → 0x10 ≤ i.unit → i.unit ≤ 0x1A →
     (s.array i.unit).active.tag = some (s.tile i).tag → s.swapFreezing (unitDie i.unit) = false →
     ((s.tile i).gather || (s.tile i).scatter) = true →
     s.routeFresh (unitDie i.unit) (s.tileRoute (s.tile i)) = false →
     ∃ t r, exec (.matmul i) s = .next t ∧ t.faults.inFlight = s.faults.inFlight ++ [r] ∧
       r.2.code = 0x30B ∧ r.2.source = i.unit ∧ (t.unit i.unit).work = none ∧ t.mem.ops = s.mem.ops)) ∧
  (∀ (u : Nat) (s : State) (w : Work) (g : List (Nat × Bool)) (todo : List (List (Nat × Bool))) (flight fifo : List Group)
     (poison : Bool), w.load = .stream (g :: todo) flight fifo poison →
     ∃ x p, (s.enterGroup u w).2.load = .stream todo (flight ++ [x]) fifo p ∧ (poison = true → p = true) ∧
       x.left = 1048 ∧ (s.enterGroup u w).2.left = w.left.map (· - 1) ∧
       x.rows = g.map (fun r => (r.1, if r.2 then { skip := true, y := [], z := 0, u := 0 }
         else productRow (s.array u).active (s.tile w.cmd.issue).n
           (s.activationRow (unitDie u) (s.tile w.cmd.issue) r.1))) ∧
       (s.enterGroup u w).1.mem.hbm = s.mem.hbm ∧ (s.enterGroup u w).1.mem.ops = s.mem.ops) ∧
  (∀ (u : Nat) (s : State) (w : Work) (rest : List Work),
     unitClass u = 1 → (s.unit u).tails = w :: rest → w.left = some 0 → w.drained = true → s.program.clearing = false →
     ∃ t, exec (.matmulComplete u) s = .next t ∧ (t.unit u).tails = rest ∧ (t.unit u).work = (s.unit u).work ∧
       (∀ v, v ≠ u → t.unit v = s.unit v) ∧ t.mem.hbm = s.mem.hbm ∧
       ((s.tile w.cmd.issue).maskOut = false → t.mem.ops = s.mem.ops))

/-- SPMM whose index passes the checks of header and directories and whose route, where it gathers or scatters, is fresh: the
Sorus has the tile's whole job list before it, by slab, round and lane, and its output lines, none staged or dispatched yet;
no memory byte and no array changes (R106, R107, R111). With a header or directory that fails a check it raises SPARSE_FORMAT
and is complete 64 cycles later, and with a stale route it raises ROUTE_STALE (R121, R122, R148). SPMM_COMPLETE ends the
oldest tile whose last job is 64 cycles past: it leaves the unit, and the engine holds nothing of it any more; a tile that
failed its checks leaves no byte changed (R111, R112, R122). -/
def Obligations.SpmmRunsAndDrains : Prop :=
  ((∀ (i : Issue) (s : State), TakesEffect 1 i s → 0x20 ≤ i.unit → i.unit ≤ 0x22 →
     ((s.tile i).gather || (s.tile i).scatter) = false ∨
       s.routeFresh (unitDie i.unit) (s.tileRoute (s.tile i)) = true →
     s.headChecks (s.index (unitDie i.unit) (s.tile i).sidx) (s.tile i)
       (opOffset (if (s.tile i).sampled then (s.tile i).dst else (s.tile i).wsrc)) (s.tile i).wfmt
       (if (s.tile i).wt then ((s.tile i).k / 32, (s.tile i).n / 32) else ((s.tile i).n / 32, (s.tile i).k / 32)) = none →
     (s.unit i.unit).stalled = false →
     ∃ t w x, exec (.spmm i) s = .next t ∧ (t.unit i.unit).work = some w ∧ w.cmd = { op := 1, issue := i } ∧
       w.left = none ∧ w.load = .sparse x ∧ x.next = 0 ∧ x.serial = (s.engine (unitDie i.unit)).serial ∧
       x.head = (s.index (unitDie i.unit) (s.tile i).sidx).word ∧
       x.todo = jobList (s.tile i).m
         (s.shares (s.index (unitDie i.unit) (s.tile i).sidx) (s.tile i) (s.tile i).wt ((s.tile i).n / 32)) ∧
       ((s.tile i).sampled = false → ∀ b l, (b, l) ∈ x.lines ↔ b < cdiv (s.tile i).m 64 ∧ l < (s.tile i).n / 32) ∧
       t.mem.hbm = s.mem.hbm ∧ t.mem.ops = s.mem.ops ∧ t.arrays = s.arrays ∧ ∀ v, v ≠ i.unit → t.unit v = s.unit v) ∧
   (∀ (i : Issue) (s : State) (check : Nat), TakesEffect 1 i s → 0x20 ≤ i.unit → i.unit ≤ 0x22 →
     ((s.tile i).gather || (s.tile i).scatter) = false ∨
       s.routeFresh (unitDie i.unit) (s.tileRoute (s.tile i)) = true →
     s.headChecks (s.index (unitDie i.unit) (s.tile i).sidx) (s.tile i)
       (opOffset (if (s.tile i).sampled then (s.tile i).dst else (s.tile i).wsrc)) (s.tile i).wfmt
       (if (s.tile i).wt then ((s.tile i).k / 32, (s.tile i).n / 32)
         else ((s.tile i).n / 32, (s.tile i).k / 32)) = some check →
     ∃ t r w, exec (.spmm i) s = .next t ∧ t.faults.inFlight = s.faults.inFlight ++ [r] ∧ r.2.code = 0x102 ∧
       r.2.source = i.unit ∧ (t.unit i.unit).work = none ∧ (t.unit i.unit).tails = (s.unit i.unit).tails ++ [w] ∧
       w.left = (if (s.unit i.unit).stalled then none else some 64) ∧ t.mem.ops = s.mem.ops) ∧
   (∀ (i : Issue) (s : State), TakesEffect 1 i s → 0x20 ≤ i.unit → i.unit ≤ 0x22 →
     ((s.tile i).gather || (s.tile i).scatter) = true →
     s.routeFresh (unitDie i.unit) (s.tileRoute (s.tile i)) = false →
     ∃ t r, exec (.spmm i) s = .next t ∧ t.faults.inFlight = s.faults.inFlight ++ [r] ∧
       r.2.code = 0x30B ∧ r.2.source = i.unit ∧ (t.unit i.unit).work = none ∧ t.mem.ops = s.mem.ops)) ∧
  (∀ (d : Nat) (s : State) (w : Work), d < 3 → s.sparseDone d 1 = some w → s.program.clearing = false →
     ∃ t, exec (.spmmComplete d) s = .next t ∧ (t.unit (0x20 + d)).tails = (s.unit (0x20 + d)).tails.erase w ∧
       (t.unit (0x20 + d)).work = (s.unit (0x20 + d)).work ∧
       (∀ e, s.inEngine w = some e →
         (∀ a ∈ (t.engine d).accs, a.serial ≠ e.x.serial) ∧ ∀ h ∈ (t.engine d).drain, h.serial ≠ e.x.serial) ∧
       (s.inEngine w = none → t.mem = s.mem))

/-! ### Filigree and mask operations -/

/-- KERNEL: a drain-fed kernel waits for its rows with none accepted; another kernel below code 0x40 works for its cycles;
PACK and PACKP, where their output fits the operand store, leave their bytes there and work for the cycles of lane-ops and
bytes. HBM stays (R184–R192, R213, R215). KERNEL_COMPLETE of a kernel that has all its rows frees the Filigree and counts the
kernel in object 0x6058 (R193). -/
def Obligations.KernelsRunAndAreCounted : Prop :=
  (∀ (i : Issue) (s : State), TakesEffect 1 i s → 0x30 ≤ i.unit → i.unit ≤ 0x32 →
     ((s.kernel i).code < 0x40 → kernelFed (s.kernel i).code = true →
       ∃ t, exec (.kernel i) s = .next t ∧ Works t i.unit 1 i none (.kernel 0 0 0 []) ∧ t.mem.hbm = s.mem.hbm ∧
         t.mem.ops = s.mem.ops) ∧
     ((s.kernel i).code < 0x40 → kernelFed (s.kernel i).code = false →
       ∃ t, exec (.kernel i) s = .next t ∧ t.mem.hbm = s.mem.hbm ∧
         Works t i.unit 1 i (if (s.unit i.unit).stalled then none else some (s.kernel i).cycles) .none) ∧
     (∀ bytes : List Byte, 0x40 ≤ (s.kernel i).code →
       bytes = (if (s.kernel i).code = 0x40 then (s.pack (unitDie i.unit) (s.kernel i)).1
         else (s.packPrivileged (unitDie i.unit) (s.kernel i)).1) →
       inStore (s.kernel i).dst bytes.length = true →
       ∃ t, exec (.kernel i) s = .next t ∧ t.mem.hbm = s.mem.hbm ∧
         Works t i.unit 1 i (if (s.unit i.unit).stalled then none else
           some (64 + max (cdiv ((s.kernel i).rows * (s.kernel i).cols * (kernelOps (s.kernel i).code).getD 1) 16384)
             (cdiv (2 * ((s.kernel i).rows * (s.kernel i).cols) + bytes.length) 8192))) .none ∧
         (unitDie i.unit < s.mem.ops.length → t.opRead (unitDie i.unit) (s.kernel i).dst bytes.length = bytes))) ∧
  (∀ (d : Nat) (s : State), d < 3 → s.kernelDone d = true → s.get 0x6058 (d + 1) + 1 < objLimit 0x6058 (d + 1) →
     ∃ t, exec (.kernelComplete d) s = .next t ∧ (t.unit (0x30 + d)).work = none ∧
       t.get 0x6058 (d + 1) = s.get 0x6058 (d + 1) + 1 ∧ t.mem = s.mem ∧ ∀ v, v ≠ 0x30 + d → t.unit v = s.unit v)

/-- UPDATE with a legal layer block and program: the Filigree runs the part; a revert part of a layer that does not withhold
lasts one cycle and changes no memory (R196–R212). UPDATE_PART_COMPLETE, at the end of the part's cycles, frees the Filigree;
no byte of memory changes (R203, R209). -/
def Obligations.UpdatePartsRunAndEnd : Prop :=
  (∀ (i : Issue) (s : State), TakesEffect 2 i s → 0x30 ≤ i.unit → i.unit ≤ 0x32 →
     ((s.layerBlock (unitDie i.unit) (s.layer i).lblk).slotsOk &&
       s.slotsHome (unitDie i.unit) (s.layer i) (s.layerBlock (unitDie i.unit) (s.layer i).lblk) &&
       programOk (s.layer i) (s.layerBlock (unitDie i.unit) (s.layer i).lblk)
         (s.updateProgram (unitDie i.unit) (s.layer i))) = true →
     (∃ t left, exec (.update i) s = .next t ∧ Works t i.unit 2 i left .none) ∧
     ((s.layer i).mode = 3 →
       ((s.filigree (unitDie i.unit)).withholding && (s.filigree (unitDie i.unit)).layer == (s.layer i).layer) = false →
       ∃ t, exec (.update i) s = .next t ∧ t.mem = s.mem ∧ t.locket = s.locket ∧
         Works t i.unit 2 i (if (s.unit i.unit).stalled then none else some 1) .none)) ∧
  (∀ (d : Nat) (s : State) (w : Work), d < 3 → (s.unit (0x30 + d)).work = some w → w.cmd.op = 2 → w.left = some 0 →
     ∃ t, exec (.updatePartComplete d) s = .next t ∧ (t.unit (0x30 + d)).work = none ∧ t.mem = s.mem ∧
       ∀ v, v ≠ 0x30 + d → t.unit v = s.unit v)

/-- The bytes a PRUNE leaves at its output: the zero groups of every entry, or the delta list of the entries it removes. -/
def pruneBytes (s : State) (i : Issue) : List Byte :=
  let p := s.maskOp i
  let t := s.maskTile p
  let ix := s.index (unitDie i.unit) t.sidx
  if p.op = 3 then (s.entriesOf ix).flatMap fun e => leBytes 32 (s.groupZeros p ix t.valuePlane e)
  else deltaHeader p.tensor s.stepCount (s.pruneSet p ix t.valuePlane).length 0 ++
    (s.pruneSet p ix t.valuePlane).flatMap fun e => deltaEntry e.row e.col 0 0

/-- The pruned blocks that the delta list at a REGROW's output names, and the blocks it then regrows. -/
def regrowPruned (s : State) (i : Issue) : List (Nat × Nat) :=
  (List.range (bits (s.anyLE (unitDie i.unit) (s.maskOp i).out 16) 79 64)).map fun j =>
    let w := s.anyLE (unitDie i.unit) ((s.maskOp i).out + 16 + 4 * j) 4
    (bits w 15 8, bits w 7 0)

def regrowList (s : State) (i : Issue) : List (Nat × Nat) :=
  s.regrowSet (unitDie i.unit) (s.maskOp i) (s.index (unitDie i.unit) (s.maskTile (s.maskOp i)).sidx) (regrowPruned s i)

/-- Nothing stops a REGROW: an index that passes the checks, outputs inside their memories, candidates inside the index, a delta
list of this tensor and step, and no more blocks than candidates allow. -/
def regrowFits (s : State) (i : Issue) : Bool :=
  let p := s.maskOp i
  let t := s.maskTile p
  let ix := s.index (unitDie i.unit) t.sidx
  let head := s.anyLE (unitDie i.unit) p.out 16
  (s.maskChecks t ix).isNone &&
  (s.maskBounds (unitDie i.unit) p ix (16 + 4 * (bits head 79 64 + (regrowList s i).length))).isNone &&
  bits head 31 0 == p.tensor && bits head 63 32 == s.stepCount % 2 ^ 32 &&
  decide (bits head 79 64 + (regrowList s i).length ≤ ix.present + p.ccount)

/-- PRUNE in the last step of its period, with mask evolution on, an index that passes the checks and outputs and candidates
inside their bounds: the output reads as the delta list (or the zero groups). REGROW then works for its cycles, clears the
score plane and marks the step. PRUNE and REGROW in another step last one cycle and change no memory (R122–R134). -/
def Obligations.PruneAndRegrowKeepTheEpoch : Prop :=
  (∀ (i : Issue) (s : State), TakesEffect 3 i s → 0x30 ≤ i.unit → i.unit ≤ 0x32 →
    s.maskStep (s.maskOp i) = true → s.get 0x6050 3 ≠ 1 →
    s.maskChecks (s.maskTile (s.maskOp i)) (s.index (unitDie i.unit) (s.maskTile (s.maskOp i)).sidx) = none →
    s.maskBounds (unitDie i.unit) (s.maskOp i) (s.index (unitDie i.unit) (s.maskTile (s.maskOp i)).sidx)
      (pruneBytes s i).length = none → unitDie i.unit < s.mem.ops.length →
    ∃ t left, exec (.prune i) s = .next t ∧ Works t i.unit 3 i left .none ∧
      t.anyRead (unitDie i.unit) (s.maskOp i).out (pruneBytes s i).length = pruneBytes s i) ∧
  (∀ (i : Issue) (s : State) (op : Nat) (c : Instr), (c, op) ∈ [(.prune i, 3), (.regrow i, 4)] →
    TakesEffect op i s → 0x30 ≤ i.unit → i.unit ≤ 0x32 → s.maskStep (s.maskOp i) = false →
    ∃ t, exec c s = .next t ∧ OnlyUnit s t i.unit ∧
      Works t i.unit op i (if (s.unit i.unit).stalled then none else some 1) .none) ∧
  (∀ (i : Issue) (s : State), TakesEffect 4 i s → 0x30 ≤ i.unit → i.unit ≤ 0x32 →
    s.maskStep (s.maskOp i) = true → s.get 0x6050 3 ≠ 1 → regrowFits s i = true → unitDie i.unit < s.mem.ops.length →
    ∃ t, exec (.regrow i) s = .next t ∧ t.program = { s.program with regrew := true } ∧
      t.anyRead (unitDie i.unit) (s.maskOp i).scores (2 * (s.maskOp i).ccount) = List.replicate (2 * (s.maskOp i).ccount) 0 ∧
      Works t i.unit 4 i (if (s.unit i.unit).stalled then none else
        some (256 + 2 * (s.maskOp i).ccount + 16 * (regrowList s i).length)) .none)

/-- SCORE whose index, candidates and output pass the checks: the Sorus has one job per slab and candidate before it, none
staged or dispatched yet; no memory byte changes. With a check that fails it raises SPARSE_FORMAT and is complete 64 cycles
later. MASK_OP_COMPLETE, its cycles over, frees the Filigree of a PRUNE or REGROW without a change to memory, and ends the
oldest SCORE of a Sorus (R131–R134). -/
def Obligations.ScoreAndMaskOpComplete : Prop :=
  (∀ (i : Issue) (s : State), TakesEffect 2 i s → 0x20 ≤ i.unit → i.unit ≤ 0x22 → (s.unit i.unit).stalled = false →
    s.maskChecks (s.sparseTile { op := 2, issue := i })
      (s.index (unitDie i.unit) (s.sparseTile { op := 2, issue := i }).sidx) = none →
    s.maskBounds (unitDie i.unit) (s.maskOp i) (s.index (unitDie i.unit) (s.sparseTile { op := 2, issue := i }).sidx) 16 = none →
    ∃ t w x, exec (.score i) s = .next t ∧ (t.unit i.unit).work = some w ∧ w.cmd = { op := 2, issue := i } ∧
      w.left = none ∧ w.load = .sparse x ∧ x.next = 0 ∧ x.lines = (List.range (s.maskOp i).ccount).map (fun j => (0, j)) ∧
      x.todo.length = cdiv (s.sparseTile { op := 2, issue := i }).m 64 * (s.maskOp i).ccount ∧
      t.mem.hbm = s.mem.hbm ∧ t.mem.ops = s.mem.ops ∧ t.arrays = s.arrays ∧ t.program = s.program ∧
      ∀ v, v ≠ i.unit → t.unit v = s.unit v) ∧
  (∀ (i : Issue) (s : State), TakesEffect 2 i s → 0x20 ≤ i.unit → i.unit ≤ 0x22 →
    s.maskChecks (s.sparseTile { op := 2, issue := i })
      (s.index (unitDie i.unit) (s.sparseTile { op := 2, issue := i }).sidx) ≠ none →
    ∃ t r w, exec (.score i) s = .next t ∧ t.faults.inFlight = s.faults.inFlight ++ [r] ∧ r.2.code = 0x102 ∧
      r.2.source = i.unit ∧ (t.unit i.unit).tails = (s.unit i.unit).tails ++ [w] ∧
      w.left = (if (s.unit i.unit).stalled then none else some 64) ∧ t.mem = s.mem) ∧
  (∀ (u : Nat) (s : State) (w : Work), 0x30 ≤ u → u ≤ 0x32 → (s.unit u).work = some w → w.cmd.op = 3 ∨ w.cmd.op = 4 →
    w.left = some 0 →
    ∃ t, exec (.maskOpComplete u) s = .next t ∧ (t.unit u).work = none ∧ t.mem = s.mem ∧
      ∀ v, v ≠ u → t.unit v = s.unit v) ∧
  (∀ (d : Nat) (s : State) (w : Work), d < 3 → s.sparseDone d 2 = some w → s.program.clearing = false →
    ∃ t, exec (.maskOpComplete (0x20 + d)) s = .next t ∧
      (t.unit (0x20 + d)).tails = (s.unit (0x20 + d)).tails.erase w ∧
      (∀ e, s.inEngine w = some e → ∀ a ∈ (t.engine d).accs, a.serial ≠ e.x.serial) ∧
      (s.inEngine w = none → t.mem = s.mem))

/-- ROUTE works for its cycles with the bytes of the route of its logits to deliver, the memories as they were;
ROUTE_COMPLETE, the cycles over, writes them to the buffer of the frame's parity and frees the Filigree (R145–R149). -/
def Obligations.RouteDeliversOnCompletion : Prop :=
  (∀ (i : Issue) (s : State), TakesEffect 5 i s → 0x30 ≤ i.unit → i.unit ≤ 0x32 →
    ∃ t w poison, exec (.route i) s = .next t ∧ (t.unit i.unit).work = some w ∧ w.cmd = { op := 5, issue := i } ∧
      w.left = (if (s.unit i.unit).stalled then none else
        some (256 + cdiv ((routeOf (s.descOf i)).tok * (routeOf (s.descOf i)).experts) 8192 +
          cdiv ((routeOf (s.descOf i)).tok * (routeOf (s.descOf i)).k) 64)) ∧
      w.load = .bytes ((routeOf (s.descOf i)).buffer (s.clock.frame % 2))
        ((s.buildRoute (unitDie i.unit) (routeOf (s.descOf i)) (s.allChoices (unitDie i.unit) (routeOf (s.descOf i)))).bytes
          (routeOf (s.descOf i)) (s.clock.frame % 2 ^ 48)) poison ∧
      t.mem.ops = s.mem.ops ∧ t.mem.hbm = s.mem.hbm) ∧
  (∀ (d a : Nat) (data : List Byte) (poison : Bool) (s : State) (w : Work), d < 3 → s.mem.ops.length = 3 →
    (s.unit (0x30 + d)).work = some w → w.cmd.op = 5 → w.load = .bytes a data poison → w.left = some 0 →
    ∃ t, exec (.routeComplete d) s = .next t ∧ (t.unit (0x30 + d)).work = none ∧ t.opRead d a data.length = data ∧
      t.mem.hbm = s.mem.hbm ∧ ∀ v, v ≠ 0x30 + d → t.unit v = s.unit v)

/-! ### Memory controllers -/

/-- READ takes up the transfer of its blocks, the first with the latency of the slice and of the bridges between; no byte of
memory changes yet. A range that touches a reserved region is refused as a whole with ACCESS_REFUSED (R16, R244, R246, R250,
R252). A block that a unit asks for is read at the slice as HBM holds it then; where it arrives for an operand store, the
store reads as the block, and every other byte of the operand stores is as before (R250, R258). -/
def Obligations.ReadsAndCopiesMoveBlocks : Prop :=
  (∀ (i : Issue) (s : State), TakesEffect 1 i s → 0x40 ≤ i.unit → i.unit ≤ 0x4B →
     (reservedRange (s.transfer i).src (512 * (s.transfer i).blocks) = false →
       ∃ t, exec (.read i) s = .next t ∧ t.mem = s.mem ∧ MovesBlocks s t 1 i (s.transfer i).blocks
         (s.readLatency ((s.transfer i).src / 512) + 48 * hops (unitDie i.unit) (addressDie (s.transfer i).src))) ∧
     (reservedRange (s.transfer i).src (512 * (s.transfer i).blocks) = true →
       ∃ t r, exec (.read i) s = .next t ∧ t.faults.inFlight = s.faults.inFlight ++ [r] ∧ r.2.code = 0x204 ∧
         r.2.source = i.unit ∧ t.mem = s.mem ∧ (t.unit i.unit).work = none)) ∧
  ((∀ (s : State) (p : Packet) (a n hint uses : Nat), ∃ q delay,
     (s.readEffect p a n hint uses).traffic.transit = s.traffic.transit ++ [(delay, q)] ∧ q.data = s.hbmRead a n ∧
     q.deed = p.deed ∧ q.to_ = p.to_ ∧ q.unit = p.unit) ∧
   (∀ (s : State) (p : Packet) (d off : Nat), p.deed = .store d off → d < s.mem.ops.length → unitClass p.unit = 5 →
     (s.perform p).opRead d off p.data.length = p.data ∧
     (∀ e c, e ≠ d ∨ c < off ∨ off + p.data.length ≤ c → ((s.perform p).opStore e).read c = (s.opStore e).read c) ∧
     (s.perform p).mem.hbm = s.mem.hbm))

/-- WRITE away from a reserved region, and COPY inside the module's memory away from one, take up the transfer of their
blocks, the first with the latencies of both sides and of the bridges between; no byte of memory changes yet. COPY to another
module takes it up too, and one to an empty place of the board is refused with ROUTE_MISS (R246, R250–R252, R288, R289). A
block of a WRITE or COPY without a reduction takes effect at the slice of its stack: HBM reads as the block; no other byte of
HBM changes where the tensor keeps no record plane, and no byte of an operand store (R250, R251). A write of the step to a
tensor with a record plane: the tensor reads as what was written, and the record plane takes the bitwise difference of old and
new (R310). -/
def Obligations.WritesReachHbmAndTheRecordPlane : Prop :=
  ((∀ (i : Issue) (s : State), TakesEffect 2 i s → 0x40 ≤ i.unit → i.unit ≤ 0x4B →
     reservedRange (s.transfer i).dst (s.transfer i).storedBytes = false → (s.transfer i).tableReserved = false →
     ∃ t, exec (.write i) s = .next t ∧ t.mem.hbm = s.mem.hbm ∧ t.mem.ops = s.mem.ops ∧
       MovesBlocks s t 2 i (s.transfer i).blocks (s.writeLatency (s.transfer i) ((s.transfer i).dst / 512) +
         48 * hops (unitDie i.unit) (addressDie (s.transfer i).dst))) ∧
   (∀ (i : Issue) (s : State), TakesEffect 3 i s → 0x40 ≤ i.unit → i.unit ≤ 0x4B →
     reservedRange (s.transfer i).src (512 * (s.transfer i).blocks) = false →
     (s.copyRemote (s.transfer i) = false →
       reservedRange ((s.transfer i).dst % 2 ^ 41) (s.transfer i).storedBytes = false →
       (s.transfer i).tableReserved = false →
       ∃ t, exec (.copy i) s = .next t ∧ t.mem.hbm = s.mem.hbm ∧ t.mem.ops = s.mem.ops ∧
         MovesBlocks s t 3 i (s.transfer i).blocks (s.readLatency ((s.transfer i).src / 512) +
           (s.writeLatency (s.transfer i) ((s.transfer i).dst % 2 ^ 41 / 512) +
             48 * hops (addressDie (s.transfer i).src) (addressDie ((s.transfer i).dst % 2 ^ 41))))) ∧
     (s.copyRemote (s.transfer i) = true → s.boardModule (bits (s.transfer i).dst 44 41) ≠ 0xFFFF →
       ∃ t, exec (.copy i) s = .next t ∧ t.mem = s.mem ∧
         MovesBlocks s t 3 i (s.transfer i).blocks (s.readLatency ((s.transfer i).src / 512) +
           48 * hops (addressDie (s.transfer i).src) (unitDie i.unit))) ∧
     (s.copyRemote (s.transfer i) = true → s.boardModule (bits (s.transfer i).dst 44 41) = 0xFFFF →
       ∃ t r, exec (.copy i) s = .next t ∧ t.faults.inFlight = s.faults.inFlight ++ [r] ∧ r.2.code = 0x20E ∧
         r.2.source = i.unit ∧ t.mem = s.mem ∧ (t.unit i.unit).work = none))) ∧
  (∀ (s : State) (p : Packet) (a tensor hint uses : Nat), p.deed = .write a tensor hint uses → unitClass p.unit = 5 →
     a % 512 + p.data.length ≤ 512 →
     (s.putEffect p).hbmRead a p.data.length = p.data ∧ (s.putEffect p).mem.ops = s.mem.ops ∧
     ((∀ d, s.tensorDesc tensor = some d → bits d 207 200 ≠ 2 ∧ bits d 207 200 ≠ 4 ∧ bits d 207 200 ≠ 5) →
       ∀ c, c < a ∨ a + p.data.length ≤ c → (s.putEffect p).mem.hbm.read c = s.mem.hbm.read c)) ∧
  (∀ (s : State) (ctx tensor a d : Nat) (bytes : List Byte) (poisoned : Bool),
     s.tensorDesc tensor = some d → (bits d 207 200 = 2 ∨ bits d 207 200 = 4 ∨ bits d 207 200 = 5) →
     tensorBase d ≤ a → a + bytes.length ≤ tensorBase d + tensorLength d →
     (tensorRecord d + (a - tensorBase d) + bytes.length ≤ a ∨ a + bytes.length ≤ tensorRecord d + (a - tensorBase d)) →
     (s.stepWrite ctx tensor a bytes poisoned).hbmRead a bytes.length = bytes ∧
     (s.stepWrite ctx tensor a bytes poisoned).hbmRead (tensorRecord d + (a - tensorBase d)) bytes.length =
       xorBytes (s.hbmRead (tensorRecord d + (a - tensorBase d)) bytes.length)
         (xorBytes (s.hbmRead a bytes.length) bytes))

/-- REDUCE arms its window for exactly its duration; a ninth window, or one that meets another, does not take effect and is
reported; the expiry, the duration over, closes the oldest window and frees the controller; a transfer whose last block has
landed ends. No byte of memory changes (R252, R264). -/
def Obligations.ReduceArmsAWindow : Prop :=
  (∀ (i : Issue) (s : State), TakesEffect 4 i s → 0x40 ≤ i.unit → i.unit ≤ 0x4B →
    reservedRange (s.transfer i).dst (s.transfer i).storedBytes = false → (s.transfer i).tableReserved = false →
    (s.windowsOf (i.unit - 0x40)).length < 8 →
    (∀ w ∈ s.windowsOf (i.unit - 0x40),
      overlaps (s.transfer i).dst (s.transfer i).storedBytes w.base w.bytes = false) →
    ∃ t, exec (.reduce i) s = .next t ∧
      t.windowsOf (i.unit - 0x40) = s.windowsOf (i.unit - 0x40) ++ [windowOf (s.transfer i) i.ctx] ∧
      Works t i.unit 4 i (if (s.unit i.unit).stalled then none else some i.dur) .none ∧
      t.mem.hbm = s.mem.hbm ∧ t.mem.ops = s.mem.ops ∧ ∀ v, v ≠ i.unit → t.unit v = s.unit v) ∧
  (∀ (i : Issue) (s : State), TakesEffect 4 i s → 0x40 ≤ i.unit → i.unit ≤ 0x4B →
    reservedRange (s.transfer i).dst (s.transfer i).storedBytes = false → (s.transfer i).tableReserved = false →
    8 ≤ (s.windowsOf (i.unit - 0x40)).length ∨
      (∃ w ∈ s.windowsOf (i.unit - 0x40), overlaps (s.transfer i).dst (s.transfer i).storedBytes w.base w.bytes = true) →
    s.commitState ≠ 4 → s.commitState ≠ 5 →
    ∃ t r, exec (.reduce i) s = .next t ∧ t.faults.inFlight = s.faults.inFlight ++ [r] ∧ r.2.code = 0x303 ∧
      r.2.source = i.unit ∧ t.mem = s.mem ∧ (t.unit i.unit).work = none) ∧
  (∀ (u : Nat) (s : State) (w : Work), 0x40 ≤ u → u ≤ 0x4B → (s.unit u).work = some w → w.cmd.op = 4 → w.left = some 0 →
    ∃ t, exec (.reduceWindowExpiry u) s = .next t ∧ (t.unit u).work = none ∧
      t.windowsOf (u - 0x40) = (s.windowsOf (u - 0x40)).drop 1 ∧
      t.mem.hbm = s.mem.hbm ∧ t.mem.ops = s.mem.ops ∧ ∀ v, v ≠ u → t.unit v = s.unit v) ∧
  (∀ (u : Nat) (s : State) (w : Work), 0x40 ≤ u → u ≤ 0x4B → (s.unit u).work = some w →
    w.cmd.op = 1 ∨ w.cmd.op = 2 ∨ w.cmd.op = 3 → w.left = some 0 →
    ∃ t, exec (.transferComplete u) s = .next t ∧ (t.unit u).work = none ∧ t.mem = s.mem ∧
      ∀ v, v ≠ u → t.unit v = s.unit v)

/-! ### Ports, mailboxes and the Locket unit -/

/-- SEND of a port or of Stavlink and BCAST, from sources outside the reserved regions: the port asks for the blocks of the
transfer, of a BCAST also for those of its delta copy, and works until the flits have left; memory, fabric and commit stay. A
SEND from a reserved region is refused with ACCESS_REFUSED (R246, R291, R292, R295). With its last block the flits of a SEND
leave: the SERIAL of the peer and TAG moves on; on a Stavlink that is not up every flit of the transfer waits in its queue, in
ascending order. A BCAST awaits with its parity copies the DELTA_ACK of every member that takes one, in the order of the
group. The operand stores stay (R291, R292, R315, R322). RECV of a port or of Stavlink arms an entry and takes the unit up
until it ends; flits that wait for it land. With none waiting nothing else changes. A sixty-fifth entry does not run (R293,
R295). -/
def Obligations.SendsBroadcastsAndReceives : Prop :=
  ((∀ (i : Issue) (s : State) (c : Instr) (op n : Nat),
     (c = .portSend i ∧ op = 1 ∧ 0x50 ≤ i.unit ∧ i.unit ≤ 0x5F ∧ n = (s.transfer i).blocks) ∨
     (c = .stavlinkSend i ∧ op = 1 ∧ i.unit = 0x60 ∧ n = (s.transfer i).blocks) ∨
     (c = .bcast i ∧ op = 3 ∧ 0x50 ≤ i.unit ∧ i.unit ≤ 0x5F ∧ n = (s.transfer i).blocks + (s.transfer i).deltaBlocks ∧
       reservedRange (s.transfer i).dsrc (512 * (s.transfer i).dblocks) = false) →
     TakesEffect op i s →
     bit (s.transfer i).src 63 = true ∨ reservedRange (s.transfer i).src (512 * (s.transfer i).blocks) = false →
     ∃ t w, exec c s = .next t ∧ (t.unit i.unit).work = some w ∧ w.cmd = { op, issue := i } ∧ w.left = none ∧
       w.load = .gathering 0 [] ∧ w.jobs = n ∧ w.stuck = (s.unit i.unit).stalled ∧ t.mem = s.mem ∧ t.fabric = s.fabric ∧
       t.commit = s.commit ∧ ∀ v, v ≠ i.unit → t.unit v = s.unit v) ∧
   (∀ (i : Issue) (s : State) (c : Instr),
     (c = .portSend i ∧ 0x50 ≤ i.unit ∧ i.unit ≤ 0x5F) ∨ (c = .stavlinkSend i ∧ i.unit = 0x60) → TakesEffect 1 i s →
     bit (s.transfer i).src 63 = false → reservedRange (s.transfer i).src (512 * (s.transfer i).blocks) = true →
     ∃ t r, exec c s = .next t ∧ t.faults.inFlight = s.faults.inFlight ++ [r] ∧ r.2.code = 0x204 ∧
       r.2.source = i.unit ∧ t.mem = s.mem ∧ t.fabric = s.fabric ∧ (t.unit i.unit).work = none)) ∧
  ((∀ (i : Issue) (s : State) (x : Transfer) (come : KMap (List Byte × Bool)), 0x50 ≤ i.unit → i.unit ≤ 0x60 →
     (s.sendAll i x come).mem.ops = s.mem.ops ∧ (s.sendAll i x come).fabric.recvs = s.fabric.recvs ∧
     (s.sendAll i x come).commit = s.commit ∧
     (s.sendAll i x come).fabric.serials = kset 0 s.fabric.serials
       ((if i.unit = 0x60 then 0xFFF else x.peer) * 65536 + x.tag)
       ((kget 0 s.fabric.serials ((if i.unit = 0x60 then 0xFFF else x.peer) * 65536 + x.tag) + 1) % 16)) ∧
   (∀ (i : Issue) (s : State) (x : Transfer) (come : KMap (List Byte × Bool)), i.unit = 0x60 → s.up 16 = false →
     ((s.sendAll i x come).port 16).queue = (s.port 16).queue ++
       (streamFlits x.cls 0xFFF x.tag (kget 0 s.fabric.serials (0xFFF * 65536 + x.tag)) (comeBytes come 0 x.blocks).1
         (comeBytes come 0 x.blocks).2).map fun f => ({ f with src := s.moduleId, dst := 0xFFF, slice := 0 } : Flit).encode) ∧
   (∀ (i : Issue) (s : State) (x : Transfer) (come : KMap (List Byte × Bool)), 0x50 ≤ i.unit → i.unit ≤ 0x5F →
     ∃ added, (s.castAll i x come).commit = { s.commit with deltas := s.commit.deltas ++ added } ∧
       (s.castAll i x come).mem.ops = s.mem.ops ∧
       added.map Prod.fst = if x.dsrc = 0 then [] else
         ((s.groupMembers (x.peer % 256)).filter fun m => m.2 != 0).map Prod.fst)) ∧
  (∀ (i : Issue) (s : State) (c : Instr),
     (c = .portRecv i ∧ 0x50 ≤ i.unit ∧ i.unit ≤ 0x5F) ∨ (c = .stavlinkRecv i ∧ i.unit = 0x60) → TakesEffect 2 i s →
     (s.fabric.recvs.length < 64 →
       bit (s.transfer i).dst 63 = true ∨ reservedRange (s.transfer i).dst
         (if (s.transfer i).hdr then max 512 (s.landingBytes (s.transfer i)) else (s.transfer i).storedBytes) = false →
       (s.transfer i).tableReserved = false →
       ∃ u, exec c s = .next u.landWaiting ∧ OnlyUnit s { u with fabric := s.fabric } i.unit ∧
         Works u i.unit 2 i none .none ∧
         u.fabric = { s.fabric with recvs := s.fabric.recvs ++
           [{ cmd := { op := 2, issue := i }, landed := 0, serial := 0, source := 0, parts := [] }] } ∧
         (s.fabric.unmatched = [] → u.landWaiting = u)) ∧
     (64 ≤ s.fabric.recvs.length → exec c s = .next ((s.current 2 i).invalid i)))

/-- POST: the message comes to the ring of the die with its context, frame, cycle and die; in the next cycle it stands in the
ring and raises PLIC source 1 of the die. A full ring keeps its entries, marks the overflow, counts the drop and raises
MAILBOX_OVERFLOW (R235, R236). -/
def Obligations.PostJoinsTheRing : Prop :=
  ∀ (i : Issue) (s : State), TakesEffect 1 i s → 0x70 ≤ i.unit → i.unit ≤ 0x72 →
    (s.boxFull (i.unit - 0x70) = false →
      ∃ t e, exec (.post i) s = .next t ∧ (t.box (i.unit - 0x70)).ring = (s.box (i.unit - 0x70)).ring ∧
        (t.box (i.unit - 0x70)).landing = insertEntry e (s.box (i.unit - 0x70)).landing ∧
        bits e 31 0 = i.arg.toNat ∧ bits e 35 32 = i.ctx % 16 ∧ bit e 36 = false ∧
        bits e 95 48 = s.clock.frame % 2 ^ 48 ∧ bits e 115 96 = s.clock.cycle % 2 ^ 20 ∧ bits e 117 116 = i.unit - 0x70 ∧
        e ∈ ((t.mailCycle (i.unit - 0x70)).box (i.unit - 0x70)).ring ∧
        (bit (kget 0 s.thallus.plicServing (i.unit - 0x70)) 1 = false →
          bit (kget 0 (t.mailCycle (i.unit - 0x70)).thallus.plic (i.unit - 0x70)) 1 = true) ∧
        t.mem = s.mem ∧ t.dict = s.dict) ∧
    (s.boxFull (i.unit - 0x70) = true →
      exec (.post i) s = .next ((((s.current 1 i).setBox (i.unit - 0x70)
        { s.box (i.unit - 0x70) with overflow := true }).count 0x6068 (i.unit - 0x70 + 1) 1).raise 0x307 i.unit
          (i.unit - 0x70) i.ctx 0))

/-- The first SEAL of a step builds OWN_SEALED for the next value of the step counter and works 1,024 cycles and one for every
256 bytes; a second one is illegal. SEAL_COMPLETE, the cycles over, frees the Locket unit and sends the record, which stays;
both leave every memory as it is (R319). -/
def Obligations.SealBuildsAndSendsTheRecord : Prop :=
  (∀ (i : Issue) (s : State), TakesEffect 1 i s → i.unit = 0x78 →
    (s.commit.sealed = false →
      ∃ t, exec (.seal i) s = .next t ∧ t.commit = { s.commit with sealed := true } ∧
        t.locket = { s.locket with
          ownSealed := s.sealRecord, lengths := s.locket.lengths.set 1 (recordLength s.sealRecord) } ∧
        Works t 0x78 1 i (if (s.unit 0x78).stalled then none else some (1024 + cdiv (recordLength s.sealRecord) 256)) .none ∧
        t.mem = s.mem ∧ t.program = s.program ∧ t.dict = s.dict) ∧
    (s.commit.sealed = true → exec (.seal i) s = .next ((s.current 1 i).invalid i))) ∧
  (∀ (s : State) (w : Work), (s.unit 0x78).work = some w → w.cmd.op = 1 → w.left = some 0 →
    ∃ t, exec .sealComplete s = .next t ∧ (t.unit 0x78).work = none ∧ t.commit = { s.commit with sealSent := true } ∧
      t.locket = s.locket ∧ t.mem = s.mem)

/-! ### Pending commands, the frame and time -/

/-- A pending command has the effect of its command: what each command of the stream does when it takes effect is what the
unit takes up when it starts one that waited (R44). PENDING_COMMAND_START: the oldest waiting command of a unit whose work is
done leaves its queue and takes effect, or is reported where the shadow rules forbid it; where nothing may start, nothing
changes (R44, R48). -/
def Obligations.PendingCommands : Prop :=
  (∀ (i : Issue) (s : State) (c : Instr) (cls op : Nat),
     (c, cls, op) ∈ [(Instr.nop i, 0, 0), (.call i, 0, 1), (.commitPoint i, 0, 2), (.halt i, 0, 3), (.mark i, 0, 4),
       (.arrayIdle i, 1, 0), (.matmul i, 1, 1), (.arrayHold i, 1, 2), (.sorusIdle i, 2, 0), (.spmm i, 2, 1),
       (.score i, 2, 2), (.sorusHold i, 2, 3), (.feederIdle i, 3, 0), (.loadw i, 3, 1), (.loadwT i, 3, 2), (.swap i, 3, 3),
       (.filigreeIdle i, 4, 0), (.kernel i, 4, 1), (.update i, 4, 2), (.prune i, 4, 3), (.regrow i, 4, 4), (.route i, 4, 5),
       (.mcIdle i, 5, 0), (.read i, 5, 1), (.write i, 5, 2), (.copy i, 5, 3), (.reduce i, 5, 4), (.portIdle i, 6, 0),
       (.portSend i, 6, 1), (.portRecv i, 6, 2), (.bcast i, 6, 3), (.stavlinkIdle i, 7, 0), (.stavlinkSend i, 7, 1),
       (.stavlinkRecv i, 7, 2), (.post i, 8, 1), (.seal i, 9, 1), (.phase i, 10, 1), (.floor i, 10, 2), (.fence i, 11, 1)] →
     validUnit i.unit = true → unitClass i.unit = cls → TakesEffect op i s →
     exec c s = .next (takeUp op i (s.current op i))) ∧
  (∀ (u : Nat) (s : State) (c : Cmd) (rest : List Cmd), (s.unit u).waiting = c :: rest →
     (s.takesUp u = true →
       exec (.pendingCommandStart u) s = .next
         (if ((s.onUnit u fun x => { x with waiting := rest }).shadowOk c.op c.issue) = true then
           takeUp c.op c.issue ((s.onUnit u fun x => { x with waiting := rest }).current c.op c.issue)
         else (s.onUnit u fun x => { x with waiting := rest }).invalid c.issue)) ∧
     (s.takesUp u = false → exec (.pendingCommandStart u) s = .next s) ∧
     ((s.unit u).work = none → s.mayTakeUp c = true → s.takesUp u = true))

/-- FRAME_TICK: the frame number moves on modulo 2^48 and the cycle counter starts at 0; without power nothing changes (R31,
R32). STREAM_FETCH: the next frame's bundles are read, and no byte of memory changes; a frame with a finding keeps none of
them and BUNDLE_INVALID is raised; with nothing to fetch nothing changes. BACKGROUND_RESERVE_START calls table 0xFF where it
is legal and leaves time and the operand stores as they are (R39, R58, R60). -/
def Obligations.TicksFetchesAndTheReserve : Prop :=
  (∀ s : State, (s.power.on = true →
       ∃ t, exec .frameTick s = .next t ∧ t.clock.frame = (s.clock.frame + 1) % 2 ^ 48 ∧ t.clock.cycle = 0) ∧
     (s.power.on = false → exec .frameTick s = .next s)) ∧
  ((∀ s : State,
     (s.fetchDue = true →
       ∃ t f finding, s.readFrame s.nextIndex (s.nextPlace s.nextIndex).1 (s.nextPlace s.nextIndex).2 = (f, finding) ∧
         exec .streamFetch s = .next t ∧ t.program = { s.program with fetched := some f } ∧ t.mem.hbm = s.mem.hbm ∧
         t.mem.ops = s.mem.ops ∧ t.units = s.units ∧ t.clock = s.clock ∧
         ∀ x, finding = some x → f.bundles = [] ∧ ∃ l r, t.faults.inFlight = l ++ [r] ∧ r.2.code = 0x303 ∧ r.2.source = 0 ∧
           r.2.ctx = x.1 ∧ r.2.detail = x.2) ∧
     (s.fetchDue = false → exec .streamFetch s = .next s)) ∧
   (∀ s : State, s.power.on = true →
     ∃ t, exec .backgroundReserveStart s = .next t ∧ t.clock = s.clock ∧ t.mem.ops = s.mem.ops ∧ t.locket = s.locket ∧
       (s.hasBackground = false → t.program = s.program) ∧
       ((s.hasBackground && s.callOk 0xFF s.clock.cycle s.flen) = true → t.program.calls.contains (0xFF, 0) = true)))

/-- FRAME_SYNC_EDGE places the first tick 64 cycles on after a START under tracking, begins tracking when it was armed, and in
tracking places the sync point of the frame; an edge within 8 ns of the last is the same edge. Only the clock changes (R33,
R36, R423). SYNC_LOST raises the fault of the same name, reports the offset it measured and free-runs where tracking is lost,
and else does nothing; REFCLK_LOSS is counted once and switches to the holdover oscillator; REFCLK_RETURN switches back
without a program or in a wait frame, and else waits for one (R33, R36, R422). PLAN_FIX fixes the plan of the next frame once:
the controller's where it is ready and cluster C is not in reset, else the fallback of floors, 1,600 MHz and the last stretch,
which is counted. Clocks in force stay until the tick (R375, R378). -/
def Obligations.ClocksAndPlans : Prop :=
  (∀ s : State, s.power.on = true →
     (s.sameEdge = true → exec .frameSyncEdge s = .next s) ∧
     (s.sameEdge = false → s.clock.placing = true →
       exec .frameSyncEdge s = .next { s with clock := { s.clock with
         lastEdge := some (s.clock.frame, s.clock.cycle), placing := false, tickIn := some 64, syncPoint := none } }) ∧
     (s.sameEdge = false → s.clock.placing = false → s.clock.arming = true →
       exec .frameSyncEdge s = .next { s with clock := { s.clock with
         lastEdge := some (s.clock.frame, s.clock.cycle), arming := false, tracking := true, freeRun := false, quiet := 0
         syncPoint := some (s.clock.cycle + 64) } }) ∧
     (s.sameEdge = false → s.clock.placing = false → s.clock.arming = false →
       exec .frameSyncEdge s = .next { s with clock := { s.clock with
         lastEdge := some (s.clock.frame, s.clock.cycle)
         syncPoint := if s.clock.tracking && !s.clock.freeRun then some (s.clock.cycle + 64) else s.clock.syncPoint } })) ∧
  ((∀ s : State,
     (s.syncGone = true → ∃ t r, exec .syncLost s = .next t ∧ t.clock = { s.clock with
         freeRun := true, syncPoint := none, quiet := 0 } ∧ t.faults.inFlight = s.faults.inFlight ++ [r] ∧
         r.2.code = 0x302 ∧ r.2.frame = s.clock.frame ∧ r.2.cycle = s.flen - 1 ∧ t.mem = s.mem ∧ t.units = s.units ∧
         (∀ o, s.tickOffset = some o → t.get 0x6002 2 = twos 32 o) ∧ (s.tickOffset = none → t.dict = s.dict)) ∧
     (s.syncGone = false → exec .syncLost s = .next s)) ∧
   (∀ s : State, s.power.on = true → s.get 0x1005 1 ≠ 1 →
     ∃ t, exec .refclkLoss s = .next t ∧ t.dict = ((s.put 0x1005 1 1).count 0x1005 2 1).dict ∧ t.clock = s.clock ∧
       t.fabric = s.fabric ∧ t.power.returning = false) ∧
   (∀ s : State, s.get 0x1005 1 ≠ 0 →
     ((!s.running || s.waitFrame) = true → ∃ t, exec .refclkReturn s = .next t ∧ t.dict = (s.put 0x1005 1 0).dict ∧
       t.clock = s.clock) ∧
     ((!s.running || s.waitFrame) = false →
       exec .refclkReturn s = .next { s with power := { s.power with returning := true } }))) ∧
  (∀ (ready : Bool) (s : State),
     (s.power.plan.isSome = true → exec (.planFix ready) s = .next s) ∧
     (s.power.plan = none → (ready && !s.faults.clusterReset.contains 1) = true →
       ∃ t p, exec (.planFix ready) s = .next t ∧ t.power.plan = some p ∧ p.2.2 = t.power.lastStretch ∧
         p.1.length = 3 ∧ p.2.1.length = 3 ∧ t.clock = s.clock ∧ t.mem = s.mem ∧ t.program = s.program) ∧
     (s.power.plan = none → (ready && !s.faults.clusterReset.contains 1) = false →
       ∃ t p, exec (.planFix ready) s = .next t ∧ t.power.plan = some p ∧ p.2.1 = [1600, 1600, 1600] ∧
         p.2.2 = min s.power.lastStretch (s.nextLength / 8) ∧ t.dict = (s.count 0x2003 5 1).dict ∧ t.clock = s.clock ∧
         t.mem = s.mem))

/-! ### The link, streams and the board space -/

/-- IDLE carries its ACK and nothing else: an ACK of a flit in the replay buffer frees that flit and those before it and lets
the port send at most one flit more; any other changes nothing (R275, R276). NAK: every unacknowledged flit from the named SEQ
on is to go out again, in order; where the link is free and no other flit waits the first of them goes at once and is counted.
CREDIT adds the places the far end has freed. RETRAIN DONE ends a retrain (R275, R276, R278). -/
def Obligations.LinkFlitsAct : Prop :=
  (∀ (p : Nat) (raw : List Byte) (s : State), s.power.on = true → p ≤ 16 → s.up p = true → flitIntact raw = true →
     flitOk p raw = true → (flitOf raw).type = 0 →
     ((∀ r ∈ (s.port p).replay, seqOf r ≠ (flitOf raw).ack) → exec (.idleReceive p raw) s = .next s) ∧
     (∀ a r b, (s.port p).replay = a ++ r :: b → seqOf r = (flitOf raw).ack → (∀ x ∈ a, seqOf x ≠ (flitOf raw).ack) →
       ∃ t sent, exec (.idleReceive p raw) s = .next t ∧ (t.port p).replay = b ++ sent ∧ sent.length ≤ 1 ∧
         (t.port p).rxSeq = (s.port p).rxSeq ∧ (∀ q, q ≠ p → t.port q = s.port q) ∧ t.mem = s.mem)) ∧
  ((∀ (p : Nat) (raw : List Byte) (s t : State) (f : Flit), Arrives p raw (ofLink 0) s f t →
     (((t.port p).replay.dropWhile fun r => seqOf r != leNat f.payload % 4096) = [] → exec (.nakReceive p raw) s = .next t) ∧
     (∀ r l, ((t.port p).replay.dropWhile fun r => seqOf r != leNat f.payload % 4096) = r :: l →
       ((t.port p).pace < 2560 →
         exec (.nakReceive p raw) s = .next (t.setPort p { t.port p with resend := r :: l })) ∧
       (2560 ≤ (t.port p).pace → t.up p = true → (t.port p).retraining = none → (t.port p).queue = [] →
         ∃ u, exec (.nakReceive p raw) s = .next u ∧ (u.port p).resend = l ∧
           (u.port p).wire = (t.port p).wire ++ [stampFlit r (seqOf r) ((t.port p).rxSeq + 4095)] ∧
           (u.port p).replay = (t.port p).replay ∧ u.dict = (t.count 0x5021 (p + 1) 1).dict ∧ u.mem = t.mem))) ∧
   (∀ (p : Nat) (raw : List Byte) (s t : State) (f : Flit), Arrives p raw (ofLink 1) s f t →
     ∃ u, exec (.creditReceive p raw) s = .next u ∧
       ((t.port p).queue = [] → (t.port p).resend = [] →
         u = t.setPort p { t.port p with credits := (t.port p).credits + leNat (f.payload.take 1) }) ∧
       u.mem = t.mem ∧ ∀ q, q ≠ p → u.port q = t.port q) ∧
   (∀ (p : Nat) (raw : List Byte) (s t : State) (f : Flit), Arrives p raw (ofLink 3) s f t →
     ∃ u, exec (.retrainDoneReceive p raw) s = .next u ∧ u.mem = t.mem ∧
       ((t.port p).retraining.isSome = true → (u.port p).retraining = none ∧
         u.get 0x5020 (p + 1) = if (t.port p).retraining = some true then 1 else 2) ∧
       ((t.port p).retraining = none → t.portState p ≠ 0 → u = t)))

/-- Sixteen resends, or a DEGRADE from the far end: a port of full width begins to retrain and is reported; a port of half
width is removed, its flits discarded (R278, R280, Table 11.4). PORT_RETRAIN_COMPLETE: a degrade that trained leaves half
width and is counted, one that did not removes the port; a restore that trained leaves full width, one that did not leaves the
port's state; an unused port whose far end trains comes up (log 46), and any other port stays as it is. PORT_STALL reports the
oldest flit held and changes nothing else (R278, R279, R285). -/
def Obligations.DegradesAndRetrains : Prop :=
  ((∀ (p : Nat) (s : State), p ≤ 16 → (s.port p).retraining = none →
     (s.portState p = 1 → ∃ t r, exec (.linkDegraded p) s = .next t ∧ (t.port p).retraining = some false ∧
       t.faults.inFlight = s.faults.inFlight ++ [r] ∧ r.2.code = 0x20A ∧ r.2.source = 0x50 + p ∧ t.mem = s.mem) ∧
     (s.portState p = 2 → ∃ t r, exec (.linkDegraded p) s = .next t ∧ t.get 0x5020 (p + 1) = 3 ∧
       (t.port p).queue = [] ∧ (t.port p).replay = [] ∧
       t.faults.inFlight = s.faults.inFlight ++ [r] ∧ r.2.code = (if p = 16 then 0x20C else 0x20B) ∧ t.mem = s.mem) ∧
     (s.portState p ≠ 1 → s.portState p ≠ 2 → exec (.linkDegraded p) s = .next s)) ∧
   (∀ (p : Nat) (raw : List Byte) (s t : State) (f : Flit), Arrives p raw (ofLink 2) s f t →
     ((t.port p).retraining.isSome = true → exec (.degradeReceive p raw) s = .next t) ∧
     ((t.port p).retraining = none → t.portState p = 1 → ∃ u r, exec (.degradeReceive p raw) s = .next u ∧
       u.port p = { t.port p with retraining := some false } ∧ u.faults.inFlight = t.faults.inFlight ++ [r] ∧ r.2.code = 0x20A) ∧
     ((t.port p).retraining = none → t.portState p = 2 → ∃ u, exec (.degradeReceive p raw) s = .next u ∧
       u.get 0x5020 (p + 1) = 3 ∧ u.port p = { wire := (t.port p).wire }))) ∧
  ((∀ (p : Nat) (trained : Bool) (s : State), p ≤ 16 →
     ((s.port p).retraining = some false →
       ∃ t, exec (.portRetrainComplete p trained) s = .next t ∧ (t.port p).retraining = none ∧
         t.get 0x5020 (p + 1) = (if trained then 2 else 3) ∧ t.mem = s.mem ∧
         (trained = true → t.get 0x5026 (p + 1) = (s.count 0x5026 (p + 1) 1).get 0x5026 (p + 1)) ∧
         (trained = false → (t.port p).queue = [] ∧ (t.port p).replay = [])) ∧
     ((s.port p).retraining = some true →
       ∃ t, exec (.portRetrainComplete p trained) s = .next t ∧ (t.port p).retraining = none ∧
         t.get 0x5020 (p + 1) = (if trained then 1 else s.get 0x5020 (p + 1)) ∧ t.mem = s.mem) ∧
     ((s.port p).retraining = none → s.portState p = 0 → trained = true →
       exec (.portRetrainComplete p trained) s = .next (s.put 0x5020 (p + 1) 1)) ∧
     ((s.port p).retraining = none → s.portState p ≠ 0 ∨ trained = false → exec (.portRetrainComplete p trained) s = .next s)) ∧
   (∀ (p : Nat) (s : State),
     (∀ r rest, (s.port p).queue = r :: rest →
       exec (.portStall p) s = .next (s.raise 0x30E (0x50 + p) (unitDie (0x50 + p)) 0 (portDetail p (flitOf r)))) ∧
     ((s.port p).queue = [] → exec (.portStall p) s = .next s)))

/-- A STREAM flit without an entry waits, the oldest first, as long as fewer than 256 wait, and else is dropped and counted;
one of an entry is on its way to where its entry says: to the operand store, or to DST + 4 · OFFSET in HBM, or to the
reducers; no byte of memory changes yet. STREAM_UNMATCHED drops the oldest flit of an earlier frame and counts it (R293,
R294). Bytes of a receive entry that come to the operand store stand there, and no other byte of memory changes; with the last
bytes of its transfer the entry is disarmed and its unit is free (R293). -/
def Obligations.StreamFlitsLandOrWait : Prop :=
  ((∀ (p : Nat) (raw : List Byte) (s t : State) (f : Flit), Arrives p raw (ofType 1) s f t →
     (t.entryFor p f = none → t.fabric.unmatched.length < 256 →
       exec (.streamFlitReceive p raw) s = .next { t with fabric := { t.fabric with
         unmatched := t.fabric.unmatched ++ [(p, t.clock.frame, f.encode)] } }) ∧
     (t.entryFor p f = none → 256 ≤ t.fabric.unmatched.length →
       ∃ u r, exec (.streamFlitReceive p raw) s = .next u ∧ u.dict = (t.count 0x5030 1 1).dict ∧
         u.faults.inFlight = t.faults.inFlight ++ [r] ∧ r.2.code = 0x210 ∧ u.fabric = t.fabric ∧ u.mem = t.mem) ∧
     (∀ r, t.entryFor p f = some r →
       ∃ u q, exec (.streamFlitReceive p raw) s = .next u ∧ u.mem.hbm = t.mem.hbm ∧ u.mem.ops = t.mem.ops ∧
         u.traffic.transit = t.traffic.transit ++ [(64, q)] ∧ q.own = true ∧ q.unit = r.cmd.issue.unit ∧ q.data = f.payload ∧
         (bit (t.transfer r.cmd.issue).dst 63 = true → q.to_ = unitDie r.cmd.issue.unit ∧ q.poison = f.poison ∧
           q.deed = .store (unitDie r.cmd.issue.unit) (opOffset (t.transfer r.cmd.issue).dst + 4 * bits f.addr 47 20)) ∧
         (bit (t.transfer r.cmd.issue).dst 63 = false → q.to_ = addressDie (t.transfer r.cmd.issue).dst ∧
           ((t.transfer r.cmd.issue).hdr = true →
             q.deed = .piece (t.transfer r.cmd.issue).dst f.src (bits f.addr 19 16) (4 * bits f.addr 47 20)) ∧
           ((t.transfer r.cmd.issue).hdr = false → (t.transfer r.cmd.issue).redop = 0 →
             q.deed = .write ((t.transfer r.cmd.issue).dst + 4 * bits f.addr 47 20) (t.transfer r.cmd.issue).tensor
               (t.transfer r.cmd.issue).hint (t.transfer r.cmd.issue).uses ∧ q.poison = f.poison) ∧
           ((t.transfer r.cmd.issue).hdr = false → (t.transfer r.cmd.issue).redop ≠ 0 →
             ∃ red, red.op = (t.transfer r.cmd.issue).redop ∧
               q.deed = .reduce red (t.transfer r.cmd.issue).dst (4 * bits f.addr 47 20))))) ∧
   (∀ (s : State) (p frame : Nat) (raw : List Byte) (rest : List (Nat × Nat × List Byte)),
     s.fabric.unmatched = (p, frame, raw) :: rest →
     (frame < s.clock.frame → ∃ t r, exec .streamUnmatched s = .next t ∧ t.fabric = { s.fabric with unmatched := rest } ∧
       t.dict = (s.count 0x5030 1 1).dict ∧ t.faults.inFlight = s.faults.inFlight ++ [r] ∧ r.2.code = 0x210 ∧
       r.2.cycle = s.flen - 1 ∧ t.mem = s.mem) ∧
     (s.clock.frame ≤ frame → exec .streamUnmatched s = .next s))) ∧
  ((∀ (s : State) (q : Packet) (d off : Nat), q.deed = .store d off → d < s.mem.ops.length →
     (s.perform q).opRead d off q.data.length = q.data ∧ (s.perform q).mem.hbm = s.mem.hbm ∧
     ∀ e c, e ≠ d ∨ c < off ∨ off + q.data.length ≤ c → ((s.perform q).opStore e).read c = (s.opStore e).read c) ∧
   (∀ (s : State) (u n : Nat) (r : Recv), (s.fabric.recvs.find? fun r => r.cmd.issue.unit == u) = some r →
     (r.landed + n < 512 * (s.transfer r.cmd.issue).blocks → s.recvLanded u n = s.setRecv { r with landed := r.landed + n }) ∧
     (512 * (s.transfer r.cmd.issue).blocks ≤ r.landed + n →
       ((s.recvLanded u n).unit u).work = none ∧
       (s.recvLanded u n).fabric.recvs = s.fabric.recvs.filter (fun q => q.cmd != r.cmd))))

/-- The tensor that a landing belongs to keeps no record plane, and the range stays clear of the descriptors of the tensors:
what is written there is all that changes. -/
def plainLanding (s : State) (tensor a n : Nat) : Prop :=
  (∀ d, s.tensorDesc tensor = some d → bits d 207 200 ≠ 2 ∧ bits d 207 200 ≠ 4 ∧ bits d 207 200 ≠ 5) ∧
  overlaps a n s.program.descDir 48 = false ∧ overlaps a n (s.dirBase 0) (64 * s.dirCount 0) = false

/-- BSTORE of a source of the board map, the host or the module itself goes to its stack as one write; outside the program
area it is refused with ACCESS_REFUSED; a source the board map does not name is counted and dropped. A write that takes effect
at its stack leaves its bytes in HBM, and no other byte changes (R246, R265, R288, R289, R295). BREDUCE goes to its stack to
be applied in the armed window that holds all of its bytes; outside every window nothing is written, it is counted, and
REDUCE_UNARMED is raised; with elements that are not whole it is invalid, and outside the program area it is refused (R246,
R262, R264, R289). -/
def Obligations.BoardStoresAndReductions : Prop :=
  ((∀ (p : Nat) (raw : List Byte) (s t : State) (f : Flit), Arrives p raw (ofType 2) s f t →
     (t.boardSource p f = true → (t.fenced && p != 16) = false → programArea (f.addr % 2 ^ 41) f.payload.length = true →
       ∃ u q, exec (.bstoreReceive p raw) s = .next u ∧ Delivers p t u q ∧ u.mem = t.mem ∧ q.data = f.payload ∧
         q.poison = f.poison ∧ q.deed = .write (f.addr % 2 ^ 41) (t.landTensor (f.addr % 2 ^ 41)) 0 0 ∧
         q.cls = (if p = 16 then 4 else
           ((t.windowAt (f.addr % 2 ^ 41) f.payload.length).map fun w => w.cls).getD 1)) ∧
     (t.boardSource p f = true → (t.fenced && p != 16) = false → programArea (f.addr % 2 ^ 41) f.payload.length = false →
       ∃ u r, exec (.bstoreReceive p raw) s = .next u ∧ u.faults.inFlight = t.faults.inFlight ++ [r] ∧ r.2.code = 0x204 ∧
         u.mem = t.mem) ∧
     (t.boardSource p f = false → exec (.bstoreReceive p raw) s = .next (t.count 0x5023 (p + 1) 1)) ∧
     (t.boardSource p f = true → (t.fenced && p != 16) = true → exec (.bstoreReceive p raw) s = .next t)) ∧
   (∀ (s : State) (q : Packet) (a tensor hint uses : Nat), q.deed = .write a tensor hint uses → q.own = false →
     plainLanding s tensor a q.data.length →
     (s.putEffect q).hbmRead a q.data.length = q.data ∧ (s.putEffect q).mem.ops = s.mem.ops ∧
     (s.putEffect q).units = s.units ∧
     ∀ c, c < a ∨ a + q.data.length ≤ c → (s.putEffect q).mem.hbm.read c = s.mem.hbm.read c)) ∧
  (∀ (p : Nat) (raw : List Byte) (s t : State) (f : Flit), Arrives p raw (ofType 3) s f t → t.boardSource p f = true →
     (t.fenced && p != 16) = false →
     (programArea (f.addr % 2 ^ 41)
         (((t.windowAt (f.addr % 2 ^ 41) 1).map fun w => w.stored f.payload.length).getD f.payload.length) = false →
       ∃ u r, exec (.breduceReceive p raw) s = .next u ∧ u.faults.inFlight = t.faults.inFlight ++ [r] ∧ r.2.code = 0x204 ∧
         u.mem = t.mem) ∧
     (programArea (f.addr % 2 ^ 41)
         (((t.windowAt (f.addr % 2 ^ 41) 1).map fun w => w.stored f.payload.length).getD f.payload.length) = true →
       (t.windowFor (f.addr % 2 ^ 41) f.payload.length = none →
         ∃ u r, exec (.breduceReceive p raw) s = .next u ∧ u.mem = t.mem ∧
           u.dict = (t.count 0x4026 (stackOf (f.addr % 2 ^ 41) + 1) 1).dict ∧
           u.faults.inFlight = t.faults.inFlight ++ [r] ∧ r.2.code = 0x207) ∧
       (∀ w, t.windowFor (f.addr % 2 ^ 41) f.payload.length = some w →
         w.aligned (f.addr % 2 ^ 41) f.payload.length = true →
         ∃ u q, exec (.breduceReceive p raw) s = .next u ∧ Delivers p t u q ∧ u.mem.hbm = t.mem.hbm ∧
           u.mem.ops = t.mem.ops ∧ q.cls = w.cls ∧ q.ctx = w.ctx ∧ q.data = f.payload ∧
           (w.op = 0 → q.deed = .write (f.addr % 2 ^ 41) w.tensor w.hint w.uses) ∧
           (w.op ≠ 0 → q.deed = .reduce (t.windowReducer w f.src) w.base
             (if w.op = 1 ∨ w.op = 2 then (f.addr % 2 ^ 41 - w.base) * fmtBits w.sfmt / 16 else f.addr % 2 ^ 41 - w.base))) ∧
       (∀ w, t.windowFor (f.addr % 2 ^ 41) f.payload.length = some w →
         w.aligned (f.addr % 2 ^ 41) f.payload.length = false →
         ∃ u r, exec (.breduceReceive p raw) s = .next u ∧ u.dict = (t.count 0x5024 (p + 1) 1).dict ∧ u.mem = t.mem ∧
           u.faults.inFlight = t.faults.inFlight ++ [r] ∧ r.2.code = 0x209)))

/-- BLOAD and BAMO go to their stack as a read and as an atomic operation, with the request id to answer; outside the program
area they are refused with ACCESS_REFUSED and no byte changes. The read takes effect without a change to a byte and goes on
with the bytes as stored; the atomic operation leaves its result at the address, no other byte changes, and its old value goes
back (R227, R246, R289, R290). -/
def Obligations.BoardLoadsAndAtomics : Prop :=
  (∀ (p : Nat) (raw : List Byte) (s t : State) (f : Flit), Arrives p raw (ofType 4) s f t → t.boardSource p f = true →
    (t.fenced && p != 16) = false →
    (programArea (f.addr % 2 ^ 41) (bits (leNat f.payload) 23 16) = true →
      ∃ u q, exec (.bloadReceive p raw) s = .next u ∧ Delivers p t u q ∧ u.mem = t.mem ∧ u.units = t.units ∧
        q.deed = .request (.read (f.addr % 2 ^ 41) (bits (leNat f.payload) 23 16) 0 0) p 5 (if p = 16 then 4 else f.cls) f.src
          (bits (leNat f.payload) 15 0)) ∧
    (programArea (f.addr % 2 ^ 41) (bits (leNat f.payload) 23 16) = false →
      ∃ u r rest, exec (.bloadReceive p raw) s = .next u ∧ u.faults.inFlight = t.faults.inFlight ++ r :: rest ∧
        r.2.code = 0x204 ∧ u.mem = t.mem)) ∧
  (∀ (p : Nat) (raw : List Byte) (s t : State) (f : Flit), Arrives p raw (ofType 6) s f t → t.boardSource p f = true →
    (t.fenced && p != 16) = false →
    (programArea (f.addr % 2 ^ 41) (if bit (leNat f.payload) 20 then 8 else 4) = true →
      ∃ u q, exec (.bamoReceive p raw) s = .next u ∧ Delivers p t u q ∧ u.mem = t.mem ∧ u.units = t.units ∧
        q.deed = .request (.amo (f.addr % 2 ^ 41) (bits (leNat f.payload) 19 16) (if bit (leNat f.payload) 20 then 8 else 4)
          (bits (leNat f.payload) 127 64)) p 7 (if p = 16 then 4 else f.cls) f.src (bits (leNat f.payload) 15 0)) ∧
    (programArea (f.addr % 2 ^ 41) (if bit (leNat f.payload) 20 then 8 else 4) = false →
      ∃ u r rest, exec (.bamoReceive p raw) s = .next u ∧ u.faults.inFlight = t.faults.inFlight ++ r :: rest ∧
        r.2.code = 0x204 ∧ u.mem = t.mem)) ∧
  (∀ (s : State) (x : Packet) (ask : Ask) (p type cls dst id : Nat), x.deed = .request ask p type cls dst id →
    ∃ k, kget [] (s.perform x).traffic.requests k = kget [] s.traffic.requests k ++
      [{ ask, packet := { x with to_ := unitDie x.unit, deed := .answer p type cls dst id } }]) ∧
  (∀ (s : State) (x : Packet) (a n hint uses : Nat), hint ≠ 3 →
    (s.readEffect x a n hint uses).mem.hbm = s.mem.hbm ∧ (s.readEffect x a n hint uses).mem.ops = s.mem.ops ∧
    ∃ q delay, (s.readEffect x a n hint uses).traffic.transit = s.traffic.transit ++ [(delay, q)] ∧
      q.data = s.hbmRead a n ∧ q.deed = x.deed) ∧
  (∀ (s : State) (x : Packet) (a op n v : Nat), plainLanding s (s.landTensor a) a n → a % n = 0 → n = 4 ∨ n = 8 →
    (s.amoEffect x a op n v).hbmLE a n = amo op n (s.hbmLE a n) (v % 256 ^ n) % 256 ^ n ∧
    (∀ c, c < a ∨ a + n ≤ c → (s.amoEffect x a op n v).mem.hbm.read c = s.mem.hbm.read c) ∧
    (s.amoEffect x a op n v).mem.ops = s.mem.ops ∧
    ∃ q delay, (s.amoEffect x a op n v).traffic.transit = s.traffic.transit ++ [(delay, q)] ∧ leNat q.data = s.hbmLE a n)

/-- BLOAD_RSP and BAMO_RSP end the request they name and give the core its bytes, or an access fault where they are poisoned;
an answer to no request is discarded. BOARD_LOAD_TIMEOUT ends the request with an access fault and a report (R290).
BOARD_SPACE_ACCESS of a core outside reset retires an instruction (`r`). Outside its rights it takes an access fault, across a
64-byte boundary it is misaligned. An empty index raises BOARD_UNMAPPED, with an access fault for a load or AMO; the module's
own index is a local access that waits at its stack; at another index a load or an AMO opens a request. A cluster in reset
makes no access (R222, R225–R227, R288, R290). The other accesses of a core outside reset: what a read brings comes to its
core, or an access fault where it is poisoned; the board range of the physical map is the board space; an address of no region
raises an access fault; a CSR that may be read gives its value, any other an illegal-instruction exception; a mailbox status
write of 1 clears OVERFLOW and a window register keeps its fields; a window access inside its limit waits for its bank
(R221–R225, R228, R235). -/
def Obligations.BoardAnswersAndCoreAccesses : Prop :=
  ((∀ (p : Nat) (raw : List Byte) (s t : State) (f : Flit) (c : Instr) (type : Nat) (isAmo : Bool),
     (c, type, isAmo) ∈ [(Instr.bloadRspReceive p raw, 5, false), (.bamoRspReceive p raw, 7, true)] →
     Arrives p raw (ofType type) s f t →
     ((t.fabric.boardReqs.find? fun r => r.id == f.addr % 2 ^ 16 && r.amo == isAmo) = none → exec c s = .next t) ∧
     (∀ r, (t.fabric.boardReqs.find? fun r => r.id == f.addr % 2 ^ 16 && r.amo == isAmo) = some r →
       ∃ u, exec c s = .next u ∧ u.fabric = { t.fabric with boardReqs := t.fabric.boardReqs.erase r } ∧ u.mem = t.mem ∧
         (f.poison = true → u.core r.core = { t.core r.core with accessFault := true }) ∧
         (f.poison = false → u.core r.core = { t.core r.core with
           data := f.payload.take r.length, accessFault := false, misaligned := false, illegal := false }))) ∧
   (∀ (id : Nat) (s : State),
     ((s.fabric.boardReqs.find? fun r => r.id == id) = none → exec (.boardLoadTimeout id) s = .next s) ∧
     (∀ r, (s.fabric.boardReqs.find? fun r => r.id == id) = some r →
       ∃ t x, exec (.boardLoadTimeout id) s = .next t ∧ t.fabric = { s.fabric with boardReqs := s.fabric.boardReqs.erase r } ∧
         t.core r.core = { s.core r.core with accessFault := true } ∧ t.faults.inFlight = s.faults.inFlight ++ [x] ∧
         x.2.code = 0x20F ∧ x.2.source = 0x88 + r.core ∧ t.mem = s.mem))) ∧
  ((∀ (c a : Nat) (access : CoreAccess) (s : State), s.faults.clusterReset.contains (c / 8) = true →
     exec (.boardSpaceAccess c a access) s = .next s) ∧
   (∀ (c a n : Nat) (wr : Bool) (access : CoreAccess) (s r : State), s.faults.clusterReset.contains (c / 8) = false →
     r = s.retire c →
     (access = .load n ∧ wr = false) ∨ ((∃ bytes, access = .store bytes ∧ bytes.length = n) ∧ wr = true) ∨
       ((∃ op wide x, access = .amo op wide x ∧ n = if wide then 8 else 4) ∧ wr = true) →
     (r.coreMay c (2 ^ 62 + a) n wr = false →
       exec (.boardSpaceAccess c a access) s = .next (r.setCore c { r.core c with accessFault := true })) ∧
     (r.coreMay c (2 ^ 62 + a) n wr = true → crosses a n = true →
       exec (.boardSpaceAccess c a access) s = .next (r.setCore c { r.core c with misaligned := true })) ∧
     (r.coreMay c (2 ^ 62 + a) n wr = true → crosses a n = false →
       (s.boardModule (a / 2 ^ 41) = 0xFFFF →
         ∃ t x, exec (.boardSpaceAccess c a access) s = .next t ∧ t.faults.inFlight = s.faults.inFlight ++ [x] ∧
           x.2.code = 0x20E ∧ x.2.source = 0x88 + c ∧ t.mem = s.mem ∧ t.fabric = s.fabric ∧
           ((∀ bytes, access ≠ .store bytes) → (t.core c).accessFault = true)) ∧
       (s.boardModule (a / 2 ^ 41) ≠ 0xFFFF → s.boardModule (a / 2 ^ 41) = s.moduleId →
         (populated (a % 2 ^ 41) n = false →
           exec (.boardSpaceAccess c a access) s = .next (r.setCore c { r.core c with accessFault := true })) ∧
         (populated (a % 2 ^ 41) n = true →
           (access = .load n → ∃ t q, exec (.boardSpaceAccess c a access) s = .next t ∧ t.mem = s.mem ∧ q.deed = .core c ∧
             kget [] t.traffic.requests (stackOf (a % 2 ^ 41) * 8 + 5) =
               kget [] s.traffic.requests (stackOf (a % 2 ^ 41) * 8 + 5) ++ [{ ask := .read (a % 2 ^ 41) n 0 0, packet := q }]) ∧
           (∀ bytes, access = .store bytes → coreDie c = addressDie (a % 2 ^ 41) →
             ∃ t q, exec (.boardSpaceAccess c a access) s = .next t ∧ t.mem = s.mem ∧ q.data = bytes ∧
               q.deed = .write (a % 2 ^ 41) (s.landTensor (a % 2 ^ 41)) 0 0 ∧
               kget [] t.traffic.requests (stackOf (a % 2 ^ 41) * 8 + 5) =
                 kget [] s.traffic.requests (stackOf (a % 2 ^ 41) * 8 + 5) ++ [{ ask := .put, packet := q }]) ∧
           (∀ op wide x, access = .amo op wide x → op ≤ 8 → a % 2 ^ 41 % n = 0 →
             ∃ t q, exec (.boardSpaceAccess c a access) s = .next t ∧ t.mem = s.mem ∧ q.deed = .core c ∧
               kget [] t.traffic.requests (stackOf (a % 2 ^ 41) * 8 + 5) =
                 kget [] s.traffic.requests (stackOf (a % 2 ^ 41) * 8 + 5) ++
                   [{ ask := .amo (a % 2 ^ 41) op n x.toNat, packet := q }]))) ∧
       (s.boardModule (a / 2 ^ 41) ≠ 0xFFFF → s.boardModule (a / 2 ^ 41) ≠ s.moduleId →
         (∀ bytes, access = .store bytes → ∃ t, exec (.boardSpaceAccess c a access) s = .next t ∧ t.mem = s.mem ∧
           t.fabric.boardReqs = s.fabric.boardReqs) ∧
         ((∀ bytes, access ≠ .store bytes) → wr = false ∨ a % 2 ^ 41 % n = 0 →
           ∃ t q, exec (.boardSpaceAccess c a access) s = .next t ∧ t.fabric.boardReqs = s.fabric.boardReqs ++ [q] ∧
             q.id = s.fabric.nextReq ∧ q.core = c ∧ q.length = n ∧ q.amo = wr ∧ q.address = a % 2 ^ 41 ∧
             q.left = 1250 * s.get 0x5060 1 ∧ t.fabric.nextReq = (s.fabric.nextReq + 1) % 65536 ∧ t.mem = s.mem))))) ∧
  ((∀ (s : State) (q : Packet) (c : Nat), q.deed = .core c →
     (q.poison = true → s.perform q = s.setCore c { s.core c with accessFault := true }) ∧
     (q.poison = false → s.perform q = s.setCore c { s.core c with
       data := q.data, accessFault := false, misaligned := false, illegal := false })) ∧
   (∀ (c a n : Nat) (page : Page) (s : State), 2 ^ 41 ≤ a → a < 0x220000000000 →
     exec (.boardSpaceAccess c a (.physical page (.load n))) s = exec (.boardSpaceAccess c (a - 2 ^ 41) (.load n)) s) ∧
   (∀ (c a : Nat) (page : Page) (m : MemAccess) (s : State), s.faults.clusterReset.contains (c / 8) = false →
     0x220000000000 ≤ a → a < 0x300000000000 ∨ 0x300020000000 ≤ a →
     ∃ t, exec (.boardSpaceAccess c a (.physical page m)) s = .next t ∧
       t.core c = { s.core c with retired := (s.core c).retired + 1, accessFault := true } ∧ t.mem = s.mem) ∧
   (∀ (c a n : Nat) (s : State), s.faults.clusterReset.contains (c / 8) = false →
     (csrKnown n && decide (bits n 9 8 ≤ (s.core c).mode)) = true →
     ∃ t, exec (.boardSpaceAccess c a (.csr n none)) s = .next t ∧ (t.core c).data = leBytes 8 ((s.retire c).csr c n) ∧
       (t.core c).illegal = false ∧ t.mem = s.mem) ∧
   (∀ (c a n : Nat) (v : Option (BitVec 64)) (s : State), s.faults.clusterReset.contains (c / 8) = false →
     csrKnown n = false ∨ (s.core c).mode < bits n 9 8 ∨ (v.isSome = true ∧ bits n 11 10 = 3) →
     ∃ t, exec (.boardSpaceAccess c a (.csr n v)) s = .next t ∧
       t.core c = { s.core c with retired := (s.core c).retired + 1, illegal := true } ∧ t.mem = s.mem) ∧
   (∀ (c a : Nat) (v : BitVec 64) (s : State), s.faults.clusterReset.contains (c / 8) = false → (s.retire c).caller c = none →
     (s.core c).mode ≠ 0 →
     (bit v.toNat 32 = true → ∃ t, exec (.boardSpaceAccess c a (.device .mailStatus (some v))) s = .next t ∧
       (t.box (c / 8)).overflow = false ∧ t.mem = s.mem) ∧
     (∀ k, k < 4 → ∃ t, exec (.boardSpaceAccess c a (.device (.window k) (some v))) s = .next t ∧
       kget 0 t.thallus.windows (4 * (c / 8) + k) = windowWord v.toNat ∧ t.mem = s.mem)) ∧
   (∀ (c a n off : Nat) (page : Page) (s : State), s.faults.clusterReset.contains (c / 8) = false →
     0x300000000000 ≤ a → a < 0x300020000000 → (s.retire c).caller c = none → crosses a n = false →
     s.windowRange c a n false = some off →
     ∃ t, exec (.boardSpaceAccess c a (.physical page (.load n))) s = .next t ∧ t.mem = s.mem ∧
       (t.core c).window = (s.core c).window ++ [(off, n, none)]))

/-! ### The slice and the commit of a step -/

/-- HEARTBEAT of a neighbour notes the frame and reports the difference of the frames within the step in its half of object
0x5040.06; one of another module changes nothing. HEARTBEAT_LOST is raised once and opens the next census (R297, R298, R304).
A CENSUS of a higher number is joined, with the members it names and the module's own; one of the open census adds its
members; one of a lower number, or of a closed census, changes nothing (R298). CENSUS_CLOSE reports the members reached; a
module that does not continue fences, raises PARTITION_FENCE, and its program stops at the next tick; one that continues with
a training program awaits outcomes (R299, R329). -/
def Obligations.HeartbeatsAndCensuses : Prop :=
  ((∀ (p : Nat) (raw : List Byte) (s t : State) (f : Flit), Arrives p raw (ofType 8) s f t →
     (t.successors.head? ≠ some f.src → t.predecessors.head? ≠ some f.src → exec (.heartbeatReceive p raw) s = .next t) ∧
     (t.successors.head? = some f.src → t.predecessors.head? ≠ some f.src →
       ∃ u, exec (.heartbeatReceive p raw) s = .next u ∧ u.fabric.beatNext = some t.clock.frame ∧
         u.fabric.beatPrev = t.fabric.beatPrev ∧ u.get 0x5040 6 =
           twos 16 ((f.addr : Int) - t.program.stepFrame) + 65536 * bits (t.get 0x5040 6) 31 16 ∧ u.mem = t.mem) ∧
     (t.successors.head? ≠ some f.src → t.predecessors.head? = some f.src →
       ∃ u, exec (.heartbeatReceive p raw) s = .next u ∧ u.fabric.beatPrev = some t.clock.frame ∧
         u.fabric.beatNext = t.fabric.beatNext ∧ u.get 0x5040 6 =
           bits (t.get 0x5040 6) 15 0 + 65536 * twos 16 ((f.addr : Int) - t.program.stepFrame) ∧ u.mem = t.mem) ∧
     (t.successors.head? = some f.src → t.predecessors.head? = some f.src →
       ∃ u, exec (.heartbeatReceive p raw) s = .next u ∧ u.fabric.beatPrev = some t.clock.frame ∧
         u.fabric.beatNext = some t.clock.frame ∧ u.get 0x5040 6 =
           twos 16 ((f.addr : Int) - t.program.stepFrame) + 65536 * twos 16 ((f.addr : Int) - t.program.stepFrame))) ∧
   (∀ s : State,
     (s.heartbeatGone = true → ∃ t r, exec .heartbeatLost s = .next t ∧ t.fabric.lossRaised = true ∧
       t.fabric.census = some s.clock.frame ∧ t.get 0x5040 1 = (s.get 0x5040 1 + 1) % 65536 ∧
       t.faults.inFlight = s.faults.inFlight ++ [r] ∧ r.2.code = 0x30F ∧ t.mem = s.mem) ∧
     (s.heartbeatGone = false → exec .heartbeatLost s = .next s))) ∧
  (∀ (p : Nat) (raw : List Byte) (s t : State) (f : Flit), Arrives p raw (ofType 9) s f t →
     (t.get 0x5040 1 < bits f.addr 15 0 →
       ∃ u, exec (.censusReceive p raw) s = .next u ∧ u.get 0x5040 1 = bits f.addr 15 0 ∧
         u.fabric.census = some t.clock.frame ∧ u.mem = t.mem ∧
         ∀ m, m ∈ u.fabric.bitmap ↔ m ∈ censusMembers (bits f.addr 17 16) f.payload ∨ t.memberIndex = some m) ∧
     (bits f.addr 15 0 = t.get 0x5040 1 → t.fabric.census.isSome = true →
       ∃ u, exec (.censusReceive p raw) s = .next u ∧ u.fabric.census = t.fabric.census ∧ u.mem = t.mem ∧
         ∀ m, m ∈ u.fabric.bitmap ↔ m ∈ t.fabric.bitmap ∨ m ∈ censusMembers (bits f.addr 17 16) f.payload) ∧
     (bits f.addr 15 0 < t.get 0x5040 1 ∨ (bits f.addr 15 0 = t.get 0x5040 1 ∧ t.fabric.census = none) →
       exec (.censusReceive p raw) s = .next t)) ∧
  (∀ s : State,
     (s.fabric.census = none → exec .censusClose s = .next s) ∧
     (s.fabric.census.isSome = true →
       ∃ t, exec .censusClose s = .next t ∧ t.fabric.census = none ∧ t.get 0x5040 2 = s.reached.length % 65536 ∧ t.mem = s.mem ∧
         (s.continues = false → ∃ r, t.get 0x5040 5 = 1 ∧ t.faults.inFlight = s.faults.inFlight ++ [r] ∧ r.2.code = 0x310 ∧
           (s.running = true → t.program.stopping = some (0x310, true))) ∧
         (s.continues = true → s.training = true → t.commit.censusFrame = some s.clock.frame ∧
           t.commit.outcomes = [(s.moduleId, s.outcome)]) ∧
         (s.continues = true → s.training = false → t.commit = s.commit ∧ t.program = s.program)))

/-- ROUTING_BANK_SWITCH exchanges the banks where the inactive one passes its checks; else it refuses, reports CONFIG_INVALID
and leaves the banks as they are (R283). -/
def Obligations.BankSwitchIsChecked : Prop :=
  ∀ s : State,
    (s.fabric.switchAt = none → exec .routingBankSwitch s = .next s) ∧
    (s.fabric.switchAt.isSome = true → s.inactiveBank.ok s.moduleId = true →
      ∃ t, exec .routingBankSwitch s = .next t ∧ t.get 0x5012 2 = 1 - s.get 0x5012 2 ∧ t.get 0x5012 3 = 2 ∧
        t.fabric.switchAt = none ∧ t.fabric.bank0 = s.fabric.bank0 ∧ t.fabric.bank1 = s.fabric.bank1) ∧
    (s.fabric.switchAt.isSome = true → s.inactiveBank.ok s.moduleId = false →
      ∃ t r, exec .routingBankSwitch s = .next t ∧ t.get 0x5012 2 = s.get 0x5012 2 ∧ t.get 0x5012 3 = 0x80 ∧
        t.faults.inFlight = s.faults.inFlight ++ [r] ∧ r.2.code = 0x30D ∧
        t.fabric = { s.fabric with switchAt := none } ∧ t.mem = s.mem)

/-- LOCKET_DATA of a predecessor in a running step: its bytes join that predecessor's sealed copy, and no other record
changes; LOCKET_ACK of a successor counts where its CRC is that of OWN_SEALED; DELTA_ACK ends the wait for that parity copy
(R316, R319, R322). -/
def Obligations.RecordCopiesAreAcknowledged : Prop :=
  (∀ (p : Nat) (raw : List Byte) (s t : State) (f : Flit) (k : Nat), Arrives p raw (ofKind 0) s f t →
    leNat (f.payload.take 4) + (f.payload.drop 4).length ≤ 2 ^ 20 → t.commitState ≠ 6 → t.concerns f = true →
    t.predecessorIndex f.subject = some k →
    ∃ u, exec (.locketDataReceive p raw) s = .next u ∧
      (leNat (f.payload.take 4) ≠ 0 →
        u.predSealed k = (t.predSealed k).writeN (leNat (f.payload.take 4)) (f.payload.drop 4)) ∧
      (leNat (f.payload.take 4) = 0 → u.predSealed k = Mem.writeN {} 0 (f.payload.drop 4)) ∧
      u.locket.ownCommitted = t.locket.ownCommitted ∧ u.locket.ownSealed = t.locket.ownSealed ∧
      u.locket.pred1Committed = t.locket.pred1Committed ∧ u.locket.pred2Committed = t.locket.pred2Committed ∧
      u.commit = t.commit ∧ u.mem = t.mem) ∧
  (∀ (p : Nat) (raw : List Byte) (s t : State) (f : Flit), Arrives p raw (ofKind 1) s f t →
    exec (.locketAckReceive p raw) s = .next
      (if t.concerns f = true ∧ f.subject = t.moduleId ∧ f.src ∈ t.successors ∧
          leNat f.payload = t.locket.ownSealed.readLE 252 4 then
        { t with commit := { t.commit with acks := insertNat f.src t.commit.acks } } else t)) ∧
  (∀ (p : Nat) (raw : List Byte) (s t : State) (f : Flit), Arrives p raw (ofKind 2) s f t →
    exec (.deltaAckReceive p raw) s = .next
      (if t.concerns f = true then { t with commit := { t.commit with
        deltas := t.commit.deltas.filter fun d => d != (f.subject, bits (leNat f.payload) 19 0) } } else t))

/-- LOCKET_COMPARE with every record at hand: equal common fields pass, one record against two others is outvoted with
LOCKET_SKEW, and three different ones, or two of two, halt; without a predecessor the comparison passes (R320, Table 12.7).
READY_SEND: a VOTED member whose deltas, copies and comparison are through becomes READY, and no other does; the coordinator
notes its own READY and, by READY flits, those of the LIVE members (R322, R323). -/
def Obligations.ComparedThenReady : Prop :=
  (∀ s : State, s.commit.compareDone = false → s.recordsHeld = true →
     ∃ t, exec .locketCompare s = .next t ∧ t.commit.compareDone = true ∧ t.locket = s.locket ∧ t.mem = s.mem ∧
       (s.predecessors = [] → t.commit.compared = true ∧ t.faults = s.faults) ∧
       (∀ m1, s.predecessors = [m1] →
         (commonFields s.locket.ownSealed = commonFields s.locket.pred1Sealed → t.commit.compared = true ∧ t.faults = s.faults) ∧
         (commonFields s.locket.ownSealed ≠ commonFields s.locket.pred1Sealed → t.commit.compared = false ∧
           ∃ r, t.faults.inFlight = s.faults.inFlight ++ [r] ∧ r.2.code = 0x312 ∧ r.2.halt = true ∧
             bits r.2.detail 11 0 = m1 % 2 ^ 12)) ∧
       (∀ m1 m2 rest, s.predecessors = m1 :: m2 :: rest →
         (commonFields s.locket.ownSealed = commonFields s.locket.pred1Sealed →
           commonFields s.locket.pred1Sealed = commonFields s.locket.pred2Sealed →
           t.commit.compared = true ∧ t.faults = s.faults) ∧
         (commonFields s.locket.ownSealed = commonFields s.locket.pred1Sealed →
           commonFields s.locket.pred1Sealed ≠ commonFields s.locket.pred2Sealed →
           t.commit.compared = false ∧ ∃ r, t.faults.inFlight = s.faults.inFlight ++ [r] ∧ r.2.code = 0x312 ∧
             r.2.halt = false ∧ bits r.2.detail 11 0 = m2 % 2 ^ 12) ∧
         (commonFields s.locket.ownSealed = commonFields s.locket.pred2Sealed →
           commonFields s.locket.ownSealed ≠ commonFields s.locket.pred1Sealed →
           t.commit.compared = false ∧ ∃ r, t.faults.inFlight = s.faults.inFlight ++ [r] ∧ r.2.code = 0x312 ∧
             r.2.halt = false ∧ bits r.2.detail 11 0 = m1 % 2 ^ 12) ∧
         (commonFields s.locket.ownSealed ≠ commonFields s.locket.pred1Sealed →
           commonFields s.locket.pred1Sealed = commonFields s.locket.pred2Sealed →
           t.commit.compared = false ∧ ∃ r, t.faults.inFlight = s.faults.inFlight ++ [r] ∧ r.2.code = 0x312 ∧
             r.2.halt = false ∧ bits r.2.detail 11 0 = s.moduleId % 2 ^ 12) ∧
         (commonFields s.locket.ownSealed ≠ commonFields s.locket.pred1Sealed →
           commonFields s.locket.ownSealed ≠ commonFields s.locket.pred2Sealed →
           commonFields s.locket.pred1Sealed ≠ commonFields s.locket.pred2Sealed →
           t.commit.compared = false ∧ ∃ r, t.faults.inFlight = s.faults.inFlight ++ [r] ∧ r.2.code = 0x312 ∧
             r.2.halt = true ∧ bits r.2.detail 11 0 = m1 % 2 ^ 12))) ∧
  ((∀ s : State,
     (s.readyNow = true → ∃ t, exec .readySend s = .next t ∧ t.commitState = 2 ∧ t.mem = s.mem ∧ t.locket = s.locket ∧
       (s.isCoordinator = true → t.commit = { s.commit with
         readys := (s.commit.readys.filter fun r => r.1 != s.moduleId) ++ [(s.moduleId, s.commit.vote, s.commit.armed)] }) ∧
       (s.isCoordinator = false → t.commit = s.commit)) ∧
     (s.readyNow = false → exec .readySend s = .next s)) ∧
   (∀ s : State, s.readyNow = true → s.training = true ∧ s.commitState = 1 ∧ s.commit.deltas = [] ∧ s.commit.sealSent = true ∧
     (∀ m ∈ s.successors, m ∈ s.commit.acks) ∧ s.commit.compared = true) ∧
   (∀ (p : Nat) (raw : List Byte) (s t : State) (f : Flit), Arrives p raw (ofKind 3) s f t →
     exec (.readyReceive p raw) s = .next
       (if t.isCoordinator = true ∧ t.concerns f = true ∧ f.src ∈ t.live then
         { t with commit := { t.commit with readys := (t.commit.readys.filter fun r => r.1 != f.src) ++
           [(f.src, bit (leNat f.payload) 0, bit (leNat f.payload) 1)] } } else t)))

/-- A member commits by the coordinator's decision with every READY at hand, or by its COMMIT: it is COMMITTED, its sealed
record is the committed one (as a flip leaves it where the step flips), the revert logs are empty, and the records in transfer
are discarded; without every READY the coordinator does not decide (R319, R323, R324). -/
def Obligations.CommitMakesTheSealedRecordCommitted : Prop :=
  (∀ s : State,
    ((s.isCoordinator && s.training && s.commitState == 2 && !s.commit.decided && s.decisionFrame && s.allReady) = true →
      ∃ t, exec .coordinatorDecision s = .next t ∧ t.commitState = 3 ∧ t.mem.revert = [] ∧ t.locket.ownSealed = {} ∧
        t.locket.ownCommitted = (if s.flipBit && s.commit.flipAsked then flipRecord s.locket.ownSealed s.program.regrew
          else s.locket.ownSealed)) ∧
    ((s.isCoordinator && s.training && s.commitState == 2 && !s.commit.decided && s.decisionFrame && s.allReady) = false →
      exec .coordinatorDecision s = .next s)) ∧
  (∀ (p : Nat) (raw : List Byte) (s t : State) (f : Flit), Arrives p raw (ofKind 4) s f t →
    ((t.concerns f && t.commitState == 2 && f.src == t.coordinator) = true →
      ∃ u, exec (.commitReceive p raw) s = .next u ∧ u.commitState = 3 ∧ u.mem.revert = [] ∧ u.locket.ownSealed = {} ∧
        u.locket.ownCommitted = (if bit (leNat f.payload) 0 && t.commit.flipAsked then
          flipRecord t.locket.ownSealed t.program.regrew else t.locket.ownSealed)) ∧
    ((t.concerns f && t.commitState == 2 && f.src == t.coordinator) = false → exec (.commitReceive p raw) s = .next t))

/-- COMMIT_TIMEOUT: the coordinator that lacks a READY at the tick that ends f + 2 aborts the step; a READY member without a
decision at the tick that ends f + 3 opens a census; both are counted and reported (R323, R329). ABORT from the coordinator
and POISON_STEP for the running step bring a member that has not voted to READY into ABORTING: it dispatches no bundle of the
step and reports STEP_POISONED; a POISON_STEP of another step, or seen before, changes nothing (R301, R326). -/
def Obligations.TimeoutsAndAborts : Prop :=
  (∀ (s : State) (f : Nat), s.commit.frame = some f → s.training = true →
     (s.isCoordinator = true → s.commit.decided = false → s.commitState ≤ 2 → s.clock.frame = f + 2 → s.allReady = false →
       ∃ t, exec .commitTimeout s = .next t ∧ t.commitState = 4 ∧ t.commit.decided = true ∧ t.program.bundles = [] ∧
         t.get 0x8021 3 = (s.count 0x8021 3 1).get 0x8021 3 ∧ ∃ r ∈ t.faults.inFlight, r.2.code = 0x313) ∧
     (s.commitState = 2 → s.clock.frame = f + 3 →
       ∃ t, exec .commitTimeout s = .next t ∧ t.commitState = 2 ∧ t.fabric.census = some (f + 3) ∧
         t.get 0x8021 3 = (s.count 0x8021 3 1).get 0x8021 3 ∧ ∃ r ∈ t.faults.inFlight, r.2.code = 0x313)) ∧
  ((∀ (p : Nat) (raw : List Byte) (s t : State) (f : Flit), Arrives p raw (ofKind 5) s f t →
     (t.concerns f = true → t.commitState ≤ 2 →
       ∃ u r, exec (.abortReceive p raw) s = .next u ∧ u.commitState = 4 ∧ u.program.bundles = [] ∧ u.program.fetched = none ∧
         u.faults.inFlight = t.faults.inFlight ++ [r] ∧ r.2.code = 0x316 ∧ u.mem = t.mem ∧
         ∀ v ∈ unitIds, (u.unit v).waiting = []) ∧
     (t.concerns f = false ∨ 2 < t.commitState → exec (.abortReceive p raw) s = .next t)) ∧
   (∀ (p : Nat) (raw : List Byte) (s t : State) (f : Flit), Arrives p raw (ofType 0xA) s f t →
     (t.training = true → f.addr = t.stepCount % 2 ^ 48 → t.fabric.poisonSeen ≠ some t.stepCount →
       ∃ u, exec (.poisonStepReceive p raw) s = .next u ∧ u.fabric.poisonSeen = some t.stepCount ∧ u.mem = t.mem ∧
         (∃ r ∈ u.faults.inFlight, r.2.code = 0x316) ∧ (t.commitState ≤ 1 → u.commitState = 4 ∧ u.program.bundles = [])) ∧
     (t.training = false ∨ f.addr ≠ t.stepCount % 2 ^ 48 ∨ t.fabric.poisonSeen = some t.stepCount →
       exec (.poisonStepReceive p raw) s = .next t)))

/-- REVERT_START of an aborting member without work of the step begins the revert: the logs are empty, the sealed records
gone, the receive entries disarmed; REVERT_DONE of a reverting member, once every reset is over, reports its frames and, where
it was ABORTING, makes it REVERTED (R327). REVERTED of a LIVE member is noted by the coordinator, which sends RESTART once it
has them all, no member fills and it is not HALTED itself; RESTART lets a REVERTED member open the step again at the next tick
(R328). -/
def Obligations.RevertsAndRestarts : Prop :=
  ((∀ s : State, s.commitState = 4 ∨ (s.commitState = 7 ∧ s.commit.haltRevert = true) → s.commit.reverting = false →
     s.stepWork = false →
     ∃ t, exec .revertStart s = .next t ∧ t.commit.reverting = true ∧ t.mem.revert = [] ∧ t.locket.ownSealed = {} ∧
       t.locket.ownCommitted = s.locket.ownCommitted ∧ t.fabric.recvs = [] ∧ t.fabric.unmatched = [] ∧
       t.commitState = s.commitState ∧ t.mem.ops = s.mem.ops) ∧
   (∀ s : State,
     (s.commit.reverting = true → s.resetsDone = true →
       ∃ t, exec .revertDone s = .next t ∧ t.commit.reverting = false ∧ t.get 0x8021 6 = s.commit.revertFrames % 2 ^ 32 ∧
         t.mem = s.mem ∧ (s.commitState = 4 → t.commitState = 5) ∧ (s.commitState ≠ 4 → t.commitState = s.commitState)) ∧
     (s.commit.reverting = false ∨ s.resetsDone = false → exec .revertDone s = .next s))) ∧
  ((∀ (p : Nat) (raw : List Byte) (s t : State) (f : Flit), Arrives p raw (ofKind 6) s f t →
     ((t.isCoordinator && t.concerns f && t.live.contains f.src) = true →
       ∃ u, exec (.revertedReceive p raw) s = .next u ∧ u.mem = t.mem ∧ u.commitState = t.commitState ∧
         (t.commitState ≠ 7 → (∀ m ∈ t.live, m = f.src ∨ m ∈ t.commit.reverteds) → (∀ e ∈ t.members, memberState e ≠ 1) →
           u.commit.reverteds = [] ∧ (t.commitState = 5 → u.commit.reopen = true)) ∧
         ((∃ m ∈ t.live, m ≠ f.src ∧ m ∉ t.commit.reverteds) → f.src ∈ u.commit.reverteds ∧
           u.commit.reopen = t.commit.reopen)) ∧
     ((t.isCoordinator && t.concerns f && t.live.contains f.src) = false → exec (.revertedReceive p raw) s = .next t)) ∧
   (∀ (p : Nat) (raw : List Byte) (s t : State) (f : Flit), Arrives p raw (ofKind 7) s f t →
     exec (.restartReceive p raw) s = .next (if t.concerns f = true ∧ t.commitState = 5 then
       { t with commit := { t.commit with reopen := true } } else t)))

/-- OUTCOME of a member is noted while a decision is due; OUTCOME_DECISION commits a READY member where some member committed,
aborts where some READY was not sent or the coordinator was reached, and else halts a READY member with COMMIT_UNKNOWN (R329,
Table 12.11). -/
def Obligations.OutcomesDecideAReadyMember : Prop :=
  (∀ (p : Nat) (raw : List Byte) (s t : State) (f : Flit), Arrives p raw (ofKind 8) s f t →
    ((t.training && t.commit.censusFrame.isSome) = true →
      ∃ u code, exec (.outcomeReceive p raw) s = .next u ∧
        u = { t with commit := { t.commit with
          outcomes := (t.commit.outcomes.filter fun o => o.1 != f.src) ++ [(f.src, code)] } } ∧
        (t.concerns f = true → code = bits (leNat f.payload) 1 0)) ∧
    ((t.training && t.commit.censusFrame.isSome) = false → exec (.outcomeReceive p raw) s = .next t)) ∧
  (∀ s : State, s.commit.censusFrame.isSome = true → s.commitState = 2 →
    ∃ t, exec .outcomeDecision s = .next t ∧ t.commit.censusFrame = none ∧
      ((∃ o ∈ s.commit.outcomes, o.2 = 0) → t.commitState = 3) ∧
      ((∀ o ∈ s.commit.outcomes, o.2 ≠ 0) → (∃ o ∈ s.commit.outcomes, o.2 = 1) → t.commitState = 4) ∧
      ((∀ o ∈ s.commit.outcomes, o.2 ≠ 0) →
        (∃ j ∈ s.reached, ∃ e, s.members[j]? = some e ∧ memberId e = s.coordinator) → t.commitState = 4) ∧
      ((∀ o ∈ s.commit.outcomes, o.2 ≠ 0 ∧ o.2 ≠ 1) →
        (∀ j ∈ s.reached, ∀ e, s.members[j]? = some e → memberId e ≠ s.coordinator) →
        t.commitState = 7 ∧ t.commit.unknown = true ∧
          ∃ r, t.faults.inFlight = s.faults.inFlight ++ [r] ∧ r.2.code = 0x314))

/-- FILL_REQ and LOCKET_REQ are served without a change to memory or records; of a member in REVERTED or HALTED a FILL_REQ for
a tensor it has asks the stacks for every part of the blocks, to be sent to the source. FILL_DATA of a request that is out
lands at its place, plain or combined with its coefficient, and counts as done (R330). -/
def Obligations.FillServesAndLands : Prop :=
  (∀ (p : Nat) (raw : List Byte) (s t : State) (f : Flit) (c : Instr) (k : Nat),
    (c, k) ∈ [(Instr.fillReqReceive p raw, 9), (.locketReqReceive p raw, 0xB)] → Arrives p raw (ofKind k) s f t →
    ∃ u, exec c s = .next u ∧ u.mem = t.mem ∧ u.locket = t.locket ∧ u.commit = t.commit ∧ u.units = t.units) ∧
  (∀ (p : Nat) (raw : List Byte) (s t : State) (f : Flit) (d : Nat), Arrives p raw (ofKind 9) s f t →
    t.commitState = 5 ∨ t.commitState = 7 → t.tensorDesc (bits (leNat f.payload) 31 0) = some d →
    ∃ u, exec (.fillReqReceive p raw) s = .next u ∧ ∀ j, j < cdiv (512 * bits (leNat f.payload) 95 64) 228 →
      ∃ k q, q.deed = .fillData f.src (bits (leNat f.payload) 127 96) (512 * bits (leNat f.payload) 63 32 + 228 * j) ∧
        { ask := .read (tensorBase d + 512 * bits (leNat f.payload) 63 32 + 228 * j)
            (min 228 (512 * bits (leNat f.payload) 95 64 - 228 * j)) 0 0, packet := q } ∈ kget [] u.traffic.requests k) ∧
  (∀ (p : Nat) (raw : List Byte) (s t : State) (f : Flit) (x : Fill) (d : Nat), Arrives p raw (ofKind 0xA) s f t →
    (t.commit.fills.find? fun x => x.source == f.src && x.dest == bits (leNat (f.payload.take 8)) 31 0) = some x →
    t.tensorDesc (bits (leNat (f.payload.take 8)) 31 0) = some d →
    ∃ u, exec (.fillDataReceive p raw) s = .next u ∧
      u.hbmRead (tensorBase d + 4 * bits (leNat (f.payload.take 8)) 63 32) (f.payload.drop 8).length =
        (if x.coef = 0 then f.payload.drop 8 else combine 7 (BitVec.ofNat 8 x.coef)
          (t.hbmRead (tensorBase d + 4 * bits (leNat (f.payload.take 8)) 63 32) (f.payload.drop 8).length)
          (f.payload.drop 8)) ∧
      (∀ a, a < tensorBase d + 4 * bits (leNat (f.payload.take 8)) 63 32 ∨
          tensorBase d + 4 * bits (leNat (f.payload.take 8)) 63 32 + (f.payload.drop 8).length ≤ a →
        u.mem.hbm.read a = t.mem.hbm.read a) ∧
      u.commit.fillDone = t.commit.fillDone + (f.payload.drop 8).length ∧ u.locket = t.locket)

/-! ### Faults, resets and recovery -/

/-- FAULT_REPORT: the report leaves its way to the collector, is counted under its code, and competes for the record or sets
OVERFLOW on a latched one; with LOG as its action no unit, no memory and no program changes (R340, R342, R346).
FIRST_FAULT_LATCH latches the competing report of the lowest stamp, in the order of frame, cycle, die and source, with
OVERFLOW where others competed, and raises PLIC source 5 of cluster C, which waits while that source is in service; a latched
record stays (R19, R25, R230, R346). -/
def Obligations.ReportsAndTheFirstFault : Prop :=
  (∀ (r : Report) (s : State), s.carried r = 0 →
     ∃ t, exec (.faultReport r) s = .next t ∧ t.units = s.units ∧ t.mem = s.mem ∧ t.program = s.program ∧ t.commit = s.commit ∧
       t.faults.inFlight = (s.faults.inFlight.eraseP fun x => x.2 == r) ∧
       (s.faults.record = none → (∃ n, t.faults.competing = s.faults.competing ++ [(r, n)]) ∧ t.faults.deadline.isSome = true) ∧
       (s.faults.record.isSome = true → t.faults.record = s.faults.record ∧ t.faults.overflow = true ∧
         t.faults.competing = s.faults.competing) ∧
       ((faultRow r.code).isSome = true → r.code < 0x600 →
         t.get (0x3020 + r.code / 256) (r.code % 256) =
           (s.count (0x3020 + r.code / 256) (r.code % 256) 1).get (0x3020 + r.code / 256) (r.code % 256))) ∧
  ((∀ s : State, s.faults.record = none → s.faults.competing ≠ [] →
     ∃ t x, exec .firstFaultLatch s = .next t ∧ x ∈ s.faults.competing ∧ t.faults.record = some (x.1, x.2 % 8, x.2 / 8) ∧
       (∀ y ∈ s.faults.competing, earlier y.1 x.1 = false) ∧ t.faults.overflow = decide (1 < s.faults.competing.length) ∧
       t.faults.competing = [] ∧
       (bit (kget 0 s.thallus.plicServing 1) 5 = false → bit (kget 0 t.thallus.plic 1) 5 = true) ∧
       (bit (kget 0 s.thallus.plicServing 1) 5 = true → bit (kget 0 t.thallus.plicHeld 1) 5 = true) ∧ t.mem = s.mem ∧ t.units = s.units) ∧
   (∀ s : State, s.faults.record.isSome = true ∨ s.faults.competing = [] → exec .firstFaultLatch s = .next s))

/-- FROND_HANG and UNIT_HANG are raised once for work unfinished at its fourth tick, on a Frond unit and on another unit, and
FROND_HANG records its suspects; THALLUS_HANG names the core with its program counter and cause (R349, R350, R356).
BRIDGE_FAIL reports the bridge and the sending die. The packet inside that direction of the bridge that lands on the address
arrives poisoned and 256 cycles late; where none is inside it, the block or the granules of the address are poisoned at once
(log 58); the bytes in memory stay (R17, R257). -/
def Obligations.HangsAndBridgeFailures : Prop :=
  ((∀ (u : Nat) (s : State),
     ((frondUnit u && s.hangs u) = true → ∃ t r, exec (.frondHang u) s = .next t ∧ (t.unit u).hung = true ∧
       t.faults.inFlight = s.faults.inFlight ++ [r] ∧ r.2.code = 0x304 ∧ r.2.source = u ∧ t.faults.replayNext.isSome = true ∧
       t.mem = s.mem ∧ ∀ v, v ≠ u → t.unit v = s.unit v) ∧
     ((frondUnit u && s.hangs u) = false → exec (.frondHang u) s = .next s) ∧
     ((!frondUnit u && s.hangs u) = true → ∃ t r, exec (.unitHang u) s = .next t ∧ (t.unit u).hung = true ∧
       t.faults.inFlight = s.faults.inFlight ++ [r] ∧ r.2.code = 0x305 ∧ r.2.source = u ∧ t.dict = s.dict ∧
       t.mem = s.mem ∧ ∀ v, v ≠ u → t.unit v = s.unit v) ∧
     ((!frondUnit u && s.hangs u) = false → exec (.unitHang u) s = .next s)) ∧
   (∀ (c : Nat) (pc cause : BitVec 64) (s : State),
     ∃ t r, exec (.thallusHang c pc cause) s = .next t ∧ t.faults.inFlight = s.faults.inFlight ++ [r] ∧ r.2.code = 0x306 ∧
       r.2.source = 0x88 + c ∧ bits r.2.detail 68 5 = pc.toNat ∧ bits r.2.detail 132 69 = cause.toNat ∧ t.mem = s.mem ∧
       t.units = s.units)) ∧
  (∀ (east eastward : Bool) (units address : Nat) (s : State),
     ∃ t r, exec (.bridgeFail east eastward units address) s = .next t ∧ t.faults.inFlight = s.faults.inFlight ++ [r] ∧
       r.2.code = 0x205 ∧ r.2.source = (if east then 0x81 else 0x80) ∧ t.mem.hbm = s.mem.hbm ∧ t.mem.ops = s.mem.ops ∧
       (∀ j n q, ((s.lane (2 * b2n east + b2n (!eastward))).wire.findIdx? fun p => p.2.landsOn address) = some j →
         (s.lane (2 * b2n east + b2n (!eastward))).wire[j]? = some (n, q) →
         (t.lane (2 * b2n east + b2n (!eastward))).wire[j]? = some (n + 256, { q with poison := true }) ∧ t.mem = s.mem) ∧
       ((∀ q ∈ (s.lane (2 * b2n east + b2n (!eastward))).wire, q.2.landsOn address = false) →
         (bit address 63 = false → (∀ b, b ∈ t.mem.poison ↔ b ∈ s.mem.poison ∨ b ∈ blocks address 64) ∧
           t.mem.opPoison = s.mem.opPoison) ∧
         (bit address 63 = true → t.mem.poison = s.mem.poison ∧
           ∀ g, g ∈ t.mem.opPoison ↔ g ∈ s.mem.opPoison ∨
             g ∈ granules (if eastward then (if east then 2 else 1) else if east then 1 else 0) (opOffset address) 64)))

/-- FROND_RESET_DONE returns a Frond that passed its self-test at 1.25 GHz, its units taking commands, and counts it; one that
failed stays in reset with SELFTEST_FAIL. CLUSTER_RESET_DONE returns a cluster whose images match and counts it; one whose
images differ takes a module reset instead (R351, R352). MODULE_RESET keeps HBM with its marks, the latched record, the error
log and the dumps, and clears the units, the program, the operand stores, the Clasp and the commit; POWER_UP of a module
without power, no injected failure of a training waiting, leaves every address of HBM zero and no program. Both count nothing
else than R353 says and come to a booted module (R353, R354, R428). -/
def Obligations.ResetsAndPowerUp : Prop :=
  ((∀ (d : Nat) (s : State), d < 3 →
     (s.faults.frondReset.contains d = true → ∃ t, exec (.frondResetDone d true) s = .next t ∧
       t.faults.frondReset = (s.faults.frondReset.filter fun x => x != d) ∧ t.get 0x2004 (d + 1) = 1250 ∧
       t.get 0x3041 (d + 1) = (s.count 0x3041 (d + 1) 1).get 0x3041 (d + 1) ∧ (∀ u ∈ frondUnits d, (t.unit u).inReset = false) ∧
       (∀ u, u ∉ frondUnits d → t.unit u = s.unit u) ∧ t.mem = s.mem) ∧
     (s.faults.frondReset.contains d = true → ∃ t r, exec (.frondResetDone d false) s = .next t ∧
       t.faults.inFlight = s.faults.inFlight ++ [r] ∧ r.2.code = 0x104 ∧ t.faults.frondReset = s.faults.frondReset ∧
       t.units = s.units ∧ t.dict = s.dict) ∧
     (∀ passed, s.faults.frondReset.contains d = false → exec (.frondResetDone d passed) s = .next s)) ∧
   (∀ (d : Nat) (s : State), d < 3 →
     (s.faults.clusterReset.contains d = true → ∃ t, exec (.clusterResetDone d true) s = .next t ∧
       t.faults.clusterReset = (s.faults.clusterReset.filter fun x => x != d) ∧
       t.get 0x3041 (d + 4) = (s.count 0x3041 (d + 4) 1).get 0x3041 (d + 4) ∧ t.mem = s.mem ∧ t.units = s.units) ∧
     (s.faults.clusterReset.contains d = true → ∃ t, exec (.clusterResetDone d false) s = .next t ∧
       t.faults.clusterReset = s.faults.clusterReset ∧ t.faults.moduleReset.isSome = true ∧ t.mem = s.mem) ∧
     (∀ m, s.faults.clusterReset.contains d = false → exec (.clusterResetDone d m) s = .next s))) ∧
  ((∀ (s : State) (code : Nat), s.faults.moduleReset = some code →
     ∃ t, exec .moduleReset s = .next t ∧ t.mem.hbm = s.mem.hbm ∧ t.mem.poison = s.mem.poison ∧
       (s.mem.lines = [] → t.mem.flawed = s.mem.flawed) ∧
       t.mem.ops = [{}, {}, {}] ∧ t.mem.lines = [] ∧ t.faults.record = s.faults.record ∧ t.faults.log = s.faults.log ∧
       t.faults.moduleReset = none ∧ t.units = [] ∧ t.arrays = [] ∧ t.program = {} ∧ t.commit = {} ∧
       t.get 0x3042 1 ≤ 4000) ∧
   (∀ s : State, s.faults.moduleReset = none → exec .moduleReset s = .next s) ∧
   (∀ s : State, s.power.on = false → s.faults.corrupt = [] →
     ∃ t, exec .powerUp s = .next t ∧ t.power.on = true ∧ (∀ a, t.mem.hbm.read a = 0) ∧ t.units = [] ∧ t.program = {} ∧
       t.get 0x2009 1 ≤ 9000) ∧
   (∀ s : State, s.power.on = true → exec .powerUp s = .next s))

/-- REPLAY_FRAME dispatches the suspect's commands of the hung frame and no other; REPLAY_PASS takes up the next suspect or
ends the replay; GUILTY_CONTEXT names the suspect, quarantines a user context and halts the member for another, and resets the
Frond (R356, R357, R358). STITCH_COMPLETE writes the alternate index of every tensor and ends with object 0x6050.0A at 1;
STITCH_LATE is raised and counted once when the budget of stitch frames is reached (R135, R136, R138). -/
def Obligations.ReplayAndTheStitcher : Prop :=
  ((∀ (s : State) (r : Replay) (c : Nat) (rest : List Nat), s.faults.replay = some r → r.phase = 2 → r.left = c :: rest →
     exec .replayFrame s = .next { s with
       program := { s.program with bundles := (r.cmds.filter fun p => p.2.issue.ctx == c).map replayBundle }
       faults := { s.faults with replay := some { r with phase := 3 } } }) ∧
   (∀ (s : State) (r : Replay), s.faults.replay = some r →
     (3 ≤ r.phase → s.frondWorks r.die = false →
       ∃ t, exec .replayPass s = .next t ∧ t.mem = s.mem ∧ t.dict = s.dict ∧
         (r.left.tail = [] → t.faults.replay = none ∧ t.faults.replayNext = none ∧ t.units = s.units) ∧
         (r.left.tail ≠ [] → t.faults.replay = some { r with left := r.left.tail, phase := 0 } ∧
           ∀ u ∈ frondUnits r.die, (t.unit u).work = none ∧ (t.unit u).waiting = [] ∧ (t.unit u).inReset = false)) ∧
     (r.phase < 3 ∨ s.frondWorks r.die = true → exec .replayPass s = .next s)) ∧
   (∀ (s : State) (r : Replay) (c : Nat) (rest : List Nat), s.faults.replay = some r → r.left = c :: rest →
     6 ≤ r.phase → s.frondWorks r.die = true →
     ∃ t, exec .guiltyContext s = .next t ∧ t.faults.replay = none ∧
       (∃ n, t.faults.replayNext = some n ∧ n.left = rest ∧ c ∈ n.guilty) ∧ (∃ x ∈ t.faults.inFlight, x.2.code = 0x317) ∧
       t.faults.frondReset.contains r.die = true ∧ bit (t.get 0x3050 2) c = true ∧
       (4 ≤ c → bit (t.get 0x3050 3) c = true) ∧
       (c < 4 → s.running = true → t.program.stopping = some (0x50B, true)))) ∧
  ((∀ (jobs : List StitchJob) (s : State), ∃ t, exec (.stitchComplete jobs) s = .next t ∧ t.get 0x6050 10 = 1 ∧
     t.mem.ops = s.mem.ops ∧ t.units = s.units ∧ t.clock = s.clock ∧ t.locket = s.locket ∧
     (jobs = [] → t.mem = s.mem) ∧
     (∀ j, jobs = [j] → j.tables = [] →
       t.hbmRead j.newIndex (s.indexBytes j.oldIndex (s.stitchBlocks j).1).length = s.indexBytes j.oldIndex (s.stitchBlocks j).1)) ∧
   (∀ s : State,
     (s.stitchDue = true → ∃ t r, exec .stitchLate s = .next t ∧ t.thallus.late = true ∧ t.dict = (s.count 0x6050 6 1).dict ∧
       t.faults.inFlight = s.faults.inFlight ++ [r] ∧ r.2.code = 0x309 ∧ t.mem = s.mem) ∧
     (s.stitchDue = false → exec .stitchLate s = .next s)))

/-! ### The dictionary -/

/-- The commands that are writes of one object, with the object each writes. -/
def objectWrites (role : Role) (v : Nat) (bytes : List Byte) : List (Instr × Nat × Nat) :=
  [(.programStart role, 0x6010, 2), (.programStop role, 0x6010, 2), (.syncTrackingArm role v, 0x6002, 1),
    (.clearFirstFault role v, 0x3001, 3), (.frondResetRequest role v, 0x3040, 2), (.clusterResetRequest role v, 0x3040, 3),
    (.dumpRequest role v, 0x3060, 1), (.dumpHarvested role v, 0x3060, 5), (.storeSettings role v, 0x1010, 1),
    (.restoreDefaults role v, 0x1010, 2), (.maintenanceMode role v, 0x9001, 1), (.holdStep role v, 0x9002, 1),
    (.holdRelease role v, 0x9002, 2), (.updateVerify role, 0x9010, 3), (.updateInstall role, 0x9010, 3),
    (.updateActivate role, 0x9010, 3), (.updateRevert role, 0x9010, 3), (.updateCommit role, 0x9010, 3),
    (.updateAbandon role, 0x9010, 3), (.attestationNonce role bytes, 0xA004, 1), (.factoryToken role bytes, 0xA006, 1),
    (.injectionRequest role bytes, 0xF010, 1), (.repairRequest role bytes, 0x4040, 1), (.metadataAddress role v, 0x4044, 1),
    (.translateAddress role v, 0x4045, 1), (.portRestore role v, 0x5025, 1), (.configurationSwitchStep role v, 0x5012, 1),
    (.fenceRelease role v, 0x5040, 3), (.censusRequest role v, 0x5040, 4), (.resolve role v, 0x8020, 3),
    (.resume role v, 0x8041, 1), (.restoreRecord role bytes, 0x8041, 3), (.reEncode role v, 0x8041, 5),
    (.exportStep role v, 0x8050, 1), (.exportDone role v, 0x8050, 3)]

/-- A write without the right to it changes nothing but the counts of answers; a server in reset, or a module without power,
answers nothing; a value longer than the object is refused with LENGTH (R387, R391, R396, R398). REGISTER_WRITE of a number
object without a behaviour of its own: its value takes effect where its rule accepts it, is refused where the rule does not,
and a type or length that is not the object's is refused with LENGTH (R387, R391, R396). -/
def Obligations.WritesKeepTheRules : Prop :=
  (∀ (role : Role) (v type index sub : Nat) (bytes : List Byte) (s : State),
     (∀ c i u, (c, i, u) ∈ (.registerWrite role index sub type bytes, index, sub) :: objectWrites role v bytes →
       (s.serves = false → exec c s = .next s) ∧
       (s.serves = true → s.writeStatus role i u ≠ 0 → exec c s = .next (s.counted (s.writeStatus role i u)))) ∧
     (∀ c i u, (c, i, u) ∈ [(Instr.syncTrackingArm role v, 0x6002, 1), (.clearFirstFault role v, 0x3001, 3),
         (.dumpRequest role v, 0x3060, 1), (.maintenanceMode role v, 0x9001, 1), (.holdStep role v, 0x9002, 1),
         (.metadataAddress role v, 0x4044, 1), (.portRestore role v, 0x5025, 1), (.resolve role v, 0x8020, 3),
         (.exportStep role v, 0x8050, 1)] →
       MayWrite s role i u → objLimit i u ≤ v → exec c s = .next (s.counted 8))) ∧
  (∀ (role : Role) (index sub type : Nat) (value : List Byte) (s : State), index ≠ 0x1010 → MayWrite s role index sub →
     (type ≠ objType index sub → exec (.registerWrite role index sub type value) s = .next (s.counted 8)) ∧
     (type = objType index sub → typeLen type ≠ 0 → value.length ≠ typeLen type →
       exec (.registerWrite role index sub type value) s = .next (s.counted 8)) ∧
     (type = objType index sub → typeLen type ≠ 0 → value.length = typeLen type → numberBehaviour index sub = none →
       s.valueOk index sub (leNat value) = false →
       exec (.registerWrite role index sub type value) s = .next (s.counted 7)) ∧
     (type = objType index sub → typeLen type ≠ 0 → value.length = typeLen type → numberBehaviour index sub = none →
       s.valueOk index sub (leNat value) = true → index ≠ 0x1003 → index ≠ 0x5011 →
       exec (.registerWrite role index sub type value) s = .next ((s.put index sub (leNat value)).counted 0)))

/-- Subindex 0 of every index in use is a U8 that reads as the highest subindex in use, which has an object; it can be read by
both roles and written by none; a subindex above it is in use by no object (R386). -/
def Obligations.SubindexZeroGivesTheHighest : Prop :=
  ∀ (role : Role) (index : Nat) (s : State), index < 2 ^ 16 → objHighest index ≠ 0 → s.security.recovery = false →
    objType index 0 = 2 ∧ s.readStatus role index 0 = 0 ∧ s.readValue index 0 = leBytes 1 (objHighest index) ∧
    s.writeStatus role index 0 = 5 ∧ (objRow index (objHighest index)).isSome = true ∧
    ∀ sub, objHighest index < sub → sub < 2 ^ 8 → objRow index sub = none

/-- A local address names stack a / 2^37 and an offset in it; offsets under 96,000,000,000 of stacks 0 to 11 are populated and
no other address is; stacks 0 to 3 lie on die W, 4 to 7 on die C and 8 to 11 on die E (R245). -/
def Obligations.LocalAddressMap : Prop :=
  ∀ a, a < 2 ^ 41 →
    stackOf a = a / 2 ^ 37 ∧ stackOffset a = a % 2 ^ 37 ∧
    (populated a 1 = true ↔ a / 2 ^ 37 < 12 ∧ a % 2 ^ 37 < 96000000000) ∧
    (a / 2 ^ 37 < 12 → addressDie a = a / 2 ^ 37 / 4)

/-- START with no program running and every check passed sets up the program and its first record; a failed check refuses it
with its reason in object 0x6010.04 and changes nothing else, and a running program refuses it with MODE. STOP ends a running
program at the next tick (R33, R37, R45, R437). -/
def Obligations.ProgramStartsAndStops : Prop :=
  (∀ (role : Role) (s n : State), MayWrite s role 0x6010 2 →
    n = { s with program := { programOf (s.hbmLE (s.get 0x6010 1) 64) with clearing := s.program.clearing } } →
    (s.running = true → exec (.programStart role) s = .next (s.counted 0x0D)) ∧
    (s.running = false → n.startReason (s.hbmLE (s.get 0x6010 1) 64) ≠ 0 →
      exec (.programStart role) s = .next (((s.put 0x6010 3 0x80).put 0x6010 4
        (n.startReason (s.hbmLE (s.get 0x6010 1) 64))).counted 7)) ∧
    (s.running = false → n.startReason (s.hbmLE (s.get 0x6010 1) 64) = 0 →
      ∃ t, exec (.programStart role) s = .next t ∧ t.running = true ∧ t.get 0x6010 4 = 0 ∧ t.program = n.program ∧
        t.commit = {} ∧ t.mem = { s.mem with revert := [] } ∧ t.units = s.units ∧ t.arrays = s.arrays ∧
        t.locket.ownSealed = {} ∧ t.get 0x8021 1 = 0 ∧ t.get 0x3050 3 = 0 ∧ t.security.frequency = s.security.tables ∧
        t.clock.tracking = bit (s.hbmLE (s.get 0x6010 1) 64) 448)) ∧
  (∀ (role : Role) (s : State), MayWrite s role 0x6010 2 →
    (s.running = true → s.program.stopping = none →
      exec (.programStop role) s = .next
        (({ s with program := { s.program with stopping := some (0, false) } } : State).counted 0)) ∧
    (s.running = false ∨ s.program.stopping.isSome = true → exec (.programStop role) s = .next (s.counted 0)))

/-- Maintenance mode: writing 1 to object 0x9001.01 enters it only while no program runs, and is refused with MODE otherwise;
in it START is refused with reason 0x50D and a repair that is not live is accepted; writing 0 leaves it, and so does a module
reset, the object being neither stored nor an ageing maximum (R409). -/
def Obligations.MaintenanceMode : Prop :=
  (∀ (role : Role) (s : State), MayWrite s role 0x9001 1 →
    (s.running = false → exec (.maintenanceMode role 1) s = .next ((s.put 0x9001 1 1).counted 0) ∧
      (s.put 0x9001 1 1).maintenance = true) ∧
    (s.running = true → exec (.maintenanceMode role 1) s = .next (s.counted 0x0D)) ∧
    (exec (.maintenanceMode role 0) s = .next ((s.put 0x9001 1 0).counted 0) ∧ (s.put 0x9001 1 0).maintenance = false) ∧
    ∀ v, 2 ≤ v → v < 256 → exec (.maintenanceMode role v) s = .next (s.counted 7)) ∧
  (∀ (role : Role) (s : State), MayWrite s role 0x6010 2 → s.maintenance = true → s.running = false →
    exec (.programStart role) s = .next (((s.put 0x6010 3 0x80).put 0x6010 4 0x50D).counted 7)) ∧
  (∀ (role : Role) (request : List Byte) (s : State), MayWrite s role 0x4040 1 → s.maintenance = true → s.running = false →
    s.mem.repair = none → request.length = 16 → repairLegal (leNat request) = true → bit (leNat request) 65 = false →
    ∃ t, exec (.repairRequest role request) s = .next t ∧ t.mem.repair = some (repairOf (leNat request)) ∧ t.get 0x4041 1 = 2) ∧
  (∀ (code : Nat) (s : State), s.faults.moduleReset = some code → (∀ p ∈ s.power.maxima, p.1 ≠ objKey 0x9001 1) →
    (∀ p ∈ s.server.stored.getD [], p.1 ≠ objKey 0x9001 1) → ∃ t, exec .moduleReset s = .next t ∧ t.maintenance = false)

/-- The objects that set one thing: FRAME_SYNC arming under a tracked program, the first-fault clear, harvested dumps, the
commit hold and its release, the export hold and its end, the port restore, the bank switch, the fence release, and the two
block inspections (R33, R247, R253, R279, R283, R299, R333, R346, R363, R414). -/
def Obligations.ControlWritesTakeEffect : Prop :=
  ∀ (role : Role) (s : State),
    (MayWrite s role 0x6002 1 →
      (s.program.tracked = true → exec (.syncTrackingArm role 1) s = .next
        (({ s with clock := { s.clock with arming := true } } : State).counted 0)) ∧
      (s.program.tracked = false → exec (.syncTrackingArm role 1) s = .next (s.counted 0))) ∧
    (MayWrite s role 0x3001 3 → exec (.clearFirstFault role 1) s = .next
      (({ s with faults := { s.faults with record := none, overflow := false } } : State).counted 0)) ∧
    (∀ k x, MayWrite s role 0x3060 5 → k < 3 → s.faults.dumps[k]? = some x → x.2.1 ≠ 0 →
      exec (.dumpHarvested role k) s = .next
        (({ s with faults := { s.faults with dumps := s.faults.dumps.set k (x.1, 2, x.2.2) } } : State).counted 0)) ∧
    (∀ v, MayWrite s role 0x9002 1 → v < 2 ^ 64 → exec (.holdStep role v) s = .next
      (({ s with commit := { s.commit with holdAt := some v } } : State).counted 0)) ∧
    (MayWrite s role 0x9002 2 → exec (.holdRelease role 1) s = .next
      (({ s with commit := { s.commit with holdAt := none, holding := false } } : State).counted 0)) ∧
    (∀ v, MayWrite s role 0x8050 1 → v < 2 ^ 64 → exec (.exportStep role v) s = .next
      ((({ s with commit := { s.commit with exportAt := some v } } : State).put 0x8050 2 1).counted 0)) ∧
    (MayWrite s role 0x8050 3 →
      (s.get 0x8050 2 = 2 → exec (.exportDone role 1) s = .next
        (({ s with commit := { s.commit with exportAt := none, exportRelease := true } } : State).counted 0)) ∧
      (s.get 0x8050 2 ≠ 2 → exec (.exportDone role 1) s = .next (s.counted 7))) ∧
    (∀ p, MayWrite s role 0x5025 1 → p ≤ 16 →
      (s.portState p = 2 ∨ s.portState p = 3 → exec (.portRestore role p) s = .next
        ((s.setPort p { s.port p with restoreAsked := true }).counted 0)) ∧
      (s.portState p ≠ 2 → s.portState p ≠ 3 → exec (.portRestore role p) s = .next (s.counted 0))) ∧
    (∀ v, MayWrite s role 0x5012 1 → v < objLimit 0x5012 1 → exec (.configurationSwitchStep role v) s = .next
      (({ s.put 0x5012 3 1 with fabric := { s.fabric with switchAt := some v } } : State).counted 0)) ∧
    (MayWrite s role 0x5040 3 → exec (.fenceRelease role 1) s = .next ((s.put 0x5040 5 0).counted 0)) ∧
    (∀ a, a < 2 ^ 41 → populated a 1 = true →
      (MayWrite s role 0x4044 1 → exec (.metadataAddress role a) s = .next ((s.put 0x4044 1 (a + 2 ^ 63)).counted 0) ∧
        ((s.put 0x4044 1 (a + 2 ^ 63)).counted 0).namedMetadata = s.blockMetadata (a / 512)) ∧
      (MayWrite s role 0x4045 1 → exec (.translateAddress role a) s = .next ((s.put 0x4045 2 (translation a)).counted 0)))

/-- The objects that begin something: a Frond reset clears the Frond's units, its arrays with their weights and tags and its
kernel memories, and leaves every memory as found; a cluster reset clears the cores of its die with their caches, PLIC and
windows; a dump is taken only without a program or in HALTED; a census takes the next number; Resolve decides a member that
waits for it (R93, R124, R193, R298, R329, R351, R352, R359). A fill ends with RESUME, which passes only with every record and
length at hand, and else is refused with LOCKET_SKEW; a restored record becomes OWN_COMMITTED; a re-encoding asks for nothing
where the module holds no parity (R331, R332). -/
def Obligations.RequestsAndFills : Prop :=
  ((∀ (role : Role) (d : Nat) (s : State), MayWrite s role 0x3040 2 → d < 3 → s.faults.frondReset.contains d = false →
     ∃ t, exec (.frondResetRequest role d) s = .next t ∧ t.faults.frondReset.contains d = true ∧ t.mem = s.mem ∧
       (∀ u ∈ frondUnits d, (t.unit u).work = none ∧ (t.unit u).waiting = [] ∧ (t.unit u).tails = [] ∧ (t.unit u).inReset = true) ∧
       (∀ u, u = 0x10 + d ∨ u = 0x18 + d → (t.array u).active.tag = none ∧ (t.array u).shadow.tag = none) ∧
       t.filigree d = {}) ∧
   (∀ (role : Role) (d : Nat) (s : State), MayWrite s role 0x3040 3 → d < 3 → s.faults.clusterReset.contains d = false →
     ∃ t, exec (.clusterResetRequest role d) s = .next t ∧ t.faults.clusterReset.contains d = true ∧ t.mem = s.mem ∧
       (∀ c, c / 8 = d → t.core c = {}) ∧ kget 0 t.thallus.plic d = 0 ∧ (∀ k ∈ t.thallus.l1, k.1 / 2048 ≠ d) ∧
       (∀ k ∈ t.thallus.l2, k.1 / 8192 ≠ d) ∧ (∀ w ∈ t.thallus.windows, w.1 / 4 ≠ d) ∧ (d = 1 → t.server.sessions = [] ∧ t.server.ring = [])) ∧
   (∀ (role : Role) (s : State), MayWrite s role 0x3060 1 →
     (s.running = false ∨ s.commitState = 7 →
       exec (.dumpRequest role 1) s = .next ((s.dump true 0 allSources).counted 0) ∧
       (s.dump true 0 allSources).faults.dumps =
         s.faults.dumps.set s.dumpSlot.1 (s.dumpBytes true 0 allSources, 1, s.faults.dumps.foldl (fun n x => max n x.2.2) 0 + 1)) ∧
     (s.running = true → s.commitState ≠ 7 → exec (.dumpRequest role 1) s = .next (s.counted 7))) ∧
   (∀ (role : Role) (s : State), MayWrite s role 0x5040 4 →
     ∃ t, exec (.censusRequest role 1) s = .next t ∧ t.get 0x5040 1 = (s.get 0x5040 1 + 1) % 65536 ∧
       t.fabric.census = some s.clock.frame ∧ t.mem = s.mem ∧
       t.fabric.bitmap = (match s.memberIndex with | some j => [j] | none => [])) ∧
   (∀ (role : Role) (s : State), MayWrite s role 0x8020 3 →
     ((s.commitState = 7 ∧ s.commit.unknown = true) →
       (∃ t, exec (.resolve role 1) s = .next t ∧ t.commitState = 3 ∧ t.mem.revert = [] ∧ t.locket.ownSealed = {}) ∧
       ∃ t, exec (.resolve role 2) s = .next t ∧ t.commitState = 4 ∧ t.mem = s.mem ∧ t.locket = s.locket ∧
         t.commit.unknown = false) ∧
     (s.commitState ≠ 7 ∨ s.commit.unknown = false → ∀ v, v < 256 → exec (.resolve role v) s = .next (s.counted 7)))) ∧
  ((∀ (role : Role) (s : State), MayWrite s role 0x8041 1 →
     (s.commitState ≠ 6 → exec (.resume role 1) s = .next (s.counted 7)) ∧
     (s.commitState = 6 → s.restoreCheck = none → exec (.resume role 1) s = .next
       (({ s with commit := { s.commit with resumed := true } } : State).counted 0)) ∧
     (∀ check expected found, s.commitState = 6 → s.restoreCheck = some (check, expected, found) →
       ∃ t r, exec (.resume role 1) s = .next t ∧ t.faults.inFlight = s.faults.inFlight ++ [r] ∧ r.2.code = 0x312 ∧
         t.domains.mismatch = leBytes 8 expected ++ leBytes 8 found ∧ t.commit = s.commit ∧ t.mem = s.mem ∧
         t.locket = s.locket)) ∧
   (∀ (role : Role) (record : List Byte) (s : State), MayWrite s role 0x8041 3 →
     (record.length ≤ 2 ^ 20 → ∃ t, exec (.restoreRecord role record) s = .next t ∧
       t.locket.ownCommitted = Mem.writeN {} 0 record ∧ t.locket.ownSealed = s.locket.ownSealed ∧ t.mem = s.mem ∧
       t.commit = s.commit) ∧
     (2 ^ 20 < record.length → exec (.restoreRecord role record) s = .next (s.counted 8))) ∧
   (∀ (role : Role) (s : State), MayWrite s role 0x8041 5 →
     ∃ t, exec (.reEncode role 1) s = .next t ∧ t.mem.ops = s.mem.ops ∧ t.locket = s.locket ∧ t.units = s.units ∧
       ((∀ j, j < s.dirCount 0 → bits (s.desc 0 j) 207 200 ≠ 5) → t = s.counted 0)))

/-- A command of Table 15.11 while one runs answers BUSY, and in a status that it is not allowed in REFUSED. VERIFY takes up
the staged set, INSTALL erases the inactive slot, ACTIVATE and REVERT begin Table 15.12, COMMIT burns the counter and ABANDON
discards the staged set (R411, R412). VERIFY ends in status 2 or 0x80 with the failed check; INSTALL in 4 or 0x81; the
activation goes through its steps, each cluster restarting after the one before it has returned, and ends with a new directory
that names the other slot (R403, R411–R413). -/
def Obligations.UpdatesFollowTheirTables : Prop :=
  (∀ (role : Role) (s : State), MayWrite s role 0x9010 3 →
     (∀ (c : Instr) (allowed : List Nat), (c, allowed) ∈ [(.updateVerify role, [0, 2, 4, 7, 0x80, 0x81, 0x82]),
         (.updateInstall role, [2]), (.updateActivate role, [4]), (.updateRevert role, [6]), (.updateCommit role, [6]),
         (.updateAbandon role, [2, 4, 0x80, 0x81, 0x82])] →
       ([1, 3, 5].contains (s.get 0x9010 4) = true → exec c s = .next (s.counted 0x0A)) ∧
       ([1, 3, 5].contains (s.get 0x9010 4) = false → allowed.contains (s.get 0x9010 4) = false →
         exec c s = .next (s.counted 7))) ∧
     ([0, 2, 4, 7, 0x80, 0x81, 0x82].contains (s.get 0x9010 4) = true → s.security.recovery = false → s.get 0x9010 2 ≠ 0 →
       ∃ t, exec (.updateVerify role) s = .next t ∧
         t.security = { s.security with
           checking := some (s.hbmRead (s.get 0x9010 1) (s.get 0x9010 2)), verified := none } ∧
         t.get 0x9010 4 = 1 ∧ t.mem = s.mem) ∧
     (s.get 0x9010 4 = 2 → ∃ t, exec (.updateInstall role) s = .next t ∧ t.slot s.otherSlot = none ∧ t.get 0x9010 4 = 3 ∧
       t.security.active = s.security.active ∧ t.mem = s.mem) ∧
     (s.get 0x9010 4 = 4 → ∃ t, exec (.updateActivate role) s = .next t ∧ t.get 0x9010 4 = 5 ∧
       t.security = { s.security with activating := some (1, s.otherSlot, false) } ∧ t.mem = s.mem) ∧
     (s.get 0x9010 4 = 6 →
       ((s.slot s.otherSlot).isSome = true → ∃ t, exec (.updateRevert role) s = .next t ∧ t.get 0x9010 4 = 5 ∧
         t.security = { s.security with activating := some (1, s.otherSlot, true) } ∧ t.mem = s.mem) ∧
       (s.maintenance = false → exec (.updateCommit role) s = .next (s.counted 0x0D)) ∧
       (∀ x, s.maintenance = true → s.slot s.security.active = some x → x.revoke = 0 →
         ∃ t, exec (.updateCommit role) s = .next t ∧ t.get 0x9010 4 = 7 ∧
           t.get 0xA002 1 = max (s.get 0xA002 1) (min 64 x.secure) ∧ t.get 0xA001 2 = s.get 0xA001 2 ∧
           t.slot s.security.active = some { x with committed := true } ∧ t.mem = s.mem)) ∧
     ([2, 4, 0x80, 0x81, 0x82].contains (s.get 0x9010 4) = true →
       ∃ t, exec (.updateAbandon role) s = .next t ∧ t.get 0x9010 4 = 0 ∧ t.security.stagedCan = [] ∧
         t.security.verified = none ∧ (s.security.written = true → t.slot s.otherSlot = none) ∧
         (s.security.written = false → t.slot s.otherSlot = s.slot s.otherSlot) ∧ t.mem = s.mem)) ∧
  ((∀ (s : State) (set : List Byte), s.get 0x9010 4 = 1 → s.security.checking = some set →
     (∀ x, s.checkSet set = .inl x → ∃ t, exec .verifyComplete s = .next t ∧ t.get 0x9010 4 = 2 ∧ t.get 0x9010 5 = 0 ∧
       t.security = { s.security with checking := none, verified := some x } ∧ t.mem = s.mem) ∧
     (∀ check type, s.checkSet set = .inr (check, type) → ∃ t, exec .verifyComplete s = .next t ∧ t.get 0x9010 4 = 0x80 ∧
       t.get 0x9010 5 = type + 256 * check ∧ t.security = { s.security with checking := none } ∧ t.mem = s.mem)) ∧
   (∀ (s : State) (x : ImageSet), s.get 0x9010 4 = 3 → s.security.verified = some x → s.security.recovery = false →
     (∀ y, s.checkSet x.bytes = .inl y → ∃ t, exec .installComplete s = .next t ∧ t.get 0x9010 4 = 4 ∧
       t.slot s.otherSlot = some y ∧ t.security.active = s.security.active ∧ t.mem = s.mem) ∧
     (∀ check type, s.checkSet x.bytes = .inr (check, type) → ∃ t, exec .installComplete s = .next t ∧ t.get 0x9010 4 = 0x81 ∧
       t.get 0x9010 5 = type + 256 * check ∧ t.security = s.security)) ∧
   (∀ (s : State) (n k : Nat) (back : Bool) (x : ImageSet), s.security.activating = some (n, k, back) → s.slot k = some x →
     (n = 1 → ∃ t, exec .activateStep s = .next t ∧ t.security.firmware = k ∧ t.security.loading = x.units ∧
       t.security.activating = some (2, k, back) ∧ t.mem = s.mem) ∧
     (n = 2 → ∃ t, exec .activateStep s = .next t ∧ t.security.activating = some (3, k, back) ∧
       t.security.tables = k ∧ (s.running = false → t.security.frequency = k) ∧ t.mem = s.mem) ∧
     (n = 3 → s.security.loading = [] → ∃ t, exec .activateStep s = .next t ∧ t.security.activating = some (4, k, back)) ∧
     (n = 4 → ∃ t, exec .activateStep s = .next t ∧ t.faults.clusterReset.contains 0 = true ∧
       t.security.activating = some (5, k, back) ∧ ∀ c, c / 8 = 0 → t.core c = {}) ∧
     (n = 5 → s.faults.clusterReset.contains 0 = true → exec .activateStep s = .next s) ∧
     (n = 5 → s.faults.clusterReset.contains 0 = false → ∃ t, exec .activateStep s = .next t ∧
       t.faults.clusterReset.contains 2 = true ∧ t.security.activating = some (6, k, back)) ∧
     (n = 7 → s.faults.clusterReset.contains 1 = true → exec .activateStep s = .next s) ∧
     (n = 7 → s.faults.clusterReset.contains 1 = false → s.security.directories.length = 2 →
       ∃ t, exec .activateStep s = .next t ∧ t.security.directory = (s.security.directory.1 + 1, k, true) ∧
       t.security.active = k ∧ t.security.inUse = k ∧ t.security.activating = none ∧
       t.get 0x9010 4 = (if back then (if x.committed then 7 else 4) else 6) ∧ t.mem = s.mem)))

/-- The settings keys store the persistent values, or erase them, when the flash write has ended, and any other value is
refused; a write before that is BUSY. A nonce of 32 bytes starts a quote, which then stands with the nonce (R390, R408). A
factory token enters factory test mode only with the strap asserted, no program and a token of this module and reset period;
else object 0xA006.02 reads 0x80. An injection is armed only in that mode; it fires once for every one of its count (R364,
R410). -/
def Obligations.SettingsQuotesAndFactoryMode : Prop :=
  ((∀ (role : Role) (s : State),
     (MayWrite s role 0x1010 1 →
       (s.server.saving = none → exec (.storeSettings role 0x65766173) s = .next
         { s with server := { s.server with saving := some (some s.settings, none) } }) ∧
       (s.server.saving.isSome = true → exec (.storeSettings role 0x65766173) s = .next (s.counted 0x0A)) ∧
       ∀ v, v ≠ 0x65766173 → v < 2 ^ 32 → exec (.storeSettings role v) s = .next (s.counted 7)) ∧
     (MayWrite s role 0x1010 2 →
       (s.server.saving = none → exec (.restoreDefaults role 0x64616F6C) s = .next
         { s with server := { s.server with saving := some (none, none) } }) ∧
       (s.server.saving.isSome = true → exec (.restoreDefaults role 0x64616F6C) s = .next (s.counted 0x0A)) ∧
       ∀ v, v ≠ 0x64616F6C → v < 2 ^ 32 → exec (.restoreDefaults role v) s = .next (s.counted 7))) ∧
   (∀ (s : State) (settings : Option (KMap Nat)) (owed : Option (Bool × Nat × List Byte)),
     s.server.saving = some (settings, owed) →
     ∃ t, exec .storeSettingsComplete s = .next t ∧ t.server.stored = settings ∧ t.server.saving = none ∧
       t.dict = (s.counted 0).dict ∧ t.mem = s.mem ∧
       (owed = none → t = ({ s with server := { s.server with stored := settings, saving := none } } : State).counted 0)) ∧
   (∀ s : State, s.server.saving = none → exec .storeSettingsComplete s = .next s) ∧
   (∀ (role : Role) (nonce : List Byte) (s : State), MayWrite s role 0xA004 1 →
     (nonce.length ≠ 32 → exec (.attestationNonce role nonce) s = .next (s.counted 8)) ∧
     (nonce.length = 32 → s.security.forming.isSome = true → exec (.attestationNonce role nonce) s = .next (s.counted 0x0A)) ∧
     (nonce.length = 32 → s.security.forming = none → ∃ t body, exec (.attestationNonce role nonce) s = .next t ∧
       t.security = { s.security with forming := some body } ∧ t.get 0xA004 3 = 1 ∧ t.mem = s.mem ∧
       (s.security.serial.length = 16 → ((body.drop 24).take 32) = nonce))) ∧
   (∀ (s : State) (body : List Byte), s.security.forming = some body →
     ∃ t, exec .quoteComplete s = .next t ∧ t.security.forming = none ∧ t.get 0xA004 3 = 2 ∧
       t.security.quote.take body.length = body ∧ t.mem = s.mem) ∧
   (∀ s : State, s.security.forming = none → exec .quoteComplete s = .next s)) ∧
  ((∀ (role : Role) (token : List Byte) (s : State), MayWrite s role 0xA006 1 →
     ((!bit (s.get 0x1006 1) 7 && !s.running && s.tokenOk token) = true →
       ∃ t, exec (.factoryToken role token) s = .next t ∧ t = (s.put 0xA006 2 1).counted 0 ∧ t.factory = true) ∧
     ((!bit (s.get 0x1006 1) 7 && !s.running && s.tokenOk token) = false →
       exec (.factoryToken role token) s = .next ((s.put 0xA006 2 0x80).counted 7))) ∧
   (∀ (role : Role) (request : List Byte) (s : State), MayWrite s role 0xF010 1 → request.length = 16 →
     (s.factory = false → exec (.injectionRequest role request) s = .next ((s.put 0xF010 2 0x80).counted 0x0D)) ∧
     (s.factory = true → bits (leNat request) 25 24 ≠ 3 → bits (leNat request) 15 12 = 0 → bits (leNat request) 31 26 = 0 →
       bits (leNat request) 127 80 = 0 → bits (leNat request) 79 64 ≠ 0 →
       ∃ t, exec (.injectionRequest role request) s = .next t ∧ t.get 0xF010 2 = 1 ∧ t.mem = s.mem ∧
         t.faults = { s.faults with injection := some (bits (leNat request) 11 0, bits (leNat request) 23 16,
           bits (leNat request) 25 24, bits (leNat request) 63 32, bits (leNat request) 79 64) })) ∧
   (∀ (s : State) (code src kind n : Nat), s.faults.injection = some (code, src, kind, 0, n + 1) →
     ∃ t, exec .injectionFire s = .next t ∧ t.mem = s.mem ∧
       t.faults.injection = (if n = 0 then none else some (code, src, kind, 0, n)) ∧
       (n = 0 → t.get 0xF010 2 = 2) ∧
       (kind = 0 → ∃ r, t.faults.inFlight = s.faults.inFlight ++ [r] ∧ r.2.code = code ∧ r.2.source = 0xF0) ∧
       (2 ≤ kind → validUnit src = true → (t.unit src).stalled = true ∧ t.faults.inFlight = s.faults.inFlight)))

/-- A repair: one request at a time, inside the stack's geometry, and not live only in maintenance mode; a live one evacuates
its rows, waits for a permitted frame, holds its pseudo-channel for 25,000 cycles, restores and is counted; one in maintenance
mode ends with 4, 0x81 or 0x82 (R267, R268). -/
def Obligations.RepairsGoThroughTheirPhases : Prop :=
  (∀ (role : Role) (request : List Byte) (s : State), MayWrite s role 0x4040 1 → request.length = 16 →
    (s.mem.repair.isSome = true → exec (.repairRequest role request) s = .next (s.counted 0x0A)) ∧
    (s.mem.repair = none → repairLegal (leNat request) = false →
      exec (.repairRequest role request) s = .next ((s.put 0x4041 1 0x80).counted 7)) ∧
    (s.mem.repair = none → repairLegal (leNat request) = true → (repairOf (leNat request)).live = true →
      ∃ t, exec (.repairRequest role request) s = .next t ∧ t.mem = { s.mem with repair := some (repairOf (leNat request)) } ∧
        t.get 0x4041 1 = 1) ∧
    (s.mem.repair = none → repairLegal (leNat request) = true → (repairOf (leNat request)).live = false →
      s.maintenance = false → exec (.repairRequest role request) s = .next ((s.put 0x4041 1 0x80).counted 0x0D))) ∧
  (∀ (s : State) (r : Repair), s.mem.repair = some r → r.live = true →
    (s.get 0x4041 1 = 1 → ∃ t, exec .repairEvacuationDone s = .next t ∧ t.mem.hbm = s.mem.hbm ∧ t.dict = s.dict ∧
      ∀ b, b ∈ t.mem.evacuated ↔ b ∈ s.mem.evacuated ∨ b ∈ r.blocks) ∧
    (s.get 0x4041 1 = 1 → (∀ b ∈ r.blocks, b ∈ s.mem.evacuated) → s.repairFrame = true →
      exec .repairSoft s = .next { s.put 0x4041 1 2 with mem := { s.mem with repairHold := some (r.stack, r.pc, 25000) } }) ∧
    (s.repairFrame = false → exec .repairSoft s = .next s) ∧
    (s.get 0x4041 1 = 2 ∨ s.get 0x4041 1 = 3 → ∃ t, exec .repairRestoreDone s = .next t ∧ t.get 0x4041 1 = 4 ∧
      t.mem.repair = none ∧ t.mem.repairHold = none ∧ t.mem.hbm = s.mem.hbm ∧ (∀ b, b ∈ t.mem.evacuated ↔ b ∈ s.mem.evacuated ∧ b ∉ r.blocks) ∧
      ∀ x ∈ r.list, x ∈ t.mem.repaired ↔ r.hard = false)) ∧
  (∀ (s : State) (r : Repair) (spare repaired : Bool), s.mem.repair = some r → r.live = false →
    ∃ t, exec (.repairComplete spare repaired) s = .next t ∧ t.mem.repair = none ∧
      t.get 0x4041 1 = (if !spare then 0x81 else if !repaired then 0x82 else 4) ∧
      ((spare && repaired) = false → t.mem.hbm = s.mem.hbm ∧ t.mem.repaired = s.mem.repaired))

/-! ### Nagauk -/

/-- The services of Table 15.3: READ answers the object's value with its type and length and changes nothing, WRITE writes it
and answers its status, IDENTIFY answers the identity, ABORT ends the session, and a message with a non-zero reserved byte is
BAD_REQUEST; the server in reset and a message that is not the command's leave the state (R391, R395, R396, R398). A session:
SEG_INIT of a readable object opens one with a snapshot of the value and answers its length, and one too many is BUSY; SEG
answers the next part, LAST with the final one, which ends the session; a writing session buffers, and writes the value whole
on LAST, or nothing where its length is not the total; SEG without a session and 100 ms without one (R397). -/
def Obligations.NagaukServicesAndSessions : Prop :=
  ((∀ (m : Message) (s t : State) (r : Request), s.serves = true → s.requestOf m = (some r, t) → r.clean = true →
     (r.service = 1 →
       (t.readStatus r.role r.index r.sub = 0 → (t.readValue r.index r.sub).length ≤ r.room →
         exec (.nagaukRead m) s = .next ((t.counted 0).sendAnswer r.inBand r.reply
           (answerBytes [0, objType r.index r.sub, (t.readValue r.index r.sub).length, 0] (t.readValue r.index r.sub)))) ∧
       (t.readStatus r.role r.index r.sub ≠ 0 → ∃ u type, exec (.nagaukRead m) s = .next u ∧
         u = (t.counted (t.readStatus r.role r.index r.sub)).sendAnswer r.inBand r.reply
           (answerBytes [t.readStatus r.role r.index r.sub, type] []))) ∧
     (r.service = 2 → t.writeStatus r.role r.index r.sub ≠ 0 →
       exec (.nagaukWrite m) s = .next ((t.counted (t.writeStatus r.role r.index r.sub)).sendAnswer r.inBand r.reply
         (answerBytes [t.writeStatus r.role r.index r.sub] []))) ∧
     (r.service = 2 → t.writeStatus r.role r.index r.sub = 0 → t.server.saving.isSome = true ∨ r.index ≠ 0x1010 →
       leNat ((r.payload.drop 4).take 2) ≤ r.room → leNat ((r.payload.drop 4).take 2) ≤ (r.payload.drop 8).length →
       ∃ u status, t.register r.index r.sub (r.byte 3) ((r.payload.drop 8).take (leNat ((r.payload.drop 4).take 2))) = (u, status) ∧
         exec (.nagaukWrite m) s = .next ((u.counted (status % 256)).sendAnswer r.inBand r.reply (answerBytes [status] []))) ∧
     (r.service = 5 → exec (.nagaukAbort m) s = .next (((t.endSession r.inBand r.key).counted 0).sendAnswer r.inBand r.reply
       (answerBytes [0] []))) ∧
     (r.service = 6 → exec (.identify m) s = .next ((t.counted 0).sendAnswer r.inBand r.reply (answerBytes [0] t.identity)))) ∧
   (∀ (m : Message) (s t : State) (r : Request) (c : Instr) (k : Nat),
     (c, k) ∈ [(.nagaukRead m, 1), (.nagaukWrite m, 2), (.segInit m, 3), (.seg m, 4), (.nagaukAbort m, 5), (.identify m, 6)] →
     (s.serves = false → exec c s = .next s) ∧
     (s.serves = true → s.requestOf m = (some r, t) → r.service = k → r.clean = false →
       exec c s = .next ((t.counted 0xE).sendAnswer r.inBand r.reply (answerBytes [0xE] []))) ∧
     ((s.requestOf m).1 = none → exec c s = .next s))) ∧
  ((∀ (m : Message) (s t : State) (r : Request), s.serves = true → s.requestOf m = (some r, t) → r.clean = true → r.service = 3 →
     r.byte 3 = 0 → t.readStatus r.role r.index r.sub = 0 →
     ((t.endSession r.inBand r.key).sessionsFull r.inBand = true → ∃ u, exec (.segInit m) s = .next u ∧
       u.server.sessions = (t.endSession r.inBand r.key).server.sessions ∧ u.dict = (t.counted 0xA).dict) ∧
     ((t.endSession r.inBand r.key).sessionsFull r.inBand = false → ∃ u x, exec (.segInit m) s = .next u ∧
       u.session r.inBand r.key = some x ∧ x.data = t.readValue r.index r.sub ∧ x.writing = false ∧ x.seq = 0 ∧
       u.dict = (t.counted 0).dict)) ∧
   (∀ (m : Message) (s t : State) (r : Request) (x : Session), s.serves = true → s.requestOf m = (some r, t) → r.clean = true →
     r.service = 4 → t.session r.inBand r.key = some x → r.byte 1 = x.seq →
     (x.writing = false → x.data.length ≤ r.room →
       exec (.seg m) s = .next (((t.endSession x.inBand x.key).counted 0).sendAnswer r.inBand r.reply
         (segAnswer 0 x.seq 1 x.data))) ∧
     (x.writing = false → r.room < x.data.length → ∃ u y, exec (.seg m) s = .next u ∧
       u.session x.inBand x.key = some y ∧ y.data = x.data.drop r.room ∧ y.seq = (x.seq + 1) % 256 ∧ u.mem = t.mem) ∧
     (x.writing = true → r.byte 2 = 0 → leNat ((r.payload.drop 4).take 2) ≤ r.room →
       leNat ((r.payload.drop 4).take 2) ≤ (r.payload.drop 8).length → ∃ u y, exec (.seg m) s = .next u ∧
         u.session x.inBand x.key = some y ∧
         y.data = x.data ++ (r.payload.drop 8).take (leNat ((r.payload.drop 4).take 2)) ∧ u.mem = t.mem) ∧
     (x.writing = true → r.byte 2 ≠ 0 → leNat ((r.payload.drop 4).take 2) ≤ r.room →
       leNat ((r.payload.drop 4).take 2) ≤ (r.payload.drop 8).length →
       x.data.length + leNat ((r.payload.drop 4).take 2) ≠ x.total →
       exec (.seg m) s = .next (((t.endSession x.inBand x.key).counted 8).sendAnswer r.inBand r.reply (segAnswer 8 x.seq 0 [])))) ∧
   (∀ (m : Message) (s t : State) (r : Request), s.serves = true → s.requestOf m = (some r, t) → r.clean = true →
     r.service = 4 → t.session r.inBand r.key = none →
     exec (.seg m) s = .next ((t.counted 0xC).sendAnswer r.inBand r.reply (segAnswer 0xC (r.byte 1) 0 []))) ∧
   (∀ (inBand : Bool) (key : Nat) (s : State), ∃ t, exec (.sessionTimeout inBand key) s = .next t ∧ t.session inBand key = none ∧
     (∀ b k, b ≠ inBand ∨ k ≠ key → t.session b k = s.session b k) ∧ t.dict = s.dict ∧ t.server.canOut = s.server.canOut))

/-- A MGMT flit joins the in-band ring and raises PLIC source 7 of cluster C, at once or after the completion of the one in
service; a full ring answers BUSY, and a malformed flit is dropped and counted. Bus-off is counted once and keeps the port
from every frame until it recovers (R392, R399). -/
def Obligations.ManagementPathsCarryMessages : Prop :=
  (∀ (p : Nat) (raw : List Byte) (s t : State) (f : Flit), Arrives p raw (ofType 0xD) s f t →
    (mgmtOk f = true → bit f.addr 4 = false → t.serves = true → t.server.ring.length < 64 →
      ∃ u, exec (.mgmtFlitReceive p raw) s = .next u ∧
        u.server = { t.server with ring := t.server.ring ++ [(f.addr, f.payload)] } ∧
        (bit (kget 0 t.thallus.plicServing 1) 7 = false → bit (kget 0 u.thallus.plic 1) 7 = true) ∧
        (bit (kget 0 t.thallus.plicServing 1) 7 = true → bit (kget 0 u.thallus.plicHeld 1) 7 = true) ∧ u.mem = t.mem ∧ u.dict = t.dict) ∧
    (mgmtOk f = true → bit f.addr 4 = false → t.serves = true → 64 ≤ t.server.ring.length →
      ∃ u, exec (.mgmtFlitReceive p raw) s = .next u ∧ u.server = t.server ∧ u.dict = (t.counted 0xA).dict ∧ u.mem = t.mem) ∧
    (mgmtOk f = true → bit f.addr 4 = true ∨ t.serves = false → exec (.mgmtFlitReceive p raw) s = .next t) ∧
    (mgmtOk f = false → ∃ u, exec (.mgmtFlitReceive p raw) s = .next u ∧ u.server = t.server ∧ u.mem = t.mem)) ∧
  (∀ s : State,
    (s.server.busOff = false → exec .canBusOff s = .next
      (({ s with server := { s.server with busOff := true } } : State).count 0x1003 4 1)) ∧
    (s.server.busOff = true → exec .canBusOff s = .next s) ∧
    exec .canBusOffRecovery s = .next { s with server := { s.server with busOff := false } }) ∧
  (∀ (id : Nat) (payload : List Byte) (s : State), s.server.busOff = true → (s.requestOf (.can id payload)).1 = none)

/-! ### User contexts -/

/-- The mailbox calls: MBOX_SEND pushes to a ring of its own die with room and answers −4 on a full one, which counts the
drop; to another die a packet takes the entry over the bridges, and pushes there; a destination that is no user context's or
no die is −2. MBOX_RECV takes the oldest entry of the context's queue, waits for one, or answers −6 at once without a timeout;
a buffer over the quota is −3; the wait ends with −6. MAILBOX_POP delivers the oldest entry to the queue of its running
context or counts its loss (R234–R236). That the call to another die answers where the entry lands is the model's choice (log
130). -/
def Obligations.ContextsUseTheMailboxes : Prop :=
  (∀ (core c d : Nat) (message : BitVec 32) (s : State), CallsFrom s core c → core < 24 → c < 16 →
    (bits message.toNat 31 28 < 4 ∨ 3 ≤ d → exec (.mboxSend core d message) s = .next (s.answerCall c core (-2))) ∧
    (4 ≤ bits message.toNat 31 28 → d = core / 8 → s.boxFull d = false → ∃ t e, exec (.mboxSend core d message) s = .next t ∧
      (t.box d).landing = insertEntry e (s.box d).landing ∧ (t.box d).ring = (s.box d).ring ∧ bits e 31 0 = message.toNat ∧
      bits e 35 32 = c ∧ bit e 36 = true ∧ (t.box d).pushed = true ∧ (t.thread c core).a0 = 0 ∧ t.mem = s.mem ∧
      t.dict = s.dict) ∧
    (4 ≤ bits message.toNat 31 28 → d = core / 8 → s.boxFull d = true → ∃ t, exec (.mboxSend core d message) s = .next t ∧
      (t.box d).landing = (s.box d).landing ∧ (t.box d).ring = (s.box d).ring ∧ (t.box d).pushed = false ∧
      (t.thread c core).a0 = BitVec.ofInt 64 (-4) ∧ t.dict = (s.count 0x6068 (d + 1) 1).dict ∧ t.mem = s.mem) ∧
    (4 ≤ bits message.toNat 31 28 → d < 3 → d ≠ core / 8 → ∃ q e, exec (.mboxSend core d message) s = .next (s.enterBridge q) ∧
      q.at_ = core / 8 ∧ q.to_ = d ∧ q.unit = 0x88 + core ∧ q.data.length = 16 ∧ bits e 31 0 = message.toNat ∧
      bits e 35 32 = c ∧ bit e 36 = true ∧ ∀ u : State, u.perform q = u.pushMail d e)) ∧
  (∀ (core c buffer timeout : Nat) (s : State), CallsFrom s core c → s.mappingAt c buffer = none →
    (s.ctxObject 0x6064 c * 2 ^ 20 < (s.uctx c).used + 4096 * ((s.uctx c).newPages buffer 16).length →
      exec (.mboxRecv core buffer timeout) s = .next (s.answerCall c core (-3))) ∧
    ((s.uctx c).used + 4096 * ((s.uctx c).newPages buffer 16).length ≤ s.ctxObject 0x6064 c * 2 ^ 20 →
      (∀ e rest, (s.uctx c).queue = e :: rest → ∃ t, exec (.mboxRecv core buffer timeout) s = .next t ∧
        (t.uctx c).queue = rest ∧ (t.uctx c).priv.readN buffer 16 = leBytes 16 e ∧ (t.thread c core).a0 = 0 ∧ t.mem = s.mem) ∧
      ((s.uctx c).queue = [] → timeout = 0 → exec (.mboxRecv core buffer 0) s = .next (s.answerCall c core (-6))) ∧
      ((s.uctx c).queue = [] → timeout ≠ 0 → ∃ t, exec (.mboxRecv core buffer timeout) s = .next t ∧
        (t.thread c core).waiting = some (buffer, timeout * 1250) ∧ t.mem = s.mem ∧ t.dict = s.dict))) ∧
  (∀ (core c : Nat) (s : State), s.expired core = some c → ∃ t, exec (.mboxRecvTimeout core) s = .next t ∧
    (t.thread c core).waiting = none ∧ (t.thread c core).a0 = BitVec.ofInt 64 (-6) ∧ t.mem = s.mem ∧ t.dict = s.dict) ∧
  (∀ (d e : Nat) (rest : List Nat) (s : State), (s.box d).ring = e :: rest →
    (bits e 31 28 < 4 → ∃ t, exec (.mailboxPop d) s = .next t ∧ (t.box d).ring = rest ∧
      kget [] t.thallus.agent (4 * d + bits e 31 28) = e :: kget [] s.thallus.agent (4 * d + bits e 31 28) ∧ t.mem = s.mem ∧
      t.dict = s.dict) ∧
    (4 ≤ bits e 31 28 → s.ctxState (bits e 31 28) ≠ 2 ∨ 256 ≤ (s.uctx (bits e 31 28)).queue.length →
      ∃ t, exec (.mailboxPop d) s = .next t ∧ (t.box d).ring = rest ∧ t.dict = (s.count 0x6068 (d + 1) 1).dict ∧
        t.thallus.ctxs = s.thallus.ctxs ∧ t.mem = s.mem) ∧
    (4 ≤ bits e 31 28 → s.ctxState (bits e 31 28) = 2 → (s.uctx (bits e 31 28)).queue.length < 256 →
      s.waiter (bits e 31 28) = none → ∃ t, exec (.mailboxPop d) s = .next t ∧ (t.box d).ring = rest ∧
        (t.uctx (bits e 31 28)).queue = (s.uctx (bits e 31 28)).queue ++ [e] ∧ t.mem = s.mem ∧ t.dict = s.dict)) ∧
  (∀ (d : Nat) (s : State), (s.box d).ring = [] → exec (.mailboxPop d) s = .next s)

/-- MAP and UNMAP: a grant of whole pages at a page address apart from the others is mapped, one over what the stream reads is
not permitted, and else the call answers −2; a mapping at its address is removed (R232, R234, R239). The remaining calls: a
slot that passes Table 9.11 stands in the alternate slot and is pending, one that fails answers −5 with the check; SLOT_STATUS
answers the state of a submission; LOG writes telemetry; YIELD and the end of a quantum give the core to the next context;
EXIT and an exception stop the context and, where it is critical, raise CONTEXT_FAULT (R231, R233, R234, R237, R238). -/
def Obligations.ContextsMapSubmitAndEnd : Prop :=
  (∀ (core c : Nat) (s : State), CallsFrom s core c →
     (∀ grant va, (s.uctx c).grants[grant]? = none → exec (.map core grant va) s = .next (s.answerCall c core (-2))) ∧
     (∀ grant va g, (s.uctx c).grants[grant]? = some g → va % 4096 = 0 → g.1 % 4096 = 0 → g.2.1 % 4096 = 0 → g.2.1 ≠ 0 →
       (∀ m ∈ (s.uctx c).maps, ∀ h, (s.uctx c).grants[m.2]? = some h → overlaps m.1 h.2.1 va g.2.1 = false) →
       (∀ a, s.grantLocal g.1 = some a → s.streamPage a g.2.1 = false) →
       ∃ t, exec (.map core grant va) s = .next t ∧ (t.uctx c).maps = (s.uctx c).maps ++ [(va, grant)] ∧
         (t.thread c core).a0 = 0 ∧ t.mem = s.mem ∧ t.dict = s.dict) ∧
     (∀ grant va g a, (s.uctx c).grants[grant]? = some g → s.grantLocal g.1 = some a → s.streamPage a g.2.1 = true →
       exec (.map core grant va) s = .next (s.answerCall c core (-1))) ∧
     (∀ grant va g, (s.uctx c).grants[grant]? = some g → va % 4096 ≠ 0 →
       (∀ a, s.grantLocal g.1 = some a → s.streamPage a g.2.1 = false) → exec (.map core grant va) s = .next (s.answerCall c core (-2))) ∧
     (∀ va, (∃ m ∈ (s.uctx c).maps, m.1 = va) →
       ∃ t, exec (.unmap core va) s = .next t ∧ (t.uctx c).maps = ((s.uctx c).maps.filter fun m => m.1 != va) ∧
         (t.thread c core).a0 = 0 ∧ t.mem = s.mem ∧ t.dict = s.dict) ∧
     (∀ va, (∀ m ∈ (s.uctx c).maps, m.1 ≠ va) → exec (.unmap core va) s = .next (s.answerCall c core (-2)))) ∧
  ((∀ (core c table buffer count span : Nat) (s : State), CallsFrom s core c → s.program.kind ≠ 0 →
     s.slotPending table = false → s.mappingAt c buffer = none → count ≤ 4096 →
     (∀ code, s.slotCheck c table count span ((List.range count).map fun j =>
         leNat ((((s.uctx c).priv.readN buffer (64 * count)).drop (64 * j)).take 64)) = some code →
       ∃ t, exec (.slotSubmit core table buffer count span) s = .next t ∧ (t.thread c core).a0 = BitVec.ofInt 64 (-5) ∧
         (t.thread c core).a1 = BitVec.ofNat 64 code ∧ t.dict = (s.count 0x606A (c + 1) 1).dict ∧ t.mem = s.mem) ∧
     (s.slotCheck c table count span ((List.range count).map fun j =>
         leNat ((((s.uctx c).priv.readN buffer (64 * count)).drop (64 * j)).take 64)) = none →
       populated (s.alternateBase table) (64 * count) = true →
       ∃ t, exec (.slotSubmit core table buffer count span) s = .next t ∧ (t.thread c core).a0 = 0 ∧
         t.hbmRead (s.alternateBase table) (64 * count) = (s.uctx c).priv.readN buffer (64 * count) ∧
         (table, buffer, count, span, 1) ∈ (t.uctx c).slots)) ∧
   (∀ (core c : Nat) (s : State), CallsFrom s core c →
     (∀ table, exec (.slotStatus core table) s = .next (s.answerCall c core
       (((((s.uctx c).slots.find? fun x => x.1 == table).map fun x => x.2.2.2.2).getD 0 : Nat) : Int))) ∧
     (∀ buffer length, length ≤ 256 → s.mappingAt c buffer = none → ∃ t, exec (.log core buffer length) s = .next t ∧
       t.thallus.telemetry = [2, s.clock.frame, s.clock.cycle, c, length, leNat ((s.uctx c).priv.readN buffer length)] ::
         s.thallus.telemetry ∧ (t.thread c core).a0 = 0 ∧ t.mem = s.mem ∧ t.dict = s.dict) ∧
     (∀ buffer length, 256 < length → exec (.log core buffer length) s = .next (s.answerCall c core (-2))) ∧
     (∃ t, exec (.yield core) s = .next t ∧ (t.core core).tctx = s.nextContext core c ∧ (t.core core).quantum = 0 ∧
       (t.thread c core).a0 = 0 ∧ t.mem = s.mem ∧ t.dict = s.dict) ∧
     (∃ t, exec (.quantumExpiry core) s = .next t ∧ (t.core core).tctx = s.nextContext core c ∧ (t.core core).quantum = 0 ∧
       t.thallus.ctxs = s.thallus.ctxs ∧ t.mem = s.mem ∧ t.dict = s.dict) ∧
     (∀ code, ∃ t, exec (.exit core code) s = .next t ∧ t.ctxState c = 3 ∧ t.mem = s.mem ∧
       (s.ctxObject 0x6061 c ≠ 1 → t.faults = s.faults) ∧
       (s.ctxObject 0x6061 c = 1 → ∃ r, t.faults.inFlight = s.faults.inFlight ++ [r] ∧ r.2.code = 0x308 ∧ r.2.ctx = c)) ∧
     (∀ pc cause : BitVec 64, ∃ t, exec (.userContextException core pc cause) s = .next t ∧ t.ctxState c = 4 ∧ t.mem = s.mem ∧
       (s.ctxObject 0x6061 c ≠ 1 → t.faults = s.faults) ∧
       (s.ctxObject 0x6061 c = 1 → ∃ r, t.faults.inFlight = s.faults.inFlight ++ [r] ∧ r.2.code = 0x308 ∧
         bits r.2.detail 68 5 = pc.toNat ∧ bits r.2.detail 132 69 = cause.toNat))))

/-! ### Power, temperature and JTAG -/

/-- A power sample is reported by its rails and joins the mean of 100; a mean that passes 3,800 W raises OVERCURRENT with rail
17. Ten samples over the cap stretch the frame to a full eighth, once counted (R369, R381). A power-off leaves HBM and the
operand stores without contents and the module without power: the input below 52 V or above 68 V turns every rail off; inside
the limits nothing changes (R421, R428). -/
def Obligations.PowerIsSampledAndLimited : Prop :=
  ((∀ (mv ma : Nat) (s : State), s.power.on = true →
     ∃ t, exec (.powerSample mv ma []) s = .next t ∧ t.power.samples = (mv * ma / 1000 :: s.power.samples).take 100 ∧
       t.get 0x2002 2 = mv % 65536 ∧ t.mem = s.mem ∧ t.clock = s.clock ∧ t.power.frameSamples = s.power.frameSamples + 1 ∧
       (3800000 < meanPower t.power.samples → meanPower s.power.samples ≤ 3800000 →
         ∃ r, t.faults.inFlight = s.faults.inFlight ++ [r] ∧ r.2.code = 0x401 ∧ r.2.source = 0xB2 ∧ bits r.2.detail 7 0 = 17) ∧
       (meanPower t.power.samples ≤ 3800000 ∨ 3800000 < meanPower s.power.samples → t.faults = s.faults)) ∧
   (∀ s : State,
     (s.limiterDue = true → ∃ t, exec .inputLimiter s = .next t ∧ t.clock = { s.clock with stretch := s.flen / 8 } ∧
       t.power = { s.power with limiter := s.flen / 8 } ∧ t.get 0x2003 4 = (s.count 0x2003 4 1).get 0x2003 4 ∧ t.mem = s.mem) ∧
     (s.limiterDue = false → exec .inputLimiter s = .next s)) ∧
   (∀ s : State, s.limiterDue = true ↔ 10 ≤ s.power.overCap ∧ s.clock.stretch < s.flen / 8) ∧
   (∀ (mv ma : Nat) (rails : List (Nat × Nat)) (s : State), s.power.on = false → exec (.powerSample mv ma rails) s = .next s)) ∧
  ((∀ (mv : Nat) (s : State), s.power.on = true →
     (mv < 52000 → ∃ t, exec (.inputUndervoltage mv) s = .next t ∧ t.power.on = false ∧ t.power.latched = true ∧ t.mem.hbm = {} ∧
       t.mem.ops = [{}, {}, {}] ∧ t.units = [] ∧ t.faults.log = [] ∧ t.faults.shutdown = s.faults.shutdown ∧
       t.mem.repaired = s.mem.repaired) ∧
     (52000 ≤ mv → exec (.inputUndervoltage mv) s = .next s) ∧
     (68000 < mv → ∃ t, exec (.inputOvervoltage mv) s = .next t ∧ t.power.on = false ∧ t.power.latched = true ∧ t.mem.hbm = {} ∧
       t.mem.ops = [{}, {}, {}] ∧ t.units = [] ∧ t.faults.log = [] ∧ t.faults.shutdown = s.faults.shutdown ∧
       t.mem.repaired = s.mem.repaired) ∧
     (mv ≤ 68000 → exec (.inputOvervoltage mv) s = .next s) ∧
     (mv < 56000 ∨ 64000 < mv → exec (.inputRange mv) s = .next (s.raise 0x405 0xB2 1 0 (packFields [(8, 0), (24, mv)]))) ∧
     (56000 ≤ mv → mv ≤ 64000 → exec (.inputRange mv) s = .next s)) ∧
   (∀ (mv : Nat) (s : State), s.power.on = false → exec (.inputUndervoltage mv) s = .next s ∧
     exec (.inputOvervoltage mv) s = .next s ∧ exec (.inputRange mv) s = .next s))

/-- The faults of the rails: a regulator over its current turns its own rail off; a regulator fault is reported; a droop
halves the clock of its rail, is counted once, and ends 64 cycles after the voltage has recovered (R368, R382). A sensor's
temperature is reported; a junction that reaches 105 °C or a stack that reaches 100 °C raises the thermal limit once, and 115
°C a shutdown. Recalibration counts every ratio outside 0.8 to 1.25; a clock with a margin under 3 % loses a step (R371, R373,
R383). -/
def Obligations.RailsTemperatureAndAgeing : Prop :=
  ((∀ (rail measured : Nat) (s : State), s.power.on = true →
     (rail < 17 → ∃ t r, exec (.overcurrent rail measured) s = .next t ∧ rail ∈ t.power.railsOff ∧
       t.faults.inFlight = s.faults.inFlight ++ [r] ∧ r.2.code = 0x401 ∧ r.2.source = 0xB0 ∧ bits r.2.detail 7 0 = rail ∧
       t.mem = s.mem) ∧
     (rail = 17 → exec (.overcurrent rail measured) s =
       .next (s.raise 0x401 0xB2 1 0 (packFields [(8, 17), (24, measured)]))) ∧
     exec (.regulatorFault rail measured) s =
       .next (s.raise 0x402 0xB0 (railDie rail) 0 (packFields [(8, rail), (24, measured)])) ∧
     (s.power.drooping.contains rail = false → ∃ t, exec (.droop rail) s = .next t ∧ rail ∈ t.power.drooping ∧
       t.halfRate rail = true ∧ t.dict = (s.count 0x2020 (rail + 1) 1).dict ∧ t.mem = s.mem ∧ t.clock = s.clock) ∧
     (s.power.drooping.contains rail = true → exec (.droop rail) s = .next s)) ∧
   (∀ (rail : Nat) (s : State),
     (s.power.drooping.contains rail = true → exec (.droopRecovery rail) s = .next { s with power := { s.power with
       drooping := s.power.drooping.filter fun x => x != rail, recovering := s.power.recovering ++ [(rail, 64)] } }) ∧
     (s.power.drooping.contains rail = false → exec (.droopRecovery rail) s = .next s))) ∧
  ((∀ (n : Nat) (x : Int) (s : State), s.power.on = true → n < 24 →
     (x < 1680 → ∃ t, exec (.thermalSample n x) s = .next t ∧ t = s.put 0x2030 (n + 1) (twos 16 x)) ∧
     (1680 ≤ x → x < 1840 → signed 16 (s.get 0x2030 (n + 1)) < 1680 →
       ∃ t r, exec (.thermalSample n x) s = .next t ∧ t.faults.inFlight = s.faults.inFlight ++ [r] ∧ r.2.code = 0x403 ∧
         r.2.die = n / 8 ∧ t.dict = (s.put 0x2030 (n + 1) (twos 16 x)).dict) ∧
     (1840 ≤ x → 1680 ≤ signed 16 (s.get 0x2030 (n + 1)) → signed 16 (s.get 0x2030 (n + 1)) < 1840 →
       s.faults.replay = none → ∃ t r, exec (.thermalSample n x) s = .next t ∧
         t.faults.inFlight = s.faults.inFlight ++ [r] ∧ r.2.code = 0x404)) ∧
   (∀ (n : Nat) (x : Int) (s : State), s.power.on = true → 24 ≤ n → n < 36 → 1600 ≤ x →
     signed 16 (s.get 0x2030 (n + 1)) < 1600 → ∃ t r, exec (.thermalSample n x) s = .next t ∧
       t.faults.inFlight = s.faults.inFlight ++ [r] ∧ r.2.code = 0x403 ∧ t.get 0x4050 (n - 23) = 2 ∧ t.mem = s.mem) ∧
   (∀ (m : Nat) (s : State), ∃ t, exec (.coefficientRecalibration [m]) s = .next t ∧
     t.dict = ((s.count 0x2051 0x12 1).countIf (decide (m < 800 ∨ 1250 < m)) 0x2051 0x13).dict ∧
     kget (1, 1) t.power.gains 0 = ((kget (1, 1) s.power.gains 0).1 * max 500 (min 2000 m), (kget (1, 1) s.power.gains 0).2 * 1000) ∧
     t.mem = s.mem ∧ t.clock = s.clock) ∧
   (∀ (m : Nat) (s : State), m < 300 → s.running = false → 1250 < s.agedMaximum (objKey 0x2005 4) →
     ∃ t, exec (.ageingCheck [m]) s = .next t ∧ t.get 0x2007 1 = m ∧ t.get 0x2005 4 = s.agedMaximum (objKey 0x2005 4) - 25 ∧
       t.mem = s.mem) ∧
   (∀ (m : Nat) (s : State), 300 ≤ m → exec (.ageingCheck [m]) s = .next (s.put 0x2007 1 (m % 65535))))

/-- Each die takes its JTAG instruction alone: IDCODE shifts the die's identity, BYPASS a 0, SAMPLE/PRELOAD loads the boundary
register of die C; EXTEST, CLAMP and HIGHZ act as BYPASS while a program runs (R427). -/
def Obligations.JtagInstructions : Prop :=
  ∀ (die : Nat) (s : State), die < 3 → s.security.jtag.length = 3 → s.security.shift.length = 3 →
    (∀ (c : Instr) (op data : Nat), (c, op, data) ∈ [(.idcode die, 1, 0xB0E60C51 + 0x1000 * die), (.bypass die, 0xFF, 0)] →
      ∃ t, exec c s = .next t ∧ t.security.jtag[die]? = some op ∧ t.security.shift[die]? = some data ∧
        (∀ k, k ≠ die → t.security.jtag[k]? = s.security.jtag[k]? ∧ t.security.shift[k]? = s.security.shift[k]?) ∧
        t = { s with security := { s.security with jtag := t.security.jtag, shift := t.security.shift } }) ∧
    (∀ (c : Instr) (op data : Nat), (c, op, data) ∈ [(.extest die, 0, if die = 1 then s.security.boundary.toNat else 0),
        (.clamp die, 5, 0), (.highz die, 6, 0)] →
      ∃ t, exec c s = .next t ∧ (s.moduleState ≠ 3 → t.security.jtag[die]? = some op ∧ t.security.shift[die]? = some data) ∧
        (s.moduleState = 3 → exec c s = exec (.bypass die) s) ∧ t.security.boundary = s.security.boundary ∧ t.mem = s.mem) ∧
    (∀ data : BitVec 32, ∃ t, exec (.samplePreload die data) s = .next t ∧ t.security.jtag[die]? = some 2 ∧
      t.security.boundary = (if die = 1 then data else s.security.boundary) ∧ t.mem = s.mem ∧ t.dict = s.dict)
end

