-- ==== Sys2Proof/Laws/Bits.lean ====
section
/-! SUPPORT. Numbers as bytes, and the bytes of a flit: what is written little-endian reads back, and a flit that carries the CRC
of its 252 bytes is whole. -/

namespace Sys2Proof.Machine

@[simp] theorem leBytes_length (n v : Nat) : (leBytes n v).length = n := by
  induction n generalizing v with
  | zero => rfl
  | succ n ih => simp [leBytes, ih]

theorem leNat_leBytes (n v : Nat) : leNat (leBytes n v) = v % 2 ^ (8 * n) := by
  induction n generalizing v with
  | zero => simp [leBytes, leNat, Nat.mod_one]
  | succ n ih =>
    simp only [leBytes, leNat, ih, BitVec.toNat_ofNat]
    rw [show 8 * (n + 1) = 8 + 8 * n by ring, pow_add, Nat.mod_mul]
    norm_num

theorem leNat_lt (l : List Byte) : leNat l < 2 ^ (8 * l.length) := by
  induction l with
  | nil => simp [leNat]
  | cons b t ih =>
    have hb := b.isLt
    simp only [leNat, List.length_cons, show 8 * (t.length + 1) = 8 + 8 * t.length by ring, pow_add]
    omega

theorem leBytes_leNat (l : List Byte) : leBytes l.length (leNat l) = l := by
  induction l with
  | nil => rfl
  | cons b t ih =>
    have hb := b.isLt
    have h1 : (b.toNat + 256 * leNat t) / 256 = leNat t := by omega
    have h2 : BitVec.ofNat 8 (b.toNat + 256 * leNat t) = b := by
      apply BitVec.eq_of_toNat_eq
      simp only [BitVec.toNat_ofNat]
      omega
    simp only [List.length_cons, leNat, leBytes, h1, h2, ih]

/-- 252 bytes whose SEQ and ACK are zero, followed by their CRC, are a whole flit. -/
theorem flitIntact_append {b : List Byte} (hl : b.length = 252)
    (hz : leBytes 16 (bits (leNat (b.take 16)) 47 0 + 2 ^ 72 * bits (leNat (b.take 16)) 127 72) ++ b.drop 16 = b) :
    flitIntact (b ++ leBytes 4 (crc32c b).toNat) = true := by
  have h16 : (b ++ leBytes 4 (crc32c b).toNat).take 16 = b.take 16 := List.take_append_of_le_length (by omega)
  have hd : (b ++ leBytes 4 (crc32c b).toNat).drop 252 = leBytes 4 (crc32c b).toNat := by
    rw [← hl]; exact List.drop_left
  have hm : ((b ++ leBytes 4 (crc32c b).toNat).drop 16).take 236 = b.drop 16 := by
    rw [List.drop_append_of_le_length (by omega), List.take_append_of_le_length (by simp [hl]),
      List.take_of_length_le (by simp [hl])]
  have hc : (crc32c b).toNat % 2 ^ (8 * 4) = (crc32c b).toNat := Nat.mod_eq_of_lt (crc32c b).isLt
  simp only [flitIntact, h16, hd, hm, hz, leNat_leBytes, hc]
  simp [hl]

end Sys2Proof.Machine
end

