-- ==== Sys2Proof/Laws/KMap.lean ====
section
/-! SUPPORT. Sparse tables: the canonical form is kept by every update, and what a read gives back after one. -/

namespace Sys2Proof.Machine

/-! ### Keys strictly rising -/

theorem krising_tail {α : Type} {p : Nat × α} {m : KMap α} (h : krising (p :: m) = true) : krising m = true := by
  cases m with
  | nil => rfl
  | cons q t => simp only [krising, Bool.and_eq_true] at h; exact h.2

theorem krising_lt {α : Type} {p : Nat × α} {m : KMap α} (h : krising (p :: m) = true) : ∀ q ∈ m, p.1 < q.1 := by
  induction m generalizing p with
  | nil => simp
  | cons r t ih =>
    simp only [krising, Bool.and_eq_true, decide_eq_true_eq] at h
    rintro q (_ | ⟨_, hq⟩)
    · exact h.1
    · exact h.1.trans (ih h.2 q hq)

theorem krising_cons {α : Type} {p : Nat × α} {m : KMap α} (hm : krising m = true) (h : ∀ q ∈ m, p.1 < q.1) :
    krising (p :: m) = true := by
  cases m with
  | nil => rfl
  | cons q t => simp only [krising, Bool.and_eq_true, decide_eq_true_eq]; exact ⟨h q (by simp), hm⟩

theorem krising_filter {α : Type} (f : Nat × α → Bool) {m : KMap α} (h : krising m = true) :
    krising (m.filter f) = true := by
  induction m with
  | nil => rfl
  | cons p t ih =>
    rw [List.filter_cons]
    split
    · exact krising_cons (ih (krising_tail h)) fun q hq => krising_lt h q (List.mem_of_mem_filter hq)
    · exact ih (krising_tail h)

theorem mem_kput {α : Type} {i : Nat} {v : α} {m : KMap α} {q : Nat × α} (h : q ∈ kput i v m) : q = (i, v) ∨ q ∈ m := by
  induction m with
  | nil => exact .inl (by simpa [kput] using h)
  | cons p t ih =>
    simp only [kput] at h
    split at h
    · rcases List.mem_cons.1 h with h | h
      · exact .inl h
      · exact .inr h
    · split at h
      · rcases List.mem_cons.1 h with h | h
        · exact .inl h
        · exact .inr (List.mem_cons_of_mem _ h)
      · rcases List.mem_cons.1 h with h | h
        · exact .inr (h ▸ List.mem_cons_self)
        · exact (ih h).imp id (List.mem_cons_of_mem _)

theorem krising_kput {α : Type} (i : Nat) (v : α) {m : KMap α} (h : krising m = true) : krising (kput i v m) = true := by
  induction m with
  | nil => rfl
  | cons p t ih =>
    have ht := krising_tail h
    have hlt := krising_lt h
    simp only [kput]
    split
    · rename_i hi
      refine krising_cons h fun q hq => ?_
      rcases List.mem_cons.1 hq with rfl | hq
      · exact hi
      · exact hi.trans (hlt q hq)
    · split
      · rename_i he
        exact krising_cons ht fun q hq => he ▸ hlt q hq
      · refine krising_cons (ih ht) fun q hq => ?_
        rcases mem_kput hq with rfl | hq
        · simp only; omega
        · exact hlt q hq

theorem krising_kset {α : Type} [DecidableEq α] (d : α) {m : KMap α} (i : Nat) (v : α) (h : krising m = true) :
    krising (kset d m i v) = true := by
  unfold kset
  split
  · exact krising_filter _ h
  · exact krising_kput i v h

theorem kset_wf {α : Type} [DecidableEq α] {d : α} {m : KMap α} (i : Nat) (v : α) (h : kwf d m = true) :
    kwf d (kset d m i v) = true := by
  simp only [kwf, Bool.and_eq_true, List.all_eq_true, decide_eq_true_eq] at h ⊢
  refine ⟨krising_kset d i v h.1, fun q hq => ?_⟩
  unfold kset at hq
  split at hq
  · exact h.2 q (List.mem_of_mem_filter hq)
  · rcases mem_kput hq with rfl | hq
    · assumption
    · exact h.2 q hq

/-! ### Reading -/

theorem kget_absent {α : Type} (d : α) {m : KMap α} {i : Nat} (h : ∀ q ∈ m, q.1 ≠ i) : kget d m i = d := by
  induction m with
  | nil => rfl
  | cons p t ih =>
    have hp := h p (by simp)
    simp only [kget, if_neg hp]
    exact ih fun q hq => h q (List.mem_cons_of_mem _ hq)

theorem kget_kput_same {α : Type} (d : α) (m : KMap α) (i : Nat) (v : α) : kget d (kput i v m) i = v := by
  induction m with
  | nil => simp [kput, kget]
  | cons p t ih =>
    simp only [kput]
    split
    · simp [kget]
    · split
      · simp [kget]
      · rename_i h1 h2
        rw [kget, if_neg (Ne.symm h2), ih]

theorem kget_kput_other {α : Type} (d : α) (m : KMap α) {i j : Nat} (v : α) (h : j ≠ i) :
    kget d (kput i v m) j = kget d m j := by
  induction m with
  | nil => simp [kput, kget, h.symm]
  | cons p t ih =>
    simp only [kput]
    split
    · simp [kget, h.symm]
    · split
      · rename_i he; subst he; simp [kget, h.symm]
      · simp only [kget, ih]

theorem kget_kdel_same {α : Type} (d : α) (m : KMap α) (i : Nat) : kget d (kdel i m) i = d :=
  kget_absent d fun q hq => by simpa using (List.mem_filter.1 hq).2

theorem kget_kdel_other {α : Type} (d : α) (m : KMap α) {i j : Nat} (h : j ≠ i) : kget d (kdel i m) j = kget d m j := by
  unfold kdel
  induction m with
  | nil => rfl
  | cons p t ih =>
    rw [List.filter_cons]
    split
    · simp only [kget, ih]
    · rename_i hp
      have : p.1 = i := by simpa using hp
      simp only [kget, this, if_neg h.symm, ih]

theorem kget_kset_same {α : Type} [DecidableEq α] (d : α) (m : KMap α) (i : Nat) (v : α) : kget d (kset d m i v) i = v := by
  unfold kset
  split
  · rename_i h; rw [h, kget_kdel_same]
  · exact kget_kput_same d m i v

theorem kget_kset_other {α : Type} [DecidableEq α] (d : α) (m : KMap α) {i j : Nat} (v : α) (h : j ≠ i) :
    kget d (kset d m i v) j = kget d m j := by
  unfold kset
  split
  · exact kget_kdel_other d m h
  · exact kget_kput_other d m v h

/-- A write at one key leaves the others, whatever default each key has. -/
theorem kget_kset_other_at {α : Type} [DecidableEq α] (e d : α) (m : KMap α) {i j : Nat} (v : α) (h : j ≠ i) :
    kget e (kset d m i v) j = kget e m j := by
  unfold kset
  split
  · exact kget_kdel_other e m h
  · exact kget_kput_other e m v h

end Sys2Proof.Machine
end

