-- ==== Sys2Proof/Laws/State.lean ====
section
/-! SUPPORT. What the primitive updates of the state leave as it was, field by field and read by read, and what a read
gives back of what an update stored. -/

namespace Sys2Proof.Machine


/-! ### State.put -/

section
variable (s : State) (index sub v : Nat)

@[simp] theorem State.put_clock : (s.put index sub v).clock = s.clock := rfl
@[simp] theorem State.put_units : (s.put index sub v).units = s.units := rfl
@[simp] theorem State.put_arrays : (s.put index sub v).arrays = s.arrays := rfl
@[simp] theorem State.put_sorus : (s.put index sub v).sorus = s.sorus := rfl
@[simp] theorem State.put_filigrees : (s.put index sub v).filigrees = s.filigrees := rfl
@[simp] theorem State.put_program : (s.put index sub v).program = s.program := rfl
@[simp] theorem State.put_faults : (s.put index sub v).faults = s.faults := rfl
@[simp] theorem State.put_mem : (s.put index sub v).mem = s.mem := rfl
@[simp] theorem State.put_traffic : (s.put index sub v).traffic = s.traffic := rfl
@[simp] theorem State.put_fabric : (s.put index sub v).fabric = s.fabric := rfl
@[simp] theorem State.put_commit : (s.put index sub v).commit = s.commit := rfl
@[simp] theorem State.put_locket : (s.put index sub v).locket = s.locket := rfl
@[simp] theorem State.put_thallus : (s.put index sub v).thallus = s.thallus := rfl
@[simp] theorem State.put_power : (s.put index sub v).power = s.power := rfl
@[simp] theorem State.put_server : (s.put index sub v).server = s.server := rfl
@[simp] theorem State.put_security : (s.put index sub v).security = s.security := rfl
@[simp] theorem State.put_domains : (s.put index sub v).domains = s.domains := rfl
@[simp] theorem State.put_freeCount : (s.put index sub v).freeCount = s.freeCount := rfl
@[simp] theorem State.put_pending : (s.put index sub v).pending = s.pending := rfl
@[simp] theorem State.put_unit (a : Nat) : (s.put index sub v).unit a = s.unit a := rfl
@[simp] theorem State.put_array (a : Nat) : (s.put index sub v).array a = s.array a := rfl
@[simp] theorem State.put_engine (a : Nat) : (s.put index sub v).engine a = s.engine a := rfl
@[simp] theorem State.put_filigree (a : Nat) : (s.put index sub v).filigree a = s.filigree a := rfl
@[simp] theorem State.put_port (a : Nat) : (s.put index sub v).port a = s.port a := rfl
@[simp] theorem State.put_core (a : Nat) : (s.put index sub v).core a = s.core a := rfl
@[simp] theorem State.put_box (a : Nat) : (s.put index sub v).box a = s.box a := rfl
@[simp] theorem State.put_uctx (a : Nat) : (s.put index sub v).uctx a = s.uctx a := rfl
@[simp] theorem State.put_hbmRead (a b : Nat) : (s.put index sub v).hbmRead a b = s.hbmRead a b := rfl
@[simp] theorem State.put_opRead (a b c : Nat) : (s.put index sub v).opRead a b c = s.opRead a b c := rfl

end

/-! ### State.count -/

section
variable (s : State) (index sub n : Nat)

@[simp] theorem State.count_clock : (s.count index sub n).clock = s.clock := rfl
@[simp] theorem State.count_units : (s.count index sub n).units = s.units := rfl
@[simp] theorem State.count_arrays : (s.count index sub n).arrays = s.arrays := rfl
@[simp] theorem State.count_sorus : (s.count index sub n).sorus = s.sorus := rfl
@[simp] theorem State.count_filigrees : (s.count index sub n).filigrees = s.filigrees := rfl
@[simp] theorem State.count_program : (s.count index sub n).program = s.program := rfl
@[simp] theorem State.count_faults : (s.count index sub n).faults = s.faults := rfl
@[simp] theorem State.count_mem : (s.count index sub n).mem = s.mem := rfl
@[simp] theorem State.count_traffic : (s.count index sub n).traffic = s.traffic := rfl
@[simp] theorem State.count_fabric : (s.count index sub n).fabric = s.fabric := rfl
@[simp] theorem State.count_commit : (s.count index sub n).commit = s.commit := rfl
@[simp] theorem State.count_locket : (s.count index sub n).locket = s.locket := rfl
@[simp] theorem State.count_thallus : (s.count index sub n).thallus = s.thallus := rfl
@[simp] theorem State.count_power : (s.count index sub n).power = s.power := rfl
@[simp] theorem State.count_server : (s.count index sub n).server = s.server := rfl
@[simp] theorem State.count_security : (s.count index sub n).security = s.security := rfl
@[simp] theorem State.count_domains : (s.count index sub n).domains = s.domains := rfl
@[simp] theorem State.count_freeCount : (s.count index sub n).freeCount = s.freeCount := rfl
@[simp] theorem State.count_pending : (s.count index sub n).pending = s.pending := rfl
@[simp] theorem State.count_unit (a : Nat) : (s.count index sub n).unit a = s.unit a := rfl
@[simp] theorem State.count_array (a : Nat) : (s.count index sub n).array a = s.array a := rfl
@[simp] theorem State.count_engine (a : Nat) : (s.count index sub n).engine a = s.engine a := rfl
@[simp] theorem State.count_filigree (a : Nat) : (s.count index sub n).filigree a = s.filigree a := rfl
@[simp] theorem State.count_port (a : Nat) : (s.count index sub n).port a = s.port a := rfl
@[simp] theorem State.count_core (a : Nat) : (s.count index sub n).core a = s.core a := rfl
@[simp] theorem State.count_box (a : Nat) : (s.count index sub n).box a = s.box a := rfl
@[simp] theorem State.count_uctx (a : Nat) : (s.count index sub n).uctx a = s.uctx a := rfl
@[simp] theorem State.count_hbmRead (a b : Nat) : (s.count index sub n).hbmRead a b = s.hbmRead a b := rfl
@[simp] theorem State.count_opRead (a b c : Nat) : (s.count index sub n).opRead a b c = s.opRead a b c := rfl

end

/-! ### State.setUnit -/

section
variable (s : State) (u : Nat) (x : UnitState)

@[simp] theorem State.setUnit_clock : (s.setUnit u x).clock = s.clock := rfl
@[simp] theorem State.setUnit_dict : (s.setUnit u x).dict = s.dict := rfl
@[simp] theorem State.setUnit_arrays : (s.setUnit u x).arrays = s.arrays := rfl
@[simp] theorem State.setUnit_sorus : (s.setUnit u x).sorus = s.sorus := rfl
@[simp] theorem State.setUnit_filigrees : (s.setUnit u x).filigrees = s.filigrees := rfl
@[simp] theorem State.setUnit_program : (s.setUnit u x).program = s.program := rfl
@[simp] theorem State.setUnit_faults : (s.setUnit u x).faults = s.faults := rfl
@[simp] theorem State.setUnit_mem : (s.setUnit u x).mem = s.mem := rfl
@[simp] theorem State.setUnit_traffic : (s.setUnit u x).traffic = s.traffic := rfl
@[simp] theorem State.setUnit_fabric : (s.setUnit u x).fabric = s.fabric := rfl
@[simp] theorem State.setUnit_commit : (s.setUnit u x).commit = s.commit := rfl
@[simp] theorem State.setUnit_locket : (s.setUnit u x).locket = s.locket := rfl
@[simp] theorem State.setUnit_thallus : (s.setUnit u x).thallus = s.thallus := rfl
@[simp] theorem State.setUnit_power : (s.setUnit u x).power = s.power := rfl
@[simp] theorem State.setUnit_server : (s.setUnit u x).server = s.server := rfl
@[simp] theorem State.setUnit_security : (s.setUnit u x).security = s.security := rfl
@[simp] theorem State.setUnit_domains : (s.setUnit u x).domains = s.domains := rfl
@[simp] theorem State.setUnit_freeCount : (s.setUnit u x).freeCount = s.freeCount := rfl
@[simp] theorem State.setUnit_pending : (s.setUnit u x).pending = s.pending := rfl
@[simp] theorem State.setUnit_get (a b : Nat) : (s.setUnit u x).get a b = s.get a b := rfl
@[simp] theorem State.setUnit_array (a : Nat) : (s.setUnit u x).array a = s.array a := rfl
@[simp] theorem State.setUnit_engine (a : Nat) : (s.setUnit u x).engine a = s.engine a := rfl
@[simp] theorem State.setUnit_filigree (a : Nat) : (s.setUnit u x).filigree a = s.filigree a := rfl
@[simp] theorem State.setUnit_port (a : Nat) : (s.setUnit u x).port a = s.port a := rfl
@[simp] theorem State.setUnit_core (a : Nat) : (s.setUnit u x).core a = s.core a := rfl
@[simp] theorem State.setUnit_box (a : Nat) : (s.setUnit u x).box a = s.box a := rfl
@[simp] theorem State.setUnit_uctx (a : Nat) : (s.setUnit u x).uctx a = s.uctx a := rfl
@[simp] theorem State.setUnit_hbmRead (a b : Nat) : (s.setUnit u x).hbmRead a b = s.hbmRead a b := rfl
@[simp] theorem State.setUnit_opRead (a b c : Nat) : (s.setUnit u x).opRead a b c = s.opRead a b c := rfl

end

/-! ### State.onUnit -/

section
variable (s : State) (u : Nat) (f : UnitState → UnitState)

@[simp] theorem State.onUnit_clock : (s.onUnit u f).clock = s.clock := rfl
@[simp] theorem State.onUnit_dict : (s.onUnit u f).dict = s.dict := rfl
@[simp] theorem State.onUnit_arrays : (s.onUnit u f).arrays = s.arrays := rfl
@[simp] theorem State.onUnit_sorus : (s.onUnit u f).sorus = s.sorus := rfl
@[simp] theorem State.onUnit_filigrees : (s.onUnit u f).filigrees = s.filigrees := rfl
@[simp] theorem State.onUnit_program : (s.onUnit u f).program = s.program := rfl
@[simp] theorem State.onUnit_faults : (s.onUnit u f).faults = s.faults := rfl
@[simp] theorem State.onUnit_mem : (s.onUnit u f).mem = s.mem := rfl
@[simp] theorem State.onUnit_traffic : (s.onUnit u f).traffic = s.traffic := rfl
@[simp] theorem State.onUnit_fabric : (s.onUnit u f).fabric = s.fabric := rfl
@[simp] theorem State.onUnit_commit : (s.onUnit u f).commit = s.commit := rfl
@[simp] theorem State.onUnit_locket : (s.onUnit u f).locket = s.locket := rfl
@[simp] theorem State.onUnit_thallus : (s.onUnit u f).thallus = s.thallus := rfl
@[simp] theorem State.onUnit_power : (s.onUnit u f).power = s.power := rfl
@[simp] theorem State.onUnit_server : (s.onUnit u f).server = s.server := rfl
@[simp] theorem State.onUnit_security : (s.onUnit u f).security = s.security := rfl
@[simp] theorem State.onUnit_domains : (s.onUnit u f).domains = s.domains := rfl
@[simp] theorem State.onUnit_freeCount : (s.onUnit u f).freeCount = s.freeCount := rfl
@[simp] theorem State.onUnit_pending : (s.onUnit u f).pending = s.pending := rfl
@[simp] theorem State.onUnit_get (a b : Nat) : (s.onUnit u f).get a b = s.get a b := rfl
@[simp] theorem State.onUnit_array (a : Nat) : (s.onUnit u f).array a = s.array a := rfl
@[simp] theorem State.onUnit_engine (a : Nat) : (s.onUnit u f).engine a = s.engine a := rfl
@[simp] theorem State.onUnit_filigree (a : Nat) : (s.onUnit u f).filigree a = s.filigree a := rfl
@[simp] theorem State.onUnit_port (a : Nat) : (s.onUnit u f).port a = s.port a := rfl
@[simp] theorem State.onUnit_core (a : Nat) : (s.onUnit u f).core a = s.core a := rfl
@[simp] theorem State.onUnit_box (a : Nat) : (s.onUnit u f).box a = s.box a := rfl
@[simp] theorem State.onUnit_uctx (a : Nat) : (s.onUnit u f).uctx a = s.uctx a := rfl
@[simp] theorem State.onUnit_hbmRead (a b : Nat) : (s.onUnit u f).hbmRead a b = s.hbmRead a b := rfl
@[simp] theorem State.onUnit_opRead (a b c : Nat) : (s.onUnit u f).opRead a b c = s.opRead a b c := rfl

end

/-! ### State.current -/

section
variable (s : State) (op : Nat) (i : Issue)

@[simp] theorem State.current_clock : (s.current op i).clock = s.clock := rfl
@[simp] theorem State.current_dict : (s.current op i).dict = s.dict := rfl
@[simp] theorem State.current_arrays : (s.current op i).arrays = s.arrays := rfl
@[simp] theorem State.current_sorus : (s.current op i).sorus = s.sorus := rfl
@[simp] theorem State.current_filigrees : (s.current op i).filigrees = s.filigrees := rfl
@[simp] theorem State.current_program : (s.current op i).program = s.program := rfl
@[simp] theorem State.current_faults : (s.current op i).faults = s.faults := rfl
@[simp] theorem State.current_mem : (s.current op i).mem = s.mem := rfl
@[simp] theorem State.current_traffic : (s.current op i).traffic = s.traffic := rfl
@[simp] theorem State.current_fabric : (s.current op i).fabric = s.fabric := rfl
@[simp] theorem State.current_commit : (s.current op i).commit = s.commit := rfl
@[simp] theorem State.current_locket : (s.current op i).locket = s.locket := rfl
@[simp] theorem State.current_thallus : (s.current op i).thallus = s.thallus := rfl
@[simp] theorem State.current_power : (s.current op i).power = s.power := rfl
@[simp] theorem State.current_server : (s.current op i).server = s.server := rfl
@[simp] theorem State.current_security : (s.current op i).security = s.security := rfl
@[simp] theorem State.current_domains : (s.current op i).domains = s.domains := rfl
@[simp] theorem State.current_freeCount : (s.current op i).freeCount = s.freeCount := rfl
@[simp] theorem State.current_pending : (s.current op i).pending = s.pending := rfl
@[simp] theorem State.current_get (a b : Nat) : (s.current op i).get a b = s.get a b := rfl
@[simp] theorem State.current_array (a : Nat) : (s.current op i).array a = s.array a := rfl
@[simp] theorem State.current_engine (a : Nat) : (s.current op i).engine a = s.engine a := rfl
@[simp] theorem State.current_filigree (a : Nat) : (s.current op i).filigree a = s.filigree a := rfl
@[simp] theorem State.current_port (a : Nat) : (s.current op i).port a = s.port a := rfl
@[simp] theorem State.current_core (a : Nat) : (s.current op i).core a = s.core a := rfl
@[simp] theorem State.current_box (a : Nat) : (s.current op i).box a = s.box a := rfl
@[simp] theorem State.current_uctx (a : Nat) : (s.current op i).uctx a = s.uctx a := rfl
@[simp] theorem State.current_hbmRead (a b : Nat) : (s.current op i).hbmRead a b = s.hbmRead a b := rfl
@[simp] theorem State.current_opRead (a b c : Nat) : (s.current op i).opRead a b c = s.opRead a b c := rfl

end

/-! ### State.startWork -/

section
variable (s : State) (op : Nat) (i : Issue) (left : Option Nat) (load : Load)

@[simp] theorem State.startWork_clock : (s.startWork op i left load).clock = s.clock := rfl
@[simp] theorem State.startWork_dict : (s.startWork op i left load).dict = s.dict := rfl
@[simp] theorem State.startWork_arrays : (s.startWork op i left load).arrays = s.arrays := rfl
@[simp] theorem State.startWork_sorus : (s.startWork op i left load).sorus = s.sorus := rfl
@[simp] theorem State.startWork_filigrees : (s.startWork op i left load).filigrees = s.filigrees := rfl
@[simp] theorem State.startWork_program : (s.startWork op i left load).program = s.program := rfl
@[simp] theorem State.startWork_faults : (s.startWork op i left load).faults = s.faults := rfl
@[simp] theorem State.startWork_mem : (s.startWork op i left load).mem = s.mem := rfl
@[simp] theorem State.startWork_traffic : (s.startWork op i left load).traffic = s.traffic := rfl
@[simp] theorem State.startWork_fabric : (s.startWork op i left load).fabric = s.fabric := rfl
@[simp] theorem State.startWork_commit : (s.startWork op i left load).commit = s.commit := rfl
@[simp] theorem State.startWork_locket : (s.startWork op i left load).locket = s.locket := rfl
@[simp] theorem State.startWork_thallus : (s.startWork op i left load).thallus = s.thallus := rfl
@[simp] theorem State.startWork_power : (s.startWork op i left load).power = s.power := rfl
@[simp] theorem State.startWork_server : (s.startWork op i left load).server = s.server := rfl
@[simp] theorem State.startWork_security : (s.startWork op i left load).security = s.security := rfl
@[simp] theorem State.startWork_domains : (s.startWork op i left load).domains = s.domains := rfl
@[simp] theorem State.startWork_freeCount : (s.startWork op i left load).freeCount = s.freeCount := rfl
@[simp] theorem State.startWork_pending : (s.startWork op i left load).pending = s.pending := rfl
@[simp] theorem State.startWork_get (a b : Nat) : (s.startWork op i left load).get a b = s.get a b := rfl
@[simp] theorem State.startWork_array (a : Nat) : (s.startWork op i left load).array a = s.array a := rfl
@[simp] theorem State.startWork_engine (a : Nat) : (s.startWork op i left load).engine a = s.engine a := rfl
@[simp] theorem State.startWork_filigree (a : Nat) : (s.startWork op i left load).filigree a = s.filigree a := rfl
@[simp] theorem State.startWork_port (a : Nat) : (s.startWork op i left load).port a = s.port a := rfl
@[simp] theorem State.startWork_core (a : Nat) : (s.startWork op i left load).core a = s.core a := rfl
@[simp] theorem State.startWork_box (a : Nat) : (s.startWork op i left load).box a = s.box a := rfl
@[simp] theorem State.startWork_uctx (a : Nat) : (s.startWork op i left load).uctx a = s.uctx a := rfl
@[simp] theorem State.startWork_hbmRead (a b : Nat) : (s.startWork op i left load).hbmRead a b = s.hbmRead a b := rfl
@[simp] theorem State.startWork_opRead (a b c : Nat) : (s.startWork op i left load).opRead a b c = s.opRead a b c := rfl

end

/-! ### State.startPhase -/

section
variable (s : State) (op : Nat) (i : Issue) (left tail jobs : Nat) (load : Load)

@[simp] theorem State.startPhase_clock : (s.startPhase op i left tail jobs load).clock = s.clock := rfl
@[simp] theorem State.startPhase_dict : (s.startPhase op i left tail jobs load).dict = s.dict := rfl
@[simp] theorem State.startPhase_arrays : (s.startPhase op i left tail jobs load).arrays = s.arrays := rfl
@[simp] theorem State.startPhase_sorus : (s.startPhase op i left tail jobs load).sorus = s.sorus := rfl
@[simp] theorem State.startPhase_filigrees : (s.startPhase op i left tail jobs load).filigrees = s.filigrees := rfl
@[simp] theorem State.startPhase_program : (s.startPhase op i left tail jobs load).program = s.program := rfl
@[simp] theorem State.startPhase_faults : (s.startPhase op i left tail jobs load).faults = s.faults := rfl
@[simp] theorem State.startPhase_mem : (s.startPhase op i left tail jobs load).mem = s.mem := rfl
@[simp] theorem State.startPhase_traffic : (s.startPhase op i left tail jobs load).traffic = s.traffic := rfl
@[simp] theorem State.startPhase_fabric : (s.startPhase op i left tail jobs load).fabric = s.fabric := rfl
@[simp] theorem State.startPhase_commit : (s.startPhase op i left tail jobs load).commit = s.commit := rfl
@[simp] theorem State.startPhase_locket : (s.startPhase op i left tail jobs load).locket = s.locket := rfl
@[simp] theorem State.startPhase_thallus : (s.startPhase op i left tail jobs load).thallus = s.thallus := rfl
@[simp] theorem State.startPhase_power : (s.startPhase op i left tail jobs load).power = s.power := rfl
@[simp] theorem State.startPhase_server : (s.startPhase op i left tail jobs load).server = s.server := rfl
@[simp] theorem State.startPhase_security : (s.startPhase op i left tail jobs load).security = s.security := rfl
@[simp] theorem State.startPhase_domains : (s.startPhase op i left tail jobs load).domains = s.domains := rfl
@[simp] theorem State.startPhase_freeCount : (s.startPhase op i left tail jobs load).freeCount = s.freeCount := rfl
@[simp] theorem State.startPhase_pending : (s.startPhase op i left tail jobs load).pending = s.pending := rfl
@[simp] theorem State.startPhase_get (a b : Nat) : (s.startPhase op i left tail jobs load).get a b = s.get a b := rfl
@[simp] theorem State.startPhase_array (a : Nat) : (s.startPhase op i left tail jobs load).array a = s.array a := rfl
@[simp] theorem State.startPhase_engine (a : Nat) : (s.startPhase op i left tail jobs load).engine a = s.engine a := rfl
@[simp] theorem State.startPhase_filigree (a : Nat) : (s.startPhase op i left tail jobs load).filigree a = s.filigree a := rfl
@[simp] theorem State.startPhase_port (a : Nat) : (s.startPhase op i left tail jobs load).port a = s.port a := rfl
@[simp] theorem State.startPhase_core (a : Nat) : (s.startPhase op i left tail jobs load).core a = s.core a := rfl
@[simp] theorem State.startPhase_box (a : Nat) : (s.startPhase op i left tail jobs load).box a = s.box a := rfl
@[simp] theorem State.startPhase_uctx (a : Nat) : (s.startPhase op i left tail jobs load).uctx a = s.uctx a := rfl
@[simp] theorem State.startPhase_hbmRead (a b : Nat) : (s.startPhase op i left tail jobs load).hbmRead a b = s.hbmRead a b := rfl
@[simp] theorem State.startPhase_opRead (a b c : Nat) : (s.startPhase op i left tail jobs load).opRead a b c = s.opRead a b c := rfl

end

/-! ### State.endPhase -/

section
variable (s : State) (u : Nat)

@[simp] theorem State.endPhase_clock : (s.endPhase u).clock = s.clock := rfl
@[simp] theorem State.endPhase_dict : (s.endPhase u).dict = s.dict := rfl
@[simp] theorem State.endPhase_arrays : (s.endPhase u).arrays = s.arrays := rfl
@[simp] theorem State.endPhase_sorus : (s.endPhase u).sorus = s.sorus := rfl
@[simp] theorem State.endPhase_filigrees : (s.endPhase u).filigrees = s.filigrees := rfl
@[simp] theorem State.endPhase_program : (s.endPhase u).program = s.program := rfl
@[simp] theorem State.endPhase_faults : (s.endPhase u).faults = s.faults := rfl
@[simp] theorem State.endPhase_mem : (s.endPhase u).mem = s.mem := rfl
@[simp] theorem State.endPhase_traffic : (s.endPhase u).traffic = s.traffic := rfl
@[simp] theorem State.endPhase_fabric : (s.endPhase u).fabric = s.fabric := rfl
@[simp] theorem State.endPhase_commit : (s.endPhase u).commit = s.commit := rfl
@[simp] theorem State.endPhase_locket : (s.endPhase u).locket = s.locket := rfl
@[simp] theorem State.endPhase_thallus : (s.endPhase u).thallus = s.thallus := rfl
@[simp] theorem State.endPhase_power : (s.endPhase u).power = s.power := rfl
@[simp] theorem State.endPhase_server : (s.endPhase u).server = s.server := rfl
@[simp] theorem State.endPhase_security : (s.endPhase u).security = s.security := rfl
@[simp] theorem State.endPhase_domains : (s.endPhase u).domains = s.domains := rfl
@[simp] theorem State.endPhase_freeCount : (s.endPhase u).freeCount = s.freeCount := rfl
@[simp] theorem State.endPhase_pending : (s.endPhase u).pending = s.pending := rfl
@[simp] theorem State.endPhase_get (a b : Nat) : (s.endPhase u).get a b = s.get a b := rfl
@[simp] theorem State.endPhase_array (a : Nat) : (s.endPhase u).array a = s.array a := rfl
@[simp] theorem State.endPhase_engine (a : Nat) : (s.endPhase u).engine a = s.engine a := rfl
@[simp] theorem State.endPhase_filigree (a : Nat) : (s.endPhase u).filigree a = s.filigree a := rfl
@[simp] theorem State.endPhase_port (a : Nat) : (s.endPhase u).port a = s.port a := rfl
@[simp] theorem State.endPhase_core (a : Nat) : (s.endPhase u).core a = s.core a := rfl
@[simp] theorem State.endPhase_box (a : Nat) : (s.endPhase u).box a = s.box a := rfl
@[simp] theorem State.endPhase_uctx (a : Nat) : (s.endPhase u).uctx a = s.uctx a := rfl
@[simp] theorem State.endPhase_hbmRead (a b : Nat) : (s.endPhase u).hbmRead a b = s.hbmRead a b := rfl
@[simp] theorem State.endPhase_opRead (a b c : Nat) : (s.endPhase u).opRead a b c = s.opRead a b c := rfl

end

/-! ### State.endWork -/

section
variable (s : State) (u : Nat)

@[simp] theorem State.endWork_clock : (s.endWork u).clock = s.clock := rfl
@[simp] theorem State.endWork_dict : (s.endWork u).dict = s.dict := rfl
@[simp] theorem State.endWork_arrays : (s.endWork u).arrays = s.arrays := rfl
@[simp] theorem State.endWork_sorus : (s.endWork u).sorus = s.sorus := rfl
@[simp] theorem State.endWork_filigrees : (s.endWork u).filigrees = s.filigrees := rfl
@[simp] theorem State.endWork_program : (s.endWork u).program = s.program := rfl
@[simp] theorem State.endWork_faults : (s.endWork u).faults = s.faults := rfl
@[simp] theorem State.endWork_mem : (s.endWork u).mem = s.mem := rfl
@[simp] theorem State.endWork_traffic : (s.endWork u).traffic = s.traffic := rfl
@[simp] theorem State.endWork_fabric : (s.endWork u).fabric = s.fabric := rfl
@[simp] theorem State.endWork_commit : (s.endWork u).commit = s.commit := rfl
@[simp] theorem State.endWork_locket : (s.endWork u).locket = s.locket := rfl
@[simp] theorem State.endWork_thallus : (s.endWork u).thallus = s.thallus := rfl
@[simp] theorem State.endWork_power : (s.endWork u).power = s.power := rfl
@[simp] theorem State.endWork_server : (s.endWork u).server = s.server := rfl
@[simp] theorem State.endWork_security : (s.endWork u).security = s.security := rfl
@[simp] theorem State.endWork_domains : (s.endWork u).domains = s.domains := rfl
@[simp] theorem State.endWork_freeCount : (s.endWork u).freeCount = s.freeCount := rfl
@[simp] theorem State.endWork_pending : (s.endWork u).pending = s.pending := rfl
@[simp] theorem State.endWork_get (a b : Nat) : (s.endWork u).get a b = s.get a b := rfl
@[simp] theorem State.endWork_array (a : Nat) : (s.endWork u).array a = s.array a := rfl
@[simp] theorem State.endWork_engine (a : Nat) : (s.endWork u).engine a = s.engine a := rfl
@[simp] theorem State.endWork_filigree (a : Nat) : (s.endWork u).filigree a = s.filigree a := rfl
@[simp] theorem State.endWork_port (a : Nat) : (s.endWork u).port a = s.port a := rfl
@[simp] theorem State.endWork_core (a : Nat) : (s.endWork u).core a = s.core a := rfl
@[simp] theorem State.endWork_box (a : Nat) : (s.endWork u).box a = s.box a := rfl
@[simp] theorem State.endWork_uctx (a : Nat) : (s.endWork u).uctx a = s.uctx a := rfl
@[simp] theorem State.endWork_hbmRead (a b : Nat) : (s.endWork u).hbmRead a b = s.hbmRead a b := rfl
@[simp] theorem State.endWork_opRead (a b c : Nat) : (s.endWork u).opRead a b c = s.opRead a b c := rfl

end

/-! ### startMode -/

section
variable (s : State) (op : Nat) (i : Issue)

@[simp] theorem startMode_clock : (startMode op i s).clock = s.clock := rfl
@[simp] theorem startMode_dict : (startMode op i s).dict = s.dict := rfl
@[simp] theorem startMode_arrays : (startMode op i s).arrays = s.arrays := rfl
@[simp] theorem startMode_sorus : (startMode op i s).sorus = s.sorus := rfl
@[simp] theorem startMode_filigrees : (startMode op i s).filigrees = s.filigrees := rfl
@[simp] theorem startMode_program : (startMode op i s).program = s.program := rfl
@[simp] theorem startMode_faults : (startMode op i s).faults = s.faults := rfl
@[simp] theorem startMode_mem : (startMode op i s).mem = s.mem := rfl
@[simp] theorem startMode_traffic : (startMode op i s).traffic = s.traffic := rfl
@[simp] theorem startMode_fabric : (startMode op i s).fabric = s.fabric := rfl
@[simp] theorem startMode_commit : (startMode op i s).commit = s.commit := rfl
@[simp] theorem startMode_locket : (startMode op i s).locket = s.locket := rfl
@[simp] theorem startMode_thallus : (startMode op i s).thallus = s.thallus := rfl
@[simp] theorem startMode_power : (startMode op i s).power = s.power := rfl
@[simp] theorem startMode_server : (startMode op i s).server = s.server := rfl
@[simp] theorem startMode_security : (startMode op i s).security = s.security := rfl
@[simp] theorem startMode_domains : (startMode op i s).domains = s.domains := rfl
@[simp] theorem startMode_freeCount : (startMode op i s).freeCount = s.freeCount := rfl
@[simp] theorem startMode_pending : (startMode op i s).pending = s.pending := rfl
@[simp] theorem startMode_get (a b : Nat) : (startMode op i s).get a b = s.get a b := rfl
@[simp] theorem startMode_array (a : Nat) : (startMode op i s).array a = s.array a := rfl
@[simp] theorem startMode_engine (a : Nat) : (startMode op i s).engine a = s.engine a := rfl
@[simp] theorem startMode_filigree (a : Nat) : (startMode op i s).filigree a = s.filigree a := rfl
@[simp] theorem startMode_port (a : Nat) : (startMode op i s).port a = s.port a := rfl
@[simp] theorem startMode_core (a : Nat) : (startMode op i s).core a = s.core a := rfl
@[simp] theorem startMode_box (a : Nat) : (startMode op i s).box a = s.box a := rfl
@[simp] theorem startMode_uctx (a : Nat) : (startMode op i s).uctx a = s.uctx a := rfl
@[simp] theorem startMode_hbmRead (a b : Nat) : (startMode op i s).hbmRead a b = s.hbmRead a b := rfl
@[simp] theorem startMode_opRead (a b c : Nat) : (startMode op i s).opRead a b c = s.opRead a b c := rfl

end

/-! ### State.setArray -/

section
variable (s : State) (u : Nat) (x : ArrayRegs)

@[simp] theorem State.setArray_clock : (s.setArray u x).clock = s.clock := rfl
@[simp] theorem State.setArray_dict : (s.setArray u x).dict = s.dict := rfl
@[simp] theorem State.setArray_units : (s.setArray u x).units = s.units := rfl
@[simp] theorem State.setArray_sorus : (s.setArray u x).sorus = s.sorus := rfl
@[simp] theorem State.setArray_filigrees : (s.setArray u x).filigrees = s.filigrees := rfl
@[simp] theorem State.setArray_program : (s.setArray u x).program = s.program := rfl
@[simp] theorem State.setArray_faults : (s.setArray u x).faults = s.faults := rfl
@[simp] theorem State.setArray_mem : (s.setArray u x).mem = s.mem := rfl
@[simp] theorem State.setArray_traffic : (s.setArray u x).traffic = s.traffic := rfl
@[simp] theorem State.setArray_fabric : (s.setArray u x).fabric = s.fabric := rfl
@[simp] theorem State.setArray_commit : (s.setArray u x).commit = s.commit := rfl
@[simp] theorem State.setArray_locket : (s.setArray u x).locket = s.locket := rfl
@[simp] theorem State.setArray_thallus : (s.setArray u x).thallus = s.thallus := rfl
@[simp] theorem State.setArray_power : (s.setArray u x).power = s.power := rfl
@[simp] theorem State.setArray_server : (s.setArray u x).server = s.server := rfl
@[simp] theorem State.setArray_security : (s.setArray u x).security = s.security := rfl
@[simp] theorem State.setArray_domains : (s.setArray u x).domains = s.domains := rfl
@[simp] theorem State.setArray_freeCount : (s.setArray u x).freeCount = s.freeCount := rfl
@[simp] theorem State.setArray_pending : (s.setArray u x).pending = s.pending := rfl
@[simp] theorem State.setArray_get (a b : Nat) : (s.setArray u x).get a b = s.get a b := rfl
@[simp] theorem State.setArray_unit (a : Nat) : (s.setArray u x).unit a = s.unit a := rfl
@[simp] theorem State.setArray_engine (a : Nat) : (s.setArray u x).engine a = s.engine a := rfl
@[simp] theorem State.setArray_filigree (a : Nat) : (s.setArray u x).filigree a = s.filigree a := rfl
@[simp] theorem State.setArray_port (a : Nat) : (s.setArray u x).port a = s.port a := rfl
@[simp] theorem State.setArray_core (a : Nat) : (s.setArray u x).core a = s.core a := rfl
@[simp] theorem State.setArray_box (a : Nat) : (s.setArray u x).box a = s.box a := rfl
@[simp] theorem State.setArray_uctx (a : Nat) : (s.setArray u x).uctx a = s.uctx a := rfl
@[simp] theorem State.setArray_hbmRead (a b : Nat) : (s.setArray u x).hbmRead a b = s.hbmRead a b := rfl
@[simp] theorem State.setArray_opRead (a b c : Nat) : (s.setArray u x).opRead a b c = s.opRead a b c := rfl

end

/-! ### State.setFiligree -/

section
variable (s : State) (d : Nat) (x : Filigree)

@[simp] theorem State.setFiligree_clock : (s.setFiligree d x).clock = s.clock := rfl
@[simp] theorem State.setFiligree_dict : (s.setFiligree d x).dict = s.dict := rfl
@[simp] theorem State.setFiligree_units : (s.setFiligree d x).units = s.units := rfl
@[simp] theorem State.setFiligree_arrays : (s.setFiligree d x).arrays = s.arrays := rfl
@[simp] theorem State.setFiligree_sorus : (s.setFiligree d x).sorus = s.sorus := rfl
@[simp] theorem State.setFiligree_program : (s.setFiligree d x).program = s.program := rfl
@[simp] theorem State.setFiligree_faults : (s.setFiligree d x).faults = s.faults := rfl
@[simp] theorem State.setFiligree_mem : (s.setFiligree d x).mem = s.mem := rfl
@[simp] theorem State.setFiligree_traffic : (s.setFiligree d x).traffic = s.traffic := rfl
@[simp] theorem State.setFiligree_fabric : (s.setFiligree d x).fabric = s.fabric := rfl
@[simp] theorem State.setFiligree_commit : (s.setFiligree d x).commit = s.commit := rfl
@[simp] theorem State.setFiligree_locket : (s.setFiligree d x).locket = s.locket := rfl
@[simp] theorem State.setFiligree_thallus : (s.setFiligree d x).thallus = s.thallus := rfl
@[simp] theorem State.setFiligree_power : (s.setFiligree d x).power = s.power := rfl
@[simp] theorem State.setFiligree_server : (s.setFiligree d x).server = s.server := rfl
@[simp] theorem State.setFiligree_security : (s.setFiligree d x).security = s.security := rfl
@[simp] theorem State.setFiligree_domains : (s.setFiligree d x).domains = s.domains := rfl
@[simp] theorem State.setFiligree_freeCount : (s.setFiligree d x).freeCount = s.freeCount := rfl
@[simp] theorem State.setFiligree_pending : (s.setFiligree d x).pending = s.pending := rfl
@[simp] theorem State.setFiligree_get (a b : Nat) : (s.setFiligree d x).get a b = s.get a b := rfl
@[simp] theorem State.setFiligree_unit (a : Nat) : (s.setFiligree d x).unit a = s.unit a := rfl
@[simp] theorem State.setFiligree_array (a : Nat) : (s.setFiligree d x).array a = s.array a := rfl
@[simp] theorem State.setFiligree_engine (a : Nat) : (s.setFiligree d x).engine a = s.engine a := rfl
@[simp] theorem State.setFiligree_port (a : Nat) : (s.setFiligree d x).port a = s.port a := rfl
@[simp] theorem State.setFiligree_core (a : Nat) : (s.setFiligree d x).core a = s.core a := rfl
@[simp] theorem State.setFiligree_box (a : Nat) : (s.setFiligree d x).box a = s.box a := rfl
@[simp] theorem State.setFiligree_uctx (a : Nat) : (s.setFiligree d x).uctx a = s.uctx a := rfl
@[simp] theorem State.setFiligree_hbmRead (a b : Nat) : (s.setFiligree d x).hbmRead a b = s.hbmRead a b := rfl
@[simp] theorem State.setFiligree_opRead (a b c : Nat) : (s.setFiligree d x).opRead a b c = s.opRead a b c := rfl

end

/-! ### State.setPort -/

section
variable (s : State) (p : Nat) (x : Port)

@[simp] theorem State.setPort_clock : (s.setPort p x).clock = s.clock := rfl
@[simp] theorem State.setPort_dict : (s.setPort p x).dict = s.dict := rfl
@[simp] theorem State.setPort_units : (s.setPort p x).units = s.units := rfl
@[simp] theorem State.setPort_arrays : (s.setPort p x).arrays = s.arrays := rfl
@[simp] theorem State.setPort_sorus : (s.setPort p x).sorus = s.sorus := rfl
@[simp] theorem State.setPort_filigrees : (s.setPort p x).filigrees = s.filigrees := rfl
@[simp] theorem State.setPort_program : (s.setPort p x).program = s.program := rfl
@[simp] theorem State.setPort_faults : (s.setPort p x).faults = s.faults := rfl
@[simp] theorem State.setPort_mem : (s.setPort p x).mem = s.mem := rfl
@[simp] theorem State.setPort_traffic : (s.setPort p x).traffic = s.traffic := rfl
@[simp] theorem State.setPort_commit : (s.setPort p x).commit = s.commit := rfl
@[simp] theorem State.setPort_locket : (s.setPort p x).locket = s.locket := rfl
@[simp] theorem State.setPort_thallus : (s.setPort p x).thallus = s.thallus := rfl
@[simp] theorem State.setPort_power : (s.setPort p x).power = s.power := rfl
@[simp] theorem State.setPort_server : (s.setPort p x).server = s.server := rfl
@[simp] theorem State.setPort_security : (s.setPort p x).security = s.security := rfl
@[simp] theorem State.setPort_domains : (s.setPort p x).domains = s.domains := rfl
@[simp] theorem State.setPort_freeCount : (s.setPort p x).freeCount = s.freeCount := rfl
@[simp] theorem State.setPort_pending : (s.setPort p x).pending = s.pending := rfl
@[simp] theorem State.setPort_get (a b : Nat) : (s.setPort p x).get a b = s.get a b := rfl
@[simp] theorem State.setPort_unit (a : Nat) : (s.setPort p x).unit a = s.unit a := rfl
@[simp] theorem State.setPort_array (a : Nat) : (s.setPort p x).array a = s.array a := rfl
@[simp] theorem State.setPort_engine (a : Nat) : (s.setPort p x).engine a = s.engine a := rfl
@[simp] theorem State.setPort_filigree (a : Nat) : (s.setPort p x).filigree a = s.filigree a := rfl
@[simp] theorem State.setPort_core (a : Nat) : (s.setPort p x).core a = s.core a := rfl
@[simp] theorem State.setPort_box (a : Nat) : (s.setPort p x).box a = s.box a := rfl
@[simp] theorem State.setPort_uctx (a : Nat) : (s.setPort p x).uctx a = s.uctx a := rfl
@[simp] theorem State.setPort_hbmRead (a b : Nat) : (s.setPort p x).hbmRead a b = s.hbmRead a b := rfl
@[simp] theorem State.setPort_opRead (a b c : Nat) : (s.setPort p x).opRead a b c = s.opRead a b c := rfl

end

/-! ### State.setCore -/

section
variable (s : State) (c : Nat) (x : CoreState)

@[simp] theorem State.setCore_clock : (s.setCore c x).clock = s.clock := rfl
@[simp] theorem State.setCore_dict : (s.setCore c x).dict = s.dict := rfl
@[simp] theorem State.setCore_units : (s.setCore c x).units = s.units := rfl
@[simp] theorem State.setCore_arrays : (s.setCore c x).arrays = s.arrays := rfl
@[simp] theorem State.setCore_sorus : (s.setCore c x).sorus = s.sorus := rfl
@[simp] theorem State.setCore_filigrees : (s.setCore c x).filigrees = s.filigrees := rfl
@[simp] theorem State.setCore_program : (s.setCore c x).program = s.program := rfl
@[simp] theorem State.setCore_faults : (s.setCore c x).faults = s.faults := rfl
@[simp] theorem State.setCore_mem : (s.setCore c x).mem = s.mem := rfl
@[simp] theorem State.setCore_traffic : (s.setCore c x).traffic = s.traffic := rfl
@[simp] theorem State.setCore_fabric : (s.setCore c x).fabric = s.fabric := rfl
@[simp] theorem State.setCore_commit : (s.setCore c x).commit = s.commit := rfl
@[simp] theorem State.setCore_locket : (s.setCore c x).locket = s.locket := rfl
@[simp] theorem State.setCore_power : (s.setCore c x).power = s.power := rfl
@[simp] theorem State.setCore_server : (s.setCore c x).server = s.server := rfl
@[simp] theorem State.setCore_security : (s.setCore c x).security = s.security := rfl
@[simp] theorem State.setCore_domains : (s.setCore c x).domains = s.domains := rfl
@[simp] theorem State.setCore_freeCount : (s.setCore c x).freeCount = s.freeCount := rfl
@[simp] theorem State.setCore_pending : (s.setCore c x).pending = s.pending := rfl
@[simp] theorem State.setCore_get (a b : Nat) : (s.setCore c x).get a b = s.get a b := rfl
@[simp] theorem State.setCore_unit (a : Nat) : (s.setCore c x).unit a = s.unit a := rfl
@[simp] theorem State.setCore_array (a : Nat) : (s.setCore c x).array a = s.array a := rfl
@[simp] theorem State.setCore_engine (a : Nat) : (s.setCore c x).engine a = s.engine a := rfl
@[simp] theorem State.setCore_filigree (a : Nat) : (s.setCore c x).filigree a = s.filigree a := rfl
@[simp] theorem State.setCore_port (a : Nat) : (s.setCore c x).port a = s.port a := rfl
@[simp] theorem State.setCore_box (a : Nat) : (s.setCore c x).box a = s.box a := rfl
@[simp] theorem State.setCore_uctx (a : Nat) : (s.setCore c x).uctx a = s.uctx a := rfl
@[simp] theorem State.setCore_hbmRead (a b : Nat) : (s.setCore c x).hbmRead a b = s.hbmRead a b := rfl
@[simp] theorem State.setCore_opRead (a b e : Nat) : (s.setCore c x).opRead a b e = s.opRead a b e := rfl

end

/-! ### State.setBox -/

section
variable (s : State) (d : Nat) (x : Mailbox)

@[simp] theorem State.setBox_clock : (s.setBox d x).clock = s.clock := rfl
@[simp] theorem State.setBox_dict : (s.setBox d x).dict = s.dict := rfl
@[simp] theorem State.setBox_units : (s.setBox d x).units = s.units := rfl
@[simp] theorem State.setBox_arrays : (s.setBox d x).arrays = s.arrays := rfl
@[simp] theorem State.setBox_sorus : (s.setBox d x).sorus = s.sorus := rfl
@[simp] theorem State.setBox_filigrees : (s.setBox d x).filigrees = s.filigrees := rfl
@[simp] theorem State.setBox_program : (s.setBox d x).program = s.program := rfl
@[simp] theorem State.setBox_faults : (s.setBox d x).faults = s.faults := rfl
@[simp] theorem State.setBox_mem : (s.setBox d x).mem = s.mem := rfl
@[simp] theorem State.setBox_traffic : (s.setBox d x).traffic = s.traffic := rfl
@[simp] theorem State.setBox_fabric : (s.setBox d x).fabric = s.fabric := rfl
@[simp] theorem State.setBox_commit : (s.setBox d x).commit = s.commit := rfl
@[simp] theorem State.setBox_locket : (s.setBox d x).locket = s.locket := rfl
@[simp] theorem State.setBox_power : (s.setBox d x).power = s.power := rfl
@[simp] theorem State.setBox_server : (s.setBox d x).server = s.server := rfl
@[simp] theorem State.setBox_security : (s.setBox d x).security = s.security := rfl
@[simp] theorem State.setBox_domains : (s.setBox d x).domains = s.domains := rfl
@[simp] theorem State.setBox_freeCount : (s.setBox d x).freeCount = s.freeCount := rfl
@[simp] theorem State.setBox_pending : (s.setBox d x).pending = s.pending := rfl
@[simp] theorem State.setBox_get (a b : Nat) : (s.setBox d x).get a b = s.get a b := rfl
@[simp] theorem State.setBox_unit (a : Nat) : (s.setBox d x).unit a = s.unit a := rfl
@[simp] theorem State.setBox_array (a : Nat) : (s.setBox d x).array a = s.array a := rfl
@[simp] theorem State.setBox_engine (a : Nat) : (s.setBox d x).engine a = s.engine a := rfl
@[simp] theorem State.setBox_filigree (a : Nat) : (s.setBox d x).filigree a = s.filigree a := rfl
@[simp] theorem State.setBox_port (a : Nat) : (s.setBox d x).port a = s.port a := rfl
@[simp] theorem State.setBox_core (a : Nat) : (s.setBox d x).core a = s.core a := rfl
@[simp] theorem State.setBox_uctx (a : Nat) : (s.setBox d x).uctx a = s.uctx a := rfl
@[simp] theorem State.setBox_hbmRead (a b : Nat) : (s.setBox d x).hbmRead a b = s.hbmRead a b := rfl
@[simp] theorem State.setBox_opRead (a b c : Nat) : (s.setBox d x).opRead a b c = s.opRead a b c := rfl

end

/-! ### State.setUctx -/

section
variable (s : State) (c : Nat) (x : UserCtx)

@[simp] theorem State.setUctx_clock : (s.setUctx c x).clock = s.clock := rfl
@[simp] theorem State.setUctx_dict : (s.setUctx c x).dict = s.dict := rfl
@[simp] theorem State.setUctx_units : (s.setUctx c x).units = s.units := rfl
@[simp] theorem State.setUctx_arrays : (s.setUctx c x).arrays = s.arrays := rfl
@[simp] theorem State.setUctx_sorus : (s.setUctx c x).sorus = s.sorus := rfl
@[simp] theorem State.setUctx_filigrees : (s.setUctx c x).filigrees = s.filigrees := rfl
@[simp] theorem State.setUctx_program : (s.setUctx c x).program = s.program := rfl
@[simp] theorem State.setUctx_faults : (s.setUctx c x).faults = s.faults := rfl
@[simp] theorem State.setUctx_mem : (s.setUctx c x).mem = s.mem := rfl
@[simp] theorem State.setUctx_traffic : (s.setUctx c x).traffic = s.traffic := rfl
@[simp] theorem State.setUctx_fabric : (s.setUctx c x).fabric = s.fabric := rfl
@[simp] theorem State.setUctx_commit : (s.setUctx c x).commit = s.commit := rfl
@[simp] theorem State.setUctx_locket : (s.setUctx c x).locket = s.locket := rfl
@[simp] theorem State.setUctx_power : (s.setUctx c x).power = s.power := rfl
@[simp] theorem State.setUctx_server : (s.setUctx c x).server = s.server := rfl
@[simp] theorem State.setUctx_security : (s.setUctx c x).security = s.security := rfl
@[simp] theorem State.setUctx_domains : (s.setUctx c x).domains = s.domains := rfl
@[simp] theorem State.setUctx_freeCount : (s.setUctx c x).freeCount = s.freeCount := rfl
@[simp] theorem State.setUctx_pending : (s.setUctx c x).pending = s.pending := rfl
@[simp] theorem State.setUctx_get (a b : Nat) : (s.setUctx c x).get a b = s.get a b := rfl
@[simp] theorem State.setUctx_unit (a : Nat) : (s.setUctx c x).unit a = s.unit a := rfl
@[simp] theorem State.setUctx_array (a : Nat) : (s.setUctx c x).array a = s.array a := rfl
@[simp] theorem State.setUctx_engine (a : Nat) : (s.setUctx c x).engine a = s.engine a := rfl
@[simp] theorem State.setUctx_filigree (a : Nat) : (s.setUctx c x).filigree a = s.filigree a := rfl
@[simp] theorem State.setUctx_port (a : Nat) : (s.setUctx c x).port a = s.port a := rfl
@[simp] theorem State.setUctx_core (a : Nat) : (s.setUctx c x).core a = s.core a := rfl
@[simp] theorem State.setUctx_box (a : Nat) : (s.setUctx c x).box a = s.box a := rfl
@[simp] theorem State.setUctx_hbmRead (a b : Nat) : (s.setUctx c x).hbmRead a b = s.hbmRead a b := rfl
@[simp] theorem State.setUctx_opRead (a b e : Nat) : (s.setUctx c x).opRead a b e = s.opRead a b e := rfl

end

/-! ### State.plic -/

section
variable (s : State) (d source : Nat)

@[simp] theorem State.plic_clock : (s.plic d source).clock = s.clock := rfl
@[simp] theorem State.plic_dict : (s.plic d source).dict = s.dict := rfl
@[simp] theorem State.plic_units : (s.plic d source).units = s.units := rfl
@[simp] theorem State.plic_arrays : (s.plic d source).arrays = s.arrays := rfl
@[simp] theorem State.plic_sorus : (s.plic d source).sorus = s.sorus := rfl
@[simp] theorem State.plic_filigrees : (s.plic d source).filigrees = s.filigrees := rfl
@[simp] theorem State.plic_program : (s.plic d source).program = s.program := rfl
@[simp] theorem State.plic_faults : (s.plic d source).faults = s.faults := rfl
@[simp] theorem State.plic_mem : (s.plic d source).mem = s.mem := rfl
@[simp] theorem State.plic_traffic : (s.plic d source).traffic = s.traffic := rfl
@[simp] theorem State.plic_fabric : (s.plic d source).fabric = s.fabric := rfl
@[simp] theorem State.plic_commit : (s.plic d source).commit = s.commit := rfl
@[simp] theorem State.plic_locket : (s.plic d source).locket = s.locket := rfl
@[simp] theorem State.plic_power : (s.plic d source).power = s.power := rfl
@[simp] theorem State.plic_server : (s.plic d source).server = s.server := rfl
@[simp] theorem State.plic_security : (s.plic d source).security = s.security := rfl
@[simp] theorem State.plic_domains : (s.plic d source).domains = s.domains := rfl
@[simp] theorem State.plic_freeCount : (s.plic d source).freeCount = s.freeCount := rfl
@[simp] theorem State.plic_pending : (s.plic d source).pending = s.pending := rfl
@[simp] theorem State.plic_get (a b : Nat) : (s.plic d source).get a b = s.get a b := rfl
@[simp] theorem State.plic_unit (a : Nat) : (s.plic d source).unit a = s.unit a := rfl
@[simp] theorem State.plic_array (a : Nat) : (s.plic d source).array a = s.array a := rfl
@[simp] theorem State.plic_engine (a : Nat) : (s.plic d source).engine a = s.engine a := rfl
@[simp] theorem State.plic_filigree (a : Nat) : (s.plic d source).filigree a = s.filigree a := rfl
@[simp] theorem State.plic_port (a : Nat) : (s.plic d source).port a = s.port a := rfl
@[simp] theorem State.plic_hbmRead (a b : Nat) : (s.plic d source).hbmRead a b = s.hbmRead a b := rfl
@[simp] theorem State.plic_opRead (a b c : Nat) : (s.plic d source).opRead a b c = s.opRead a b c := rfl

end

/-! ### State.raiseAt -/

section
variable (s : State) (frame cycle code source die ctx detail : Nat)

@[simp] theorem State.raiseAt_clock : (s.raiseAt frame cycle code source die ctx detail).clock = s.clock := rfl
@[simp] theorem State.raiseAt_dict : (s.raiseAt frame cycle code source die ctx detail).dict = s.dict := rfl
@[simp] theorem State.raiseAt_units : (s.raiseAt frame cycle code source die ctx detail).units = s.units := rfl
@[simp] theorem State.raiseAt_arrays : (s.raiseAt frame cycle code source die ctx detail).arrays = s.arrays := rfl
@[simp] theorem State.raiseAt_sorus : (s.raiseAt frame cycle code source die ctx detail).sorus = s.sorus := rfl
@[simp] theorem State.raiseAt_filigrees : (s.raiseAt frame cycle code source die ctx detail).filigrees = s.filigrees := rfl
@[simp] theorem State.raiseAt_program : (s.raiseAt frame cycle code source die ctx detail).program = s.program := rfl
@[simp] theorem State.raiseAt_mem : (s.raiseAt frame cycle code source die ctx detail).mem = s.mem := rfl
@[simp] theorem State.raiseAt_traffic : (s.raiseAt frame cycle code source die ctx detail).traffic = s.traffic := rfl
@[simp] theorem State.raiseAt_fabric : (s.raiseAt frame cycle code source die ctx detail).fabric = s.fabric := rfl
@[simp] theorem State.raiseAt_commit : (s.raiseAt frame cycle code source die ctx detail).commit = s.commit := rfl
@[simp] theorem State.raiseAt_locket : (s.raiseAt frame cycle code source die ctx detail).locket = s.locket := rfl
@[simp] theorem State.raiseAt_thallus : (s.raiseAt frame cycle code source die ctx detail).thallus = s.thallus := rfl
@[simp] theorem State.raiseAt_power : (s.raiseAt frame cycle code source die ctx detail).power = s.power := rfl
@[simp] theorem State.raiseAt_server : (s.raiseAt frame cycle code source die ctx detail).server = s.server := rfl
@[simp] theorem State.raiseAt_security : (s.raiseAt frame cycle code source die ctx detail).security = s.security := rfl
@[simp] theorem State.raiseAt_domains : (s.raiseAt frame cycle code source die ctx detail).domains = s.domains := rfl
@[simp] theorem State.raiseAt_freeCount : (s.raiseAt frame cycle code source die ctx detail).freeCount = s.freeCount := rfl
@[simp] theorem State.raiseAt_pending : (s.raiseAt frame cycle code source die ctx detail).pending = s.pending := rfl
@[simp] theorem State.raiseAt_get (a b : Nat) : (s.raiseAt frame cycle code source die ctx detail).get a b = s.get a b := rfl
@[simp] theorem State.raiseAt_unit (a : Nat) : (s.raiseAt frame cycle code source die ctx detail).unit a = s.unit a := rfl
@[simp] theorem State.raiseAt_array (a : Nat) : (s.raiseAt frame cycle code source die ctx detail).array a = s.array a := rfl
@[simp] theorem State.raiseAt_engine (a : Nat) : (s.raiseAt frame cycle code source die ctx detail).engine a = s.engine a := rfl
@[simp] theorem State.raiseAt_filigree (a : Nat) : (s.raiseAt frame cycle code source die ctx detail).filigree a = s.filigree a := rfl
@[simp] theorem State.raiseAt_port (a : Nat) : (s.raiseAt frame cycle code source die ctx detail).port a = s.port a := rfl
@[simp] theorem State.raiseAt_core (a : Nat) : (s.raiseAt frame cycle code source die ctx detail).core a = s.core a := rfl
@[simp] theorem State.raiseAt_box (a : Nat) : (s.raiseAt frame cycle code source die ctx detail).box a = s.box a := rfl
@[simp] theorem State.raiseAt_uctx (a : Nat) : (s.raiseAt frame cycle code source die ctx detail).uctx a = s.uctx a := rfl
@[simp] theorem State.raiseAt_hbmRead (a b : Nat) : (s.raiseAt frame cycle code source die ctx detail).hbmRead a b = s.hbmRead a b := rfl
@[simp] theorem State.raiseAt_opRead (a b c : Nat) : (s.raiseAt frame cycle code source die ctx detail).opRead a b c = s.opRead a b c := rfl

end

/-! ### State.raiseIn -/

section
variable (s : State) (delay code source die ctx detail : Nat)

@[simp] theorem State.raiseIn_clock : (s.raiseIn delay code source die ctx detail).clock = s.clock := rfl
@[simp] theorem State.raiseIn_dict : (s.raiseIn delay code source die ctx detail).dict = s.dict := rfl
@[simp] theorem State.raiseIn_units : (s.raiseIn delay code source die ctx detail).units = s.units := rfl
@[simp] theorem State.raiseIn_arrays : (s.raiseIn delay code source die ctx detail).arrays = s.arrays := rfl
@[simp] theorem State.raiseIn_sorus : (s.raiseIn delay code source die ctx detail).sorus = s.sorus := rfl
@[simp] theorem State.raiseIn_filigrees : (s.raiseIn delay code source die ctx detail).filigrees = s.filigrees := rfl
@[simp] theorem State.raiseIn_program : (s.raiseIn delay code source die ctx detail).program = s.program := rfl
@[simp] theorem State.raiseIn_mem : (s.raiseIn delay code source die ctx detail).mem = s.mem := rfl
@[simp] theorem State.raiseIn_traffic : (s.raiseIn delay code source die ctx detail).traffic = s.traffic := rfl
@[simp] theorem State.raiseIn_fabric : (s.raiseIn delay code source die ctx detail).fabric = s.fabric := rfl
@[simp] theorem State.raiseIn_commit : (s.raiseIn delay code source die ctx detail).commit = s.commit := rfl
@[simp] theorem State.raiseIn_locket : (s.raiseIn delay code source die ctx detail).locket = s.locket := rfl
@[simp] theorem State.raiseIn_thallus : (s.raiseIn delay code source die ctx detail).thallus = s.thallus := rfl
@[simp] theorem State.raiseIn_power : (s.raiseIn delay code source die ctx detail).power = s.power := rfl
@[simp] theorem State.raiseIn_server : (s.raiseIn delay code source die ctx detail).server = s.server := rfl
@[simp] theorem State.raiseIn_security : (s.raiseIn delay code source die ctx detail).security = s.security := rfl
@[simp] theorem State.raiseIn_domains : (s.raiseIn delay code source die ctx detail).domains = s.domains := rfl
@[simp] theorem State.raiseIn_freeCount : (s.raiseIn delay code source die ctx detail).freeCount = s.freeCount := rfl
@[simp] theorem State.raiseIn_pending : (s.raiseIn delay code source die ctx detail).pending = s.pending := rfl
@[simp] theorem State.raiseIn_get (a b : Nat) : (s.raiseIn delay code source die ctx detail).get a b = s.get a b := rfl
@[simp] theorem State.raiseIn_unit (a : Nat) : (s.raiseIn delay code source die ctx detail).unit a = s.unit a := rfl
@[simp] theorem State.raiseIn_array (a : Nat) : (s.raiseIn delay code source die ctx detail).array a = s.array a := rfl
@[simp] theorem State.raiseIn_engine (a : Nat) : (s.raiseIn delay code source die ctx detail).engine a = s.engine a := rfl
@[simp] theorem State.raiseIn_filigree (a : Nat) : (s.raiseIn delay code source die ctx detail).filigree a = s.filigree a := rfl
@[simp] theorem State.raiseIn_port (a : Nat) : (s.raiseIn delay code source die ctx detail).port a = s.port a := rfl
@[simp] theorem State.raiseIn_core (a : Nat) : (s.raiseIn delay code source die ctx detail).core a = s.core a := rfl
@[simp] theorem State.raiseIn_box (a : Nat) : (s.raiseIn delay code source die ctx detail).box a = s.box a := rfl
@[simp] theorem State.raiseIn_uctx (a : Nat) : (s.raiseIn delay code source die ctx detail).uctx a = s.uctx a := rfl
@[simp] theorem State.raiseIn_hbmRead (a b : Nat) : (s.raiseIn delay code source die ctx detail).hbmRead a b = s.hbmRead a b := rfl
@[simp] theorem State.raiseIn_opRead (a b c : Nat) : (s.raiseIn delay code source die ctx detail).opRead a b c = s.opRead a b c := rfl

end

/-! ### State.raise -/

section
variable (s : State) (code source die ctx detail : Nat)

@[simp] theorem State.raise_clock : (s.raise code source die ctx detail).clock = s.clock := rfl
@[simp] theorem State.raise_dict : (s.raise code source die ctx detail).dict = s.dict := rfl
@[simp] theorem State.raise_units : (s.raise code source die ctx detail).units = s.units := rfl
@[simp] theorem State.raise_arrays : (s.raise code source die ctx detail).arrays = s.arrays := rfl
@[simp] theorem State.raise_sorus : (s.raise code source die ctx detail).sorus = s.sorus := rfl
@[simp] theorem State.raise_filigrees : (s.raise code source die ctx detail).filigrees = s.filigrees := rfl
@[simp] theorem State.raise_program : (s.raise code source die ctx detail).program = s.program := rfl
@[simp] theorem State.raise_mem : (s.raise code source die ctx detail).mem = s.mem := rfl
@[simp] theorem State.raise_traffic : (s.raise code source die ctx detail).traffic = s.traffic := rfl
@[simp] theorem State.raise_fabric : (s.raise code source die ctx detail).fabric = s.fabric := rfl
@[simp] theorem State.raise_commit : (s.raise code source die ctx detail).commit = s.commit := rfl
@[simp] theorem State.raise_locket : (s.raise code source die ctx detail).locket = s.locket := rfl
@[simp] theorem State.raise_thallus : (s.raise code source die ctx detail).thallus = s.thallus := rfl
@[simp] theorem State.raise_power : (s.raise code source die ctx detail).power = s.power := rfl
@[simp] theorem State.raise_server : (s.raise code source die ctx detail).server = s.server := rfl
@[simp] theorem State.raise_security : (s.raise code source die ctx detail).security = s.security := rfl
@[simp] theorem State.raise_domains : (s.raise code source die ctx detail).domains = s.domains := rfl
@[simp] theorem State.raise_freeCount : (s.raise code source die ctx detail).freeCount = s.freeCount := rfl
@[simp] theorem State.raise_pending : (s.raise code source die ctx detail).pending = s.pending := rfl
@[simp] theorem State.raise_get (a b : Nat) : (s.raise code source die ctx detail).get a b = s.get a b := rfl
@[simp] theorem State.raise_unit (a : Nat) : (s.raise code source die ctx detail).unit a = s.unit a := rfl
@[simp] theorem State.raise_array (a : Nat) : (s.raise code source die ctx detail).array a = s.array a := rfl
@[simp] theorem State.raise_engine (a : Nat) : (s.raise code source die ctx detail).engine a = s.engine a := rfl
@[simp] theorem State.raise_filigree (a : Nat) : (s.raise code source die ctx detail).filigree a = s.filigree a := rfl
@[simp] theorem State.raise_port (a : Nat) : (s.raise code source die ctx detail).port a = s.port a := rfl
@[simp] theorem State.raise_core (a : Nat) : (s.raise code source die ctx detail).core a = s.core a := rfl
@[simp] theorem State.raise_box (a : Nat) : (s.raise code source die ctx detail).box a = s.box a := rfl
@[simp] theorem State.raise_uctx (a : Nat) : (s.raise code source die ctx detail).uctx a = s.uctx a := rfl
@[simp] theorem State.raise_hbmRead (a b : Nat) : (s.raise code source die ctx detail).hbmRead a b = s.hbmRead a b := rfl
@[simp] theorem State.raise_opRead (a b c : Nat) : (s.raise code source die ctx detail).opRead a b c = s.opRead a b c := rfl

end

/-! ### State.raiseTick -/

section
variable (s : State) (code source die ctx detail : Nat)

@[simp] theorem State.raiseTick_clock : (s.raiseTick code source die ctx detail).clock = s.clock := rfl
@[simp] theorem State.raiseTick_dict : (s.raiseTick code source die ctx detail).dict = s.dict := rfl
@[simp] theorem State.raiseTick_units : (s.raiseTick code source die ctx detail).units = s.units := rfl
@[simp] theorem State.raiseTick_arrays : (s.raiseTick code source die ctx detail).arrays = s.arrays := rfl
@[simp] theorem State.raiseTick_sorus : (s.raiseTick code source die ctx detail).sorus = s.sorus := rfl
@[simp] theorem State.raiseTick_filigrees : (s.raiseTick code source die ctx detail).filigrees = s.filigrees := rfl
@[simp] theorem State.raiseTick_program : (s.raiseTick code source die ctx detail).program = s.program := rfl
@[simp] theorem State.raiseTick_mem : (s.raiseTick code source die ctx detail).mem = s.mem := rfl
@[simp] theorem State.raiseTick_traffic : (s.raiseTick code source die ctx detail).traffic = s.traffic := rfl
@[simp] theorem State.raiseTick_fabric : (s.raiseTick code source die ctx detail).fabric = s.fabric := rfl
@[simp] theorem State.raiseTick_commit : (s.raiseTick code source die ctx detail).commit = s.commit := rfl
@[simp] theorem State.raiseTick_locket : (s.raiseTick code source die ctx detail).locket = s.locket := rfl
@[simp] theorem State.raiseTick_thallus : (s.raiseTick code source die ctx detail).thallus = s.thallus := rfl
@[simp] theorem State.raiseTick_power : (s.raiseTick code source die ctx detail).power = s.power := rfl
@[simp] theorem State.raiseTick_server : (s.raiseTick code source die ctx detail).server = s.server := rfl
@[simp] theorem State.raiseTick_security : (s.raiseTick code source die ctx detail).security = s.security := rfl
@[simp] theorem State.raiseTick_domains : (s.raiseTick code source die ctx detail).domains = s.domains := rfl
@[simp] theorem State.raiseTick_freeCount : (s.raiseTick code source die ctx detail).freeCount = s.freeCount := rfl
@[simp] theorem State.raiseTick_pending : (s.raiseTick code source die ctx detail).pending = s.pending := rfl
@[simp] theorem State.raiseTick_get (a b : Nat) : (s.raiseTick code source die ctx detail).get a b = s.get a b := rfl
@[simp] theorem State.raiseTick_unit (a : Nat) : (s.raiseTick code source die ctx detail).unit a = s.unit a := rfl
@[simp] theorem State.raiseTick_array (a : Nat) : (s.raiseTick code source die ctx detail).array a = s.array a := rfl
@[simp] theorem State.raiseTick_engine (a : Nat) : (s.raiseTick code source die ctx detail).engine a = s.engine a := rfl
@[simp] theorem State.raiseTick_filigree (a : Nat) : (s.raiseTick code source die ctx detail).filigree a = s.filigree a := rfl
@[simp] theorem State.raiseTick_port (a : Nat) : (s.raiseTick code source die ctx detail).port a = s.port a := rfl
@[simp] theorem State.raiseTick_core (a : Nat) : (s.raiseTick code source die ctx detail).core a = s.core a := rfl
@[simp] theorem State.raiseTick_box (a : Nat) : (s.raiseTick code source die ctx detail).box a = s.box a := rfl
@[simp] theorem State.raiseTick_uctx (a : Nat) : (s.raiseTick code source die ctx detail).uctx a = s.uctx a := rfl
@[simp] theorem State.raiseTick_hbmRead (a b : Nat) : (s.raiseTick code source die ctx detail).hbmRead a b = s.hbmRead a b := rfl
@[simp] theorem State.raiseTick_opRead (a b c : Nat) : (s.raiseTick code source die ctx detail).opRead a b c = s.opRead a b c := rfl

end

/-! ### State.setSlice -/

section
variable (s : State) (k : Nat) (l : List Line)

@[simp] theorem State.setSlice_clock : (s.setSlice k l).clock = s.clock := rfl
@[simp] theorem State.setSlice_dict : (s.setSlice k l).dict = s.dict := rfl
@[simp] theorem State.setSlice_units : (s.setSlice k l).units = s.units := rfl
@[simp] theorem State.setSlice_arrays : (s.setSlice k l).arrays = s.arrays := rfl
@[simp] theorem State.setSlice_sorus : (s.setSlice k l).sorus = s.sorus := rfl
@[simp] theorem State.setSlice_filigrees : (s.setSlice k l).filigrees = s.filigrees := rfl
@[simp] theorem State.setSlice_program : (s.setSlice k l).program = s.program := rfl
@[simp] theorem State.setSlice_faults : (s.setSlice k l).faults = s.faults := rfl
@[simp] theorem State.setSlice_traffic : (s.setSlice k l).traffic = s.traffic := rfl
@[simp] theorem State.setSlice_fabric : (s.setSlice k l).fabric = s.fabric := rfl
@[simp] theorem State.setSlice_commit : (s.setSlice k l).commit = s.commit := rfl
@[simp] theorem State.setSlice_locket : (s.setSlice k l).locket = s.locket := rfl
@[simp] theorem State.setSlice_thallus : (s.setSlice k l).thallus = s.thallus := rfl
@[simp] theorem State.setSlice_power : (s.setSlice k l).power = s.power := rfl
@[simp] theorem State.setSlice_server : (s.setSlice k l).server = s.server := rfl
@[simp] theorem State.setSlice_security : (s.setSlice k l).security = s.security := rfl
@[simp] theorem State.setSlice_domains : (s.setSlice k l).domains = s.domains := rfl
@[simp] theorem State.setSlice_freeCount : (s.setSlice k l).freeCount = s.freeCount := rfl
@[simp] theorem State.setSlice_pending : (s.setSlice k l).pending = s.pending := rfl
@[simp] theorem State.setSlice_get (a b : Nat) : (s.setSlice k l).get a b = s.get a b := rfl
@[simp] theorem State.setSlice_unit (a : Nat) : (s.setSlice k l).unit a = s.unit a := rfl
@[simp] theorem State.setSlice_array (a : Nat) : (s.setSlice k l).array a = s.array a := rfl
@[simp] theorem State.setSlice_engine (a : Nat) : (s.setSlice k l).engine a = s.engine a := rfl
@[simp] theorem State.setSlice_filigree (a : Nat) : (s.setSlice k l).filigree a = s.filigree a := rfl
@[simp] theorem State.setSlice_port (a : Nat) : (s.setSlice k l).port a = s.port a := rfl
@[simp] theorem State.setSlice_core (a : Nat) : (s.setSlice k l).core a = s.core a := rfl
@[simp] theorem State.setSlice_box (a : Nat) : (s.setSlice k l).box a = s.box a := rfl
@[simp] theorem State.setSlice_uctx (a : Nat) : (s.setSlice k l).uctx a = s.uctx a := rfl
@[simp] theorem State.setSlice_hbmRead (a b : Nat) : (s.setSlice k l).hbmRead a b = s.hbmRead a b := rfl
@[simp] theorem State.setSlice_opRead (a b c : Nat) : (s.setSlice k l).opRead a b c = s.opRead a b c := rfl

end

/-! ### State.poisonOp -/

section
variable (s : State) (d off len : Nat)

@[simp] theorem State.poisonOp_clock : (s.poisonOp d off len).clock = s.clock := rfl
@[simp] theorem State.poisonOp_dict : (s.poisonOp d off len).dict = s.dict := rfl
@[simp] theorem State.poisonOp_units : (s.poisonOp d off len).units = s.units := rfl
@[simp] theorem State.poisonOp_arrays : (s.poisonOp d off len).arrays = s.arrays := rfl
@[simp] theorem State.poisonOp_sorus : (s.poisonOp d off len).sorus = s.sorus := rfl
@[simp] theorem State.poisonOp_filigrees : (s.poisonOp d off len).filigrees = s.filigrees := rfl
@[simp] theorem State.poisonOp_program : (s.poisonOp d off len).program = s.program := rfl
@[simp] theorem State.poisonOp_faults : (s.poisonOp d off len).faults = s.faults := rfl
@[simp] theorem State.poisonOp_traffic : (s.poisonOp d off len).traffic = s.traffic := rfl
@[simp] theorem State.poisonOp_fabric : (s.poisonOp d off len).fabric = s.fabric := rfl
@[simp] theorem State.poisonOp_commit : (s.poisonOp d off len).commit = s.commit := rfl
@[simp] theorem State.poisonOp_locket : (s.poisonOp d off len).locket = s.locket := rfl
@[simp] theorem State.poisonOp_thallus : (s.poisonOp d off len).thallus = s.thallus := rfl
@[simp] theorem State.poisonOp_power : (s.poisonOp d off len).power = s.power := rfl
@[simp] theorem State.poisonOp_server : (s.poisonOp d off len).server = s.server := rfl
@[simp] theorem State.poisonOp_security : (s.poisonOp d off len).security = s.security := rfl
@[simp] theorem State.poisonOp_domains : (s.poisonOp d off len).domains = s.domains := rfl
@[simp] theorem State.poisonOp_freeCount : (s.poisonOp d off len).freeCount = s.freeCount := rfl
@[simp] theorem State.poisonOp_pending : (s.poisonOp d off len).pending = s.pending := rfl
@[simp] theorem State.poisonOp_get (a b : Nat) : (s.poisonOp d off len).get a b = s.get a b := rfl
@[simp] theorem State.poisonOp_unit (a : Nat) : (s.poisonOp d off len).unit a = s.unit a := rfl
@[simp] theorem State.poisonOp_array (a : Nat) : (s.poisonOp d off len).array a = s.array a := rfl
@[simp] theorem State.poisonOp_engine (a : Nat) : (s.poisonOp d off len).engine a = s.engine a := rfl
@[simp] theorem State.poisonOp_filigree (a : Nat) : (s.poisonOp d off len).filigree a = s.filigree a := rfl
@[simp] theorem State.poisonOp_port (a : Nat) : (s.poisonOp d off len).port a = s.port a := rfl
@[simp] theorem State.poisonOp_core (a : Nat) : (s.poisonOp d off len).core a = s.core a := rfl
@[simp] theorem State.poisonOp_box (a : Nat) : (s.poisonOp d off len).box a = s.box a := rfl
@[simp] theorem State.poisonOp_uctx (a : Nat) : (s.poisonOp d off len).uctx a = s.uctx a := rfl
@[simp] theorem State.poisonOp_hbmRead (a b : Nat) : (s.poisonOp d off len).hbmRead a b = s.hbmRead a b := rfl
@[simp] theorem State.poisonOp_opRead (a b c : Nat) : (s.poisonOp d off len).opRead a b c = s.opRead a b c := rfl

end

/-! ### State.poisonHbm -/

section
variable (s : State) (a len : Nat)

@[simp] theorem State.poisonHbm_clock : (s.poisonHbm a len).clock = s.clock := rfl
@[simp] theorem State.poisonHbm_dict : (s.poisonHbm a len).dict = s.dict := rfl
@[simp] theorem State.poisonHbm_units : (s.poisonHbm a len).units = s.units := rfl
@[simp] theorem State.poisonHbm_arrays : (s.poisonHbm a len).arrays = s.arrays := rfl
@[simp] theorem State.poisonHbm_sorus : (s.poisonHbm a len).sorus = s.sorus := rfl
@[simp] theorem State.poisonHbm_filigrees : (s.poisonHbm a len).filigrees = s.filigrees := rfl
@[simp] theorem State.poisonHbm_program : (s.poisonHbm a len).program = s.program := rfl
@[simp] theorem State.poisonHbm_faults : (s.poisonHbm a len).faults = s.faults := rfl
@[simp] theorem State.poisonHbm_traffic : (s.poisonHbm a len).traffic = s.traffic := rfl
@[simp] theorem State.poisonHbm_fabric : (s.poisonHbm a len).fabric = s.fabric := rfl
@[simp] theorem State.poisonHbm_commit : (s.poisonHbm a len).commit = s.commit := rfl
@[simp] theorem State.poisonHbm_locket : (s.poisonHbm a len).locket = s.locket := rfl
@[simp] theorem State.poisonHbm_thallus : (s.poisonHbm a len).thallus = s.thallus := rfl
@[simp] theorem State.poisonHbm_power : (s.poisonHbm a len).power = s.power := rfl
@[simp] theorem State.poisonHbm_server : (s.poisonHbm a len).server = s.server := rfl
@[simp] theorem State.poisonHbm_security : (s.poisonHbm a len).security = s.security := rfl
@[simp] theorem State.poisonHbm_domains : (s.poisonHbm a len).domains = s.domains := rfl
@[simp] theorem State.poisonHbm_freeCount : (s.poisonHbm a len).freeCount = s.freeCount := rfl
@[simp] theorem State.poisonHbm_pending : (s.poisonHbm a len).pending = s.pending := rfl
@[simp] theorem State.poisonHbm_get (a b : Nat) : (s.poisonHbm a len).get a b = s.get a b := rfl
@[simp] theorem State.poisonHbm_unit (a : Nat) : (s.poisonHbm a len).unit a = s.unit a := rfl
@[simp] theorem State.poisonHbm_array (a : Nat) : (s.poisonHbm a len).array a = s.array a := rfl
@[simp] theorem State.poisonHbm_engine (a : Nat) : (s.poisonHbm a len).engine a = s.engine a := rfl
@[simp] theorem State.poisonHbm_filigree (a : Nat) : (s.poisonHbm a len).filigree a = s.filigree a := rfl
@[simp] theorem State.poisonHbm_port (a : Nat) : (s.poisonHbm a len).port a = s.port a := rfl
@[simp] theorem State.poisonHbm_core (a : Nat) : (s.poisonHbm a len).core a = s.core a := rfl
@[simp] theorem State.poisonHbm_box (a : Nat) : (s.poisonHbm a len).box a = s.box a := rfl
@[simp] theorem State.poisonHbm_uctx (a : Nat) : (s.poisonHbm a len).uctx a = s.uctx a := rfl
@[simp] theorem State.poisonHbm_hbmRead (a b : Nat) : (s.poisonHbm a len).hbmRead a b = s.hbmRead a b := rfl
@[simp] theorem State.poisonHbm_opRead (a b c : Nat) : (s.poisonHbm a len).opRead a b c = s.opRead a b c := rfl

end

/-! ### State.draw -/

section
variable (s : State)

@[simp] theorem State.draw_clock : (s.draw.2).clock = s.clock := rfl
@[simp] theorem State.draw_dict : (s.draw.2).dict = s.dict := rfl
@[simp] theorem State.draw_units : (s.draw.2).units = s.units := rfl
@[simp] theorem State.draw_arrays : (s.draw.2).arrays = s.arrays := rfl
@[simp] theorem State.draw_sorus : (s.draw.2).sorus = s.sorus := rfl
@[simp] theorem State.draw_filigrees : (s.draw.2).filigrees = s.filigrees := rfl
@[simp] theorem State.draw_program : (s.draw.2).program = s.program := rfl
@[simp] theorem State.draw_faults : (s.draw.2).faults = s.faults := rfl
@[simp] theorem State.draw_mem : (s.draw.2).mem = s.mem := rfl
@[simp] theorem State.draw_traffic : (s.draw.2).traffic = s.traffic := rfl
@[simp] theorem State.draw_fabric : (s.draw.2).fabric = s.fabric := rfl
@[simp] theorem State.draw_commit : (s.draw.2).commit = s.commit := rfl
@[simp] theorem State.draw_locket : (s.draw.2).locket = s.locket := rfl
@[simp] theorem State.draw_thallus : (s.draw.2).thallus = s.thallus := rfl
@[simp] theorem State.draw_power : (s.draw.2).power = s.power := rfl
@[simp] theorem State.draw_server : (s.draw.2).server = s.server := rfl
@[simp] theorem State.draw_security : (s.draw.2).security = s.security := rfl
@[simp] theorem State.draw_domains : (s.draw.2).domains = s.domains := rfl
@[simp] theorem State.draw_pending : (s.draw.2).pending = s.pending := rfl
@[simp] theorem State.draw_get (a b : Nat) : (s.draw.2).get a b = s.get a b := rfl
@[simp] theorem State.draw_unit (a : Nat) : (s.draw.2).unit a = s.unit a := rfl
@[simp] theorem State.draw_array (a : Nat) : (s.draw.2).array a = s.array a := rfl
@[simp] theorem State.draw_engine (a : Nat) : (s.draw.2).engine a = s.engine a := rfl
@[simp] theorem State.draw_filigree (a : Nat) : (s.draw.2).filigree a = s.filigree a := rfl
@[simp] theorem State.draw_port (a : Nat) : (s.draw.2).port a = s.port a := rfl
@[simp] theorem State.draw_core (a : Nat) : (s.draw.2).core a = s.core a := rfl
@[simp] theorem State.draw_box (a : Nat) : (s.draw.2).box a = s.box a := rfl
@[simp] theorem State.draw_uctx (a : Nat) : (s.draw.2).uctx a = s.uctx a := rfl
@[simp] theorem State.draw_hbmRead (a b : Nat) : (s.draw.2).hbmRead a b = s.hbmRead a b := rfl
@[simp] theorem State.draw_opRead (a b c : Nat) : (s.draw.2).opRead a b c = s.opRead a b c := rfl

end

/-! ### State.setSorus -/

section
variable (s : State) (d : Nat) (x : Sorus)

@[simp] theorem State.setSorus_clock : (s.setSorus d x).clock = s.clock := rfl
@[simp] theorem State.setSorus_dict : (s.setSorus d x).dict = s.dict := rfl
@[simp] theorem State.setSorus_units : (s.setSorus d x).units = s.units := rfl
@[simp] theorem State.setSorus_arrays : (s.setSorus d x).arrays = s.arrays := rfl
@[simp] theorem State.setSorus_filigrees : (s.setSorus d x).filigrees = s.filigrees := rfl
@[simp] theorem State.setSorus_program : (s.setSorus d x).program = s.program := rfl
@[simp] theorem State.setSorus_faults : (s.setSorus d x).faults = s.faults := rfl
@[simp] theorem State.setSorus_mem : (s.setSorus d x).mem = s.mem := rfl
@[simp] theorem State.setSorus_traffic : (s.setSorus d x).traffic = s.traffic := rfl
@[simp] theorem State.setSorus_fabric : (s.setSorus d x).fabric = s.fabric := rfl
@[simp] theorem State.setSorus_commit : (s.setSorus d x).commit = s.commit := rfl
@[simp] theorem State.setSorus_locket : (s.setSorus d x).locket = s.locket := rfl
@[simp] theorem State.setSorus_thallus : (s.setSorus d x).thallus = s.thallus := rfl
@[simp] theorem State.setSorus_power : (s.setSorus d x).power = s.power := rfl
@[simp] theorem State.setSorus_server : (s.setSorus d x).server = s.server := rfl
@[simp] theorem State.setSorus_security : (s.setSorus d x).security = s.security := rfl
@[simp] theorem State.setSorus_domains : (s.setSorus d x).domains = s.domains := rfl
@[simp] theorem State.setSorus_freeCount : (s.setSorus d x).freeCount = s.freeCount := rfl
@[simp] theorem State.setSorus_pending : (s.setSorus d x).pending = s.pending := rfl
@[simp] theorem State.setSorus_get (a b : Nat) : (s.setSorus d x).get a b = s.get a b := rfl
@[simp] theorem State.setSorus_unit (a : Nat) : (s.setSorus d x).unit a = s.unit a := rfl
@[simp] theorem State.setSorus_array (a : Nat) : (s.setSorus d x).array a = s.array a := rfl
@[simp] theorem State.setSorus_filigree (a : Nat) : (s.setSorus d x).filigree a = s.filigree a := rfl
@[simp] theorem State.setSorus_port (a : Nat) : (s.setSorus d x).port a = s.port a := rfl
@[simp] theorem State.setSorus_core (a : Nat) : (s.setSorus d x).core a = s.core a := rfl
@[simp] theorem State.setSorus_box (a : Nat) : (s.setSorus d x).box a = s.box a := rfl
@[simp] theorem State.setSorus_uctx (a : Nat) : (s.setSorus d x).uctx a = s.uctx a := rfl
@[simp] theorem State.setSorus_hbmRead (a b : Nat) : (s.setSorus d x).hbmRead a b = s.hbmRead a b := rfl
@[simp] theorem State.setSorus_opRead (a b c : Nat) : (s.setSorus d x).opRead a b c = s.opRead a b c := rfl

end

/-! ### State.setThread -/

section
variable (s : State) (c core : Nat) (x : Thread)

@[simp] theorem State.setThread_clock : (s.setThread c core x).clock = s.clock := rfl
@[simp] theorem State.setThread_dict : (s.setThread c core x).dict = s.dict := rfl
@[simp] theorem State.setThread_units : (s.setThread c core x).units = s.units := rfl
@[simp] theorem State.setThread_arrays : (s.setThread c core x).arrays = s.arrays := rfl
@[simp] theorem State.setThread_sorus : (s.setThread c core x).sorus = s.sorus := rfl
@[simp] theorem State.setThread_filigrees : (s.setThread c core x).filigrees = s.filigrees := rfl
@[simp] theorem State.setThread_program : (s.setThread c core x).program = s.program := rfl
@[simp] theorem State.setThread_faults : (s.setThread c core x).faults = s.faults := rfl
@[simp] theorem State.setThread_mem : (s.setThread c core x).mem = s.mem := rfl
@[simp] theorem State.setThread_traffic : (s.setThread c core x).traffic = s.traffic := rfl
@[simp] theorem State.setThread_fabric : (s.setThread c core x).fabric = s.fabric := rfl
@[simp] theorem State.setThread_commit : (s.setThread c core x).commit = s.commit := rfl
@[simp] theorem State.setThread_locket : (s.setThread c core x).locket = s.locket := rfl
@[simp] theorem State.setThread_power : (s.setThread c core x).power = s.power := rfl
@[simp] theorem State.setThread_server : (s.setThread c core x).server = s.server := rfl
@[simp] theorem State.setThread_security : (s.setThread c core x).security = s.security := rfl
@[simp] theorem State.setThread_domains : (s.setThread c core x).domains = s.domains := rfl
@[simp] theorem State.setThread_freeCount : (s.setThread c core x).freeCount = s.freeCount := rfl
@[simp] theorem State.setThread_pending : (s.setThread c core x).pending = s.pending := rfl
@[simp] theorem State.setThread_get (a b : Nat) : (s.setThread c core x).get a b = s.get a b := rfl
@[simp] theorem State.setThread_unit (a : Nat) : (s.setThread c core x).unit a = s.unit a := rfl
@[simp] theorem State.setThread_array (a : Nat) : (s.setThread c core x).array a = s.array a := rfl
@[simp] theorem State.setThread_engine (a : Nat) : (s.setThread c core x).engine a = s.engine a := rfl
@[simp] theorem State.setThread_filigree (a : Nat) : (s.setThread c core x).filigree a = s.filigree a := rfl
@[simp] theorem State.setThread_port (a : Nat) : (s.setThread c core x).port a = s.port a := rfl
@[simp] theorem State.setThread_core (a : Nat) : (s.setThread c core x).core a = s.core a := rfl
@[simp] theorem State.setThread_box (a : Nat) : (s.setThread c core x).box a = s.box a := rfl
@[simp] theorem State.setThread_hbmRead (a b : Nat) : (s.setThread c core x).hbmRead a b = s.hbmRead a b := rfl
@[simp] theorem State.setThread_opRead (a b e : Nat) : (s.setThread c core x).opRead a b e = s.opRead a b e := rfl

end

/-! ### Reads of what was stored -/

@[simp] theorem State.setUnit_unit_same (s : State) (u : Nat) (x : UnitState) : (s.setUnit u x).unit u = x := kget_kset_same _ _ _ _
theorem State.setUnit_unit_other (s : State) (u : Nat) (x : UnitState) {v : Nat} (h : v ≠ u) : (s.setUnit u x).unit v = s.unit v := kget_kset_other _ _ _ h
@[simp] theorem State.setArray_array_same (s : State) (u : Nat) (x : ArrayRegs) : (s.setArray u x).array u = x := kget_kset_same _ _ _ _
theorem State.setArray_array_other (s : State) (u : Nat) (x : ArrayRegs) {v : Nat} (h : v ≠ u) : (s.setArray u x).array v = s.array v := kget_kset_other _ _ _ h
@[simp] theorem State.setSorus_engine_same (s : State) (d : Nat) (x : Sorus) : (s.setSorus d x).engine d = x := kget_kset_same _ _ _ _
theorem State.setSorus_engine_other (s : State) (d : Nat) (x : Sorus) {e : Nat} (h : e ≠ d) : (s.setSorus d x).engine e = s.engine e := kget_kset_other _ _ _ h
@[simp] theorem State.setFiligree_filigree_same (s : State) (u : Nat) (x : Filigree) : (s.setFiligree u x).filigree u = x := kget_kset_same _ _ _ _
theorem State.setFiligree_filigree_other (s : State) (u : Nat) (x : Filigree) {v : Nat} (h : v ≠ u) : (s.setFiligree u x).filigree v = s.filigree v := kget_kset_other _ _ _ h
@[simp] theorem State.setPort_port_same (s : State) (u : Nat) (x : Port) : (s.setPort u x).port u = x := kget_kset_same _ _ _ _
theorem State.setPort_port_other (s : State) (u : Nat) (x : Port) {v : Nat} (h : v ≠ u) : (s.setPort u x).port v = s.port v := kget_kset_other _ _ _ h
@[simp] theorem State.setCore_core_same (s : State) (u : Nat) (x : CoreState) : (s.setCore u x).core u = x := kget_kset_same _ _ _ _
theorem State.setCore_core_other (s : State) (u : Nat) (x : CoreState) {v : Nat} (h : v ≠ u) : (s.setCore u x).core v = s.core v := kget_kset_other _ _ _ h
@[simp] theorem State.setBox_box_same (s : State) (u : Nat) (x : Mailbox) : (s.setBox u x).box u = x := kget_kset_same _ _ _ _
theorem State.setBox_box_other (s : State) (u : Nat) (x : Mailbox) {v : Nat} (h : v ≠ u) : (s.setBox u x).box v = s.box v := kget_kset_other _ _ _ h
@[simp] theorem State.setUctx_uctx_same (s : State) (u : Nat) (x : UserCtx) : (s.setUctx u x).uctx u = x := kget_kset_same _ _ _ _
theorem State.setUctx_uctx_other (s : State) (u : Nat) (x : UserCtx) {v : Nat} (h : v ≠ u) : (s.setUctx u x).uctx v = s.uctx v := kget_kset_other _ _ _ h
@[simp] theorem State.put_get_same (s : State) (index sub v : Nat) : (s.put index sub v).get index sub = v := by
  unfold State.get State.put
  generalize objKey index sub = k
  generalize objDefault k = d
  exact kget_kset_same d s.dict k v
theorem State.put_get_other (s : State) (index sub v : Nat) {i j : Nat} (h : objKey i j ≠ objKey index sub) :
    (s.put index sub v).get i j = s.get i j := by
  unfold State.get State.put
  generalize objKey index sub = k at *
  generalize objKey i j = l at *
  generalize objDefault k = d
  exact kget_kset_other_at _ d s.dict v h
@[simp] theorem State.onUnit_unit_same (s : State) (u : Nat) (f : UnitState → UnitState) :
    (s.onUnit u f).unit u = f (s.unit u) := kget_kset_same _ _ _ _
theorem State.onUnit_unit_other (s : State) (u : Nat) (f : UnitState → UnitState) {v : Nat} (h : v ≠ u) :
    (s.onUnit u f).unit v = s.unit v := kget_kset_other _ _ _ h

end Sys2Proof.Machine
end

