-- ==== Sys2Proof/Laws/Gate.lean ====
section
/-! SUPPORT. The gates that every command passes, once each: the gate of a stream command, the way of a flit to the
command that takes it, a write by a role, and a call of a user thread. -/

namespace Sys2Proof.Machine

open Sys2Proof.Safety

/-- A command that nothing holds back takes effect on the state in which it is its unit's current one. -/
theorem State.gate_takes {op : Nat} {i : Issue} {s : State} (f : Issue → State → State) (h : TakesEffect op i s) :
    s.gate op i f = f i (s.current op i) := by
  obtain ⟨h1, h2, h3, h4, h5, h6, h7, h8, h9, h10⟩ := h
  simp [State.gate, h1, h2, h3, h4, h5, h6, h7, h8, h9, h10]

/-- A flit that arrives is given to its command, on the state in which the link has taken it. -/
theorem receive_arrives {p : Nat} {raw : List Byte} {mine : Flit → Bool} {s t : State} {f : Flit}
    (act : Nat → Flit → State → State) (h : Arrives p raw mine s f t) : receive p raw mine act s = act p f t := by
  obtain ⟨hon, ⟨rfl, hh, hm, rfl, rfl⟩ | ⟨hp, hup, hi, hok, hm, hty, hseq, rfl, h⟩⟩ := h
  · simp only [receive, hon, hh, hm, Bool.not_true, Bool.false_eq_true, if_false, if_true, beq_self_eq_true, Bool.and_self]
  · have h17 : p ≠ 17 := by omega
    have h16 : ¬(16 < p ∨ (!s.up p) = true) := by rw [hup]; simp; omega
    obtain ⟨hc, rfl⟩ | ⟨hc, rfl, rfl⟩ | ⟨hc, hne, hper, rfl, hd⟩ := h
    · simp only [receive, hon, hi, hok, hm, hseq, hc, h17, h16, Bool.not_true, Bool.false_eq_true, if_false, if_true,
        Bool.and_false, ne_eq, not_true_eq_false]
      simp
    · simp only [receive, hon, hi, hok, hm, hseq, hc, h17, h16, Bool.not_true, Bool.false_eq_true, if_false, if_true,
        Bool.and_false, hty, false_and, ne_eq, not_true_eq_false]
    · obtain hd | hd | ⟨hd, hs⟩ := hd
      · simp only [receive, hon, hi, hok, hm, hseq, hd, h17, h16, hne, hper, Bool.not_true, Bool.false_eq_true, if_false,
          Bool.and_false, ne_eq, not_true_eq_false]
        simp
      · simp only [receive, hon, hi, hok, hm, hseq, hd, h17, h16, hne, hper, Bool.not_true, Bool.false_eq_true, if_false,
          Bool.and_false, ne_eq, not_true_eq_false]
        simp
      · rw [hs] at hper
        simp only [receive, hon, hi, hok, hm, hseq, hc, h17, h16, hne, hd, hs, Bool.not_true, Bool.false_eq_true,
          if_false, if_true, Bool.and_false, hty, false_and, ne_eq, not_true_eq_false]
        simp [hper]

/-- A write that the role may make has its effect, and its answer is counted (R387, R396). -/
theorem State.byRole_may {s : State} {role : Role} {index sub : Nat} (f : State → State × Nat)
    (h : MayWrite s role index sub) : s.byRole role index sub f = (f s).1.counted (f s).2 := by
  obtain ⟨h1, h2⟩ := h
  simp [State.byRole, h1, h2]

/-- The same for a write of a number that its type holds. -/
theorem State.command_may {s : State} {role : Role} {index sub v : Nat} (f : Nat → State → State × Nat)
    (h : MayWrite s role index sub) (hv : v < objLimit index sub) :
    s.command role index sub v f = (f v s).1.counted (f v s).2 := by
  rw [State.command, State.byRole_may _ h, if_pos hv]

/-- An answer with status OK adds to the answers and to nothing else. -/
theorem State.counted_ok (s : State) : s.counted 0 = s.count 0x1004 1 1 := rfl

/-- A call from a core with a user thread runs for the thread's context. -/
theorem State.call_from {s : State} {core c : Nat} (f : Nat → State → State) (h : CallsFrom s core c) :
    s.call core f = f c s := by
  unfold State.call
  rw [h]

/-- The unit runs what it has taken up. -/
theorem State.startWork_works (s : State) (op : Nat) (i : Issue) (left : Option Nat) (load : Load) :
    Works (s.startWork op i left load) i.unit op i (if (s.unit i.unit).stalled then none else left) load :=
  ⟨_, by rw [State.startWork, State.onUnit_unit_same], rfl, rfl, rfl, rfl⟩

end Sys2Proof.Machine
end

