-- ==== Sys2Proof/Laws/Memory.lean ====
section
/-! SUPPORT. Byte memories: every write keeps the canonical form, and what a read gives back after one. -/

namespace Sys2Proof.Machine

theorem Mem.unlisted_write (m : Mem) (a : Nat) (b : Byte) (c : Nat) : (m.write a b).unlisted c = m.unlisted c := rfl

theorem Mem.write_wf {m : Mem} (a : Nat) (b : Byte) (h : m.wf = true) : (m.write a b).wf = true := by
  simp only [Mem.wf, Bool.and_eq_true, List.all_eq_true, decide_eq_true_eq] at h ⊢
  simp only [Mem.unlisted_write]
  unfold Mem.write
  split
  · exact ⟨krising_filter _ h.1, fun q hq => h.2 q (List.mem_of_mem_filter hq)⟩
  · refine ⟨krising_kput a b h.1, fun q hq => ?_⟩
    rcases mem_kput hq with rfl | hq
    · assumption
    · exact h.2 q hq

theorem Mem.writeN_wf {m : Mem} (a : Nat) (l : List Byte) (h : m.wf = true) : (m.writeN a l).wf = true := by
  induction l generalizing m a with
  | nil => exact h
  | cons b t ih => exact ih (a + 1) (Mem.write_wf a b h)

theorem Mem.unlisted_havoc (m : Mem) (base len e c : Nat) (h : ¬(base ≤ c ∧ c < base + len)) :
    (m.havoc base len e).unlisted c = m.unlisted c := by
  have : (decide (base ≤ c) && decide (c < base + len)) = false := by
    simpa [Bool.and_eq_false_iff] using fun h1 => Nat.le_of_not_lt fun h2 => h ⟨h1, h2⟩
  simp only [Mem.unlisted, Mem.havoc, List.find?_cons, this]

theorem Mem.havoc_wf {m : Mem} (base len e : Nat) (h : m.wf = true) : (m.havoc base len e).wf = true := by
  simp only [Mem.wf, Bool.and_eq_true, List.all_eq_true, decide_eq_true_eq] at h ⊢
  refine ⟨krising_filter _ h.1, fun q hq => ?_⟩
  obtain ⟨hq, ho⟩ := List.mem_filter.1 hq
  simp only [Bool.or_eq_true, decide_eq_true_eq] at ho
  rw [Mem.unlisted_havoc _ _ _ _ _ (by omega)]
  exact h.2 q hq

theorem Mem.read_write_same (m : Mem) (a : Nat) (b : Byte) : (m.write a b).read a = b := by
  unfold Mem.read
  rw [Mem.unlisted_write]
  unfold Mem.write
  split
  · rename_i h; rw [kget_kdel_same, h]
  · exact kget_kput_same _ _ _ _

theorem Mem.read_write_other (m : Mem) {a c : Nat} (b : Byte) (h : c ≠ a) : (m.write a b).read c = m.read c := by
  unfold Mem.read
  rw [Mem.unlisted_write]
  unfold Mem.write
  split
  · exact kget_kdel_other _ _ h
  · exact kget_kput_other _ _ _ h

/-- A stored range leaves every address outside it as it was. -/
theorem Mem.read_writeN_outside (m : Mem) (a : Nat) (l : List Byte) {c : Nat} (h : c < a ∨ a + l.length ≤ c) :
    (m.writeN a l).read c = m.read c := by
  induction l generalizing m a with
  | nil => rfl
  | cons b t ih =>
    simp only [List.length_cons] at h
    rw [Mem.writeN, ih _ _ (by omega), Mem.read_write_other _ _ (by omega)]

/-- A stored range reads back as what was stored. -/
theorem Mem.read_writeN_inside (m : Mem) (a : Nat) (l : List Byte) (j : Nat) (h : j < l.length) :
    (m.writeN a l).read (a + j) = l[j] := by
  induction l generalizing m a j with
  | nil => simp at h
  | cons b t ih =>
    cases j with
    | zero => rw [Mem.writeN, Mem.read_writeN_outside _ _ _ (by omega)]; exact Mem.read_write_same m a b
    | succ k =>
      rw [Mem.writeN, show a + (k + 1) = (a + 1) + k by omega, ih _ _ _ (by simpa using h)]; rfl

/-- Bytes outside a region made unspecified stay as they were. -/
theorem Mem.read_havoc_outside (m : Mem) (base len e : Nat) {c : Nat} (h : c < base ∨ base + len ≤ c) :
    (m.havoc base len e).read c = m.read c := by
  unfold Mem.read
  rw [Mem.unlisted_havoc _ _ _ _ _ (by omega)]
  generalize m.unlisted c = d
  unfold Mem.havoc
  simp only
  induction m.cells with
  | nil => rfl
  | cons p t ih =>
    rw [List.filter_cons]
    split
    · simp only [kget, ih]
    · rename_i hp
      have : p.1 ≠ c := by rintro rfl; simp at hp; omega
      simp only [kget, if_neg this, ih]

theorem Mem.readN_length (m : Mem) (a n : Nat) : (m.readN a n).length = n := by
  induction n generalizing a with
  | zero => rfl
  | succ k ih => simp [Mem.readN, ih]

end Sys2Proof.Machine
end

