-- ==== Sys2Proof/Laws/KeepsBase.lean ====
section
/-! SUPPORT. What every command keeps (the queue as it is, the memories in canonical form), and how the parts of a
state hand it on. -/

namespace Sys2Proof.Machine
/-- What every command keeps: the queue as it is, and the memories in canonical form. -/
structure Keeps (s x : State) : Prop where
  queue : x.pending = s.pending
  wf : s.mem.wf = true → x.mem.wf = true
structure KeepsM (s : State) (m : Memory) : Prop where
  wf : s.mem.wf = true → m.wf = true
structure KeepsH (s : State) (m : Mem) : Prop where
  wf : s.mem.wf = true → m.wf = true
structure KeepsO (s : State) (m : List Mem) : Prop where
  wf : s.mem.wf = true → m.all Mem.wf = true
structure KeepsP (s : State) (l : List Instr) : Prop where
  eq : l = s.pending
theorem Keeps.refl (s : State) : Keeps s s := ⟨rfl, id⟩
theorem Keeps.state {s0 : State} {c d u a so fi p fa tr fb co lo th po se sec dom fc} {m : Memory} {pe : List Instr}
    (hp : KeepsP s0 pe) (hm : KeepsM s0 m) :
    Keeps s0 ⟨c, d, u, a, so, fi, p, fa, m, tr, fb, co, lo, th, po, se, sec, dom, fc, pe⟩ := ⟨hp.1, hm.1⟩
theorem KeepsP.of {s0 x : State} (h : Keeps s0 x) : KeepsP s0 x.pending := ⟨h.1⟩
theorem KeepsM.of {s0 x : State} (h : Keeps s0 x) : KeepsM s0 x.mem := ⟨h.2⟩
theorem KeepsH.of {s0 : State} {m : Memory} (h : KeepsM s0 m) : KeepsH s0 m.hbm := ⟨fun h0 => by
  have := h.1 h0; simp only [Memory.wf, Bool.and_eq_true] at this; exact this.1⟩
theorem KeepsO.of {s0 : State} {m : Memory} (h : KeepsM s0 m) : KeepsO s0 m.ops := ⟨fun h0 => by
  have := h.1 h0; simp only [Memory.wf, Bool.and_eq_true] at this; exact this.2⟩
theorem KeepsM.memory {s0 : State} {hbm : Mem} {ops : List Mem}
    {m0 m1 m2 m3 m4 m5 m6 m7 m8 m9 m10 m11 m12 m13 m14 m15 m16 m17 m18 m19 m20 m21 m22}
    (hh : KeepsH s0 hbm) (ho : KeepsO s0 ops) :
    KeepsM s0 (Memory.mk hbm ops m0 m1 m2 m3 m4 m5 m6 m7 m8 m9 m10 m11 m12 m13 m14 m15 m16 m17 m18 m19 m20 m21 m22) := ⟨fun h0 => by
  simp only [Memory.wf, Bool.and_eq_true]; exact ⟨hh.1 h0, ho.1 h0⟩⟩
theorem Keeps.foldl {s0 : State} {β : Type} {f : State → β → State} {l : List β} {x : State} (hx : Keeps s0 x)
    (hf : ∀ y b, Keeps s0 y → Keeps s0 (f y b)) : Keeps s0 (l.foldl f x) := by
  induction l generalizing x with
  | nil => exact hx
  | cons b t ih => exact ih (hf x b hx)
theorem Keeps.foldl_fst {s0 : State} {β γ : Type} {f : State × γ → β → State × γ} {l : List β} {x : State × γ} (hx : Keeps s0 x.1)
    (hf : ∀ y b, Keeps s0 y.1 → Keeps s0 (f y b).1) : Keeps s0 (l.foldl f x).1 := by
  induction l generalizing x with
  | nil => exact hx
  | cons b t ih => exact ih (hf x b hx)

theorem Mem.writeN_keeps {s0 : State} {m : Mem} {a l} (h : KeepsH s0 m) : KeepsH s0 (m.writeN a l) := ⟨fun h0 => Mem.writeN_wf a l (h.1 h0)⟩
theorem Mem.havoc_keeps {s0 : State} {m : Mem} {a l e} (h : KeepsH s0 m) : KeepsH s0 (m.havoc a l e) := ⟨fun h0 => Mem.havoc_wf a l e (h.1 h0)⟩
theorem KeepsO.set {s0 : State} {l : List Mem} {d m} (h : KeepsO s0 l) (hm : KeepsH s0 m) : KeepsO s0 (l.set d m) := ⟨fun h0 => by
  have := h.1 h0; have hm := hm.1 h0
  simp only [List.all_eq_true] at *
  intro x hx
  rcases List.mem_or_eq_of_mem_set hx with h1 | h1
  · exact this x h1
  · exact h1 ▸ hm⟩
theorem KeepsH.empty {s0 : State} : KeepsH s0 {} := ⟨fun _ => rfl⟩
theorem KeepsO.empty {s0 : State} : KeepsO s0 [{}, {}, {}] := ⟨fun _ => rfl⟩
theorem State.opStore_keeps {s0 s : State} {d} (h : Keeps s0 s) : KeepsH s0 (s.opStore d) := ⟨fun h0 => by
  have := (KeepsO.of (KeepsM.of h)).1 h0
  unfold State.opStore
  rw [List.getD_eq_getElem?_getD]
  cases e : s.mem.ops[d]? with
  | none => rfl
  | some m => simp only [List.all_eq_true] at this; exact this m (List.mem_of_getElem? e)⟩
theorem Keeps.ite {s0 a b : State} {c : Prop} [Decidable c] (ha : Keeps s0 a) (hb : Keeps s0 b) : Keeps s0 (if c then a else b) := by
  split <;> assumption
theorem Keeps.ite_fst {s0 : State} {α : Type} {a b : State × α} {c : Prop} [Decidable c] (ha : Keeps s0 a.1) (hb : Keeps s0 b.1) :
    Keeps s0 (if c then a else b).1 := by
  split <;> assumption
/-- What an optional state keeps where there is one. -/
structure KeepsS (s : State) (o : Option State) : Prop where
  keep : ∀ x, o = some x → Keeps s x
structure KeepsT {α : Type} (s : State) (o : Option (State × α)) : Prop where
  keep : ∀ x, o = some x → Keeps s x.1
/-- The command goes on, in a state that keeps the queue and the canonical form. -/
structure KeepsNext (s : State) (o : Host.Outcome State Fault Refusal) : Prop where
  keep : ∃ t, o = .next t ∧ Keeps s t
theorem KeepsS.none {s0 : State} : KeepsS s0 Option.none := ⟨fun _ e => absurd e (by simp)⟩
theorem KeepsT.none {s0 : State} {α : Type} : KeepsT s0 (Option.none : Option (State × α)) := ⟨fun _ e => absurd e (by simp)⟩
theorem KeepsS.some {s0 x : State} (h : Keeps s0 x) : KeepsS s0 (Option.some x) := ⟨fun _ e => by cases e; exact h⟩
theorem KeepsT.some {s0 : State} {α : Type} {x : State × α} (h : Keeps s0 x.1) : KeepsT s0 (Option.some x) := ⟨fun _ e => by cases e; exact h⟩
theorem KeepsT.map {s0 : State} {α : Type} {o : Option State} {a : α} (h : KeepsS s0 o) : KeepsT s0 (o.map fun s => (s, a)) :=
  ⟨fun y e => by
    cases o with
    | none => cases e
    | some x => cases e; exact h.1 x rfl⟩
theorem KeepsS.map {s0 : State} {α : Type} {o : Option α} {f : α → State} (h : ∀ a, Keeps s0 (f a)) : KeepsS s0 (o.map f) :=
  ⟨fun y e => by
    cases o with
    | none => cases e
    | some x => cases e; exact h x⟩
theorem KeepsS.elim {s0 x : State} {o : Option State} (e : o = Option.some x) (h : KeepsS s0 o) : Keeps s0 x := h.1 x e
theorem KeepsT.elim {s0 x : State} {α : Type} {a : α} {o : Option (State × α)} (e : o = Option.some (x, a)) (h : KeepsT s0 o) :
    Keeps s0 x := h.1 _ e
/-- The state that a pair names, where the pair keeps it. -/
theorem Keeps.of_fst {s0 x : State} {α : Type} {a : α} {p : State × α} (e : p = (x, a)) (h : Keeps s0 p.1) : Keeps s0 x := by
  rw [e] at h; exact h
theorem Keeps.of_snd {s0 x : State} {α : Type} {a : α} {p : α × State} (e : p = (a, x)) (h : Keeps s0 p.2) : Keeps s0 x := by
  rw [e] at h; exact h
theorem goOn_keeps {s0 s : State} (h : Keeps s0 s) : KeepsNext s0 (goOn s) := ⟨s, rfl, h⟩
end Sys2Proof.Machine
end

