-- ==== Sys2Proof/Laws/KeepsOps.lean ====
section
/-! SUPPORT. One lemma per function: it keeps the queue and the canonical form of the memories. Here:
the named operations, flags, issue, kernels and frame control. -/

namespace Sys2Proof.Machine

theorem State.put_keeps {s0 s index sub v} (h_s : Keeps s0 s) : Keeps s0 (State.put s index sub v) :=
  ⟨h_s.queue, h_s.wf⟩

theorem State.count_keeps {s0 s index sub n} (h_s : Keeps s0 s) : Keeps s0 (State.count s index sub n) := by
  unfold State.count
  repeat' (first | with_reducible assumption | with_reducible apply State.put_keeps)

theorem State.countIf_keeps {s0 s c index sub} (h_s : Keeps s0 s) : Keeps s0 (State.countIf s c index sub) := by
  unfold State.countIf
  repeat' (first | with_reducible assumption | with_reducible apply State.count_keeps | with_reducible apply Keeps.ite)

theorem State.draw_keeps {s0 s} (h_s : Keeps s0 s) : Keeps s0 (State.draw s).2 := by
  unfold State.draw
  repeat' (first
    | with_reducible assumption | (with_reducible refine Keeps.state (KeepsP.of ?_) ?_; on_goal 1 => with_reducible assumption)
    | (with_reducible apply KeepsM.of; with_reducible assumption))

theorem State.chance_keeps {s0 s index sub} (h_s : Keeps s0 s) : Keeps s0 (State.chance s index sub) :=
  ⟨h_s.queue, h_s.wf⟩

theorem State.setUnit_keeps {s0 s u x} (h_s : Keeps s0 s) : Keeps s0 (State.setUnit s u x) :=
  ⟨h_s.queue, h_s.wf⟩

theorem State.setSorus_keeps {s0 s d x} (h_s : Keeps s0 s) : Keeps s0 (State.setSorus s d x) :=
  ⟨h_s.queue, h_s.wf⟩

theorem State.setArray_keeps {s0 s u x} (h_s : Keeps s0 s) : Keeps s0 (State.setArray s u x) :=
  ⟨h_s.queue, h_s.wf⟩

theorem State.setFiligree_keeps {s0 s d x} (h_s : Keeps s0 s) : Keeps s0 (State.setFiligree s d x) :=
  ⟨h_s.queue, h_s.wf⟩

theorem State.setPort_keeps {s0 s p x} (h_s : Keeps s0 s) : Keeps s0 (State.setPort s p x) :=
  ⟨h_s.queue, h_s.wf⟩

theorem State.setCore_keeps {s0 s c x} (h_s : Keeps s0 s) : Keeps s0 (State.setCore s c x) :=
  ⟨h_s.queue, h_s.wf⟩

theorem State.setBox_keeps {s0 s d x} (h_s : Keeps s0 s) : Keeps s0 (State.setBox s d x) :=
  ⟨h_s.queue, h_s.wf⟩

theorem State.setUctx_keeps {s0 s c x} (h_s : Keeps s0 s) : Keeps s0 (State.setUctx s c x) :=
  ⟨h_s.queue, h_s.wf⟩

theorem State.onUnit_keeps {s0 s u f} (h_s : Keeps s0 s) : Keeps s0 (State.onUnit s u f) := by
  unfold State.onUnit
  repeat' (first | with_reducible assumption | with_reducible apply State.setUnit_keeps)

theorem State.raiseAt_keeps {s0 s frame cycle code source die ctx detail} (h_s : Keeps s0 s) : Keeps s0 (State.raiseAt s frame cycle code source die ctx detail) :=
  ⟨h_s.queue, h_s.wf⟩

theorem State.raiseIn_keeps {s0 s delay code source die ctx detail} (h_s : Keeps s0 s) : Keeps s0 (State.raiseIn s delay code source die ctx detail) :=
  ⟨h_s.queue, h_s.wf⟩

theorem State.raise_keeps {s0 s code source die ctx detail} (h_s : Keeps s0 s) : Keeps s0 (State.raise s code source die ctx detail) := by
  unfold State.raise
  repeat' (first | with_reducible assumption | with_reducible apply State.raiseAt_keeps)

theorem State.raiseTick_keeps {s0 s code source die ctx detail} (h_s : Keeps s0 s) : Keeps s0 (State.raiseTick s code source die ctx detail) := by
  unfold State.raiseTick
  repeat' (first | with_reducible assumption | with_reducible apply State.raiseAt_keeps)

theorem State.invalid_keeps {s0 s i} (h_s : Keeps s0 s) : Keeps s0 (State.invalid s i) := by
  unfold State.invalid
  repeat' (first | with_reducible assumption | with_reducible apply State.raise_keeps | with_reducible apply Keeps.ite)

theorem State.poisonOp_keeps {s0 s d off len} (h_s : Keeps s0 s) : Keeps s0 (State.poisonOp s d off len) :=
  ⟨h_s.queue, h_s.wf⟩

theorem State.poisonHbm_keeps {s0 s a1 len} (h_s : Keeps s0 s) : Keeps s0 (State.poisonHbm s a1 len) :=
  ⟨h_s.queue, h_s.wf⟩

theorem State.opWrite_keeps {s0 s d off bytes poisoned} (h_s : Keeps s0 s) : Keeps s0 (State.opWrite s d off bytes poisoned) := by
  unfold State.opWrite
  repeat' (first
    | with_reducible assumption
    | ((try lift_lets -underBinder); intro x; (have hx : Keeps s0 x := ?_); clear_value x; rotate_left; (clear_value (e : x = _); rw [e]; clear e))
    | ((try lift_lets -underBinder); intro x; (have hx : KeepsM s0 x := ?_); clear_value x; rotate_left; (clear_value (e : x = _); rw [e]; clear e))
    | with_reducible apply Mem.writeN_keeps | with_reducible apply State.opStore_keeps | with_reducible apply State.poisonOp_keeps
    | (with_reducible refine Keeps.state (KeepsP.of ?_) ?_; on_goal 1 => with_reducible assumption)
    | (with_reducible apply KeepsM.of; with_reducible assumption) | (with_reducible apply KeepsM.memory)
    | (with_reducible refine KeepsH.of ?_; with_reducible assumption)
    | (with_reducible refine KeepsO.of ?_; with_reducible assumption)
    | (with_reducible refine KeepsO.of (KeepsM.of ?_); with_reducible assumption) | with_reducible exact KeepsH.empty
    | with_reducible exact KeepsO.empty | with_reducible apply KeepsO.set | with_reducible apply Keeps.ite)

theorem State.hbmWrite_keeps {s0 s a1 bytes poisoned} (h_s : Keeps s0 s) : Keeps s0 (State.hbmWrite s a1 bytes poisoned) := by
  unfold State.hbmWrite
  repeat' (first
    | with_reducible assumption
    | ((try lift_lets -underBinder); intro x; (have hx : Keeps s0 x := ?_); clear_value x; rotate_left; (clear_value (e : x = _); rw [e]; clear e))
    | ((try lift_lets -underBinder); intro x; (have hx : KeepsM s0 x := ?_); clear_value x; rotate_left; (clear_value (e : x = _); rw [e]; clear e))
    | ((try lift_lets -underBinder); intro x; try clear_value x) | with_reducible apply hf0 | with_reducible apply hf1
    | with_reducible apply hf2 | with_reducible apply hf3 | with_reducible apply hf4 | with_reducible apply hf5
    | with_reducible apply hf6 | with_reducible apply hf7 | with_reducible apply hf8 | with_reducible apply hf9
    | with_reducible apply Mem.writeN_keeps | with_reducible apply State.poisonHbm_keeps
    | (with_reducible refine Keeps.state (KeepsP.of ?_) ?_; on_goal 1 => with_reducible assumption)
    | (with_reducible apply KeepsM.of; with_reducible assumption) | (with_reducible apply KeepsM.memory)
    | (with_reducible refine KeepsH.of ?_; with_reducible assumption)
    | (with_reducible refine KeepsH.of (KeepsM.of ?_); with_reducible assumption)
    | (with_reducible refine KeepsO.of ?_; with_reducible assumption) | with_reducible exact KeepsH.empty
    | with_reducible exact KeepsO.empty | with_reducible apply Keeps.ite)

theorem State.setSlice_keeps {s0 s k l} (h_s : Keeps s0 s) : Keeps s0 (State.setSlice s k l) :=
  ⟨h_s.queue, h_s.wf⟩

theorem State.mend_keeps {s0 s b} (h_s : Keeps s0 s) : Keeps s0 (State.mend s b) :=
  ⟨h_s.queue, h_s.wf⟩

theorem State.addLine_keeps {s0 s k l} (h_s : Keeps s0 s) : Keeps s0 (State.addLine s k l) := by
  unfold State.addLine
  repeat' (first
    | with_reducible assumption
    | ((try lift_lets -underBinder); intro x; (have hx : Keeps s0 x := ?_); clear_value x; rotate_left; (clear_value (e : x = _); rw [e]; clear e))
    | ((try lift_lets -underBinder); intro x; try clear_value x) | with_reducible apply State.setSlice_keeps
    | with_reducible apply State.mend_keeps
    | (with_reducible refine Keeps.state (KeepsP.of ?_) ?_; on_goal 1 => with_reducible assumption)
    | with_reducible apply Keeps.ite | with_reducible apply Keeps.ite_fst
    | with_reducible refine Keeps.of_fst (by with_reducible assumption) ?_
    | with_reducible refine Keeps.of_snd (by with_reducible assumption) ?_
    | with_reducible refine KeepsS.elim (by with_reducible assumption) ?_
    | with_reducible refine KeepsT.elim (by with_reducible assumption) ?_ | split)

theorem State.putLine_keeps {s0 s k l} (h_s : Keeps s0 s) : Keeps s0 (State.putLine s k l) := by
  unfold State.putLine
  repeat' (first | with_reducible assumption | with_reducible apply State.setSlice_keeps)

theorem State.claspHit_keeps {s0 s k hint uses wr full l} (h_s : Keeps s0 s) : Keeps s0 (State.claspHit s k hint uses wr full l) := by
  unfold State.claspHit
  repeat' (first
    | with_reducible assumption
    | ((try lift_lets -underBinder); intro x; (have hx : Keeps s0 x := ?_); clear_value x; rotate_left; (clear_value (e : x = _); rw [e]; clear e))
    | ((try lift_lets -underBinder); intro x; (have hx : KeepsM s0 x := ?_); clear_value x; rotate_left; (clear_value (e : x = _); rw [e]; clear e))
    | ((try lift_lets -underBinder); intro x; try clear_value x) | with_reducible apply State.putLine_keeps
    | with_reducible apply State.count_keeps | with_reducible apply State.setSlice_keeps | with_reducible apply Mem.havoc_keeps
    | (with_reducible refine Keeps.state (KeepsP.of ?_) ?_; on_goal 1 => with_reducible assumption)
    | (with_reducible apply KeepsM.of; with_reducible assumption) | (with_reducible apply KeepsM.memory)
    | (with_reducible refine KeepsH.of (KeepsM.of ?_); with_reducible assumption)
    | (with_reducible refine KeepsO.of ?_; with_reducible assumption) | with_reducible exact KeepsH.empty
    | with_reducible exact KeepsO.empty | with_reducible apply Keeps.ite
    | with_reducible refine Keeps.of_fst (by with_reducible assumption) ?_
    | with_reducible refine Keeps.of_snd (by with_reducible assumption) ?_
    | with_reducible refine KeepsS.elim (by with_reducible assumption) ?_
    | with_reducible refine KeepsT.elim (by with_reducible assumption) ?_ | split)

theorem State.claspMiss_keeps {s0 s k hint uses wr full line} (h_s : Keeps s0 s) : Keeps s0 (State.claspMiss s k hint uses wr full line) := by
  unfold State.claspMiss
  repeat' (first
    | with_reducible assumption
    | ((try lift_lets -underBinder); intro x; (have hx : Keeps s0 x := ?_); clear_value x; rotate_left; (clear_value (e : x = _); rw [e]; clear e))
    | with_reducible apply State.mend_keeps | with_reducible apply State.count_keeps | with_reducible apply State.addLine_keeps
    | (with_reducible refine Keeps.state (KeepsP.of ?_) ?_; on_goal 1 => with_reducible assumption)
    | with_reducible apply Keeps.ite)

theorem State.clasp_keeps {s0 s b hint uses wr} (h_s : Keeps s0 s) : Keeps s0 (State.clasp s b hint uses wr) := by
  unfold State.clasp
  repeat' (first
    | with_reducible assumption
    | ((try lift_lets -underBinder); intro x; (have hx : Keeps s0 x := ?_); clear_value x; rotate_left; (clear_value (e : x = _); rw [e]; clear e))
    | ((try lift_lets -underBinder); intro x; (have hx : KeepsM s0 x := ?_); clear_value x; rotate_left; (clear_value (e : x = _); rw [e]; clear e))
    | ((try lift_lets -underBinder); intro x; try clear_value x) | with_reducible apply State.count_keeps
    | with_reducible apply State.claspHit_keeps | with_reducible apply State.mend_keeps
    | with_reducible apply State.claspMiss_keeps
    | (with_reducible refine Keeps.state (KeepsP.of ?_) ?_; on_goal 1 => with_reducible assumption)
    | (with_reducible apply KeepsM.of; with_reducible assumption) | (with_reducible apply KeepsM.memory)
    | (with_reducible refine KeepsH.of ?_; with_reducible assumption)
    | (with_reducible refine KeepsO.of ?_; with_reducible assumption) | with_reducible exact KeepsH.empty
    | with_reducible exact KeepsO.empty | with_reducible apply Keeps.ite
    | with_reducible refine Keeps.of_fst (by with_reducible assumption) ?_
    | with_reducible refine Keeps.of_snd (by with_reducible assumption) ?_
    | with_reducible refine KeepsS.elim (by with_reducible assumption) ?_
    | with_reducible refine KeepsT.elim (by with_reducible assumption) ?_ | split)

theorem State.claspRange_keeps {s0 s a1 len hint uses wr} (h_s : Keeps s0 s) : Keeps s0 (State.claspRange s a1 len hint uses wr) := by
  unfold State.claspRange
  repeat' (first
    | with_reducible assumption | with_reducible apply State.clasp_keeps
    | (with_reducible refine Keeps.foldl ?_ ?_; on_goal 2 => intro _ _ _))

theorem State.plic_keeps {s0 s d source} (h_s : Keeps s0 s) : Keeps s0 (State.plic s d source) :=
  ⟨h_s.queue, h_s.wf⟩

theorem State.plicAll_keeps {s0 s source} (h_s : Keeps s0 s) : Keeps s0 (State.plicAll s source) := by
  unfold State.plicAll
  repeat' (first | with_reducible assumption | with_reducible apply State.plic_keeps)

theorem State.consume_keeps {s0 s u ctx address} (h_s : Keeps s0 s) : Keeps s0 (State.consume s u ctx address) := by
  unfold State.consume
  repeat' (first
    | with_reducible assumption
    | ((try lift_lets -underBinder); intro x; (have hx : Keeps s0 x := ?_); clear_value x; rotate_left; (clear_value (e : x = _); rw [e]; clear e))
    | ((try lift_lets -underBinder); intro x; (have hx : KeepsM s0 x := ?_); clear_value x; rotate_left; (clear_value (e : x = _); rw [e]; clear e))
    | with_reducible apply State.raise_keeps | with_reducible apply State.count_keeps
    | (with_reducible refine Keeps.state (KeepsP.of ?_) ?_; on_goal 1 => with_reducible assumption)
    | (with_reducible apply KeepsM.of; with_reducible assumption) | (with_reducible apply KeepsM.memory)
    | (with_reducible refine KeepsH.of ?_; with_reducible assumption)
    | (with_reducible refine KeepsO.of ?_; with_reducible assumption) | with_reducible exact KeepsH.empty
    | with_reducible exact KeepsO.empty | with_reducible apply Keeps.ite)

theorem State.strike_keeps {s0 s u ctx address} (h_s : Keeps s0 s) : Keeps s0 (State.strike s u ctx address) := by
  unfold State.strike
  repeat' (first
    | with_reducible assumption | with_reducible apply State.raise_keeps
    | (with_reducible refine Keeps.state (KeepsP.of ?_) ?_; on_goal 1 => with_reducible assumption)
    | (with_reducible apply KeepsM.of; with_reducible assumption))

theorem State.strikeOp_keeps {s0 s u ctx address} (h_s : Keeps s0 s) : Keeps s0 (State.strikeOp s u ctx address) := by
  unfold State.strikeOp
  repeat' (first
    | with_reducible assumption
    | ((try lift_lets -underBinder); intro x; (have hx : Keeps s0 x := ?_); clear_value x; rotate_left; (clear_value (e : x = _); rw [e]; clear e))
    | ((try lift_lets -underBinder); intro x; try clear_value x) | with_reducible apply State.chance_keeps
    | with_reducible apply State.poisonOp_keeps | with_reducible apply State.strike_keeps | with_reducible apply Keeps.ite)

theorem State.strikeLine_keeps {s0 s b ctx} (h_s : Keeps s0 s) : Keeps s0 (State.strikeLine s b ctx) := by
  unfold State.strikeLine
  repeat' (first
    | with_reducible assumption
    | ((try lift_lets -underBinder); intro x; (have hx : Keeps s0 x := ?_); clear_value x; rotate_left; (clear_value (e : x = _); rw [e]; clear e))
    | ((try lift_lets -underBinder); intro x; try clear_value x) | with_reducible apply State.chance_keeps
    | with_reducible apply State.poisonHbm_keeps | with_reducible apply State.strike_keeps | with_reducible apply Keeps.ite)

theorem State.planned_keeps {s0 s u n} (h_s : Keeps s0 s) : Keeps s0 (State.planned s u n) := by
  unfold State.planned
  repeat' (first
    | with_reducible assumption | with_reducible apply State.count_keeps
    | (with_reducible refine Keeps.state (KeepsP.of ?_) ?_; on_goal 1 => with_reducible assumption)
    | with_reducible refine Keeps.of_fst (by with_reducible assumption) ?_
    | with_reducible refine Keeps.of_snd (by with_reducible assumption) ?_
    | with_reducible refine KeepsS.elim (by with_reducible assumption) ?_
    | with_reducible refine KeepsT.elim (by with_reducible assumption) ?_ | split)

theorem State.unplanned_keeps {s0 s u n} (h_s : Keeps s0 s) : Keeps s0 (State.unplanned s u n) := by
  unfold State.unplanned
  repeat' (first
    | with_reducible assumption | with_reducible apply State.onUnit_keeps | with_reducible apply State.count_keeps
    | (with_reducible refine Keeps.state (KeepsP.of ?_) ?_; on_goal 1 => with_reducible assumption)
    | with_reducible refine Keeps.of_fst (by with_reducible assumption) ?_
    | with_reducible refine Keeps.of_snd (by with_reducible assumption) ?_
    | with_reducible refine KeepsS.elim (by with_reducible assumption) ?_
    | with_reducible refine KeepsT.elim (by with_reducible assumption) ?_ | split)

theorem State.slip_keeps {s0 s u n} (h_s : Keeps s0 s) : Keeps s0 (State.slip s u n) := by
  unfold State.slip
  repeat' (first
    | with_reducible assumption | with_reducible apply State.onUnit_keeps | with_reducible apply State.count_keeps
    | (with_reducible refine Keeps.state (KeepsP.of ?_) ?_; on_goal 1 => with_reducible assumption)
    | with_reducible refine Keeps.of_fst (by with_reducible assumption) ?_
    | with_reducible refine Keeps.of_snd (by with_reducible assumption) ?_
    | with_reducible refine KeepsS.elim (by with_reducible assumption) ?_
    | with_reducible refine KeepsT.elim (by with_reducible assumption) ?_ | split)

theorem State.closeDebt_keeps {s0 s u} (h_s : Keeps s0 s) : Keeps s0 (State.closeDebt s u) := by
  unfold State.closeDebt
  repeat' (first
    | with_reducible assumption
    | ((try lift_lets -underBinder); intro x; (have hx : Keeps s0 x := ?_); clear_value x; rotate_left; (clear_value (e : x = _); rw [e]; clear e))
    | ((try lift_lets -underBinder); intro x; try clear_value x) | with_reducible apply State.put_keeps
    | with_reducible apply State.onUnit_keeps
    | (with_reducible refine Keeps.state (KeepsP.of ?_) ?_; on_goal 1 => with_reducible assumption)
    | with_reducible refine Keeps.of_fst (by with_reducible assumption) ?_
    | with_reducible refine Keeps.of_snd (by with_reducible assumption) ?_
    | with_reducible refine KeepsS.elim (by with_reducible assumption) ?_
    | with_reducible refine KeepsT.elim (by with_reducible assumption) ?_ | split)

theorem State.stored_keeps {s0 s d l} (h_s : Keeps s0 s) : Keeps s0 (State.stored s d l) := by
  unfold State.stored
  repeat' (first
    | with_reducible assumption
    | ((try lift_lets -underBinder); intro x; (have hx : Keeps s0 x := ?_); clear_value x; rotate_left; (clear_value (e : x = _); rw [e]; clear e))
    | ((try lift_lets -underBinder); intro x; try clear_value x) | with_reducible apply State.count_keeps
    | with_reducible apply Keeps.ite)

theorem State.noteWritten_keeps {s0 s tensor} (h_s : Keeps s0 s) : Keeps s0 (State.noteWritten s tensor) := by
  unfold State.noteWritten
  repeat' (first
    | with_reducible assumption | (with_reducible refine Keeps.state (KeepsP.of ?_) ?_; on_goal 1 => with_reducible assumption)
    | (with_reducible apply KeepsM.of; with_reducible assumption) | with_reducible apply Keeps.ite
    | with_reducible refine Keeps.of_fst (by with_reducible assumption) ?_
    | with_reducible refine Keeps.of_snd (by with_reducible assumption) ?_
    | with_reducible refine KeepsS.elim (by with_reducible assumption) ?_
    | with_reducible refine KeepsT.elim (by with_reducible assumption) ?_ | split)

theorem State.reportMax_keeps {s0 s tensor vs} (h_s : Keeps s0 s) : Keeps s0 (State.reportMax s tensor vs) := by
  unfold State.reportMax
  repeat' (first
    | with_reducible assumption
    | ((try lift_lets -underBinder); intro x; (have hx : Keeps s0 x := ?_); clear_value x; rotate_left; (clear_value (e : x = _); rw [e]; clear e))
    | ((try lift_lets -underBinder); intro x; try clear_value x) | with_reducible apply State.noteWritten_keeps
    | with_reducible apply State.count_keeps
    | (with_reducible refine Keeps.state (KeepsP.of ?_) ?_; on_goal 1 => with_reducible assumption)
    | (with_reducible apply KeepsM.of; with_reducible assumption) | with_reducible apply Keeps.ite
    | with_reducible refine Keeps.of_fst (by with_reducible assumption) ?_
    | with_reducible refine Keeps.of_snd (by with_reducible assumption) ?_
    | with_reducible refine KeepsS.elim (by with_reducible assumption) ?_
    | with_reducible refine KeepsT.elim (by with_reducible assumption) ?_ | split)

theorem State.wait_keeps {s0 s op i} (h_s : Keeps s0 s) : Keeps s0 (State.wait s op i) := by
  unfold State.wait
  repeat' (first
    | with_reducible assumption | with_reducible apply State.invalid_keeps | with_reducible apply State.onUnit_keeps
    | (with_reducible refine Keeps.state (KeepsP.of ?_) ?_; on_goal 1 => with_reducible assumption)
    | with_reducible apply Keeps.ite)

theorem State.current_keeps {s0 s op i} (h_s : Keeps s0 s) : Keeps s0 (State.current s op i) := by
  unfold State.current
  repeat' (first | with_reducible assumption | with_reducible apply State.onUnit_keeps)

theorem State.gate_keeps {s0 s op i start} (h_s : Keeps s0 s) (h_start : ∀ x0 x1, Keeps s0 x1 → Keeps s0 (start x0 x1)) : Keeps s0 (State.gate s op i start) := by
  unfold State.gate
  repeat' (first
    | with_reducible assumption | with_reducible apply State.count_keeps | with_reducible apply State.invalid_keeps
    | with_reducible apply State.wait_keeps | with_reducible apply State.current_keeps | with_reducible apply h_start
    | with_reducible apply Keeps.ite)

theorem State.startWork_keeps {s0 s op i left load} (h_s : Keeps s0 s) : Keeps s0 (State.startWork s op i left load) := by
  unfold State.startWork
  repeat' (first | with_reducible assumption | with_reducible apply State.onUnit_keeps)

theorem State.startPhase_keeps {s0 s op i left tail jobs load} (h_s : Keeps s0 s) : Keeps s0 (State.startPhase s op i left tail jobs load) := by
  unfold State.startPhase
  repeat' (first | with_reducible assumption | with_reducible apply State.onUnit_keeps)

theorem State.endPhase_keeps {s0 s u} (h_s : Keeps s0 s) : Keeps s0 (State.endPhase s u) := by
  unfold State.endPhase
  repeat' (first | with_reducible assumption | with_reducible apply State.onUnit_keeps)

theorem startMode_keeps {s0 op i s} (h_s : Keeps s0 s) : Keeps s0 (startMode op i s) := by
  unfold startMode
  repeat' (first | with_reducible assumption | with_reducible apply State.onUnit_keeps)

theorem State.endWork_keeps {s0 s u} (h_s : Keeps s0 s) : Keeps s0 (State.endWork s u) := by
  unfold State.endWork
  repeat' (first | with_reducible assumption | with_reducible apply State.onUnit_keeps)

theorem State.setCode_keeps {s0 s d fmt off j c poisoned} (h_s : Keeps s0 s) : Keeps s0 (State.setCode s d fmt off j c poisoned) := by
  unfold State.setCode
  repeat' (first
    | with_reducible assumption | ((try lift_lets -underBinder); intro x; try clear_value x)
    | with_reducible apply State.opWrite_keeps | with_reducible apply State.opStore_keeps
    | (with_reducible refine Keeps.state (KeepsP.of ?_) ?_; on_goal 1 => with_reducible assumption)
    | with_reducible apply Keeps.ite | split)

theorem State.putVals_keeps {s0 s t j e vs} (h_s : Keeps s0 s) : Keeps s0 (State.putVals s t j e vs) := by
  unfold State.putVals
  repeat' (first
    | with_reducible assumption
    | ((try lift_lets -underBinder); intro x; (have hx : Keeps s0 x := ?_); clear_value x; rotate_left; (clear_value (e : x = _); rw [e]; clear e))
    | ((try lift_lets -underBinder); intro x; try clear_value x) | with_reducible apply State.opWrite_keeps
    | with_reducible apply State.stored_keeps)

theorem State.putPairs_keeps {s0 s t lo j e vs} (h_s : Keeps s0 s) : Keeps s0 (State.putPairs s t lo j e vs) := by
  unfold State.putPairs
  repeat' (first
    | with_reducible assumption
    | ((try lift_lets -underBinder); intro x; (have hx : Keeps s0 x := ?_); clear_value x; rotate_left; (clear_value (e : x = _); rw [e]; clear e))
    | ((try lift_lets -underBinder); intro x; try clear_value x) | with_reducible apply State.opWrite_keeps
    | with_reducible apply State.stored_keeps)

theorem State.countNonFinite_keeps {s0 s d vs} (h_s : Keeps s0 s) : Keeps s0 (State.countNonFinite s d vs) := by
  unfold State.countNonFinite
  repeat' (first
    | with_reducible assumption | ((try lift_lets -underBinder); intro x; try clear_value x)
    | with_reducible apply State.count_keeps | with_reducible apply Keeps.ite)

theorem State.putRowE2_keeps {s0 s t total j b e vs} (h_s : Keeps s0 s) : Keeps s0 (State.putRowE2 s t total j b e vs) := by
  unfold State.putRowE2
  repeat' (first
    | with_reducible assumption
    | ((try lift_lets -underBinder); intro x; (have hx : Keeps s0 x := ?_); clear_value x; rotate_left; (clear_value (e : x = _); rw [e]; clear e))
    | ((try lift_lets -underBinder); intro x; try clear_value x) | with_reducible apply State.setCode_keeps
    | with_reducible apply State.opWrite_keeps | with_reducible apply State.countNonFinite_keeps
    | (with_reducible refine Keeps.foldl ?_ ?_; on_goal 2 => intro _ _ _))

theorem State.kernelRow_keeps {s0 s d k r vs poisoned} (h_s : Keeps s0 s) : Keeps s0 (State.kernelRow s d k r vs poisoned) := by
  unfold State.kernelRow
  repeat' (first
    | with_reducible assumption
    | ((try lift_lets -underBinder); intro x; (have hx : Keeps s0 x := ?_); clear_value x; rotate_left; (clear_value (e : x = _); rw [e]; clear e))
    | ((try lift_lets -underBinder); intro x; try clear_value x) | with_reducible apply State.setFiligree_keeps
    | with_reducible apply State.reportMax_keeps | with_reducible apply State.putVals_keeps
    | (with_reducible refine Keeps.state (KeepsP.of ?_) ?_; on_goal 1 => with_reducible assumption)
    | with_reducible apply Keeps.ite | with_reducible apply Keeps.ite_fst | split)

theorem State.kernelStop_keeps {s0 s d k w written} (h_s : Keeps s0 s) : Keeps s0 (State.kernelStop s d k w written) := by
  unfold State.kernelStop
  repeat' (first
    | with_reducible assumption
    | ((try lift_lets -underBinder); intro x; (have hx : Keeps s0 x := ?_); clear_value x; rotate_left; (clear_value (e : x = _); rw [e]; clear e))
    | ((try lift_lets -underBinder); intro x; (have hx : KeepsM s0 x := ?_); clear_value x; rotate_left; (clear_value (e : x = _); rw [e]; clear e))
    | ((try lift_lets -underBinder); intro x; try clear_value x) | with_reducible apply State.invalid_keeps
    | with_reducible apply State.endWork_keeps
    | (with_reducible refine Keeps.state (KeepsP.of ?_) ?_; on_goal 1 => with_reducible assumption)
    | (with_reducible apply KeepsM.of; with_reducible assumption) | (with_reducible apply KeepsM.memory)
    | (with_reducible refine KeepsH.of ?_; with_reducible assumption)
    | (with_reducible refine KeepsO.of ?_; with_reducible assumption))

theorem State.handRow_keeps {s0 s d src m vs poisoned} (h_s : Keeps s0 s) : KeepsS s0 (State.handRow s d src m vs poisoned) := by
  unfold State.handRow
  repeat' (first
    | with_reducible assumption
    | ((try lift_lets -underBinder); intro x; (have hx : Keeps s0 x := ?_); clear_value x; rotate_left; (clear_value (e : x = _); rw [e]; clear e))
    | ((try lift_lets -underBinder); intro x; try clear_value x) | with_reducible apply State.kernelStop_keeps
    | with_reducible apply State.kernelRow_keeps | with_reducible apply State.onUnit_keeps | with_reducible exact KeepsS.none
    | with_reducible apply KeepsS.some | with_reducible exact KeepsT.none | with_reducible apply KeepsT.some
    | with_reducible apply Keeps.ite | with_reducible refine Keeps.of_fst (by with_reducible assumption) ?_
    | with_reducible refine Keeps.of_snd (by with_reducible assumption) ?_
    | with_reducible refine KeepsS.elim (by with_reducible assumption) ?_
    | with_reducible refine KeepsT.elim (by with_reducible assumption) ?_ | split)

theorem State.putRow_keeps {s0 s d k r vs poisoned} (h_s : Keeps s0 s) : Keeps s0 (State.putRow s d k r vs poisoned) := by
  unfold State.putRow
  repeat' (first
    | with_reducible assumption | with_reducible apply State.reportMax_keeps | with_reducible apply State.putVals_keeps)

theorem State.kernelStep_keeps {s0 s d k poisoned r} (h_s : Keeps s0 s) : Keeps s0 (State.kernelStep s d k poisoned r) := by
  unfold State.kernelStep
  repeat' (first
    | with_reducible assumption
    | ((try lift_lets -underBinder); intro x; (have hx : Keeps s0 x := ?_); clear_value x; rotate_left; (clear_value (e : x = _); rw [e]; clear e))
    | ((try lift_lets -underBinder); intro x; try clear_value x) | with_reducible apply hf0 | with_reducible apply hf1
    | with_reducible apply hf2 | with_reducible apply hf3 | with_reducible apply hf4 | with_reducible apply hf5
    | with_reducible apply hf6 | with_reducible apply hf7 | with_reducible apply hf8 | with_reducible apply hf9
    | with_reducible apply State.putRow_keeps | with_reducible apply State.reportMax_keeps
    | with_reducible apply State.putVals_keeps | with_reducible apply State.putPairs_keeps
    | with_reducible apply State.setFiligree_keeps
    | (with_reducible refine Keeps.state (KeepsP.of ?_) ?_; on_goal 1 => with_reducible assumption)
    | with_reducible apply Keeps.ite | with_reducible apply Keeps.ite_fst | split)

theorem State.kernelColumns_keeps {s0 s d k poisoned} (h_s : Keeps s0 s) : Keeps s0 (State.kernelColumns s d k poisoned) := by
  unfold State.kernelColumns
  repeat' (first
    | with_reducible assumption | ((try lift_lets -underBinder); intro x; try clear_value x)
    | with_reducible apply State.reportMax_keeps | with_reducible apply State.putVals_keeps | with_reducible apply Keeps.ite)

theorem State.kernelClear_keeps {s0 s d k} (h_s : Keeps s0 s) : Keeps s0 (State.kernelClear s d k) := by
  unfold State.kernelClear
  repeat' (first
    | with_reducible assumption | with_reducible apply State.setFiligree_keeps
    | (with_reducible refine Keeps.state (KeepsP.of ?_) ?_; on_goal 1 => with_reducible assumption)
    | with_reducible apply Keeps.ite)

theorem startTableKernel_keeps {s0 i s} (h_s : Keeps s0 s) : Keeps s0 (startTableKernel i s) := by
  unfold startTableKernel
  repeat' (first
    | with_reducible assumption
    | ((try lift_lets -underBinder); intro x; (have hx : Keeps s0 x := ?_); clear_value x; rotate_left; (clear_value (e : x = _); rw [e]; clear e))
    | ((try lift_lets -underBinder); intro x; try clear_value x) | with_reducible apply State.consume_keeps
    | with_reducible apply State.strikeOp_keeps | with_reducible apply State.kernelClear_keeps
    | with_reducible apply State.startWork_keeps | with_reducible apply State.kernelStep_keeps
    | with_reducible apply State.kernelColumns_keeps
    | (with_reducible refine Keeps.state (KeepsP.of ?_) ?_; on_goal 1 => with_reducible assumption)
    | (with_reducible refine Keeps.foldl ?_ ?_; on_goal 2 => intro _ _ _) | with_reducible apply Keeps.ite
    | with_reducible apply Keeps.ite_fst | with_reducible refine Keeps.of_fst (by with_reducible assumption) ?_
    | with_reducible refine Keeps.of_snd (by with_reducible assumption) ?_
    | with_reducible refine KeepsS.elim (by with_reducible assumption) ?_
    | with_reducible refine KeepsT.elim (by with_reducible assumption) ?_ | split)

theorem State.poisonTile_keeps {s0 s d t} (h_s : Keeps s0 s) : Keeps s0 (State.poisonTile s d t) := by
  unfold State.poisonTile
  repeat' (first
    | with_reducible assumption | with_reducible apply State.poisonOp_keeps
    | (with_reducible refine Keeps.foldl ?_ ?_; on_goal 2 => intro _ _ _) | with_reducible apply Keeps.ite)

theorem State.putOut_keeps {s0 s d t m c0 vs poisoned} (h_s : Keeps s0 s) : Keeps s0 (State.putOut s d t m c0 vs poisoned) := by
  unfold State.putOut
  repeat' (first
    | with_reducible assumption
    | ((try lift_lets -underBinder); intro x; (have hx : Keeps s0 x := ?_); clear_value x; rotate_left; (clear_value (e : x = _); rw [e]; clear e))
    | ((try lift_lets -underBinder); intro x; try clear_value x) | with_reducible apply State.putPairs_keeps
    | with_reducible apply State.putRowE2_keeps | with_reducible apply State.putVals_keeps
    | with_reducible apply State.reportMax_keeps | with_reducible apply Keeps.ite)

theorem State.witness_keeps {s0 s u i t m row} (h_s : Keeps s0 s) : Keeps s0 (State.witness s u i t m row).1 := by
  unfold State.witness
  repeat' (first
    | with_reducible assumption
    | ((try lift_lets -underBinder); intro x; (have hx : Keeps s0 x := ?_); clear_value x; rotate_left; (clear_value (e : x = _); rw [e]; clear e))
    | ((try lift_lets -underBinder); intro x; try clear_value x) | with_reducible apply State.count_keeps
    | with_reducible apply State.raise_keeps | with_reducible apply State.poisonTile_keeps
    | (with_reducible refine Keeps.state (KeepsP.of ?_) ?_; on_goal 1 => with_reducible assumption)
    | (with_reducible apply KeepsM.of; with_reducible assumption) | with_reducible apply Keeps.ite
    | with_reducible apply Keeps.ite_fst)

theorem State.drainCols_keeps {s0 s d t m c0 ys poisoned} (h_s : Keeps s0 s) : Keeps s0 (State.drainCols s d t m c0 ys poisoned) := by
  unfold State.drainCols
  repeat' (first | with_reducible assumption | with_reducible apply State.putOut_keeps | with_reducible apply Keeps.ite)

theorem State.drainSkipped_keeps {s0 s d t m poisoned} (h_s : Keeps s0 s) : Keeps s0 (State.drainSkipped s d t m poisoned) := by
  unfold State.drainSkipped
  repeat' (first | with_reducible assumption | with_reducible apply State.putOut_keeps | with_reducible apply Keeps.ite)

theorem State.drainRow_keeps {s0 s d t p poisoned} (h_s : Keeps s0 s) : Keeps s0 (State.drainRow s d t p poisoned) := by
  unfold State.drainRow
  repeat' (first
    | with_reducible assumption | with_reducible apply State.drainSkipped_keeps | with_reducible apply State.drainCols_keeps
    | with_reducible apply Keeps.ite)

theorem State.handOver_keeps {s0 s u t p poisoned} (h_s : Keeps s0 s) : KeepsS s0 (State.handOver s u t p poisoned) := by
  unfold State.handOver
  repeat' (first
    | with_reducible assumption | ((try lift_lets -underBinder); intro x; try clear_value x)
    | with_reducible apply State.handRow_keeps)

theorem State.putMask_keeps {s0 s d t poisoned} (h_s : Keeps s0 s) : Keeps s0 (State.putMask s d t poisoned) := by
  unfold State.putMask
  repeat' (first
    | with_reducible assumption | ((try lift_lets -underBinder); intro x; try clear_value x) | with_reducible apply hf0
    | with_reducible apply hf1 | with_reducible apply hf2 | with_reducible apply hf3 | with_reducible apply hf4
    | with_reducible apply hf5 | with_reducible apply hf6 | with_reducible apply hf7 | with_reducible apply hf8
    | with_reducible apply hf9 | with_reducible apply State.opWrite_keeps | with_reducible apply Keeps.ite)

theorem State.settle_keeps {s0 s} (h_s : Keeps s0 s) : Keeps s0 (State.settle s) := by
  unfold State.settle
  repeat' (first
    | with_reducible assumption
    | ((try lift_lets -underBinder); intro x; (have hx : Keeps s0 x := ?_); clear_value x; rotate_left; (clear_value (e : x = _); rw [e]; clear e))
    | ((try lift_lets -underBinder); intro x; try clear_value x) | with_reducible apply State.setArray_keeps
    | (with_reducible refine Keeps.state (KeepsP.of ?_) ?_; on_goal 1 => with_reducible assumption)
    | (with_reducible apply KeepsM.of; with_reducible assumption)
    | (with_reducible refine Keeps.foldl ?_ ?_; on_goal 2 => intro _ _ _) | with_reducible apply Keeps.ite)

theorem startNop_keeps {s0 a0 s} (h_s : Keeps s0 s) : Keeps s0 (startNop a0 s) :=
  ⟨h_s.queue, h_s.wf⟩

theorem execNop_keeps {s0 i s} (h_s : Keeps s0 s) : KeepsNext s0 (execNop i s) := by
  unfold execNop
  repeat' (first
    | with_reducible assumption | with_reducible apply goOn_keeps | with_reducible apply State.gate_keeps
    | with_reducible apply startNop_keeps)

theorem State.callTable_keeps {s0 s t ctx seq} (h_s : Keeps s0 s) : Keeps s0 (State.callTable s t ctx seq) := by
  unfold State.callTable
  repeat' (first
    | with_reducible assumption | (with_reducible refine Keeps.state (KeepsP.of ?_) ?_; on_goal 1 => with_reducible assumption)
    | (with_reducible apply KeepsM.of; with_reducible assumption) | with_reducible apply Keeps.ite)

theorem startCall_keeps {s0 i s} (h_s : Keeps s0 s) : Keeps s0 (startCall i s) := by
  unfold startCall
  repeat' (first | with_reducible assumption | with_reducible apply State.callTable_keeps)

theorem execCall_keeps {s0 i s} (h_s : Keeps s0 s) : KeepsNext s0 (execCall i s) := by
  unfold execCall
  repeat' (first
    | with_reducible assumption | with_reducible apply goOn_keeps | with_reducible apply State.gate_keeps
    | with_reducible apply startCall_keeps)

theorem startCommitPoint_keeps {s0 i s} (h_s : Keeps s0 s) : Keeps s0 (startCommitPoint i s) :=
  ⟨h_s.queue, h_s.wf⟩

theorem execCommitPoint_keeps {s0 i s} (h_s : Keeps s0 s) : KeepsNext s0 (execCommitPoint i s) := by
  unfold execCommitPoint
  repeat' (first
    | with_reducible assumption | with_reducible apply goOn_keeps | with_reducible apply State.gate_keeps
    | with_reducible apply startCommitPoint_keeps)

theorem startHalt_keeps {s0 a0 s} (h_s : Keeps s0 s) : Keeps s0 (startHalt a0 s) :=
  ⟨h_s.queue, h_s.wf⟩

theorem execHalt_keeps {s0 i s} (h_s : Keeps s0 s) : KeepsNext s0 (execHalt i s) := by
  unfold execHalt
  repeat' (first
    | with_reducible assumption | with_reducible apply goOn_keeps | with_reducible apply State.gate_keeps
    | with_reducible apply startHalt_keeps)

theorem startMark_keeps {s0 i s} (h_s : Keeps s0 s) : Keeps s0 (startMark i s) :=
  ⟨h_s.queue, h_s.wf⟩

theorem execMark_keeps {s0 i s} (h_s : Keeps s0 s) : KeepsNext s0 (execMark i s) := by
  unfold execMark
  repeat' (first
    | with_reducible assumption | with_reducible apply goOn_keeps | with_reducible apply State.gate_keeps
    | with_reducible apply startMark_keeps)

theorem startPhase_keeps {s0 i s} (h_s : Keeps s0 s) : Keeps s0 (startPhase i s) := by
  unfold startPhase
  repeat' (first
    | with_reducible assumption | ((try lift_lets -underBinder); intro x; try clear_value x)
    | with_reducible apply State.startPhase_keeps
    | (with_reducible refine Keeps.state (KeepsP.of ?_) ?_; on_goal 1 => with_reducible assumption)
    | (with_reducible apply KeepsM.of; with_reducible assumption))

theorem execPhase_keeps {s0 i s} (h_s : Keeps s0 s) : KeepsNext s0 (execPhase i s) := by
  unfold execPhase
  repeat' (first
    | with_reducible assumption | with_reducible apply goOn_keeps | with_reducible apply State.gate_keeps
    | with_reducible apply startPhase_keeps)

theorem startFloor_keeps {s0 i s} (h_s : Keeps s0 s) : Keeps s0 (startFloor i s) :=
  ⟨h_s.queue, h_s.wf⟩

theorem execFloor_keeps {s0 i s} (h_s : Keeps s0 s) : KeepsNext s0 (execFloor i s) := by
  unfold execFloor
  repeat' (first
    | with_reducible assumption | with_reducible apply goOn_keeps | with_reducible apply State.gate_keeps
    | with_reducible apply startFloor_keeps)

theorem startFence_keeps {s0 i s} (h_s : Keeps s0 s) : Keeps s0 (startFence i s) :=
  ⟨h_s.queue, h_s.wf⟩

theorem execFence_keeps {s0 i s} (h_s : Keeps s0 s) : KeepsNext s0 (execFence i s) := by
  unfold execFence
  repeat' (first
    | with_reducible assumption | with_reducible apply goOn_keeps | with_reducible apply State.gate_keeps
    | with_reducible apply startFence_keeps)

theorem fenceComplete_keeps {s0 c s} (h_s : Keeps s0 s) : Keeps s0 (fenceComplete c s) :=
  ⟨h_s.queue, h_s.wf⟩

theorem execFenceComplete_keeps {s0 c s} (h_s : Keeps s0 s) : KeepsNext s0 (execFenceComplete c s) := by
  unfold execFenceComplete
  repeat' (first | with_reducible assumption | with_reducible apply goOn_keeps | with_reducible apply fenceComplete_keeps)

theorem execArrayIdle_keeps {s0 i s} (h_s : Keeps s0 s) : KeepsNext s0 (execArrayIdle i s) := by
  unfold execArrayIdle
  repeat' (first
    | with_reducible assumption | with_reducible apply goOn_keeps | with_reducible apply State.gate_keeps
    | with_reducible apply startMode_keeps)

theorem execArrayHold_keeps {s0 i s} (h_s : Keeps s0 s) : KeepsNext s0 (execArrayHold i s) := by
  unfold execArrayHold
  repeat' (first
    | with_reducible assumption | with_reducible apply goOn_keeps | with_reducible apply State.gate_keeps
    | with_reducible apply startMode_keeps)

theorem execSorusIdle_keeps {s0 i s} (h_s : Keeps s0 s) : KeepsNext s0 (execSorusIdle i s) := by
  unfold execSorusIdle
  repeat' (first
    | with_reducible assumption | with_reducible apply goOn_keeps | with_reducible apply State.gate_keeps
    | with_reducible apply startMode_keeps)

theorem execSorusHold_keeps {s0 i s} (h_s : Keeps s0 s) : KeepsNext s0 (execSorusHold i s) := by
  unfold execSorusHold
  repeat' (first
    | with_reducible assumption | with_reducible apply goOn_keeps | with_reducible apply State.gate_keeps
    | with_reducible apply startMode_keeps)

theorem execFeederIdle_keeps {s0 i s} (h_s : Keeps s0 s) : KeepsNext s0 (execFeederIdle i s) := by
  unfold execFeederIdle
  repeat' (first
    | with_reducible assumption | with_reducible apply goOn_keeps | with_reducible apply State.gate_keeps
    | with_reducible apply startMode_keeps)

theorem execFiligreeIdle_keeps {s0 i s} (h_s : Keeps s0 s) : KeepsNext s0 (execFiligreeIdle i s) := by
  unfold execFiligreeIdle
  repeat' (first
    | with_reducible assumption | with_reducible apply goOn_keeps | with_reducible apply State.gate_keeps
    | with_reducible apply startMode_keeps)

theorem execMcIdle_keeps {s0 i s} (h_s : Keeps s0 s) : KeepsNext s0 (execMcIdle i s) := by
  unfold execMcIdle
  repeat' (first
    | with_reducible assumption | with_reducible apply goOn_keeps | with_reducible apply State.gate_keeps
    | with_reducible apply startMode_keeps)

theorem execPortIdle_keeps {s0 i s} (h_s : Keeps s0 s) : KeepsNext s0 (execPortIdle i s) := by
  unfold execPortIdle
  repeat' (first
    | with_reducible assumption | with_reducible apply goOn_keeps | with_reducible apply State.gate_keeps
    | with_reducible apply startMode_keeps)

theorem execStavlinkIdle_keeps {s0 i s} (h_s : Keeps s0 s) : KeepsNext s0 (execStavlinkIdle i s) := by
  unfold execStavlinkIdle
  repeat' (first
    | with_reducible assumption | with_reducible apply goOn_keeps | with_reducible apply State.gate_keeps
    | with_reducible apply startMode_keeps)

end Sys2Proof.Machine
end

