-- ==== Sys2Proof/Laws/KeepsArrays.lean ====
section
/-! SUPPORT. One lemma per function: it keeps the queue and the canonical form of the memories. Here:
arrays, the Clasp, blocks, the traffic and the sparse engine. -/

namespace Sys2Proof.Machine

theorem State.loadRow_keeps {s0 s i k} (h_s : Keeps s0 s) : Keeps s0 (State.loadRow s i k) := by
  unfold State.loadRow
  repeat' (first
    | with_reducible assumption
    | ((try lift_lets -underBinder); intro x; (have hx : Keeps s0 x := ?_); clear_value x; rotate_left; (clear_value (e : x = _); rw [e]; clear e))
    | ((try lift_lets -underBinder); intro x; try clear_value x) | with_reducible apply State.strikeOp_keeps
    | with_reducible apply State.consume_keeps | with_reducible apply State.setArray_keeps
    | (with_reducible refine Keeps.state (KeepsP.of ?_) ?_; on_goal 1 => with_reducible assumption)
    | (with_reducible refine Keeps.foldl ?_ ?_; on_goal 2 => intro _ _ _) | with_reducible apply Keeps.ite)

theorem startLoad_keeps {s0 op i s} (h_s : Keeps s0 s) : Keeps s0 (startLoad op i s) := by
  unfold startLoad
  repeat' (first
    | with_reducible assumption
    | ((try lift_lets -underBinder); intro x; (have hx : Keeps s0 x := ?_); clear_value x; rotate_left; (clear_value (e : x = _); rw [e]; clear e))
    | ((try lift_lets -underBinder); intro x; try clear_value x) | with_reducible apply State.setArray_keeps
    | with_reducible apply State.startWork_keeps)

theorem execLoadw_keeps {s0 i s} (h_s : Keeps s0 s) : KeepsNext s0 (execLoadw i s) := by
  unfold execLoadw
  repeat' (first
    | with_reducible assumption | with_reducible apply goOn_keeps | with_reducible apply State.gate_keeps
    | with_reducible apply startLoad_keeps)

theorem execLoadwT_keeps {s0 i s} (h_s : Keeps s0 s) : KeepsNext s0 (execLoadwT i s) := by
  unfold execLoadwT
  repeat' (first
    | with_reducible assumption | with_reducible apply goOn_keeps | with_reducible apply State.gate_keeps
    | with_reducible apply startLoad_keeps)

theorem State.cornerCheck_keeps {s0 s i u} (h_s : Keeps s0 s) : Keeps s0 (State.cornerCheck s i u) := by
  unfold State.cornerCheck
  repeat' (first
    | with_reducible assumption
    | ((try lift_lets -underBinder); intro x; (have hx : Keeps s0 x := ?_); clear_value x; rotate_left; (clear_value (e : x = _); rw [e]; clear e))
    | ((try lift_lets -underBinder); intro x; try clear_value x) | with_reducible apply State.count_keeps
    | with_reducible apply State.raise_keeps | with_reducible apply State.setArray_keeps
    | (with_reducible refine Keeps.state (KeepsP.of ?_) ?_; on_goal 1 => with_reducible assumption)
    | with_reducible apply Keeps.ite)

theorem loadwComplete_keeps {s0 d s} (h_s : Keeps s0 s) : Keeps s0 (loadwComplete d s) := by
  unfold loadwComplete
  repeat' (first
    | with_reducible assumption | with_reducible apply State.settle_keeps | with_reducible apply State.endWork_keeps
    | with_reducible apply State.cornerCheck_keeps
    | (with_reducible refine Keeps.state (KeepsP.of ?_) ?_; on_goal 1 => with_reducible assumption)
    | with_reducible refine Keeps.of_fst (by with_reducible assumption) ?_
    | with_reducible refine Keeps.of_snd (by with_reducible assumption) ?_
    | with_reducible refine KeepsS.elim (by with_reducible assumption) ?_
    | with_reducible refine KeepsT.elim (by with_reducible assumption) ?_ | split)

theorem execLoadwComplete_keeps {s0 d s} (h_s : Keeps s0 s) : KeepsNext s0 (execLoadwComplete d s) := by
  unfold execLoadwComplete
  repeat' (first | with_reducible assumption | with_reducible apply goOn_keeps | with_reducible apply loadwComplete_keeps)

theorem startSwap_keeps {s0 i s} (h_s : Keeps s0 s) : Keeps s0 (startSwap i s) := by
  unfold startSwap
  repeat' (first | with_reducible assumption | with_reducible apply State.startWork_keeps)

theorem execSwap_keeps {s0 i s} (h_s : Keeps s0 s) : KeepsNext s0 (execSwap i s) := by
  unfold execSwap
  repeat' (first
    | with_reducible assumption | with_reducible apply goOn_keeps | with_reducible apply State.gate_keeps
    | with_reducible apply startSwap_keeps)

theorem State.swapArray_keeps {s0 s u} (h_s : Keeps s0 s) : Keeps s0 (State.swapArray s u) := by
  unfold State.swapArray
  repeat' (first
    | with_reducible assumption | ((try lift_lets -underBinder); intro x; try clear_value x)
    | with_reducible apply State.count_keeps | with_reducible apply State.setArray_keeps)

theorem swapComplete_keeps {s0 d s} (h_s : Keeps s0 s) : Keeps s0 (swapComplete d s) := by
  unfold swapComplete
  repeat' (first
    | with_reducible assumption | with_reducible apply State.settle_keeps | with_reducible apply State.endWork_keeps
    | with_reducible apply State.swapArray_keeps | with_reducible apply Keeps.ite)

theorem execSwapComplete_keeps {s0 d s} (h_s : Keeps s0 s) : KeepsNext s0 (execSwapComplete d s) := by
  unfold execSwapComplete
  repeat' (first | with_reducible assumption | with_reducible apply goOn_keeps | with_reducible apply swapComplete_keeps)

theorem State.countGated_keeps {s0 s u n} (h_s : Keeps s0 s) : Keeps s0 (State.countGated s u n) := by
  unfold State.countGated
  repeat' (first
    | with_reducible assumption
    | ((try lift_lets -underBinder); intro x; (have hx : Keeps s0 x := ?_); clear_value x; rotate_left; (clear_value (e : x = _); rw [e]; clear e))
    | ((try lift_lets -underBinder); intro x; try clear_value x) | with_reducible apply State.setArray_keeps
    | with_reducible apply State.count_keeps
    | (with_reducible refine Keeps.state (KeepsP.of ?_) ?_; on_goal 1 => with_reducible assumption)
    | with_reducible apply Keeps.ite)

theorem State.stream_keeps {s0 s i t} (h_s : Keeps s0 s) : Keeps s0 (State.stream s i t) := by
  unfold State.stream
  repeat' (first
    | with_reducible assumption
    | ((try lift_lets -underBinder); intro x; (have hx : Keeps s0 x := ?_); clear_value x; rotate_left; (clear_value (e : x = _); rw [e]; clear e))
    | ((try lift_lets -underBinder); intro x; try clear_value x) | with_reducible apply State.countIf_keeps
    | with_reducible apply State.consume_keeps | with_reducible apply State.endPhase_keeps
    | with_reducible apply State.startPhase_keeps | with_reducible apply startPhase_keeps | with_reducible apply Keeps.ite)

theorem startMatmul_keeps {s0 i s} (h_s : Keeps s0 s) : Keeps s0 (startMatmul i s) := by
  unfold startMatmul
  repeat' (first
    | with_reducible assumption | ((try lift_lets -underBinder); intro x; try clear_value x)
    | with_reducible apply State.raise_keeps | with_reducible apply State.poisonTile_keeps
    | with_reducible apply State.stream_keeps | with_reducible apply Keeps.ite)

theorem execMatmul_keeps {s0 i s} (h_s : Keeps s0 s) : KeepsNext s0 (execMatmul i s) := by
  unfold execMatmul
  repeat' (first
    | with_reducible assumption | with_reducible apply goOn_keeps | with_reducible apply State.gate_keeps
    | with_reducible apply startMatmul_keeps)

theorem State.eachProduct_keeps {s0 s u f} (h_s : Keeps s0 s) (h_f : ∀ x0 x1, Keeps s0 x0 → Keeps s0 (f x0 x1).1) : Keeps s0 (State.eachProduct s u f) := by
  unfold State.eachProduct
  repeat' (first
    | with_reducible assumption
    | ((try lift_lets -underBinder); intro x; (have hx : Keeps s0 x.1 := ?_); clear_value x; rotate_left; (clear_value (e : x = _); rw [e]; clear e))
    | ((try lift_lets -underBinder); intro x; try clear_value x) | with_reducible apply State.onUnit_keeps
    | with_reducible apply h_f | (with_reducible refine Keeps.state (KeepsP.of ?_) ?_; on_goal 1 => with_reducible assumption)
    | (with_reducible refine Keeps.foldl_fst ?_ ?_; on_goal 2 => intro _ _ _)
    | with_reducible refine Keeps.of_fst (by with_reducible assumption) ?_
    | with_reducible refine Keeps.of_snd (by with_reducible assumption) ?_
    | with_reducible refine KeepsS.elim (by with_reducible assumption) ?_
    | with_reducible refine KeepsT.elim (by with_reducible assumption) ?_ | split)

theorem State.compare_keeps {s0 s u w} (h_s : Keeps s0 s) : Keeps s0 (State.compare s u w).1 := by
  unfold State.compare
  repeat' (first
    | with_reducible assumption
    | ((try lift_lets -underBinder); intro x; (have hx : Keeps s0 x.1 := ?_); clear_value x; rotate_left; (clear_value (e : x = _); rw [e]; clear e))
    | ((try lift_lets -underBinder); intro x; try clear_value x) | with_reducible apply State.witness_keeps
    | with_reducible apply State.stream_keeps
    | (with_reducible refine Keeps.state (KeepsP.of ?_) ?_; on_goal 1 => with_reducible assumption)
    | (with_reducible refine Keeps.foldl_fst ?_ ?_; on_goal 2 => intro _ _ _) | with_reducible apply Keeps.ite
    | with_reducible apply Keeps.ite_fst | split)

theorem State.enterGroup_keeps {s0 s u w} (h_s : Keeps s0 s) : Keeps s0 (State.enterGroup s u w).1 := by
  unfold State.enterGroup
  repeat' (first
    | with_reducible assumption
    | ((try lift_lets -underBinder); intro x; (have hx : Keeps s0 x := ?_); clear_value x; rotate_left; (clear_value (e : x = _); rw [e]; clear e))
    | ((try lift_lets -underBinder); intro x; try clear_value x) | with_reducible apply State.strikeOp_keeps
    | with_reducible apply State.consume_keeps | with_reducible apply State.stream_keeps
    | (with_reducible refine Keeps.state (KeepsP.of ?_) ?_; on_goal 1 => with_reducible assumption)
    | with_reducible apply Keeps.ite | with_reducible apply Keeps.ite_fst | split)

theorem State.handGroup_keeps {s0 u t poison n} : ∀ {s g}, Keeps s0 s → Keeps s0 (State.handGroup s u t poison n g).1 := by
  induction n with
  | zero => intro s g h; exact h
  | succ n ih =>
    intro s g h
    unfold State.handGroup
    split
    · exact h
    · dsimp only
      split
      · exact h
      · split
        · exact State.setFiligree_keeps h
        · split
          · rename_i e
            exact ih (KeepsS.elim e (State.handOver_keeps (State.setFiligree_keeps h)))
          · exact h

theorem State.passGroups_keeps {s0 s u t poison a4 a5} (h_s : Keeps s0 s) : Keeps s0 (State.passGroups s u t poison a4 a5).1 := by
  induction a5 generalizing s u t poison a4 with
  | nil =>
    unfold State.passGroups
    with_reducible assumption
  | cons y l ih =>
    unfold State.passGroups
    repeat' (first
      | with_reducible assumption | with_reducible apply ih
      | ((try lift_lets -underBinder); intro x; (have hx : Keeps s0 x.1 := ?_); clear_value x; rotate_left; (clear_value (e : x = _); rw [e]; clear e))
      | with_reducible apply State.drainRow_keeps | with_reducible apply State.handGroup_keeps
      | (with_reducible refine Keeps.state (KeepsP.of ?_) ?_; on_goal 1 => with_reducible assumption)
      | (with_reducible refine Keeps.foldl ?_ ?_; on_goal 2 => intro _ _ _) | with_reducible apply Keeps.ite
      | with_reducible apply Keeps.ite_fst)

theorem State.passDrain_keeps {s0 s u} (h_s : Keeps s0 s) : Keeps s0 (State.passDrain s u) := by
  unfold State.passDrain
  repeat' (first
    | with_reducible assumption
    | ((try lift_lets -underBinder); intro x; (have hx : Keeps s0 x.1 := ?_); clear_value x; rotate_left; (clear_value (e : x = _); rw [e]; clear e))
    | ((try lift_lets -underBinder); intro x; (have hf8 : ∀ y z, Keeps s0 y.1 → Keeps s0 (x y z).1 := ?_); clear_value x; rotate_left; (clear_value (e : x = _); rw [e]; clear e; intros; beta_reduce))
    | ((try lift_lets -underBinder); intro x; try clear_value x) | with_reducible apply hf0 | with_reducible apply hf1
    | with_reducible apply hf2 | with_reducible apply hf3 | with_reducible apply hf4 | with_reducible apply hf5
    | with_reducible apply hf6 | with_reducible apply hf7 | with_reducible apply hf8 | with_reducible apply hf9
    | with_reducible apply State.passGroups_keeps | with_reducible apply State.onUnit_keeps
    | with_reducible apply State.stream_keeps
    | (with_reducible refine Keeps.state (KeepsP.of ?_) ?_; on_goal 1 => with_reducible assumption)
    | (with_reducible refine Keeps.foldl_fst ?_ ?_; on_goal 2 => intro _ _ _)
    | with_reducible refine Keeps.of_fst (by with_reducible assumption) ?_
    | with_reducible refine Keeps.of_snd (by with_reducible assumption) ?_
    | with_reducible refine KeepsS.elim (by with_reducible assumption) ?_
    | with_reducible refine KeepsT.elim (by with_reducible assumption) ?_ | split)

theorem State.closePhase_keeps {s0 s u} (h_s : Keeps s0 s) : Keeps s0 (State.closePhase s u) := by
  unfold State.closePhase
  repeat' (first
    | with_reducible assumption | with_reducible apply State.endPhase_keeps
    | (with_reducible refine Keeps.state (KeepsP.of ?_) ?_; on_goal 1 => with_reducible assumption)
    | with_reducible apply Keeps.ite | with_reducible refine Keeps.of_fst (by with_reducible assumption) ?_
    | with_reducible refine Keeps.of_snd (by with_reducible assumption) ?_
    | with_reducible refine KeepsS.elim (by with_reducible assumption) ?_
    | with_reducible refine KeepsT.elim (by with_reducible assumption) ?_ | split)

theorem State.moveArray_keeps {s0 s u} (h_s : Keeps s0 s) : Keeps s0 (State.moveArray s u) := by
  unfold State.moveArray
  repeat' (first
    | with_reducible assumption
    | ((try lift_lets -underBinder); intro x; (have hx : Keeps s0 x := ?_); clear_value x; rotate_left; (clear_value (e : x = _); rw [e]; clear e))
    | ((try lift_lets -underBinder); intro x; (have hx : Keeps s0 x.1 := ?_); clear_value x; rotate_left; (clear_value (e : x = _); rw [e]; clear e))
    | ((try lift_lets -underBinder); intro x; try clear_value x) | with_reducible apply State.onUnit_keeps
    | with_reducible apply State.enterGroup_keeps | with_reducible apply State.closePhase_keeps
    | with_reducible apply State.countGated_keeps
    | (with_reducible refine Keeps.state (KeepsP.of ?_) ?_; on_goal 1 => with_reducible assumption)
    | with_reducible apply Keeps.ite | with_reducible apply Keeps.ite_fst
    | with_reducible refine Keeps.of_fst (by with_reducible assumption) ?_
    | with_reducible refine Keeps.of_snd (by with_reducible assumption) ?_
    | with_reducible refine KeepsS.elim (by with_reducible assumption) ?_
    | with_reducible refine KeepsT.elim (by with_reducible assumption) ?_ | split)

theorem State.arrayCycle_keeps {s0 s u fed open_} (h_s : Keeps s0 s) : Keeps s0 (State.arrayCycle s u fed open_) := by
  unfold State.arrayCycle
  repeat' (first
    | with_reducible assumption
    | ((try lift_lets -underBinder); intro x; (have hx : Keeps s0 x := ?_); clear_value x; rotate_left; (clear_value (e : x = _); rw [e]; clear e))
    | ((try lift_lets -underBinder); intro x; try clear_value x) | with_reducible apply State.planned_keeps
    | with_reducible apply State.unplanned_keeps | with_reducible apply State.eachProduct_keeps
    | with_reducible apply State.compare_keeps | with_reducible apply State.moveArray_keeps
    | with_reducible apply State.passDrain_keeps | with_reducible apply State.onUnit_keeps
    | (with_reducible refine Keeps.state (KeepsP.of ?_) ?_; on_goal 1 => with_reducible assumption)
    | with_reducible apply Keeps.ite)

theorem State.feederCycle_keeps {s0 s u fed} (h_s : Keeps s0 s) : Keeps s0 (State.feederCycle s u fed) := by
  unfold State.feederCycle
  repeat' (first
    | with_reducible assumption | ((try lift_lets -underBinder); intro x; try clear_value x)
    | with_reducible apply State.onUnit_keeps | with_reducible apply State.loadRow_keeps
    | (with_reducible refine Keeps.state (KeepsP.of ?_) ?_; on_goal 1 => with_reducible assumption)
    | with_reducible apply Keeps.ite | with_reducible refine Keeps.of_fst (by with_reducible assumption) ?_
    | with_reducible refine Keeps.of_snd (by with_reducible assumption) ?_
    | with_reducible refine KeepsS.elim (by with_reducible assumption) ?_
    | with_reducible refine KeepsT.elim (by with_reducible assumption) ?_ | split)

theorem matmulComplete_keeps {s0 u s} (h_s : Keeps s0 s) : Keeps s0 (matmulComplete u s) := by
  unfold matmulComplete
  repeat' (first
    | with_reducible assumption
    | ((try lift_lets -underBinder); intro x; (have hx : Keeps s0 x := ?_); clear_value x; rotate_left; (clear_value (e : x = _); rw [e]; clear e))
    | ((try lift_lets -underBinder); intro x; try clear_value x) | with_reducible apply State.poisonTile_keeps
    | with_reducible apply State.settle_keeps | with_reducible apply State.onUnit_keeps | with_reducible apply State.putMask_keeps
    | with_reducible apply State.stream_keeps
    | (with_reducible refine Keeps.state (KeepsP.of ?_) ?_; on_goal 1 => with_reducible assumption)
    | with_reducible apply Keeps.ite | split)

theorem execMatmulComplete_keeps {s0 u s} (h_s : Keeps s0 s) : KeepsNext s0 (execMatmulComplete u s) := by
  unfold execMatmulComplete
  repeat' (first | with_reducible assumption | with_reducible apply goOn_keeps | with_reducible apply matmulComplete_keeps)

theorem State.corruptBlock_keeps {s0 s b} (h_s : Keeps s0 s) : Keeps s0 (State.corruptBlock s b) := by
  unfold State.corruptBlock
  repeat' (first
    | with_reducible assumption
    | ((try lift_lets -underBinder); intro x; (have hx : KeepsM s0 x := ?_); clear_value x; rotate_left; (clear_value (e : x = _); rw [e]; clear e))
    | ((try lift_lets -underBinder); intro x; try clear_value x)
    | (with_reducible refine Keeps.state (KeepsP.of ?_) ?_; on_goal 1 => with_reducible assumption)
    | (with_reducible apply KeepsM.of; with_reducible assumption) | (with_reducible apply KeepsM.memory)
    | (with_reducible refine KeepsH.of ?_; with_reducible assumption)
    | (with_reducible refine KeepsO.of ?_; with_reducible assumption) | with_reducible exact KeepsH.empty
    | with_reducible exact KeepsO.empty | with_reducible apply Keeps.ite)

theorem State.countSeverity_keeps {s0 s b} (h_s : Keeps s0 s) : Keeps s0 (State.countSeverity s b) := by
  unfold State.countSeverity
  repeat' (first
    | with_reducible assumption
    | ((try lift_lets -underBinder); intro x; (have hx : Keeps s0 x := ?_); clear_value x; rotate_left; (clear_value (e : x = _); rw [e]; clear e))
    | ((try lift_lets -underBinder); intro x; try clear_value x) | with_reducible apply State.chance_keeps
    | with_reducible apply State.count_keeps | with_reducible apply Keeps.ite)

theorem State.checkBlock_keeps {s0 s b ctx delay} (h_s : Keeps s0 s) : Keeps s0 (State.checkBlock s b ctx delay) := by
  unfold State.checkBlock
  repeat' (first
    | with_reducible assumption
    | ((try lift_lets -underBinder); intro x; (have hx : Keeps s0 x := ?_); clear_value x; rotate_left; (clear_value (e : x = _); rw [e]; clear e))
    | ((try lift_lets -underBinder); intro x; try clear_value x) | with_reducible apply State.countSeverity_keeps
    | with_reducible apply State.corruptBlock_keeps | with_reducible apply State.mend_keeps
    | with_reducible apply State.count_keeps | with_reducible apply State.raiseIn_keeps
    | with_reducible apply State.poisonHbm_keeps
    | (with_reducible refine Keeps.state (KeepsP.of ?_) ?_; on_goal 1 => with_reducible assumption)
    | with_reducible apply Keeps.ite | with_reducible apply Keeps.ite_fst
    | with_reducible refine Keeps.of_fst (by with_reducible assumption) ?_
    | with_reducible refine Keeps.of_snd (by with_reducible assumption) ?_
    | with_reducible refine KeepsS.elim (by with_reducible assumption) ?_
    | with_reducible refine KeepsT.elim (by with_reducible assumption) ?_ | split)

theorem State.readBlock_keeps {s0 s u ctx b hint uses} (h_s : Keeps s0 s) : Keeps s0 (State.readBlock s u ctx b hint uses).1 := by
  unfold State.readBlock
  repeat' (first
    | with_reducible assumption
    | ((try lift_lets -underBinder); intro x; (have hx : Keeps s0 x := ?_); clear_value x; rotate_left; (clear_value (e : x = _); rw [e]; clear e))
    | ((try lift_lets -underBinder); intro x; try clear_value x) | with_reducible apply State.strikeLine_keeps
    | with_reducible apply State.checkBlock_keeps | with_reducible apply State.consume_keeps
    | with_reducible apply State.clasp_keeps | with_reducible apply Keeps.ite)

theorem State.readThrough_keeps {s0 s u ctx a3 n} (h_s : Keeps s0 s) : Keeps s0 (State.readThrough s u ctx a3 n).1 := by
  unfold State.readThrough
  repeat' (first
    | with_reducible assumption
    | ((try lift_lets -underBinder); intro x; (have hx : Keeps s0 x.1 := ?_); clear_value x; rotate_left; (clear_value (e : x = _); rw [e]; clear e))
    | ((try lift_lets -underBinder); intro x; try clear_value x) | with_reducible apply State.readBlock_keeps
    | (with_reducible refine Keeps.foldl_fst ?_ ?_; on_goal 2 => intro _ _ _))

theorem State.touchWrite_keeps {s0 s ctx b hint uses whole} (h_s : Keeps s0 s) : Keeps s0 (State.touchWrite s ctx b hint uses whole) := by
  unfold State.touchWrite
  repeat' (first
    | with_reducible assumption
    | ((try lift_lets -underBinder); intro x; (have hx : Keeps s0 x := ?_); clear_value x; rotate_left; (clear_value (e : x = _); rw [e]; clear e))
    | with_reducible apply State.clasp_keeps | with_reducible apply State.strikeLine_keeps
    | with_reducible apply State.checkBlock_keeps | with_reducible apply Keeps.ite)

theorem State.writeThrough_keeps {s0 s ctx a2 bytes poisoned} (h_s : Keeps s0 s) : Keeps s0 (State.writeThrough s ctx a2 bytes poisoned) := by
  unfold State.writeThrough
  repeat' (first
    | with_reducible assumption | with_reducible apply State.hbmWrite_keeps | with_reducible apply State.touchWrite_keeps
    | (with_reducible refine Keeps.foldl ?_ ?_; on_goal 2 => intro _ _ _))

theorem State.addUndo_keeps {s0 s mc ctx u} (h_s : Keeps s0 s) : Keeps s0 (State.addUndo s mc ctx u) := by
  unfold State.addUndo
  repeat' (first
    | with_reducible assumption | with_reducible apply State.raise_keeps
    | (with_reducible refine Keeps.state (KeepsP.of ?_) ?_; on_goal 1 => with_reducible assumption)
    | (with_reducible apply KeepsM.memory) | (with_reducible refine KeepsH.of (KeepsM.of ?_); with_reducible assumption)
    | (with_reducible refine KeepsO.of (KeepsM.of ?_); with_reducible assumption) | with_reducible exact KeepsH.empty
    | with_reducible exact KeepsO.empty | with_reducible apply Keeps.ite)

theorem State.firstUndo_keeps {s0 s mc ctx u} (h_s : Keeps s0 s) : Keeps s0 (State.firstUndo s mc ctx u) := by
  unfold State.firstUndo
  repeat' (first | with_reducible assumption | with_reducible apply State.addUndo_keeps | with_reducible apply Keeps.ite)

theorem State.recordWrite_keeps {s0 s ctx tensor addr bytes} (h_s : Keeps s0 s) : Keeps s0 (State.recordWrite s ctx tensor addr bytes) := by
  unfold State.recordWrite
  repeat' (first
    | with_reducible assumption
    | ((try lift_lets -underBinder); intro x; (have hx : Keeps s0 x := ?_); clear_value x; rotate_left; (clear_value (e : x = _); rw [e]; clear e))
    | ((try lift_lets -underBinder); intro x; try clear_value x) | with_reducible apply State.firstUndo_keeps
    | with_reducible apply State.writeThrough_keeps
    | (with_reducible refine Keeps.state (KeepsP.of ?_) ?_; on_goal 1 => with_reducible assumption)
    | with_reducible apply Keeps.ite | with_reducible refine Keeps.of_fst (by with_reducible assumption) ?_
    | with_reducible refine Keeps.of_snd (by with_reducible assumption) ?_
    | with_reducible refine KeepsS.elim (by with_reducible assumption) ?_
    | with_reducible refine KeepsT.elim (by with_reducible assumption) ?_ | split)

theorem State.stepWrite_keeps {s0 s ctx tensor addr bytes poisoned} (h_s : Keeps s0 s) : Keeps s0 (State.stepWrite s ctx tensor addr bytes poisoned) := by
  unfold State.stepWrite
  repeat' (first
    | with_reducible assumption | with_reducible apply State.hbmWrite_keeps | with_reducible apply State.recordWrite_keeps
    | with_reducible apply State.noteWritten_keeps)

theorem State.anyTouch_keeps {s0 s u ctx a3 n} (h_s : Keeps s0 s) : Keeps s0 (State.anyTouch s u ctx a3 n).1 := by
  unfold State.anyTouch
  repeat' (first
    | with_reducible assumption
    | ((try lift_lets -underBinder); intro x; (have hx : Keeps s0 x := ?_); clear_value x; rotate_left; (clear_value (e : x = _); rw [e]; clear e))
    | ((try lift_lets -underBinder); intro x; (have hx : Keeps s0 x.1 := ?_); clear_value x; rotate_left; (clear_value (e : x = _); rw [e]; clear e))
    | ((try lift_lets -underBinder); intro x; try clear_value x) | with_reducible apply State.strikeOp_keeps
    | with_reducible apply State.consume_keeps | with_reducible apply State.readThrough_keeps | with_reducible apply Keeps.ite
    | with_reducible apply Keeps.ite_fst)

theorem State.stepThrough_keeps {s0 s ctx tensor addr bytes poisoned} (h_s : Keeps s0 s) : Keeps s0 (State.stepThrough s ctx tensor addr bytes poisoned) := by
  unfold State.stepThrough
  repeat' (first
    | with_reducible assumption | with_reducible apply State.writeThrough_keeps | with_reducible apply State.recordWrite_keeps
    | with_reducible apply State.noteWritten_keeps)

theorem State.anyWrite_keeps {s0 s d ctx tensor a4 bytes poisoned} (h_s : Keeps s0 s) : Keeps s0 (State.anyWrite s d ctx tensor a4 bytes poisoned) := by
  unfold State.anyWrite
  repeat' (first
    | with_reducible assumption | with_reducible apply State.opWrite_keeps | with_reducible apply State.stepThrough_keeps
    | with_reducible apply Keeps.ite)

theorem State.writeBlock_keeps {s0 s ctx tensor a3 hint uses bytes poisoned} (h_s : Keeps s0 s) : Keeps s0 (State.writeBlock s ctx tensor a3 hint uses bytes poisoned) := by
  unfold State.writeBlock
  repeat' (first
    | with_reducible assumption
    | ((try lift_lets -underBinder); intro x; (have hx : Keeps s0 x := ?_); clear_value x; rotate_left; (clear_value (e : x = _); rw [e]; clear e))
    | with_reducible apply State.touchWrite_keeps | with_reducible apply State.stepWrite_keeps)

theorem State.writeBytes_keeps {s0 s ctx tensor a3 hint uses bytes poisoned} (h_s : Keeps s0 s) : Keeps s0 (State.writeBytes s ctx tensor a3 hint uses bytes poisoned) := by
  unfold State.writeBytes
  repeat' (first
    | with_reducible assumption | with_reducible apply State.writeBlock_keeps
    | (with_reducible refine Keeps.foldl ?_ ?_; on_goal 2 => intro _ _ _))

theorem State.touchReduce_keeps {s0 s r b} (h_s : Keeps s0 s) : Keeps s0 (State.touchReduce s r b) := by
  unfold State.touchReduce
  repeat' (first
    | with_reducible assumption
    | ((try lift_lets -underBinder); intro x; (have hx : Keeps s0 x := ?_); clear_value x; rotate_left; (clear_value (e : x = _); rw [e]; clear e))
    | with_reducible apply State.strikeLine_keeps | with_reducible apply State.checkBlock_keeps
    | with_reducible apply State.consume_keeps | with_reducible apply State.count_keeps | with_reducible apply State.clasp_keeps
    | with_reducible apply Keeps.ite)

theorem State.putReduced_keeps {s0 s r a2 bytes poisoned} (h_s : Keeps s0 s) : Keeps s0 (State.putReduced s r a2 bytes poisoned) := by
  unfold State.putReduced
  repeat' (first
    | with_reducible assumption
    | ((try lift_lets -underBinder); intro x; (have hx : Keeps s0 x := ?_); clear_value x; rotate_left; (clear_value (e : x = _); rw [e]; clear e))
    | with_reducible apply State.touchReduce_keeps | with_reducible apply State.stepWrite_keeps)

theorem State.reduceValues_keeps {s0 s r base first vs poisoned} (h_s : Keeps s0 s) : Keeps s0 (State.reduceValues s r base first vs poisoned) := by
  unfold State.reduceValues
  repeat' (first
    | with_reducible assumption
    | ((try lift_lets -underBinder); intro x; (have hx : Keeps s0 x := ?_); clear_value x; rotate_left; (clear_value (e : x = _); rw [e]; clear e))
    | ((try lift_lets -underBinder); intro x; try clear_value x) | with_reducible apply State.putReduced_keeps
    | with_reducible apply State.reportMax_keeps | with_reducible apply State.stored_keeps
    | (with_reducible refine Keeps.foldl ?_ ?_; on_goal 2 => intro _ _ _))

theorem State.reduceBytes_keeps {s0 s r base off src poisoned} (h_s : Keeps s0 s) : Keeps s0 (State.reduceBytes s r base off src poisoned) := by
  unfold State.reduceBytes
  repeat' (first
    | with_reducible assumption | ((try lift_lets -underBinder); intro x; try clear_value x)
    | with_reducible apply State.reduceValues_keeps | with_reducible apply State.putReduced_keeps
    | (with_reducible refine Keeps.foldl ?_ ?_; on_goal 2 => intro _ _ _) | with_reducible apply Keeps.ite)

theorem State.touchTable_keeps {s0 s u ctx redop gfcoef coefTab source} (h_s : Keeps s0 s) : Keeps s0 (State.touchTable s u ctx redop gfcoef coefTab source) := by
  unfold State.touchTable
  repeat' (first | with_reducible assumption | with_reducible apply State.readThrough_keeps | with_reducible apply Keeps.ite)

theorem State.sendFlit_keeps {s0 s p r} (h_s : Keeps s0 s) : Keeps s0 (State.sendFlit s p r) := by
  unfold State.sendFlit
  repeat' (first
    | with_reducible assumption | ((try lift_lets -underBinder); intro x; try clear_value x)
    | with_reducible apply State.setPort_keeps)

theorem State.sendAgain_keeps {s0 s p} (h_s : Keeps s0 s) : Keeps s0 (State.sendAgain s p) := by
  unfold State.sendAgain
  repeat' (first
    | with_reducible assumption | ((try lift_lets -underBinder); intro x; try clear_value x)
    | with_reducible apply State.count_keeps | with_reducible apply State.setPort_keeps
    | (with_reducible refine Keeps.state (KeepsP.of ?_) ?_; on_goal 1 => with_reducible assumption) | split)

theorem State.pump_keeps {s0 s p} (h_s : Keeps s0 s) : Keeps s0 (State.pump s p) := by
  unfold State.pump
  repeat' (first
    | with_reducible assumption | ((try lift_lets -underBinder); intro x; try clear_value x)
    | with_reducible apply State.sendFlit_keeps | with_reducible apply State.sendAgain_keeps
    | (with_reducible refine Keeps.state (KeepsP.of ?_) ?_; on_goal 1 => with_reducible assumption)
    | with_reducible apply Keeps.ite | with_reducible refine Keeps.of_fst (by with_reducible assumption) ?_
    | with_reducible refine Keeps.of_snd (by with_reducible assumption) ?_
    | with_reducible refine KeepsS.elim (by with_reducible assumption) ?_
    | with_reducible refine KeepsT.elim (by with_reducible assumption) ?_ | split)

theorem State.linkCycle_keeps {s0 s p} (h_s : Keeps s0 s) : Keeps s0 (State.linkCycle s p) := by
  unfold State.linkCycle
  repeat' (first
    | with_reducible assumption | ((try lift_lets -underBinder); intro x; try clear_value x)
    | with_reducible apply State.pump_keeps | with_reducible apply State.setPort_keeps)

theorem State.enqueue_keeps {s0 s p r} (h_s : Keeps s0 s) : Keeps s0 (State.enqueue s p r) := by
  unfold State.enqueue
  repeat' (first | with_reducible assumption | with_reducible apply State.pump_keeps | with_reducible apply State.setPort_keeps)

theorem State.sendLink_keeps {s0 s p op payload} (h_s : Keeps s0 s) : Keeps s0 (State.sendLink s p op payload) := by
  unfold State.sendLink
  repeat' (first
    | with_reducible assumption | ((try lift_lets -underBinder); intro x; try clear_value x)
    | with_reducible apply State.enqueue_keeps)

theorem State.originate_keeps {s0 s unit f} (h_s : Keeps s0 s) : Keeps s0 (State.originate s unit f) := by
  unfold State.originate
  repeat' (first
    | with_reducible assumption | ((try lift_lets -underBinder); intro x; try clear_value x)
    | with_reducible apply State.raise_keeps | with_reducible apply State.enqueue_keeps
    | (with_reducible refine Keeps.state (KeepsP.of ?_) ?_; on_goal 1 => with_reducible assumption)
    | (with_reducible apply KeepsM.of; with_reducible assumption) | with_reducible apply Keeps.ite)

theorem State.toHost_keeps {s0 s f} (h_s : Keeps s0 s) : Keeps s0 (State.toHost s f) := by
  unfold State.toHost
  repeat' (first | with_reducible assumption | with_reducible apply State.enqueue_keeps)

theorem State.flood_keeps {s0 s f except} (h_s : Keeps s0 s) : Keeps s0 (State.flood s f except) := by
  unfold State.flood
  repeat' (first
    | with_reducible assumption | with_reducible apply State.enqueue_keeps
    | (with_reducible refine Keeps.foldl ?_ ?_; on_goal 2 => intro _ _ _))

theorem State.setTraffic_keeps {s0 s t} (h_s : Keeps s0 s) : Keeps s0 (State.setTraffic s t) :=
  ⟨h_s.queue, h_s.wf⟩

theorem State.ask_keeps {s0 s r} (h_s : Keeps s0 s) : Keeps s0 (State.ask s r) := by
  unfold State.ask
  repeat' (first
    | with_reducible assumption | ((try lift_lets -underBinder); intro x; try clear_value x)
    | with_reducible apply State.setTraffic_keeps)

theorem State.arriveIn_keeps {s0 s n p} (h_s : Keeps s0 s) : Keeps s0 (State.arriveIn s n p) := by
  unfold State.arriveIn
  repeat' (first | with_reducible assumption | with_reducible apply State.setTraffic_keeps)

theorem State.setLane_keeps {s0 s l x} (h_s : Keeps s0 s) : Keeps s0 (State.setLane s l x) := by
  unfold State.setLane
  repeat' (first | with_reducible assumption | with_reducible apply State.setTraffic_keeps)

theorem State.enterBridge_keeps {s0 s p} (h_s : Keeps s0 s) : Keeps s0 (State.enterBridge s p) := by
  unfold State.enterBridge
  repeat' (first
    | with_reducible assumption | ((try lift_lets -underBinder); intro x; try clear_value x)
    | with_reducible apply State.setLane_keeps)

theorem State.carry_keeps {s0 s p} (h_s : Keeps s0 s) : Keeps s0 (State.carry s p) := by
  unfold State.carry
  repeat' (first
    | with_reducible assumption | with_reducible apply State.enterBridge_keeps | with_reducible apply State.ask_keeps
    | with_reducible apply State.arriveIn_keeps | with_reducible apply State.put_keeps | with_reducible apply Keeps.ite)

theorem State.raiseBridge_keeps {s0 s east west units} (h_s : Keeps s0 s) : Keeps s0 (State.raiseBridge s east west units) := by
  unfold State.raiseBridge
  repeat' (first | with_reducible assumption | with_reducible apply State.raise_keeps)

theorem State.serveLane_keeps {s0 s l} (h_s : Keeps s0 s) : Keeps s0 (State.serveLane s l) := by
  unfold State.serveLane
  repeat' (first
    | with_reducible assumption | ((try lift_lets -underBinder); intro x; try clear_value x)
    | with_reducible apply State.raiseBridge_keeps | with_reducible apply State.setLane_keeps
    | (with_reducible refine Keeps.state (KeepsP.of ?_) ?_; on_goal 1 => with_reducible assumption)
    | (with_reducible apply KeepsM.of; with_reducible assumption) | with_reducible apply Keeps.ite
    | with_reducible refine Keeps.of_fst (by with_reducible assumption) ?_
    | with_reducible refine Keeps.of_snd (by with_reducible assumption) ?_
    | with_reducible refine KeepsS.elim (by with_reducible assumption) ?_
    | with_reducible refine KeepsT.elim (by with_reducible assumption) ?_ | split)

theorem State.clearDelays_keeps {s0 s u} (h_s : Keeps s0 s) : Keeps s0 (State.clearDelays s u) := by
  unfold State.clearDelays
  repeat' (first
    | with_reducible assumption | ((try lift_lets -underBinder); intro x; try clear_value x)
    | with_reducible apply State.setLane_keeps
    | (with_reducible refine Keeps.state (KeepsP.of ?_) ?_; on_goal 1 => with_reducible assumption)
    | (with_reducible refine Keeps.foldl ?_ ?_; on_goal 2 => intro _ _ _) | with_reducible apply Keeps.ite)

theorem State.spend_keeps {s0 s mc cls n} (h_s : Keeps s0 s) : Keeps s0 (State.spend s mc cls n) :=
  ⟨h_s.queue, h_s.wf⟩

theorem State.refill_keeps {s0 s mc cls} (h_s : Keeps s0 s) : Keeps s0 (State.refill s mc cls) :=
  ⟨h_s.queue, h_s.wf⟩

theorem State.admitted_keeps {s0 s k r} (h_s : Keeps s0 s) : Keeps s0 (State.admitted s k r) := by
  unfold State.admitted
  repeat' (first
    | with_reducible assumption
    | ((try lift_lets -underBinder); intro x; (have hx : Keeps s0 x := ?_); clear_value x; rotate_left; (clear_value (e : x = _); rw [e]; clear e))
    | ((try lift_lets -underBinder); intro x; try clear_value x) | with_reducible apply State.spend_keeps
    | with_reducible apply State.setTraffic_keeps)

theorem State.serveRequest_keeps {s0 k cls x r} (h_x : Keeps s0 x.1) : Keeps s0 (State.serveRequest k cls x r).1 := by
  unfold State.serveRequest
  repeat' (first
    | with_reducible assumption
    | ((try lift_lets -underBinder); intro x; (have hx : Keeps s0 x := ?_); clear_value x; rotate_left; (clear_value (e : x = _); rw [e]; clear e))
    | with_reducible apply State.count_keeps | with_reducible apply State.admitted_keeps | with_reducible apply Keeps.ite
    | with_reducible apply Keeps.ite_fst)

theorem State.serveClass_keeps {s0 s k cls} (h_s : Keeps s0 s) : Keeps s0 (State.serveClass s k cls) := by
  unfold State.serveClass
  repeat' (first
    | with_reducible assumption
    | ((try lift_lets -underBinder); intro x; (have hx : Keeps s0 x.1 := ?_); clear_value x; rotate_left; (clear_value (e : x = _); rw [e]; clear e))
    | ((try lift_lets -underBinder); intro x; try clear_value x) | with_reducible apply State.serveRequest_keeps
    | with_reducible apply State.setTraffic_keeps
    | (with_reducible refine Keeps.state (KeepsP.of ?_) ?_; on_goal 1 => with_reducible assumption)
    | (with_reducible refine Keeps.foldl_fst ?_ ?_; on_goal 2 => intro _ _ _) | split)

theorem State.serveStack_keeps {s0 s reserve k} (h_s : Keeps s0 s) : Keeps s0 (State.serveStack s reserve k) := by
  unfold State.serveStack
  repeat' (first
    | with_reducible assumption | with_reducible apply State.serveClass_keeps
    | (with_reducible refine Keeps.foldl ?_ ?_; on_goal 2 => intro _ _ _))

theorem State.serveTraffic_keeps {s0 s reserve} (h_s : Keeps s0 s) : Keeps s0 (State.serveTraffic s reserve) := by
  unfold State.serveTraffic
  repeat' (first
    | with_reducible assumption
    | ((try lift_lets -underBinder); intro x; (have hx : Keeps s0 x := ?_); clear_value x; rotate_left; (clear_value (e : x = _); rw [e]; clear e))
    | with_reducible apply State.serveLane_keeps | with_reducible apply State.serveStack_keeps
    | (with_reducible refine Keeps.foldl ?_ ?_; on_goal 2 => intro _ _ _) | with_reducible apply Keeps.ite)

theorem State.askRead_keeps {s0 s unit ctx cls own a5 n hint uses to_ deed} (h_s : Keeps s0 s) : Keeps s0 (State.askRead s unit ctx cls own a5 n hint uses to_ deed) := by
  unfold State.askRead
  repeat' (first | with_reducible assumption | with_reducible apply State.ask_keeps)

theorem State.sendWrite_keeps {s0 s unit ctx cls d a5 tensor hint uses data poison} (h_s : Keeps s0 s) : Keeps s0 (State.sendWrite s unit ctx cls d a5 tensor hint uses data poison) := by
  unfold State.sendWrite
  repeat' (first | with_reducible assumption | with_reducible apply State.carry_keeps)

theorem State.sendReduce_keeps {s0 s unit cls d r base off data poison} (h_s : Keeps s0 s) : Keeps s0 (State.sendReduce s unit cls d r base off data poison) := by
  unfold State.sendReduce
  repeat' (first | with_reducible assumption | with_reducible apply State.carry_keeps)

theorem State.sparseFormat_keeps {s0 s i entry descriptor check ordinal group} (h_s : Keeps s0 s) : Keeps s0 (State.sparseFormat s i entry descriptor check ordinal group) := by
  unfold State.sparseFormat
  repeat' (first | with_reducible assumption | with_reducible apply State.raise_keeps)

theorem State.onTile_keeps {s0 s u n f} (h_s : Keeps s0 s) : Keeps s0 (State.onTile s u n f) := by
  unfold State.onTile
  repeat' (first
    | with_reducible assumption | ((try lift_lets -underBinder); intro x; try clear_value x) | with_reducible apply hf0
    | with_reducible apply hf1 | with_reducible apply hf2 | with_reducible apply hf3 | with_reducible apply hf4
    | with_reducible apply hf5 | with_reducible apply hf6 | with_reducible apply hf7 | with_reducible apply hf8
    | with_reducible apply hf9 | with_reducible apply State.onUnit_keeps)

theorem State.poisonOutputs_keeps {s0 s d e} (h_s : Keeps s0 s) : Keeps s0 (State.poisonOutputs s d e) := by
  unfold State.poisonOutputs
  repeat' (first
    | with_reducible assumption | with_reducible apply State.poisonOp_keeps | with_reducible apply State.poisonTile_keeps
    | with_reducible apply Keeps.ite)

theorem State.failTile_keeps {s0 s u e check ordinal group} (h_s : Keeps s0 s) : Keeps s0 (State.failTile s u e check ordinal group) := by
  unfold State.failTile
  repeat' (first
    | with_reducible assumption
    | ((try lift_lets -underBinder); intro x; (have hx : Keeps s0 x := ?_); clear_value x; rotate_left; (clear_value (e : x = _); rw [e]; clear e))
    | ((try lift_lets -underBinder); intro x; try clear_value x) | with_reducible apply hf0 | with_reducible apply hf1
    | with_reducible apply hf2 | with_reducible apply hf3 | with_reducible apply hf4 | with_reducible apply hf5
    | with_reducible apply hf6 | with_reducible apply hf7 | with_reducible apply hf8 | with_reducible apply hf9
    | with_reducible apply State.poisonOutputs_keeps | with_reducible apply State.sparseFormat_keeps
    | with_reducible apply State.count_keeps | with_reducible apply State.setSorus_keeps | with_reducible apply State.onUnit_keeps)

theorem State.dispatchJobs_keeps {s0 u n a2 a3 a4} (h_a4 : Keeps s0 a4) : Keeps s0 (State.dispatchJobs u n a2 a3 a4) := by
  induction a2 generalizing u n a3 a4 with
  | zero =>
    unfold State.dispatchJobs
    with_reducible assumption
  | succ n ih =>
    unfold State.dispatchJobs
    repeat' (first
      | with_reducible assumption | with_reducible apply ih | ((try lift_lets -underBinder); intro x; try clear_value x)
      | with_reducible apply State.count_keeps | with_reducible apply State.setSorus_keeps
      | with_reducible apply State.onTile_keeps | with_reducible apply State.failTile_keeps
      | (with_reducible refine Keeps.state (KeepsP.of ?_) ?_; on_goal 1 => with_reducible assumption)
      | with_reducible apply Keeps.ite | with_reducible apply Keeps.ite_fst
      | with_reducible refine Keeps.of_fst (by with_reducible assumption) ?_
      | with_reducible refine Keeps.of_snd (by with_reducible assumption) ?_
      | with_reducible refine KeepsS.elim (by with_reducible assumption) ?_
      | with_reducible refine KeepsT.elim (by with_reducible assumption) ?_ | split)

theorem State.stageRow_keeps {s0 s u e m} (h_s : Keeps s0 s) : Keeps s0 (State.stageRow s u e m).1 := by
  unfold State.stageRow
  repeat' (first
    | with_reducible assumption
    | ((try lift_lets -underBinder); intro x; (have hx : Keeps s0 x := ?_); clear_value x; rotate_left; (clear_value (e : x = _); rw [e]; clear e))
    | ((try lift_lets -underBinder); intro x; try clear_value x) | with_reducible apply State.strikeOp_keeps
    | with_reducible apply State.consume_keeps | with_reducible apply State.onTile_keeps
    | (with_reducible refine Keeps.state (KeepsP.of ?_) ?_; on_goal 1 => with_reducible assumption)
    | with_reducible apply Keeps.ite | with_reducible apply Keeps.ite_fst
    | with_reducible refine Keeps.of_fst (by with_reducible assumption) ?_
    | with_reducible refine Keeps.of_snd (by with_reducible assumption) ?_
    | with_reducible refine KeepsS.elim (by with_reducible assumption) ?_
    | with_reducible refine KeepsT.elim (by with_reducible assumption) ?_ | split)

theorem State.stageMore_keeps {s0 s u e b} (h_s : Keeps s0 s) : Keeps s0 (State.stageMore s u e b) := by
  unfold State.stageMore
  repeat' (first
    | with_reducible assumption
    | ((try lift_lets -underBinder); intro x; (have hx : Keeps s0 x.1 := ?_); clear_value x; rotate_left; (clear_value (e : x = _); rw [e]; clear e))
    | ((try lift_lets -underBinder); intro x; try clear_value x) | with_reducible apply State.stageRow_keeps
    | with_reducible apply State.setSorus_keeps
    | (with_reducible refine Keeps.state (KeepsP.of ?_) ?_; on_goal 1 => with_reducible assumption)
    | (with_reducible refine Keeps.foldl_fst ?_ ?_; on_goal 2 => intro _ _ _))

theorem State.stageCycle_keeps {s0 s u fed} (h_s : Keeps s0 s) : Keeps s0 (State.stageCycle s u fed) := by
  unfold State.stageCycle
  repeat' (first
    | with_reducible assumption
    | ((try lift_lets -underBinder); intro x; (have hx : Keeps s0 x := ?_); clear_value x; rotate_left; (clear_value (e : x = _); rw [e]; clear e))
    | ((try lift_lets -underBinder); intro x; try clear_value x) | with_reducible apply State.onTile_keeps
    | with_reducible apply State.setSorus_keeps | with_reducible apply State.stageMore_keeps
    | (with_reducible refine Keeps.state (KeepsP.of ?_) ?_; on_goal 1 => with_reducible assumption)
    | with_reducible apply Keeps.ite | with_reducible refine Keeps.of_fst (by with_reducible assumption) ?_
    | with_reducible refine Keeps.of_snd (by with_reducible assumption) ?_
    | with_reducible refine KeepsS.elim (by with_reducible assumption) ?_
    | with_reducible refine KeepsT.elim (by with_reducible assumption) ?_ | split)

theorem State.freeSlabs_keeps {s0 s u} (h_s : Keeps s0 s) : Keeps s0 (State.freeSlabs s u) := by
  unfold State.freeSlabs
  repeat' (first
    | with_reducible assumption | ((try lift_lets -underBinder); intro x; try clear_value x) | with_reducible apply hf0
    | with_reducible apply hf1 | with_reducible apply hf2 | with_reducible apply hf3 | with_reducible apply hf4
    | with_reducible apply hf5 | with_reducible apply hf6 | with_reducible apply hf7 | with_reducible apply hf8
    | with_reducible apply hf9 | with_reducible apply State.setSorus_keeps)

theorem State.decodeJob_keeps {s0 s u e j} (h_s : Keeps s0 s) : Keeps s0 (State.decodeJob s u e j).1 := by
  unfold State.decodeJob
  repeat' (first
    | with_reducible assumption
    | ((try lift_lets -underBinder); intro x; (have hx : Keeps s0 x := ?_); clear_value x; rotate_left; (clear_value (e : x = _); rw [e]; clear e))
    | ((try lift_lets -underBinder); intro x; try clear_value x) | with_reducible apply State.failTile_keeps
    | with_reducible apply State.onTile_keeps | with_reducible apply State.consume_keeps
    | (with_reducible refine Keeps.state (KeepsP.of ?_) ?_; on_goal 1 => with_reducible assumption)
    | with_reducible apply Keeps.ite | with_reducible apply Keeps.ite_fst
    | with_reducible refine Keeps.of_fst (by with_reducible assumption) ?_
    | with_reducible refine Keeps.of_snd (by with_reducible assumption) ?_
    | with_reducible refine KeepsS.elim (by with_reducible assumption) ?_
    | with_reducible refine KeepsT.elim (by with_reducible assumption) ?_ | split)

theorem State.checkJob_keeps {s0 s u e j} (h_s : Keeps s0 s) : Keeps s0 (State.checkJob s u e j) := by
  unfold State.checkJob
  repeat' (first
    | with_reducible assumption | ((try lift_lets -underBinder); intro x; try clear_value x)
    | with_reducible apply State.onTile_keeps | with_reducible apply State.poisonTile_keeps
    | with_reducible apply State.raise_keeps | with_reducible apply State.count_keeps
    | (with_reducible refine Keeps.state (KeepsP.of ?_) ?_; on_goal 1 => with_reducible assumption)
    | (with_reducible refine Keeps.foldl ?_ ?_; on_goal 2 => intro _ _ _) | with_reducible apply Keeps.ite)

theorem State.finishJob_keeps {s0 s u j} (h_s : Keeps s0 s) : Keeps s0 (State.finishJob s u j) := by
  unfold State.finishJob
  repeat' (first
    | with_reducible assumption
    | ((try lift_lets -underBinder); intro x; (have hx : Keeps s0 x := ?_); clear_value x; rotate_left; (clear_value (e : x = _); rw [e]; clear e))
    | ((try lift_lets -underBinder); intro x; try clear_value x) | with_reducible apply State.setSorus_keeps
    | with_reducible apply State.count_keeps | with_reducible apply State.checkJob_keeps | with_reducible apply State.onUnit_keeps
    | (with_reducible refine Keeps.state (KeepsP.of ?_) ?_; on_goal 1 => with_reducible assumption)
    | with_reducible apply Keeps.ite | with_reducible refine Keeps.of_fst (by with_reducible assumption) ?_
    | with_reducible refine Keeps.of_snd (by with_reducible assumption) ?_
    | with_reducible refine KeepsS.elim (by with_reducible assumption) ?_
    | with_reducible refine KeepsT.elim (by with_reducible assumption) ?_ | split)

theorem State.setJob_keeps {s0 s d j} (h_s : Keeps s0 s) : Keeps s0 (State.setJob s d j) := by
  unfold State.setJob
  repeat' (first
    | with_reducible assumption | ((try lift_lets -underBinder); intro x; try clear_value x)
    | with_reducible apply State.setSorus_keeps)

theorem State.decodeCycle_keeps {s0 s u j} (h_s : Keeps s0 s) : Keeps s0 (State.decodeCycle s u j) := by
  unfold State.decodeCycle
  repeat' (first
    | with_reducible assumption | with_reducible apply State.setJob_keeps | with_reducible apply State.decodeJob_keeps
    | (with_reducible refine Keeps.state (KeepsP.of ?_) ?_; on_goal 1 => with_reducible assumption)
    | with_reducible apply Keeps.ite | with_reducible refine Keeps.of_fst (by with_reducible assumption) ?_
    | with_reducible refine Keeps.of_snd (by with_reducible assumption) ?_
    | with_reducible refine KeepsS.elim (by with_reducible assumption) ?_
    | with_reducible refine KeepsT.elim (by with_reducible assumption) ?_ | split)

theorem State.laneCycle_keeps {s0 s u lane} (h_s : Keeps s0 s) : Keeps s0 (State.laneCycle s u lane) := by
  unfold State.laneCycle
  repeat' (first
    | with_reducible assumption
    | ((try lift_lets -underBinder); intro x; (have hx : Keeps s0 x := ?_); clear_value x; rotate_left; (clear_value (e : x = _); rw [e]; clear e))
    | ((try lift_lets -underBinder); intro x; try clear_value x) | with_reducible apply State.finishJob_keeps
    | with_reducible apply State.setJob_keeps | with_reducible apply State.decodeCycle_keeps
    | (with_reducible refine Keeps.state (KeepsP.of ?_) ?_; on_goal 1 => with_reducible assumption)
    | with_reducible apply Keeps.ite | with_reducible refine Keeps.of_fst (by with_reducible assumption) ?_
    | with_reducible refine Keeps.of_snd (by with_reducible assumption) ?_
    | with_reducible refine KeepsS.elim (by with_reducible assumption) ?_
    | with_reducible refine KeepsT.elim (by with_reducible assumption) ?_ | split)

theorem State.putSampled_keeps {s0 s d t ix e vs poisoned} (h_s : Keeps s0 s) : Keeps s0 (State.putSampled s d t ix e vs poisoned) := by
  unfold State.putSampled
  repeat' (first
    | with_reducible assumption
    | ((try lift_lets -underBinder); intro x; (have hx : Keeps s0 x := ?_); clear_value x; rotate_left; (clear_value (e : x = _); rw [e]; clear e))
    | ((try lift_lets -underBinder); intro x; try clear_value x) | with_reducible apply hf0 | with_reducible apply hf1
    | with_reducible apply hf2 | with_reducible apply hf3 | with_reducible apply hf4 | with_reducible apply hf5
    | with_reducible apply hf6 | with_reducible apply hf7 | with_reducible apply hf8 | with_reducible apply hf9
    | with_reducible apply State.opStore_keeps | with_reducible apply State.setCode_keeps
    | with_reducible apply State.opWrite_keeps | with_reducible apply State.countNonFinite_keeps
    | with_reducible apply State.putVals_keeps | with_reducible apply State.reportMax_keeps
    | (with_reducible refine Keeps.state (KeepsP.of ?_) ?_; on_goal 1 => with_reducible assumption)
    | (with_reducible refine Keeps.foldl ?_ ?_; on_goal 2 => intro _ _ _) | with_reducible apply Keeps.ite)

theorem State.putScore_keeps {s0 s d e i sums} (h_s : Keeps s0 s) : Keeps s0 (State.putScore s d e i sums) := by
  unfold State.putScore
  repeat' (first
    | with_reducible assumption | ((try lift_lets -underBinder); intro x; try clear_value x)
    | with_reducible apply State.reportMax_keeps | with_reducible apply State.stored_keeps
    | with_reducible apply State.anyWrite_keeps)

theorem State.writeLine_keeps {s0 s u e l} (h_s : Keeps s0 s) : Keeps s0 (State.writeLine s u e l) := by
  unfold State.writeLine
  repeat' (first
    | with_reducible assumption
    | ((try lift_lets -underBinder); intro x; (have hx : Keeps s0 x := ?_); clear_value x; rotate_left; (clear_value (e : x = _); rw [e]; clear e))
    | ((try lift_lets -underBinder); intro x; try clear_value x) | with_reducible apply hf0 | with_reducible apply hf1
    | with_reducible apply hf2 | with_reducible apply hf3 | with_reducible apply hf4 | with_reducible apply hf5
    | with_reducible apply hf6 | with_reducible apply hf7 | with_reducible apply hf8 | with_reducible apply hf9
    | with_reducible apply State.setSorus_keeps | with_reducible apply State.putScore_keeps
    | with_reducible apply State.putSampled_keeps | with_reducible apply State.drainCols_keeps
    | (with_reducible refine Keeps.state (KeepsP.of ?_) ?_; on_goal 1 => with_reducible assumption)
    | (with_reducible refine Keeps.foldl ?_ ?_; on_goal 2 => intro _ _ _) | with_reducible apply Keeps.ite)

theorem State.handRows_keeps {s0 u e n} : ∀ {h s}, Keeps s0 s → Keeps s0 (State.handRows u e n h s).1 := by
  induction n with
  | zero => intro h s k; exact k
  | succ n ih =>
    intro h s k
    unfold State.handRows
    dsimp only
    split
    · exact State.setSorus_keeps k
    · split
      · exact k
      · split
        · exact State.setFiligree_keeps k
        · split
          · rename_i e
            exact ih (KeepsS.elim e (State.handOver_keeps (State.setFiligree_keeps k)))
          · exact k

theorem State.passHanded_keeps {s0 u a1 a2 a3} (h_a3 : Keeps s0 a3) : Keeps s0 (State.passHanded u a1 a2 a3).1 := by
  induction a2 generalizing u a1 a3 with
  | nil =>
    unfold State.passHanded
    repeat' (with_reducible assumption)
  | cons y l ih =>
    unfold State.passHanded
    repeat' (first
      | with_reducible assumption | with_reducible apply ih | with_reducible apply State.writeLine_keeps
      | with_reducible apply State.handRows_keeps
      | (with_reducible refine Keeps.state (KeepsP.of ?_) ?_; on_goal 1 => with_reducible assumption)
      | with_reducible apply Keeps.ite | with_reducible apply Keeps.ite_fst
      | with_reducible refine Keeps.of_fst (by with_reducible assumption) ?_
      | with_reducible refine Keeps.of_snd (by with_reducible assumption) ?_
      | with_reducible refine KeepsS.elim (by with_reducible assumption) ?_
      | with_reducible refine KeepsT.elim (by with_reducible assumption) ?_ | split)

theorem State.drainCycle_keeps {s0 s u} (h_s : Keeps s0 s) : Keeps s0 (State.drainCycle s u) := by
  unfold State.drainCycle
  repeat' (first
    | with_reducible assumption
    | ((try lift_lets -underBinder); intro x; (have hx : Keeps s0 x.1 := ?_); clear_value x; rotate_left; (clear_value (e : x = _); rw [e]; clear e))
    | ((try lift_lets -underBinder); intro x; try clear_value x) | with_reducible apply State.passHanded_keeps
    | with_reducible apply State.setSorus_keeps)

theorem State.handAccs_keeps {s0 s u e} (h_s : Keeps s0 s) : Keeps s0 (State.handAccs s u e) := by
  unfold State.handAccs
  repeat' (first
    | with_reducible assumption | ((try lift_lets -underBinder); intro x; try clear_value x) | with_reducible apply hf0
    | with_reducible apply hf1 | with_reducible apply hf2 | with_reducible apply hf3 | with_reducible apply hf4
    | with_reducible apply hf5 | with_reducible apply hf6 | with_reducible apply hf7 | with_reducible apply hf8
    | with_reducible apply hf9 | with_reducible apply State.setSorus_keeps)

theorem State.handLines_keeps {s0 s u e} (h_s : Keeps s0 s) : Keeps s0 (State.handLines s u e) := by
  unfold State.handLines
  repeat' (first
    | with_reducible assumption | ((try lift_lets -underBinder); intro x; try clear_value x) | with_reducible apply hf0
    | with_reducible apply hf1 | with_reducible apply hf2 | with_reducible apply hf3 | with_reducible apply hf4
    | with_reducible apply hf5 | with_reducible apply hf6 | with_reducible apply hf7 | with_reducible apply hf8
    | with_reducible apply hf9 | with_reducible apply State.onTile_keeps | with_reducible apply State.setSorus_keeps
    | (with_reducible refine Keeps.state (KeepsP.of ?_) ?_; on_goal 1 => with_reducible assumption)
    | with_reducible apply Keeps.ite)

theorem State.handReady_keeps {s0 s u} (h_s : Keeps s0 s) : Keeps s0 (State.handReady s u) := by
  unfold State.handReady
  repeat' (first
    | with_reducible assumption
    | ((try lift_lets -underBinder); intro x; (have hx : Keeps s0 x := ?_); clear_value x; rotate_left; (clear_value (e : x = _); rw [e]; clear e))
    | with_reducible apply State.handAccs_keeps | with_reducible apply State.handLines_keeps
    | (with_reducible refine Keeps.state (KeepsP.of ?_) ?_; on_goal 1 => with_reducible assumption)
    | (with_reducible refine Keeps.foldl ?_ ?_; on_goal 2 => intro _ _ _)
    | with_reducible refine Keeps.of_fst (by with_reducible assumption) ?_
    | with_reducible refine Keeps.of_snd (by with_reducible assumption) ?_
    | with_reducible refine KeepsS.elim (by with_reducible assumption) ?_
    | with_reducible refine KeepsT.elim (by with_reducible assumption) ?_ | split)

theorem State.turnTiles_keeps {s0 s u} (h_s : Keeps s0 s) : Keeps s0 (State.turnTiles s u) := by
  unfold State.turnTiles
  repeat' (first
    | with_reducible assumption
    | ((try lift_lets -underBinder); intro x; (have hx : Keeps s0 x := ?_); clear_value x; rotate_left; (clear_value (e : x = _); rw [e]; clear e))
    | ((try lift_lets -underBinder); intro x; try clear_value x) | with_reducible apply hf0 | with_reducible apply hf1
    | with_reducible apply hf2 | with_reducible apply hf3 | with_reducible apply hf4 | with_reducible apply hf5
    | with_reducible apply hf6 | with_reducible apply hf7 | with_reducible apply hf8 | with_reducible apply hf9
    | with_reducible apply State.onUnit_keeps
    | (with_reducible refine Keeps.state (KeepsP.of ?_) ?_; on_goal 1 => with_reducible assumption)
    | with_reducible apply Keeps.ite)

theorem State.dispatchCycle_keeps {s0 s u} (h_s : Keeps s0 s) : Keeps s0 (State.dispatchCycle s u) := by
  unfold State.dispatchCycle
  repeat' (first
    | with_reducible assumption | with_reducible apply State.dispatchJobs_keeps
    | (with_reducible refine Keeps.state (KeepsP.of ?_) ?_; on_goal 1 => with_reducible assumption)
    | with_reducible apply Keeps.ite | with_reducible refine Keeps.of_fst (by with_reducible assumption) ?_
    | with_reducible refine Keeps.of_snd (by with_reducible assumption) ?_
    | with_reducible refine KeepsS.elim (by with_reducible assumption) ?_
    | with_reducible refine KeepsT.elim (by with_reducible assumption) ?_ | split)

theorem State.sorusCycle_keeps {s0 s u fed open_} (h_s : Keeps s0 s) : Keeps s0 (State.sorusCycle s u fed open_) := by
  unfold State.sorusCycle
  repeat' (first
    | with_reducible assumption
    | ((try lift_lets -underBinder); intro x; (have hx : Keeps s0 x := ?_); clear_value x; rotate_left; (clear_value (e : x = _); rw [e]; clear e))
    | ((try lift_lets -underBinder); intro x; try clear_value x) | with_reducible apply State.onUnit_keeps
    | with_reducible apply State.planned_keeps | with_reducible apply State.dispatchCycle_keeps
    | with_reducible apply State.unplanned_keeps | with_reducible apply State.stageCycle_keeps
    | with_reducible apply State.laneCycle_keeps | with_reducible apply State.handReady_keeps
    | with_reducible apply State.drainCycle_keeps | with_reducible apply State.freeSlabs_keeps
    | with_reducible apply State.turnTiles_keeps | with_reducible apply State.setSorus_keeps
    | (with_reducible refine Keeps.state (KeepsP.of ?_) ?_; on_goal 1 => with_reducible assumption)
    | (with_reducible refine Keeps.foldl ?_ ?_; on_goal 2 => intro _ _ _) | with_reducible apply Keeps.ite)

theorem State.takeTile_keeps {s0 s op i x} (h_s : Keeps s0 s) : Keeps s0 (State.takeTile s op i x) := by
  unfold State.takeTile
  repeat' (first
    | with_reducible assumption
    | ((try lift_lets -underBinder); intro x; (have hx : Keeps s0 x := ?_); clear_value x; rotate_left; (clear_value (e : x = _); rw [e]; clear e))
    | ((try lift_lets -underBinder); intro x; try clear_value x) | with_reducible apply State.onUnit_keeps
    | with_reducible apply State.setSorus_keeps | with_reducible apply State.onTile_keeps
    | (with_reducible refine Keeps.state (KeepsP.of ?_) ?_; on_goal 1 => with_reducible assumption)
    | with_reducible refine Keeps.of_fst (by with_reducible assumption) ?_
    | with_reducible refine Keeps.of_snd (by with_reducible assumption) ?_
    | with_reducible refine KeepsS.elim (by with_reducible assumption) ?_
    | with_reducible refine KeepsT.elim (by with_reducible assumption) ?_ | split)

theorem State.rejectSpmm_keeps {s0 s i t ix check} (h_s : Keeps s0 s) : Keeps s0 (State.rejectSpmm s i t ix check) := by
  unfold State.rejectSpmm
  repeat' (first
    | with_reducible assumption
    | ((try lift_lets -underBinder); intro x; (have hx : Keeps s0 x := ?_); clear_value x; rotate_left; (clear_value (e : x = _); rw [e]; clear e))
    | ((try lift_lets -underBinder); intro x; try clear_value x) | with_reducible apply State.sparseFormat_keeps
    | with_reducible apply State.count_keeps | with_reducible apply State.poisonOp_keeps
    | with_reducible apply State.poisonTile_keeps | with_reducible apply State.onUnit_keeps
    | (with_reducible refine Keeps.state (KeepsP.of ?_) ?_; on_goal 1 => with_reducible assumption)
    | with_reducible apply Keeps.ite)

theorem State.runSpmm_keeps {s0 s i t ix} (h_s : Keeps s0 s) : Keeps s0 (State.runSpmm s i t ix) := by
  unfold State.runSpmm
  repeat' (first
    | with_reducible assumption
    | ((try lift_lets -underBinder); intro x; (have hx : Keeps s0 x := ?_); clear_value x; rotate_left; (clear_value (e : x = _); rw [e]; clear e))
    | ((try lift_lets -underBinder); intro x; try clear_value x) | with_reducible apply State.countIf_keeps
    | with_reducible apply State.count_keeps | with_reducible apply State.consume_keeps
    | with_reducible apply State.takeTile_keeps | with_reducible apply Keeps.ite)

theorem startSpmm_keeps {s0 i s} (h_s : Keeps s0 s) : Keeps s0 (startSpmm i s) := by
  unfold startSpmm
  repeat' (first
    | with_reducible assumption | ((try lift_lets -underBinder); intro x; try clear_value x)
    | with_reducible apply State.raise_keeps | with_reducible apply State.poisonTile_keeps
    | with_reducible apply State.rejectSpmm_keeps | with_reducible apply State.runSpmm_keeps
    | (with_reducible refine Keeps.state (KeepsP.of ?_) ?_; on_goal 1 => with_reducible assumption)
    | with_reducible apply Keeps.ite | with_reducible refine Keeps.of_fst (by with_reducible assumption) ?_
    | with_reducible refine Keeps.of_snd (by with_reducible assumption) ?_
    | with_reducible refine KeepsS.elim (by with_reducible assumption) ?_
    | with_reducible refine KeepsT.elim (by with_reducible assumption) ?_ | split)

theorem execSpmm_keeps {s0 i s} (h_s : Keeps s0 s) : KeepsNext s0 (execSpmm i s) := by
  unfold execSpmm
  repeat' (first
    | with_reducible assumption | with_reducible apply goOn_keeps | with_reducible apply State.gate_keeps
    | with_reducible apply startSpmm_keeps)

theorem State.leaveEngine_keeps {s0 s u e} (h_s : Keeps s0 s) : Keeps s0 (State.leaveEngine s u e) := by
  unfold State.leaveEngine
  repeat' (first
    | with_reducible assumption
    | ((try lift_lets -underBinder); intro x; (have hx : Keeps s0 x := ?_); clear_value x; rotate_left; (clear_value (e : x = _); rw [e]; clear e))
    | ((try lift_lets -underBinder); intro x; try clear_value x) | with_reducible apply State.writeLine_keeps
    | with_reducible apply State.poisonOutputs_keeps | with_reducible apply State.putMask_keeps
    | with_reducible apply State.setSorus_keeps
    | (with_reducible refine Keeps.state (KeepsP.of ?_) ?_; on_goal 1 => with_reducible assumption)
    | (with_reducible refine Keeps.foldl ?_ ?_; on_goal 2 => intro _ _ _) | with_reducible apply Keeps.ite)

theorem State.completeTile_keeps {s0 s d op} (h_s : Keeps s0 s) : Keeps s0 (State.completeTile s d op) := by
  unfold State.completeTile
  repeat' (first
    | with_reducible assumption
    | ((try lift_lets -underBinder); intro x; (have hx : Keeps s0 x := ?_); clear_value x; rotate_left; (clear_value (e : x = _); rw [e]; clear e))
    | ((try lift_lets -underBinder); intro x; try clear_value x) | with_reducible apply State.leaveEngine_keeps
    | with_reducible apply State.settle_keeps | with_reducible apply State.onUnit_keeps
    | (with_reducible refine Keeps.state (KeepsP.of ?_) ?_; on_goal 1 => with_reducible assumption)
    | with_reducible refine Keeps.of_fst (by with_reducible assumption) ?_
    | with_reducible refine Keeps.of_snd (by with_reducible assumption) ?_
    | with_reducible refine KeepsS.elim (by with_reducible assumption) ?_
    | with_reducible refine KeepsT.elim (by with_reducible assumption) ?_ | split)

theorem spmmComplete_keeps {s0 d s} (h_s : Keeps s0 s) : Keeps s0 (spmmComplete d s) := by
  unfold spmmComplete
  repeat' (first | with_reducible assumption | with_reducible apply State.completeTile_keeps)

theorem execSpmmComplete_keeps {s0 d s} (h_s : Keeps s0 s) : KeepsNext s0 (execSpmmComplete d s) := by
  unfold execSpmmComplete
  repeat' (first | with_reducible assumption | with_reducible apply goOn_keeps | with_reducible apply spmmComplete_keeps)

theorem State.claimBank_keeps {s0 s d bank} (h_s : Keeps s0 s) : Keeps s0 (State.claimBank s d bank) := by
  unfold State.claimBank
  repeat' (first | with_reducible assumption | with_reducible apply State.setTraffic_keeps)

end Sys2Proof.Machine
end

