-- ==== Sys2Proof/Laws/KeepsFabric.lean ====
section
/-! SUPPORT. One lemma per function: it keeps the queue and the canonical form of the memories. Here:
transfers, links, the board space, streams and the member. -/

namespace Sys2Proof.Machine

theorem State.refuseAccess_keeps {s0 s i a2 len} (h_s : Keeps s0 s) : Keeps s0 (State.refuseAccess s i a2 len) := by
  unfold State.refuseAccess
  repeat' (first | with_reducible assumption | with_reducible apply State.raise_keeps)

theorem State.startMoving_keeps {s0 s op i latency n load} (h_s : Keeps s0 s) : Keeps s0 (State.startMoving s op i latency n load) := by
  unfold State.startMoving
  repeat' (first
    | with_reducible assumption | with_reducible apply State.onUnit_keeps | with_reducible apply State.clearDelays_keeps)

theorem startRead_keeps {s0 i s} (h_s : Keeps s0 s) : Keeps s0 (startRead i s) := by
  unfold startRead
  repeat' (first
    | with_reducible assumption | ((try lift_lets -underBinder); intro x; try clear_value x)
    | with_reducible apply State.refuseAccess_keeps | with_reducible apply State.startMoving_keeps
    | with_reducible apply Keeps.ite)

theorem execRead_keeps {s0 i s} (h_s : Keeps s0 s) : KeepsNext s0 (execRead i s) := by
  unfold execRead
  repeat' (first
    | with_reducible assumption | with_reducible apply goOn_keeps | with_reducible apply State.gate_keeps
    | with_reducible apply startRead_keeps)

theorem startWrite_keeps {s0 i s} (h_s : Keeps s0 s) : Keeps s0 (startWrite i s) := by
  unfold startWrite
  repeat' (first
    | with_reducible assumption | ((try lift_lets -underBinder); intro x; try clear_value x)
    | with_reducible apply State.refuseAccess_keeps | with_reducible apply State.startMoving_keeps
    | with_reducible apply State.touchTable_keeps | with_reducible apply Keeps.ite)

theorem execWrite_keeps {s0 i s} (h_s : Keeps s0 s) : KeepsNext s0 (execWrite i s) := by
  unfold execWrite
  repeat' (first
    | with_reducible assumption | with_reducible apply goOn_keeps | with_reducible apply State.gate_keeps
    | with_reducible apply startWrite_keeps)

theorem State.sendBlock_keeps {s0 s i x peer a4 off data poisoned} (h_s : Keeps s0 s) : Keeps s0 (State.sendBlock s i x peer a4 off data poisoned) := by
  unfold State.sendBlock
  repeat' (first
    | with_reducible assumption | ((try lift_lets -underBinder); intro x; try clear_value x) | with_reducible apply hf0
    | with_reducible apply hf1 | with_reducible apply hf2 | with_reducible apply hf3 | with_reducible apply hf4
    | with_reducible apply hf5 | with_reducible apply hf6 | with_reducible apply hf7 | with_reducible apply hf8
    | with_reducible apply hf9 | with_reducible apply State.originate_keeps
    | (with_reducible refine Keeps.state (KeepsP.of ?_) ?_; on_goal 1 => with_reducible assumption)
    | (with_reducible refine Keeps.foldl ?_ ?_; on_goal 2 => intro _ _ _))

theorem startCopy_keeps {s0 i s} (h_s : Keeps s0 s) : Keeps s0 (startCopy i s) := by
  unfold startCopy
  repeat' (first
    | with_reducible assumption | ((try lift_lets -underBinder); intro x; try clear_value x)
    | with_reducible apply State.refuseAccess_keeps | with_reducible apply State.raise_keeps
    | with_reducible apply State.startMoving_keeps | with_reducible apply State.touchTable_keeps | with_reducible apply Keeps.ite)

theorem execCopy_keeps {s0 i s} (h_s : Keeps s0 s) : KeepsNext s0 (execCopy i s) := by
  unfold execCopy
  repeat' (first
    | with_reducible assumption | with_reducible apply goOn_keeps | with_reducible apply State.gate_keeps
    | with_reducible apply startCopy_keeps)

theorem State.takeGranule_keeps {s0 s u ctx off} (h_s : Keeps s0 s) : Keeps s0 (State.takeGranule s u ctx off).1 := by
  unfold State.takeGranule
  repeat' (first
    | with_reducible assumption
    | ((try lift_lets -underBinder); intro x; (have hx : Keeps s0 x := ?_); clear_value x; rotate_left; (clear_value (e : x = _); rw [e]; clear e))
    | ((try lift_lets -underBinder); intro x; try clear_value x) | with_reducible apply State.strikeOp_keeps
    | with_reducible apply State.consume_keeps | with_reducible apply Keeps.ite)

theorem State.moveBlock_keeps {s0 s w j} (h_s : Keeps s0 s) : Keeps s0 (State.moveBlock s w j) := by
  unfold State.moveBlock
  repeat' (first
    | with_reducible assumption
    | ((try lift_lets -underBinder); intro x; (have hx : Keeps s0 x.1 := ?_); clear_value x; rotate_left; (clear_value (e : x = _); rw [e]; clear e))
    | ((try lift_lets -underBinder); intro x; try clear_value x) | with_reducible apply State.askRead_keeps
    | with_reducible apply State.takeGranule_keeps | with_reducible apply State.carry_keeps
    | (with_reducible refine Keeps.state (KeepsP.of ?_) ?_; on_goal 1 => with_reducible assumption)
    | with_reducible apply Keeps.ite | with_reducible apply Keeps.ite_fst | split)

theorem State.gatherBlock_keeps {s0 s w j} (h_s : Keeps s0 s) : Keeps s0 (State.gatherBlock s w j) := by
  unfold State.gatherBlock
  repeat' (first
    | with_reducible assumption
    | ((try lift_lets -underBinder); intro x; (have hx : Keeps s0 x.1 := ?_); clear_value x; rotate_left; (clear_value (e : x = _); rw [e]; clear e))
    | ((try lift_lets -underBinder); intro x; try clear_value x) | with_reducible apply State.takeGranule_keeps
    | with_reducible apply State.arriveIn_keeps | with_reducible apply State.askRead_keeps
    | (with_reducible refine Keeps.state (KeepsP.of ?_) ?_; on_goal 1 => with_reducible assumption)
    | with_reducible apply Keeps.ite)

theorem State.issueBlocks_keeps {s0 s u a2} (h_s : Keeps s0 s) : Keeps s0 (State.issueBlocks s u a2) := by
  induction a2 generalizing s u with
  | zero =>
    unfold State.issueBlocks
    with_reducible assumption
  | succ n ih =>
    unfold State.issueBlocks
    repeat' (first
      | with_reducible assumption | with_reducible apply ih
      | ((try lift_lets -underBinder); intro x; (have hx : Keeps s0 x := ?_); clear_value x; rotate_left; (clear_value (e : x = _); rw [e]; clear e))
      | with_reducible apply State.onUnit_keeps | with_reducible apply State.claimBank_keeps
      | with_reducible apply State.moveBlock_keeps | with_reducible apply State.gatherBlock_keeps
      | (with_reducible refine Keeps.state (KeepsP.of ?_) ?_; on_goal 1 => with_reducible assumption)
      | with_reducible apply Keeps.ite | with_reducible refine Keeps.of_fst (by with_reducible assumption) ?_
      | with_reducible refine Keeps.of_snd (by with_reducible assumption) ?_
      | with_reducible refine KeepsS.elim (by with_reducible assumption) ?_
      | with_reducible refine KeepsT.elim (by with_reducible assumption) ?_ | split)

theorem State.blockLanded_keeps {s0 s u} (h_s : Keeps s0 s) : Keeps s0 (State.blockLanded s u) := by
  unfold State.blockLanded
  repeat' (first | with_reducible assumption | with_reducible apply State.onUnit_keeps)

theorem State.setWindows_keeps {s0 s mc l} (h_s : Keeps s0 s) : Keeps s0 (State.setWindows s mc l) :=
  ⟨h_s.queue, h_s.wf⟩

theorem startReduce_keeps {s0 i s} (h_s : Keeps s0 s) : Keeps s0 (startReduce i s) := by
  unfold startReduce
  repeat' (first
    | with_reducible assumption | ((try lift_lets -underBinder); intro x; try clear_value x)
    | with_reducible apply State.refuseAccess_keeps | with_reducible apply State.invalid_keeps
    | with_reducible apply State.startWork_keeps | with_reducible apply State.setWindows_keeps | with_reducible apply Keeps.ite)

theorem execReduce_keeps {s0 i s} (h_s : Keeps s0 s) : KeepsNext s0 (execReduce i s) := by
  unfold execReduce
  repeat' (first
    | with_reducible assumption | with_reducible apply goOn_keeps | with_reducible apply State.gate_keeps
    | with_reducible apply startReduce_keeps)

theorem transferComplete_keeps {s0 u s} (h_s : Keeps s0 s) : Keeps s0 (transferComplete u s) := by
  unfold transferComplete
  repeat' (first
    | with_reducible assumption | with_reducible apply State.settle_keeps | with_reducible apply State.endWork_keeps
    | with_reducible apply Keeps.ite)

theorem execTransferComplete_keeps {s0 u s} (h_s : Keeps s0 s) : KeepsNext s0 (execTransferComplete u s) := by
  unfold execTransferComplete
  repeat' (first | with_reducible assumption | with_reducible apply goOn_keeps | with_reducible apply transferComplete_keeps)

theorem reduceWindowExpiry_keeps {s0 u s} (h_s : Keeps s0 s) : Keeps s0 (reduceWindowExpiry u s) := by
  unfold reduceWindowExpiry
  repeat' (first
    | with_reducible assumption | with_reducible apply State.settle_keeps | with_reducible apply State.endWork_keeps
    | with_reducible apply State.setWindows_keeps | with_reducible apply Keeps.ite)

theorem execReduceWindowExpiry_keeps {s0 u s} (h_s : Keeps s0 s) : KeepsNext s0 (execReduceWindowExpiry u s) := by
  unfold execReduceWindowExpiry
  repeat' (first | with_reducible assumption | with_reducible apply goOn_keeps | with_reducible apply reduceWindowExpiry_keeps)

theorem State.settleSends_keeps {s0 s} (h_s : Keeps s0 s) : Keeps s0 (State.settleSends s) := by
  unfold State.settleSends
  repeat' (first
    | with_reducible assumption | with_reducible apply State.settle_keeps | with_reducible apply State.endWork_keeps
    | (with_reducible refine Keeps.state (KeepsP.of ?_) ?_; on_goal 1 => with_reducible assumption)
    | (with_reducible refine Keeps.foldl ?_ ?_; on_goal 2 => intro _ _ _) | with_reducible apply Keeps.ite
    | with_reducible refine Keeps.of_fst (by with_reducible assumption) ?_
    | with_reducible refine Keeps.of_snd (by with_reducible assumption) ?_
    | with_reducible refine KeepsS.elim (by with_reducible assumption) ?_
    | with_reducible refine KeepsT.elim (by with_reducible assumption) ?_ | split)

theorem State.takeAck_keeps {s0 s p ack} (h_s : Keeps s0 s) : Keeps s0 (State.takeAck s p ack) := by
  unfold State.takeAck
  repeat' (first
    | with_reducible assumption
    | ((try lift_lets -underBinder); intro x; (have hx : Keeps s0 x := ?_); clear_value x; rotate_left; (clear_value (e : x = _); rw [e]; clear e))
    | ((try lift_lets -underBinder); intro x; try clear_value x) | with_reducible apply State.setPort_keeps
    | with_reducible apply State.settleSends_keeps | with_reducible apply State.pump_keeps
    | (with_reducible refine Keeps.state (KeepsP.of ?_) ?_; on_goal 1 => with_reducible assumption)
    | with_reducible refine Keeps.of_fst (by with_reducible assumption) ?_
    | with_reducible refine Keeps.of_snd (by with_reducible assumption) ?_
    | with_reducible refine KeepsS.elim (by with_reducible assumption) ?_
    | with_reducible refine KeepsT.elim (by with_reducible assumption) ?_ | split)

theorem State.nak_keeps {s0 s p} (h_s : Keeps s0 s) : Keeps s0 (State.nak s p) := by
  unfold State.nak
  repeat' (first
    | with_reducible assumption | ((try lift_lets -underBinder); intro x; try clear_value x)
    | with_reducible apply State.sendLink_keeps | with_reducible apply State.setPort_keeps
    | (with_reducible refine Keeps.state (KeepsP.of ?_) ?_; on_goal 1 => with_reducible assumption)
    | with_reducible apply Keeps.ite)

theorem State.resendFrom_keeps {s0 s p seq} (h_s : Keeps s0 s) : Keeps s0 (State.resendFrom s p seq) := by
  unfold State.resendFrom
  repeat' (first
    | with_reducible assumption | ((try lift_lets -underBinder); intro x; try clear_value x)
    | with_reducible apply State.pump_keeps | with_reducible apply State.setPort_keeps
    | (with_reducible refine Keeps.state (KeepsP.of ?_) ?_; on_goal 1 => with_reducible assumption) | split)

theorem State.takeFlit_keeps {s0 s p f} (h_s : Keeps s0 s) : Keeps s0 (State.takeFlit s p f) := by
  unfold State.takeFlit
  repeat' (first
    | with_reducible assumption
    | ((try lift_lets -underBinder); intro x; (have hx : Keeps s0 x := ?_); clear_value x; rotate_left; (clear_value (e : x = _); rw [e]; clear e))
    | ((try lift_lets -underBinder); intro x; try clear_value x) | with_reducible apply State.setPort_keeps
    | with_reducible apply State.takeAck_keeps | with_reducible apply State.sendLink_keeps
    | (with_reducible refine Keeps.state (KeepsP.of ?_) ?_; on_goal 1 => with_reducible assumption)
    | with_reducible apply Keeps.ite)

theorem State.dropInvalid_keeps {s0 s p f} (h_s : Keeps s0 s) : Keeps s0 (State.dropInvalid s p f) := by
  unfold State.dropInvalid
  repeat' (first | with_reducible assumption | with_reducible apply State.raise_keeps | with_reducible apply State.count_keeps)

theorem State.forward_keeps {s0 s p raw f} (h_s : Keeps s0 s) : Keeps s0 (State.forward s p raw f) := by
  unfold State.forward
  repeat' (first
    | with_reducible assumption | ((try lift_lets -underBinder); intro x; try clear_value x)
    | with_reducible apply State.count_keeps
    | (with_reducible refine Keeps.state (KeepsP.of ?_) ?_; on_goal 1 => with_reducible assumption)
    | (with_reducible apply KeepsM.of; with_reducible assumption) | with_reducible apply Keeps.ite)

theorem State.hopCycle_keeps {s0 s} (h_s : Keeps s0 s) : Keeps s0 (State.hopCycle s) := by
  unfold State.hopCycle
  repeat' (first
    | with_reducible assumption
    | ((try lift_lets -underBinder); intro x; (have hx : Keeps s0 x := ?_); clear_value x; rotate_left; (clear_value (e : x = _); rw [e]; clear e))
    | ((try lift_lets -underBinder); intro x; try clear_value x) | with_reducible apply State.enqueue_keeps
    | (with_reducible refine Keeps.state (KeepsP.of ?_) ?_; on_goal 1 => with_reducible assumption)
    | (with_reducible apply KeepsM.of; with_reducible assumption)
    | (with_reducible refine Keeps.foldl ?_ ?_; on_goal 2 => intro _ _ _) | with_reducible apply Keeps.ite
    | with_reducible apply Keeps.ite_fst | split)

theorem receive_keeps {s0 p raw mine act s} (h_act : ∀ x0 x1 x2, Keeps s0 x2 → Keeps s0 (act x0 x1 x2)) (h_s : Keeps s0 s) : Keeps s0 (receive p raw mine act s) := by
  unfold receive
  repeat' (first
    | with_reducible assumption
    | ((try lift_lets -underBinder); intro x; (have hx : Keeps s0 x := ?_); clear_value x; rotate_left; (clear_value (e : x = _); rw [e]; clear e))
    | ((try lift_lets -underBinder); intro x; try clear_value x) | with_reducible apply State.nak_keeps
    | with_reducible apply State.count_keeps | with_reducible apply State.takeAck_keeps
    | with_reducible apply State.takeFlit_keeps | with_reducible apply State.dropInvalid_keeps
    | with_reducible apply State.forward_keeps | with_reducible apply h_act
    | (with_reducible refine Keeps.state (KeepsP.of ?_) ?_; on_goal 1 => with_reducible assumption)
    | (with_reducible apply KeepsM.of; with_reducible assumption) | with_reducible apply Keeps.ite)

theorem execIdleReceive_keeps {s0 p raw s} (h_s : Keeps s0 s) : KeepsNext s0 (execIdleReceive p raw s) := by
  unfold execIdleReceive
  repeat' (first | with_reducible assumption | with_reducible apply goOn_keeps | with_reducible apply receive_keeps | intro _)

theorem takeNak_keeps {s0 p f s} (h_s : Keeps s0 s) : Keeps s0 (takeNak p f s) := by
  unfold takeNak
  repeat' (first | with_reducible assumption | with_reducible apply State.resendFrom_keeps)

theorem execNakReceive_keeps {s0 p raw s} (h_s : Keeps s0 s) : KeepsNext s0 (execNakReceive p raw s) := by
  unfold execNakReceive
  repeat' (first
    | with_reducible assumption | with_reducible apply goOn_keeps | with_reducible apply receive_keeps
    | with_reducible apply takeNak_keeps)

theorem takeCredit_keeps {s0 p f s} (h_s : Keeps s0 s) : Keeps s0 (takeCredit p f s) := by
  unfold takeCredit
  repeat' (first | with_reducible assumption | with_reducible apply State.pump_keeps | with_reducible apply State.setPort_keeps)

theorem execCreditReceive_keeps {s0 p raw s} (h_s : Keeps s0 s) : KeepsNext s0 (execCreditReceive p raw s) := by
  unfold execCreditReceive
  repeat' (first
    | with_reducible assumption | with_reducible apply goOn_keeps | with_reducible apply receive_keeps
    | with_reducible apply takeCredit_keeps)

theorem State.portRaise_keeps {s0 s code p} (h_s : Keeps s0 s) : Keeps s0 (State.portRaise s code p) := by
  unfold State.portRaise
  repeat' (first | with_reducible assumption | with_reducible apply State.raise_keeps)

theorem State.removePort_keeps {s0 s p} (h_s : Keeps s0 s) : Keeps s0 (State.removePort s p) := by
  unfold State.removePort
  repeat' (first
    | with_reducible assumption
    | ((try lift_lets -underBinder); intro x; (have hx : Keeps s0 x := ?_); clear_value x; rotate_left; (clear_value (e : x = _); rw [e]; clear e))
    | with_reducible apply State.setPort_keeps | with_reducible apply State.settleSends_keeps
    | with_reducible apply State.portRaise_keeps | with_reducible apply State.put_keeps)

theorem State.degrade_keeps {s0 s p} (h_s : Keeps s0 s) : Keeps s0 (State.degrade s p) := by
  unfold State.degrade
  repeat' (first
    | with_reducible assumption | with_reducible apply State.portRaise_keeps | with_reducible apply State.setPort_keeps
    | with_reducible apply State.removePort_keeps
    | (with_reducible refine Keeps.state (KeepsP.of ?_) ?_; on_goal 1 => with_reducible assumption)
    | with_reducible apply Keeps.ite)

theorem linkDegraded_keeps {s0 p s} (h_s : Keeps s0 s) : Keeps s0 (linkDegraded p s) := by
  unfold linkDegraded
  repeat' (first
    | with_reducible assumption | with_reducible apply State.degrade_keeps | with_reducible apply State.sendLink_keeps
    | with_reducible apply Keeps.ite)

theorem execLinkDegraded_keeps {s0 p s} (h_s : Keeps s0 s) : KeepsNext s0 (execLinkDegraded p s) := by
  unfold execLinkDegraded
  repeat' (first | with_reducible assumption | with_reducible apply goOn_keeps | with_reducible apply linkDegraded_keeps)

theorem takeDegrade_keeps {s0 p a1 s} (h_s : Keeps s0 s) : Keeps s0 (takeDegrade p a1 s) := by
  unfold takeDegrade
  repeat' (first | with_reducible assumption | with_reducible apply State.degrade_keeps | with_reducible apply Keeps.ite)

theorem execDegradeReceive_keeps {s0 p raw s} (h_s : Keeps s0 s) : KeepsNext s0 (execDegradeReceive p raw s) := by
  unfold execDegradeReceive
  repeat' (first
    | with_reducible assumption | with_reducible apply goOn_keeps | with_reducible apply receive_keeps
    | with_reducible apply takeDegrade_keeps)

theorem State.resume_keeps {s0 s p} (h_s : Keeps s0 s) : Keeps s0 (State.resume s p) := by
  unfold State.resume
  repeat' (first
    | with_reducible assumption
    | ((try lift_lets -underBinder); intro x; (have hx : Keeps s0 x := ?_); clear_value x; rotate_left; (clear_value (e : x = _); rw [e]; clear e))
    | ((try lift_lets -underBinder); intro x; try clear_value x) | with_reducible apply State.setPort_keeps
    | with_reducible apply State.resendFrom_keeps | with_reducible apply State.pump_keeps
    | (with_reducible refine Keeps.state (KeepsP.of ?_) ?_; on_goal 1 => with_reducible assumption) | split)

theorem State.endRetrain_keeps {s0 s p trained} (h_s : Keeps s0 s) : Keeps s0 (State.endRetrain s p trained) := by
  unfold State.endRetrain
  repeat' (first
    | with_reducible assumption
    | ((try lift_lets -underBinder); intro x; (have hx : Keeps s0 x := ?_); clear_value x; rotate_left; (clear_value (e : x = _); rw [e]; clear e))
    | ((try lift_lets -underBinder); intro x; try clear_value x) | with_reducible apply State.put_keeps
    | with_reducible apply State.setPort_keeps | with_reducible apply State.resume_keeps
    | with_reducible apply State.sendLink_keeps | with_reducible apply State.count_keeps
    | with_reducible apply State.removePort_keeps
    | (with_reducible refine Keeps.state (KeepsP.of ?_) ?_; on_goal 1 => with_reducible assumption)
    | with_reducible apply Keeps.ite | with_reducible refine Keeps.of_fst (by with_reducible assumption) ?_
    | with_reducible refine Keeps.of_snd (by with_reducible assumption) ?_
    | with_reducible refine KeepsS.elim (by with_reducible assumption) ?_
    | with_reducible refine KeepsT.elim (by with_reducible assumption) ?_ | split)

theorem execPortRetrainComplete_keeps {s0 p trained s} (h_s : Keeps s0 s) : KeepsNext s0 (execPortRetrainComplete p trained s) := by
  unfold execPortRetrainComplete
  repeat' (first | with_reducible assumption | with_reducible apply goOn_keeps | with_reducible apply State.endRetrain_keeps)

theorem takeRetrainDone_keeps {s0 p a1 s} (h_s : Keeps s0 s) : Keeps s0 (takeRetrainDone p a1 s) := by
  unfold takeRetrainDone
  repeat' (first | with_reducible assumption | with_reducible apply State.endRetrain_keeps)

theorem execRetrainDoneReceive_keeps {s0 p raw s} (h_s : Keeps s0 s) : KeepsNext s0 (execRetrainDoneReceive p raw s) := by
  unfold execRetrainDoneReceive
  repeat' (first
    | with_reducible assumption | with_reducible apply goOn_keeps | with_reducible apply receive_keeps
    | with_reducible apply takeRetrainDone_keeps)

theorem portStall_keeps {s0 p s} (h_s : Keeps s0 s) : Keeps s0 (portStall p s) := by
  unfold portStall
  repeat' (first
    | with_reducible assumption | with_reducible apply State.raise_keeps
    | (with_reducible refine Keeps.state (KeepsP.of ?_) ?_; on_goal 1 => with_reducible assumption) | split)

theorem execPortStall_keeps {s0 p s} (h_s : Keeps s0 s) : KeepsNext s0 (execPortStall p s) := by
  unfold execPortStall
  repeat' (first | with_reducible assumption | with_reducible apply goOn_keeps | with_reducible apply portStall_keeps)

theorem restorePort_keeps {s0 p s} (h_s : Keeps s0 s) : Keeps s0 (restorePort p s).1 := by
  unfold restorePort
  repeat' (first
    | with_reducible assumption | with_reducible apply State.setPort_keeps
    | (with_reducible refine Keeps.state (KeepsP.of ?_) ?_; on_goal 1 => with_reducible assumption)
    | with_reducible apply Keeps.ite | with_reducible apply Keeps.ite_fst)

theorem State.landRefused_keeps {s0 s p a2} (h_s : Keeps s0 s) : Keeps s0 (State.landRefused s p a2) := by
  unfold State.landRefused
  repeat' (first | with_reducible assumption | with_reducible apply State.raise_keeps)

theorem State.boardDeliver_keeps {s0 s p f act} (h_s : Keeps s0 s) (h_act : ∀ x0, Keeps s0 x0 → Keeps s0 (act x0)) : Keeps s0 (State.boardDeliver s p f act) := by
  unfold State.boardDeliver
  repeat' (first
    | with_reducible assumption | with_reducible apply State.count_keeps | with_reducible apply h_act
    | with_reducible apply Keeps.ite)

theorem State.deliverIn_keeps {s0 s p x} (h_s : Keeps s0 s) : Keeps s0 (State.deliverIn s p x) := by
  unfold State.deliverIn
  repeat' (first
    | with_reducible assumption | with_reducible apply State.carry_keeps | with_reducible apply State.arriveIn_keeps
    | with_reducible apply Keeps.ite)

theorem landStore_keeps {s0 p f s} (h_s : Keeps s0 s) : Keeps s0 (landStore p f s) := by
  unfold landStore
  repeat' (first
    | with_reducible assumption | ((try lift_lets -underBinder); intro x; try clear_value x)
    | with_reducible apply State.boardDeliver_keeps | with_reducible apply State.landRefused_keeps
    | with_reducible apply State.deliverIn_keeps | with_reducible apply Keeps.ite)

theorem execBstoreReceive_keeps {s0 p raw s} (h_s : Keeps s0 s) : KeepsNext s0 (execBstoreReceive p raw s) := by
  unfold execBstoreReceive
  repeat' (first
    | with_reducible assumption | with_reducible apply goOn_keeps | with_reducible apply receive_keeps
    | with_reducible apply landStore_keeps)

theorem landReduce_keeps {s0 p f s} (h_s : Keeps s0 s) : Keeps s0 (landReduce p f s) := by
  unfold landReduce
  repeat' (first
    | with_reducible assumption
    | ((try lift_lets -underBinder); intro x; (have hx : Keeps s0 x := ?_); clear_value x; rotate_left; (clear_value (e : x = _); rw [e]; clear e))
    | ((try lift_lets -underBinder); intro x; (have hf2 : ∀ y z w, Keeps s0 y → Keeps s0 (x y z w) := ?_); clear_value x; rotate_left; (clear_value (e : x = _); rw [e]; clear e; intros; beta_reduce))
    | ((try lift_lets -underBinder); intro x; try clear_value x) | with_reducible apply hf0 | with_reducible apply hf1
    | with_reducible apply hf2 | with_reducible apply hf3 | with_reducible apply hf4 | with_reducible apply hf5
    | with_reducible apply hf6 | with_reducible apply hf7 | with_reducible apply hf8 | with_reducible apply hf9
    | with_reducible apply State.boardDeliver_keeps | with_reducible apply State.landRefused_keeps
    | with_reducible apply State.raise_keeps | with_reducible apply State.count_keeps
    | with_reducible apply State.dropInvalid_keeps | with_reducible apply State.deliverIn_keeps
    | with_reducible apply State.touchTable_keeps | with_reducible apply State.stored_keeps
    | (with_reducible refine Keeps.state (KeepsP.of ?_) ?_; on_goal 1 => with_reducible assumption)
    | with_reducible apply Keeps.ite | with_reducible refine Keeps.of_fst (by with_reducible assumption) ?_
    | with_reducible refine Keeps.of_snd (by with_reducible assumption) ?_
    | with_reducible refine KeepsS.elim (by with_reducible assumption) ?_
    | with_reducible refine KeepsT.elim (by with_reducible assumption) ?_ | split)

theorem execBreduceReceive_keeps {s0 p raw s} (h_s : Keeps s0 s) : KeepsNext s0 (execBreduceReceive p raw s) := by
  unfold execBreduceReceive
  repeat' (first
    | with_reducible assumption | with_reducible apply goOn_keeps | with_reducible apply receive_keeps
    | with_reducible apply landReduce_keeps)

theorem State.freeBytes_keeps {s0 s n} (h_s : Keeps s0 s) : Keeps s0 (State.freeBytes s n).1 := by
  unfold State.freeBytes
  repeat' (first
    | with_reducible assumption | (with_reducible refine Keeps.state (KeepsP.of ?_) ?_; on_goal 1 => with_reducible assumption)
    | (with_reducible apply KeepsM.of; with_reducible assumption))

theorem State.answer_keeps {s0 s p unit type cls dst id bytes poison} (h_s : Keeps s0 s) : Keeps s0 (State.answer s p unit type cls dst id bytes poison) := by
  unfold State.answer
  repeat' (first
    | with_reducible assumption | ((try lift_lets -underBinder); intro x; try clear_value x)
    | with_reducible apply State.toHost_keeps | with_reducible apply State.originate_keeps
    | (with_reducible refine Keeps.state (KeepsP.of ?_) ?_; on_goal 1 => with_reducible assumption)
    | with_reducible apply Keeps.ite)

theorem State.askFor_keeps {s0 s p f ask a4 type id} (h_s : Keeps s0 s) : Keeps s0 (State.askFor s p f ask a4 type id) := by
  unfold State.askFor
  repeat' (first
    | with_reducible assumption | ((try lift_lets -underBinder); intro x; try clear_value x)
    | with_reducible apply State.deliverIn_keeps)

theorem State.takeRequest_keeps {s0 s x ask p type cls dst id} (h_s : Keeps s0 s) : Keeps s0 (State.takeRequest s x ask p type cls dst id) := by
  unfold State.takeRequest
  repeat' (first | with_reducible assumption | with_reducible apply State.ask_keeps)

theorem landLoad_keeps {s0 p f s} (h_s : Keeps s0 s) : Keeps s0 (landLoad p f s) := by
  unfold landLoad
  repeat' (first
    | with_reducible assumption
    | ((try lift_lets -underBinder); intro x; (have hx : Keeps s0 x.1 := ?_); clear_value x; rotate_left; (clear_value (e : x = _); rw [e]; clear e))
    | ((try lift_lets -underBinder); intro x; try clear_value x) | with_reducible apply State.boardDeliver_keeps
    | with_reducible apply State.freeBytes_keeps | with_reducible apply State.landRefused_keeps
    | with_reducible apply State.answer_keeps | with_reducible apply State.askFor_keeps | with_reducible apply Keeps.ite)

theorem execBloadReceive_keeps {s0 p raw s} (h_s : Keeps s0 s) : KeepsNext s0 (execBloadReceive p raw s) := by
  unfold execBloadReceive
  repeat' (first
    | with_reducible assumption | with_reducible apply goOn_keeps | with_reducible apply receive_keeps
    | with_reducible apply landLoad_keeps)

theorem State.atomic_keeps {s0 s u ctx a3 op n x} (h_s : Keeps s0 s) : Keeps s0 (State.atomic s u ctx a3 op n x).1 := by
  unfold State.atomic
  repeat' (first
    | with_reducible assumption
    | ((try lift_lets -underBinder); intro x; (have hx : Keeps s0 x.1 := ?_); clear_value x; rotate_left; (clear_value (e : x = _); rw [e]; clear e))
    | ((try lift_lets -underBinder); intro x; try clear_value x) | with_reducible apply State.readThrough_keeps
    | with_reducible apply State.writeBytes_keeps)

theorem landAmo_keeps {s0 p f s} (h_s : Keeps s0 s) : Keeps s0 (landAmo p f s) := by
  unfold landAmo
  repeat' (first
    | with_reducible assumption
    | ((try lift_lets -underBinder); intro x; (have hx : Keeps s0 x.1 := ?_); clear_value x; rotate_left; (clear_value (e : x = _); rw [e]; clear e))
    | ((try lift_lets -underBinder); intro x; try clear_value x) | with_reducible apply State.boardDeliver_keeps
    | with_reducible apply State.freeBytes_keeps | with_reducible apply State.landRefused_keeps
    | with_reducible apply State.answer_keeps | with_reducible apply State.askFor_keeps | with_reducible apply Keeps.ite)

theorem execBamoReceive_keeps {s0 p raw s} (h_s : Keeps s0 s) : KeepsNext s0 (execBamoReceive p raw s) := by
  unfold execBamoReceive
  repeat' (first
    | with_reducible assumption | with_reducible apply goOn_keeps | with_reducible apply receive_keeps
    | with_reducible apply landAmo_keeps)

theorem State.accessFault_keeps {s0 s c} (h_s : Keeps s0 s) : Keeps s0 (State.accessFault s c) := by
  unfold State.accessFault
  repeat' (first | with_reducible assumption | with_reducible apply State.setCore_keeps)

theorem State.coreData_keeps {s0 s c data poison} (h_s : Keeps s0 s) : Keeps s0 (State.coreData s c data poison) := by
  unfold State.coreData
  repeat' (first
    | with_reducible assumption | with_reducible apply State.accessFault_keeps | with_reducible apply State.setCore_keeps
    | (with_reducible refine Keeps.state (KeepsP.of ?_) ?_; on_goal 1 => with_reducible assumption)
    | with_reducible apply Keeps.ite)

theorem State.takeAnswer_keeps {s0 s wantAmo f} (h_s : Keeps s0 s) : Keeps s0 (State.takeAnswer s wantAmo f) := by
  unfold State.takeAnswer
  repeat' (first
    | with_reducible assumption | with_reducible apply State.coreData_keeps
    | (with_reducible refine Keeps.state (KeepsP.of ?_) ?_; on_goal 1 => with_reducible assumption)
    | (with_reducible apply KeepsM.of; with_reducible assumption)
    | with_reducible refine Keeps.of_fst (by with_reducible assumption) ?_
    | with_reducible refine Keeps.of_snd (by with_reducible assumption) ?_
    | with_reducible refine KeepsS.elim (by with_reducible assumption) ?_
    | with_reducible refine KeepsT.elim (by with_reducible assumption) ?_ | split)

theorem landLoadRsp_keeps {s0 a0 f s} (h_s : Keeps s0 s) : Keeps s0 (landLoadRsp a0 f s) := by
  unfold landLoadRsp
  repeat' (first | with_reducible assumption | with_reducible apply State.takeAnswer_keeps)

theorem execBloadRspReceive_keeps {s0 p raw s} (h_s : Keeps s0 s) : KeepsNext s0 (execBloadRspReceive p raw s) := by
  unfold execBloadRspReceive
  repeat' (first
    | with_reducible assumption | with_reducible apply goOn_keeps | with_reducible apply receive_keeps
    | with_reducible apply landLoadRsp_keeps)

theorem landAmoRsp_keeps {s0 a0 f s} (h_s : Keeps s0 s) : Keeps s0 (landAmoRsp a0 f s) := by
  unfold landAmoRsp
  repeat' (first | with_reducible assumption | with_reducible apply State.takeAnswer_keeps)

theorem execBamoRspReceive_keeps {s0 p raw s} (h_s : Keeps s0 s) : KeepsNext s0 (execBamoRspReceive p raw s) := by
  unfold execBamoRspReceive
  repeat' (first
    | with_reducible assumption | with_reducible apply goOn_keeps | with_reducible apply receive_keeps
    | with_reducible apply landAmoRsp_keeps)

theorem State.coreRaise_keeps {s0 s code c detail} (h_s : Keeps s0 s) : Keeps s0 (State.coreRaise s code c detail) := by
  unfold State.coreRaise
  repeat' (first | with_reducible assumption | with_reducible apply State.raise_keeps)

theorem boardLoadTimeout_keeps {s0 id s} (h_s : Keeps s0 s) : Keeps s0 (boardLoadTimeout id s) := by
  unfold boardLoadTimeout
  repeat' (first
    | with_reducible assumption
    | ((try lift_lets -underBinder); intro x; (have hx : Keeps s0 x := ?_); clear_value x; rotate_left; (clear_value (e : x = _); rw [e]; clear e))
    | ((try lift_lets -underBinder); intro x; try clear_value x) | with_reducible apply State.accessFault_keeps
    | with_reducible apply State.coreRaise_keeps
    | (with_reducible refine Keeps.state (KeepsP.of ?_) ?_; on_goal 1 => with_reducible assumption)
    | (with_reducible apply KeepsM.of; with_reducible assumption) | with_reducible apply Keeps.ite
    | with_reducible refine Keeps.of_fst (by with_reducible assumption) ?_
    | with_reducible refine Keeps.of_snd (by with_reducible assumption) ?_
    | with_reducible refine KeepsS.elim (by with_reducible assumption) ?_
    | with_reducible refine KeepsT.elim (by with_reducible assumption) ?_ | split)

theorem execBoardLoadTimeout_keeps {s0 id s} (h_s : Keeps s0 s) : KeepsNext s0 (execBoardLoadTimeout id s) := by
  unfold execBoardLoadTimeout
  repeat' (first | with_reducible assumption | with_reducible apply goOn_keeps | with_reducible apply boardLoadTimeout_keeps)

theorem State.coreLocal_keeps {s0 s c a2 access} (h_s : Keeps s0 s) : Keeps s0 (State.coreLocal s c a2 access) := by
  unfold State.coreLocal
  repeat' (first
    | with_reducible assumption
    | ((try lift_lets -underBinder); intro x; (have hf5 : ∀ y, Keeps s0 (x y) := ?_); clear_value x; rotate_left; (clear_value (e : x = _); rw [e]; clear e; intros; beta_reduce))
    | ((try lift_lets -underBinder); intro x; try clear_value x) | with_reducible apply hf0 | with_reducible apply hf1
    | with_reducible apply hf2 | with_reducible apply hf3 | with_reducible apply hf4 | with_reducible apply hf5
    | with_reducible apply hf6 | with_reducible apply hf7 | with_reducible apply hf8 | with_reducible apply hf9
    | with_reducible apply State.ask_keeps | with_reducible apply State.accessFault_keeps
    | with_reducible apply State.sendWrite_keeps
    | (with_reducible refine Keeps.state (KeepsP.of ?_) ?_; on_goal 1 => with_reducible assumption)
    | with_reducible apply Keeps.ite | split)

theorem State.coreRequest_keeps {s0 s c peer a3 n isAmo f} (h_s : Keeps s0 s) : Keeps s0 (State.coreRequest s c peer a3 n isAmo f) := by
  unfold State.coreRequest
  repeat' (first
    | with_reducible assumption
    | ((try lift_lets -underBinder); intro x; (have hx : Keeps s0 x := ?_); clear_value x; rotate_left; (clear_value (e : x = _); rw [e]; clear e))
    | ((try lift_lets -underBinder); intro x; try clear_value x) | with_reducible apply State.originate_keeps
    | (with_reducible refine Keeps.state (KeepsP.of ?_) ?_; on_goal 1 => with_reducible assumption)
    | (with_reducible apply KeepsM.of; with_reducible assumption))

theorem boardReach_keeps {s0 c address access s} (h_s : Keeps s0 s) : Keeps s0 (boardReach c address access s) := by
  unfold boardReach
  repeat' (first
    | with_reducible assumption
    | ((try lift_lets -underBinder); intro x; (have hx : Keeps s0 x := ?_); clear_value x; rotate_left; (clear_value (e : x = _); rw [e]; clear e))
    | ((try lift_lets -underBinder); intro x; try clear_value x) | with_reducible apply State.coreRaise_keeps
    | with_reducible apply State.accessFault_keeps | with_reducible apply State.coreLocal_keeps
    | with_reducible apply State.coreRequest_keeps | with_reducible apply State.originate_keeps
    | (with_reducible refine Keeps.state (KeepsP.of ?_) ?_; on_goal 1 => with_reducible assumption)
    | (with_reducible refine Keeps.foldl ?_ ?_; on_goal 2 => intro _ _ _) | with_reducible apply Keeps.ite
    | with_reducible apply Keeps.ite_fst | split)

theorem State.takeSerial_keeps {s0 s peer tag} (h_s : Keeps s0 s) : Keeps s0 (State.takeSerial s peer tag).1 := by
  unfold State.takeSerial
  repeat' (first
    | with_reducible assumption | ((try lift_lets -underBinder); intro x; try clear_value x)
    | (with_reducible refine Keeps.state (KeepsP.of ?_) ?_; on_goal 1 => with_reducible assumption)
    | (with_reducible apply KeepsM.of; with_reducible assumption))

theorem State.startSending_keeps {s0 s u fs host} (h_s : Keeps s0 s) : Keeps s0 (State.startSending s u fs host) := by
  unfold State.startSending
  repeat' (first
    | with_reducible assumption
    | ((try lift_lets -underBinder); intro x; (have hx : Keeps s0 x := ?_); clear_value x; rotate_left; (clear_value (e : x = _); rw [e]; clear e))
    | ((try lift_lets -underBinder); intro x; try clear_value x) | with_reducible apply State.onUnit_keeps
    | with_reducible apply State.settleSends_keeps | with_reducible apply State.toHost_keeps
    | with_reducible apply State.originate_keeps
    | (with_reducible refine Keeps.state (KeepsP.of ?_) ?_; on_goal 1 => with_reducible assumption)
    | (with_reducible refine Keeps.foldl ?_ ?_; on_goal 2 => intro _ _ _) | with_reducible apply Keeps.ite)

theorem startSend_keeps {s0 i s} (h_s : Keeps s0 s) : Keeps s0 (startSend i s) := by
  unfold startSend
  repeat' (first
    | with_reducible assumption | ((try lift_lets -underBinder); intro x; try clear_value x)
    | with_reducible apply State.refuseAccess_keeps | with_reducible apply State.startMoving_keeps
    | with_reducible apply Keeps.ite)

theorem State.sendAll_keeps {s0 s i x come} (h_s : Keeps s0 s) : Keeps s0 (State.sendAll s i x come) := by
  unfold State.sendAll
  repeat' (first
    | with_reducible assumption
    | ((try lift_lets -underBinder); intro x; (have hx : Keeps s0 x.1 := ?_); clear_value x; rotate_left; (clear_value (e : x = _); rw [e]; clear e))
    | ((try lift_lets -underBinder); intro x; try clear_value x) | with_reducible apply State.takeSerial_keeps
    | with_reducible apply State.startSending_keeps)

theorem execPortSend_keeps {s0 i s} (h_s : Keeps s0 s) : KeepsNext s0 (execPortSend i s) := by
  unfold execPortSend
  repeat' (first
    | with_reducible assumption | with_reducible apply goOn_keeps | with_reducible apply State.gate_keeps
    | with_reducible apply startSend_keeps)

theorem execStavlinkSend_keeps {s0 i s} (h_s : Keeps s0 s) : KeepsNext s0 (execStavlinkSend i s) := by
  unfold execStavlinkSend
  repeat' (first
    | with_reducible assumption | with_reducible apply goOn_keeps | with_reducible apply State.gate_keeps
    | with_reducible apply startSend_keeps)

theorem State.memberCopies_keeps {s0 s x member role w d} (h_s : Keeps s0 s) : Keeps s0 (State.memberCopies s x member role w d).1 := by
  unfold State.memberCopies
  repeat' (first
    | with_reducible assumption
    | ((try lift_lets -underBinder); intro x; (have hx : Keeps s0 x := ?_); clear_value x; rotate_left; (clear_value (e : x = _); rw [e]; clear e))
    | ((try lift_lets -underBinder); intro x; (have hx : Keeps s0 x.1 := ?_); clear_value x; rotate_left; (clear_value (e : x = _); rw [e]; clear e))
    | ((try lift_lets -underBinder); intro x; try clear_value x) | with_reducible apply State.takeSerial_keeps
    | (with_reducible refine Keeps.state (KeepsP.of ?_) ?_; on_goal 1 => with_reducible assumption)
    | (with_reducible apply KeepsM.of; with_reducible assumption) | with_reducible apply Keeps.ite
    | with_reducible apply Keeps.ite_fst)

theorem startBcast_keeps {s0 i s} (h_s : Keeps s0 s) : Keeps s0 (startBcast i s) := by
  unfold startBcast
  repeat' (first
    | with_reducible assumption | ((try lift_lets -underBinder); intro x; try clear_value x)
    | with_reducible apply State.refuseAccess_keeps | with_reducible apply State.startMoving_keeps
    | with_reducible apply Keeps.ite)

theorem State.castAll_keeps {s0 s i x come} (h_s : Keeps s0 s) : Keeps s0 (State.castAll s i x come) := by
  unfold State.castAll
  repeat' (first
    | with_reducible assumption
    | ((try lift_lets -underBinder); intro x; (have hx : Keeps s0 x.1 := ?_); clear_value x; rotate_left; (clear_value (e : x = _); rw [e]; clear e))
    | ((try lift_lets -underBinder); intro x; try clear_value x) | with_reducible apply State.memberCopies_keeps
    | with_reducible apply State.startSending_keeps | (with_reducible refine Keeps.foldl_fst ?_ ?_; on_goal 2 => intro _ _ _))

theorem State.blockHome_keeps {s0 s p j} (h_s : Keeps s0 s) : Keeps s0 (State.blockHome s p j) := by
  unfold State.blockHome
  repeat' (first
    | with_reducible assumption | ((try lift_lets -underBinder); intro x; try clear_value x)
    | with_reducible apply State.castAll_keeps | with_reducible apply State.sendAll_keeps
    | with_reducible apply State.onUnit_keeps | with_reducible apply State.blockLanded_keeps
    | with_reducible apply State.sendBlock_keeps
    | (with_reducible refine Keeps.state (KeepsP.of ?_) ?_; on_goal 1 => with_reducible assumption)
    | with_reducible apply Keeps.ite | with_reducible refine Keeps.of_fst (by with_reducible assumption) ?_
    | with_reducible refine Keeps.of_snd (by with_reducible assumption) ?_
    | with_reducible refine KeepsS.elim (by with_reducible assumption) ?_
    | with_reducible refine KeepsT.elim (by with_reducible assumption) ?_ | split)

theorem execBcast_keeps {s0 i s} (h_s : Keeps s0 s) : KeepsNext s0 (execBcast i s) := by
  unfold execBcast
  repeat' (first
    | with_reducible assumption | with_reducible apply goOn_keeps | with_reducible apply State.gate_keeps
    | with_reducible apply startBcast_keeps)

theorem State.landValues_keeps {s0 s i x b first vs poison} (h_s : Keeps s0 s) : Keeps s0 (State.landValues s i x b first vs poison) := by
  unfold State.landValues
  repeat' (first
    | with_reducible assumption | ((try lift_lets -underBinder); intro x; try clear_value x)
    | with_reducible apply State.reduceValues_keeps)

theorem State.landPart_keeps {s0 s i x b data p0 p1 poison} (h_s : Keeps s0 s) : Keeps s0 (State.landPart s i x b data p0 p1 poison) := by
  unfold State.landPart
  repeat' (first
    | with_reducible assumption | ((try lift_lets -underBinder); intro x; try clear_value x)
    | with_reducible apply State.landValues_keeps | (with_reducible refine Keeps.foldl ?_ ?_; on_goal 2 => intro _ _ _))

theorem State.refuseBucket_keeps {s0 s i b code sub src} (h_s : Keeps s0 s) : Keeps s0 (State.refuseBucket s i b code sub src) := by
  unfold State.refuseBucket
  repeat' (first | with_reducible assumption | with_reducible apply State.raise_keeps | with_reducible apply State.count_keeps)

theorem State.checkPart_keeps {s0 s i x b old src data} (h_s : Keeps s0 s) : Keeps s0 (State.checkPart s i x b old src data).1 := by
  unfold State.checkPart
  repeat' (first
    | with_reducible assumption | with_reducible apply State.refuseBucket_keeps | with_reducible apply Keeps.ite
    | with_reducible apply Keeps.ite_fst)

theorem landMore_keeps {s0 i x old check data poison} (h_check : Keeps s0 check.1) : Keeps s0 (landMore i x old check data poison).1 := by
  unfold landMore
  repeat' (first
    | with_reducible assumption
    | ((try lift_lets -underBinder); intro x; (have hx : Keeps s0 x := ?_); clear_value x; rotate_left; (clear_value (e : x = _); rw [e]; clear e))
    | ((try lift_lets -underBinder); intro x; try clear_value x) | with_reducible apply State.landPart_keeps
    | with_reducible apply Keeps.ite)

theorem State.landHeader_keeps {s0 s r x src serial offset payload poison} (h_s : Keeps s0 s) : Keeps s0 (State.landHeader s r x src serial offset payload poison).1 := by
  unfold State.landHeader
  repeat' (first
    | with_reducible assumption
    | ((try lift_lets -underBinder); intro x; (have hx : Keeps s0 x := ?_); clear_value x; rotate_left; (clear_value (e : x = _); rw [e]; clear e))
    | ((try lift_lets -underBinder); intro x; (have hx : Keeps s0 x.1 := ?_); clear_value x; rotate_left; (clear_value (e : x = _); rw [e]; clear e))
    | ((try lift_lets -underBinder); intro x; try clear_value x) | with_reducible apply landMore_keeps
    | with_reducible apply State.checkPart_keeps | with_reducible apply State.count_keeps
    | (with_reducible refine Keeps.state (KeepsP.of ?_) ?_; on_goal 1 => with_reducible assumption)
    | with_reducible apply Keeps.ite)

theorem State.landBlocks_keeps {s0 s i x a3 a4 a5 a6} (h_s : Keeps s0 s) : Keeps s0 (State.landBlocks s i x a3 a4 a5 a6).1 := by
  induction a3 generalizing s i x a4 a5 a6 with
  | zero =>
    unfold State.landBlocks
    with_reducible assumption
  | succ n ih =>
    unfold State.landBlocks
    repeat' (first
      | with_reducible assumption | with_reducible apply ih
      | ((try lift_lets -underBinder); intro x; (have hx : Keeps s0 x.1 := ?_); clear_value x; rotate_left; (clear_value (e : x = _); rw [e]; clear e))
      | ((try lift_lets -underBinder); intro x; try clear_value x) | with_reducible apply landMore_keeps
      | with_reducible apply Keeps.ite | with_reducible apply Keeps.ite_fst)

theorem State.landLocal_keeps {s0 s p j} (h_s : Keeps s0 s) : Keeps s0 (State.landLocal s p j) := by
  unfold State.landLocal
  repeat' (first
    | with_reducible assumption
    | ((try lift_lets -underBinder); intro x; (have hx : Keeps s0 x.1 := ?_); clear_value x; rotate_left; (clear_value (e : x = _); rw [e]; clear e))
    | ((try lift_lets -underBinder); intro x; try clear_value x) | with_reducible apply State.landBlocks_keeps
    | with_reducible apply State.onUnit_keeps
    | (with_reducible refine Keeps.state (KeepsP.of ?_) ?_; on_goal 1 => with_reducible assumption)
    | with_reducible refine Keeps.of_fst (by with_reducible assumption) ?_
    | with_reducible refine Keeps.of_snd (by with_reducible assumption) ?_
    | with_reducible refine KeepsS.elim (by with_reducible assumption) ?_
    | with_reducible refine KeepsT.elim (by with_reducible assumption) ?_ | split)

theorem State.setRecv_keeps {s0 s r} (h_s : Keeps s0 s) : Keeps s0 (State.setRecv s r) :=
  ⟨h_s.queue, h_s.wf⟩

theorem State.sendLanding_keeps {s0 s r x f serial off} (h_s : Keeps s0 s) : Keeps s0 (State.sendLanding s r x f serial off) := by
  unfold State.sendLanding
  repeat' (first
    | with_reducible assumption
    | ((try lift_lets -underBinder); intro x; (have hx : Keeps s0 x := ?_); clear_value x; rotate_left; (clear_value (e : x = _); rw [e]; clear e))
    | ((try lift_lets -underBinder); intro x; (have hf3 : ∀ y z w v, Keeps s0 y → Keeps s0 (x y z w v) := ?_); clear_value x; rotate_left; (clear_value (e : x = _); rw [e]; clear e; intros; beta_reduce))
    | ((try lift_lets -underBinder); intro x; try clear_value x) | with_reducible apply hf0 | with_reducible apply hf1
    | with_reducible apply hf2 | with_reducible apply hf3 | with_reducible apply hf4 | with_reducible apply hf5
    | with_reducible apply hf6 | with_reducible apply hf7 | with_reducible apply hf8 | with_reducible apply hf9
    | with_reducible apply State.arriveIn_keeps | with_reducible apply State.touchTable_keeps
    | (with_reducible refine Keeps.state (KeepsP.of ?_) ?_; on_goal 1 => with_reducible assumption)
    | with_reducible apply Keeps.ite)

theorem State.endRecv_keeps {s0 s r x source} (h_s : Keeps s0 s) : Keeps s0 (State.endRecv s r x source) := by
  unfold State.endRecv
  repeat' (first
    | with_reducible assumption
    | ((try lift_lets -underBinder); intro x; (have hx : Keeps s0 x := ?_); clear_value x; rotate_left; (clear_value (e : x = _); rw [e]; clear e))
    | ((try lift_lets -underBinder); intro x; try clear_value x) | with_reducible apply State.onUnit_keeps
    | with_reducible apply State.settle_keeps | with_reducible apply State.endWork_keeps
    | with_reducible apply State.originate_keeps
    | (with_reducible refine Keeps.state (KeepsP.of ?_) ?_; on_goal 1 => with_reducible assumption)
    | (with_reducible apply KeepsM.of; with_reducible assumption) | with_reducible apply Keeps.ite)

theorem State.landStream_keeps {s0 s r f} (h_s : Keeps s0 s) : Keeps s0 (State.landStream s r f) := by
  unfold State.landStream
  repeat' (first
    | with_reducible assumption | ((try lift_lets -underBinder); intro x; try clear_value x)
    | with_reducible apply State.sendLanding_keeps | with_reducible apply State.setRecv_keeps)

theorem State.recvLanded_keeps {s0 s u n} (h_s : Keeps s0 s) : Keeps s0 (State.recvLanded s u n) := by
  unfold State.recvLanded
  repeat' (first
    | with_reducible assumption
    | ((try lift_lets -underBinder); intro x; (have hx : Keeps s0 x := ?_); clear_value x; rotate_left; (clear_value (e : x = _); rw [e]; clear e))
    | ((try lift_lets -underBinder); intro x; try clear_value x) | with_reducible apply State.setRecv_keeps
    | with_reducible apply State.endRecv_keeps
    | (with_reducible refine Keeps.state (KeepsP.of ?_) ?_; on_goal 1 => with_reducible assumption)
    | with_reducible apply Keeps.ite | with_reducible refine Keeps.of_fst (by with_reducible assumption) ?_
    | with_reducible refine Keeps.of_snd (by with_reducible assumption) ?_
    | with_reducible refine KeepsS.elim (by with_reducible assumption) ?_
    | with_reducible refine KeepsT.elim (by with_reducible assumption) ?_ | split)

theorem State.landPiece_keeps {s0 s p src serial off} (h_s : Keeps s0 s) : Keeps s0 (State.landPiece s p src serial off) := by
  unfold State.landPiece
  repeat' (first
    | with_reducible assumption
    | ((try lift_lets -underBinder); intro x; (have hx : Keeps s0 x.1 := ?_); clear_value x; rotate_left; (clear_value (e : x = _); rw [e]; clear e))
    | with_reducible apply State.landHeader_keeps | with_reducible apply State.setRecv_keeps
    | (with_reducible refine Keeps.state (KeepsP.of ?_) ?_; on_goal 1 => with_reducible assumption)
    | with_reducible refine Keeps.of_fst (by with_reducible assumption) ?_
    | with_reducible refine Keeps.of_snd (by with_reducible assumption) ?_
    | with_reducible refine KeepsS.elim (by with_reducible assumption) ?_
    | with_reducible refine KeepsT.elim (by with_reducible assumption) ?_ | split)

theorem State.dropUnmatched_keeps {s0 s p f} (h_s : Keeps s0 s) : Keeps s0 (State.dropUnmatched s p f) := by
  unfold State.dropUnmatched
  repeat' (first | with_reducible assumption | with_reducible apply State.raise_keeps | with_reducible apply State.count_keeps)

theorem landStreamFlit_keeps {s0 p f s} (h_s : Keeps s0 s) : Keeps s0 (landStreamFlit p f s) := by
  unfold landStreamFlit
  repeat' (first
    | with_reducible assumption | with_reducible apply State.landStream_keeps | with_reducible apply State.dropUnmatched_keeps
    | (with_reducible refine Keeps.state (KeepsP.of ?_) ?_; on_goal 1 => with_reducible assumption)
    | (with_reducible apply KeepsM.of; with_reducible assumption) | with_reducible apply Keeps.ite
    | with_reducible refine Keeps.of_fst (by with_reducible assumption) ?_
    | with_reducible refine Keeps.of_snd (by with_reducible assumption) ?_
    | with_reducible refine KeepsS.elim (by with_reducible assumption) ?_
    | with_reducible refine KeepsT.elim (by with_reducible assumption) ?_ | split)

theorem execStreamFlitReceive_keeps {s0 p raw s} (h_s : Keeps s0 s) : KeepsNext s0 (execStreamFlitReceive p raw s) := by
  unfold execStreamFlitReceive
  repeat' (first
    | with_reducible assumption | with_reducible apply goOn_keeps | with_reducible apply receive_keeps
    | with_reducible apply landStreamFlit_keeps)

theorem streamUnmatched_keeps {s0 s} (h_s : Keeps s0 s) : Keeps s0 (streamUnmatched s) := by
  unfold streamUnmatched
  repeat' (first
    | with_reducible assumption
    | ((try lift_lets -underBinder); intro x; (have hx : Keeps s0 x := ?_); clear_value x; rotate_left; (clear_value (e : x = _); rw [e]; clear e))
    | ((try lift_lets -underBinder); intro x; try clear_value x) | with_reducible apply State.raiseTick_keeps
    | with_reducible apply State.count_keeps
    | (with_reducible refine Keeps.state (KeepsP.of ?_) ?_; on_goal 1 => with_reducible assumption)
    | (with_reducible apply KeepsM.of; with_reducible assumption) | with_reducible apply Keeps.ite
    | with_reducible refine Keeps.of_fst (by with_reducible assumption) ?_
    | with_reducible refine Keeps.of_snd (by with_reducible assumption) ?_
    | with_reducible refine KeepsS.elim (by with_reducible assumption) ?_
    | with_reducible refine KeepsT.elim (by with_reducible assumption) ?_ | split)

theorem execStreamUnmatched_keeps {s0 s} (h_s : Keeps s0 s) : KeepsNext s0 (execStreamUnmatched s) := by
  unfold execStreamUnmatched
  repeat' (first | with_reducible assumption | with_reducible apply goOn_keeps | with_reducible apply streamUnmatched_keeps)

theorem State.landWaiting_keeps {s0 s} (h_s : Keeps s0 s) : Keeps s0 (State.landWaiting s) := by
  unfold State.landWaiting
  repeat' (first
    | with_reducible assumption
    | ((try lift_lets -underBinder); intro x; (have hx : Keeps s0 x := ?_); clear_value x; rotate_left; (clear_value (e : x = _); rw [e]; clear e))
    | ((try lift_lets -underBinder); intro x; try clear_value x) | with_reducible apply State.landStream_keeps
    | (with_reducible refine Keeps.state (KeepsP.of ?_) ?_; on_goal 1 => with_reducible assumption)
    | (with_reducible apply KeepsM.of; with_reducible assumption)
    | (with_reducible refine Keeps.foldl ?_ ?_; on_goal 2 => intro _ _ _)
    | with_reducible refine Keeps.of_fst (by with_reducible assumption) ?_
    | with_reducible refine Keeps.of_snd (by with_reducible assumption) ?_
    | with_reducible refine KeepsS.elim (by with_reducible assumption) ?_
    | with_reducible refine KeepsT.elim (by with_reducible assumption) ?_ | split)

theorem startRecv_keeps {s0 i s} (h_s : Keeps s0 s) : Keeps s0 (startRecv i s) := by
  unfold startRecv
  repeat' (first
    | with_reducible assumption
    | ((try lift_lets -underBinder); intro x; (have hx : Keeps s0 x := ?_); clear_value x; rotate_left; (clear_value (e : x = _); rw [e]; clear e))
    | ((try lift_lets -underBinder); intro x; try clear_value x) | with_reducible apply State.invalid_keeps
    | with_reducible apply State.refuseAccess_keeps | with_reducible apply State.startWork_keeps
    | with_reducible apply State.landWaiting_keeps
    | (with_reducible refine Keeps.state (KeepsP.of ?_) ?_; on_goal 1 => with_reducible assumption)
    | (with_reducible apply KeepsM.of; with_reducible assumption) | with_reducible apply Keeps.ite)

theorem execPortRecv_keeps {s0 i s} (h_s : Keeps s0 s) : KeepsNext s0 (execPortRecv i s) := by
  unfold execPortRecv
  repeat' (first
    | with_reducible assumption | with_reducible apply goOn_keeps | with_reducible apply State.gate_keeps
    | with_reducible apply startRecv_keeps)

theorem execStavlinkRecv_keeps {s0 i s} (h_s : Keeps s0 s) : KeepsNext s0 (execStavlinkRecv i s) := by
  unfold execStavlinkRecv
  repeat' (first
    | with_reducible assumption | with_reducible apply goOn_keeps | with_reducible apply State.gate_keeps
    | with_reducible apply startRecv_keeps)

theorem State.setCommit_keeps {s0 s n} (h_s : Keeps s0 s) : Keeps s0 (State.setCommit s n) := by
  unfold State.setCommit
  repeat' (first | with_reducible assumption | with_reducible apply State.put_keeps)

theorem State.tell_keeps {s0 s unit ids kind subject payload} (h_s : Keeps s0 s) : Keeps s0 (State.tell s unit ids kind subject payload) := by
  unfold State.tell
  repeat' (first
    | with_reducible assumption | with_reducible apply State.originate_keeps
    | (with_reducible refine Keeps.foldl ?_ ?_; on_goal 2 => intro _ _ _))

theorem State.sendPoison_keeps {s0 s code} (h_s : Keeps s0 s) : Keeps s0 (State.sendPoison s code) := by
  unfold State.sendPoison
  repeat' (first
    | with_reducible assumption
    | ((try lift_lets -underBinder); intro x; (have hx : Keeps s0 x := ?_); clear_value x; rotate_left; (clear_value (e : x = _); rw [e]; clear e))
    | ((try lift_lets -underBinder); intro x; try clear_value x) | with_reducible apply State.flood_keeps
    | (with_reducible refine Keeps.state (KeepsP.of ?_) ?_; on_goal 1 => with_reducible assumption)
    | (with_reducible apply KeepsM.of; with_reducible assumption) | with_reducible apply Keeps.ite)

theorem State.enterAborting_keeps {s0 s} (h_s : Keeps s0 s) : Keeps s0 (State.enterAborting s) := by
  unfold State.enterAborting
  repeat' (first
    | with_reducible assumption
    | ((try lift_lets -underBinder); intro x; (have hx : Keeps s0 x := ?_); clear_value x; rotate_left; (clear_value (e : x = _); rw [e]; clear e))
    | ((try lift_lets -underBinder); intro x; try clear_value x) | with_reducible apply State.count_keeps
    | with_reducible apply State.setCommit_keeps | with_reducible apply State.onUnit_keeps
    | (with_reducible refine Keeps.state (KeepsP.of ?_) ?_; on_goal 1 => with_reducible assumption)
    | (with_reducible apply KeepsM.of; with_reducible assumption)
    | (with_reducible refine Keeps.foldl ?_ ?_; on_goal 2 => intro _ _ _) | with_reducible apply Keeps.ite)

theorem State.coordinatorAborts_keeps {s0 s origin code} (h_s : Keeps s0 s) : Keeps s0 (State.coordinatorAborts s origin code) := by
  unfold State.coordinatorAborts
  split
  · extract_lets c s1 s2
    have h1 : Keeps s0 s1 := Keeps.state (KeepsP.of h_s) (KeepsM.of h_s)
    have h2 : Keeps s0 s2 := State.tell_keeps h1
    exact Keeps.ite (State.enterAborting_keeps h2) h2
  · exact h_s

theorem State.stopProgram_keeps {s0 s reason halt} (h_s : Keeps s0 s) : Keeps s0 (State.stopProgram s reason halt) := by
  unfold State.stopProgram
  repeat' (first
    | with_reducible assumption | (with_reducible refine Keeps.state (KeepsP.of ?_) ?_; on_goal 1 => with_reducible assumption)
    | (with_reducible apply KeepsM.of; with_reducible assumption) | with_reducible apply Keeps.ite)

theorem State.abortStep_keeps {s0 s code} (h_s : Keeps s0 s) : Keeps s0 (State.abortStep s code) := by
  unfold State.abortStep
  repeat' (first
    | with_reducible assumption
    | ((try lift_lets -underBinder); intro x; (have hx : Keeps s0 x := ?_); clear_value x; rotate_left; (clear_value (e : x = _); rw [e]; clear e))
    | ((try lift_lets -underBinder); intro x; try clear_value x) | with_reducible apply State.stopProgram_keeps
    | with_reducible apply State.coordinatorAborts_keeps | with_reducible apply State.enterAborting_keeps
    | with_reducible apply State.sendPoison_keeps
    | (with_reducible refine Keeps.state (KeepsP.of ?_) ?_; on_goal 1 => with_reducible assumption)
    | (with_reducible apply KeepsM.of; with_reducible assumption) | with_reducible apply Keeps.ite | split)

theorem takePoison_keeps {s0 p f s} (h_s : Keeps s0 s) : Keeps s0 (takePoison p f s) := by
  unfold takePoison
  repeat' (first
    | with_reducible assumption
    | ((try lift_lets -underBinder); intro x; (have hx : Keeps s0 x := ?_); clear_value x; rotate_left; (clear_value (e : x = _); rw [e]; clear e))
    | ((try lift_lets -underBinder); intro x; try clear_value x) | with_reducible apply State.flood_keeps
    | with_reducible apply State.raise_keeps | with_reducible apply State.enterAborting_keeps
    | with_reducible apply State.coordinatorAborts_keeps
    | (with_reducible refine Keeps.state (KeepsP.of ?_) ?_; on_goal 1 => with_reducible assumption)
    | (with_reducible apply KeepsM.of; with_reducible assumption) | with_reducible apply Keeps.ite)

theorem execPoisonStepReceive_keeps {s0 p raw s} (h_s : Keeps s0 s) : KeepsNext s0 (execPoisonStepReceive p raw s) := by
  unfold execPoisonStepReceive
  repeat' (first
    | with_reducible assumption | with_reducible apply goOn_keeps | with_reducible apply receive_keeps
    | with_reducible apply takePoison_keeps)

theorem takeAbort_keeps {s0 p f s} (h_s : Keeps s0 s) : Keeps s0 (takeAbort p f s) := by
  unfold takeAbort
  repeat' (first
    | with_reducible assumption | ((try lift_lets -underBinder); intro x; try clear_value x)
    | with_reducible apply State.enterAborting_keeps | with_reducible apply State.raise_keeps | with_reducible apply Keeps.ite)

theorem execAbortReceive_keeps {s0 p raw s} (h_s : Keeps s0 s) : KeepsNext s0 (execAbortReceive p raw s) := by
  unfold execAbortReceive
  repeat' (first
    | with_reducible assumption | with_reducible apply goOn_keeps | with_reducible apply receive_keeps
    | with_reducible apply takeAbort_keeps)

end Sys2Proof.Machine
end

