-- ==== Sys2Proof/Laws/KeepsCommit.lean ====
section
/-! SUPPORT. One lemma per function: it keeps the queue and the canonical form of the memories. Here:
the update, the record, the slices, the commit and the recovery. -/

namespace Sys2Proof.Machine

theorem State.stage_keeps {s0 s layer x} (h_s : Keeps s0 s) : Keeps s0 (State.stage s layer x) := by
  unfold State.stage
  repeat' (first
    | with_reducible assumption | with_reducible apply State.count_keeps
    | (with_reducible refine Keeps.state (KeepsP.of ?_) ?_; on_goal 1 => with_reducible assumption)
    | (with_reducible apply KeepsM.of; with_reducible assumption) | with_reducible apply Keeps.ite)

theorem State.slotWrite_keeps {s0 s ctx y b k a5 bytes poisoned} (h_s : Keeps s0 s) : Keeps s0 (State.slotWrite s ctx y b k a5 bytes poisoned) := by
  unfold State.slotWrite
  repeat' (first
    | with_reducible assumption | ((try lift_lets -underBinder); intro x; try clear_value x)
    | with_reducible apply State.writeThrough_keeps | with_reducible apply State.stepThrough_keeps
    | with_reducible apply Keeps.ite)

theorem State.clearUnclaimed_keeps {s0 s ctx y b} (h_s : Keeps s0 s) : Keeps s0 (State.clearUnclaimed s ctx y b) := by
  unfold State.clearUnclaimed
  repeat' (first
    | with_reducible assumption | ((try lift_lets -underBinder); intro x; try clear_value x)
    | with_reducible apply State.slotWrite_keeps | (with_reducible refine Keeps.foldl ?_ ?_; on_goal 2 => intro _ _ _)
    | with_reducible apply Keeps.ite)

theorem State.runStf_keeps {s0 s d y sc bad o index} (h_s : Keeps s0 s) : Keeps s0 (State.runStf s d y sc bad o index) := by
  unfold State.runStf
  repeat' (first
    | with_reducible assumption
    | ((try lift_lets -underBinder); intro x; (have hx : Keeps s0 x := ?_); clear_value x; rotate_left; (clear_value (e : x = _); rw [e]; clear e))
    | ((try lift_lets -underBinder); intro x; (have hx : Keeps s0 x.2 := ?_); clear_value x; rotate_left; (clear_value (e : x = _); rw [e]; clear e))
    | ((try lift_lets -underBinder); intro x; try clear_value x) | with_reducible apply State.stored_keeps
    | with_reducible apply State.opWrite_keeps | with_reducible apply State.draw_keeps | with_reducible apply State.stage_keeps
    | (with_reducible refine Keeps.state (KeepsP.of ?_) ?_; on_goal 1 => with_reducible assumption)
    | with_reducible apply Keeps.ite)

theorem State.startPart_keeps {s0 s i bytes least idle} (h_s : Keeps s0 s) : Keeps s0 (State.startPart s i bytes least idle) := by
  unfold State.startPart
  repeat' (first
    | with_reducible assumption | with_reducible apply State.onUnit_keeps | with_reducible apply State.startWork_keeps)

theorem State.partCycle_keeps {s0 s u w} (h_s : Keeps s0 s) : Keeps s0 (State.partCycle s u w) := by
  unfold State.partCycle
  repeat' (first
    | with_reducible assumption
    | ((try lift_lets -underBinder); intro x; (have hf1 : ∀ y z, Keeps s0 y → Keeps s0 (x y z) := ?_); clear_value x; rotate_left; (clear_value (e : x = _); rw [e]; clear e; intros; beta_reduce))
    | ((try lift_lets -underBinder); intro x; try clear_value x) | with_reducible apply hf0 | with_reducible apply hf1
    | with_reducible apply hf2 | with_reducible apply hf3 | with_reducible apply hf4 | with_reducible apply hf5
    | with_reducible apply hf6 | with_reducible apply hf7 | with_reducible apply hf8 | with_reducible apply hf9
    | with_reducible apply State.onUnit_keeps | with_reducible apply State.spend_keeps | with_reducible apply State.count_keeps
    | (with_reducible refine Keeps.state (KeepsP.of ?_) ?_; on_goal 1 => with_reducible assumption)
    | (with_reducible refine Keeps.foldl ?_ ?_; on_goal 2 => intro _ _ _) | with_reducible apply Keeps.ite)

theorem State.partUndo_keeps {s0 s ctx y b} (h_s : Keeps s0 s) : Keeps s0 (State.partUndo s ctx y b) := by
  unfold State.partUndo
  repeat' (first
    | with_reducible assumption | ((try lift_lets -underBinder); intro x; try clear_value x)
    | with_reducible apply State.addUndo_keeps | (with_reducible refine Keeps.foldl ?_ ?_; on_goal 2 => intro _ _ _)
    | with_reducible apply Keeps.ite)

theorem State.readPart_keeps {s0 s i y b es} (h_s : Keeps s0 s) : Keeps s0 (State.readPart s i y b es).1 := by
  unfold State.readPart
  repeat' (first
    | with_reducible assumption
    | ((try lift_lets -underBinder); intro x; (have hx : Keeps s0 x.1 := ?_); clear_value x; rotate_left; (clear_value (e : x = _); rw [e]; clear e))
    | ((try lift_lets -underBinder); intro x; try clear_value x) | with_reducible apply State.anyTouch_keeps
    | (with_reducible refine Keeps.foldl_fst ?_ ?_; on_goal 2 => intro _ _ _))

theorem State.runPart_keeps {s0 s i y b ops} (h_s : Keeps s0 s) : Keeps s0 (State.runPart s i y b ops) := by
  unfold State.runPart
  repeat' (first
    | with_reducible assumption
    | ((try lift_lets -underBinder); intro x; (have hx : Keeps s0 x := ?_); clear_value x; rotate_left; (clear_value (e : x = _); rw [e]; clear e))
    | ((try lift_lets -underBinder); intro x; (have hx : Keeps s0 x.1 := ?_); clear_value x; rotate_left; (clear_value (e : x = _); rw [e]; clear e))
    | ((try lift_lets -underBinder); intro x; try clear_value x) | with_reducible apply State.setFiligree_keeps
    | with_reducible apply State.readPart_keeps | with_reducible apply State.partUndo_keeps
    | with_reducible apply State.slotWrite_keeps | with_reducible apply State.stored_keeps
    | with_reducible apply State.reportMax_keeps | with_reducible apply State.count_keeps
    | with_reducible apply State.clearUnclaimed_keeps | with_reducible apply State.runStf_keeps
    | with_reducible apply State.startPart_keeps | (with_reducible refine Keeps.foldl ?_ ?_; on_goal 2 => intro _ _ _)
    | with_reducible apply Keeps.ite)

theorem State.restore_keeps {s0 s ctx y b k a5 n} (h_s : Keeps s0 s) : Keeps s0 (State.restore s ctx y b k a5 n) := by
  unfold State.restore
  repeat' (first
    | with_reducible assumption
    | ((try lift_lets -underBinder); intro x; (have hx : Keeps s0 x := ?_); clear_value x; rotate_left; (clear_value (e : x = _); rw [e]; clear e))
    | ((try lift_lets -underBinder); intro x; try clear_value x) | with_reducible apply State.writeThrough_keeps)

theorem State.revertPart_keeps {s0 s i y b ops} (h_s : Keeps s0 s) : Keeps s0 (State.revertPart s i y b ops) := by
  unfold State.revertPart
  repeat' (first
    | with_reducible assumption
    | ((try lift_lets -underBinder); intro x; (have hx : Keeps s0 x := ?_); clear_value x; rotate_left; (clear_value (e : x = _); rw [e]; clear e))
    | ((try lift_lets -underBinder); intro x; (have hx : Keeps s0 x.1 := ?_); clear_value x; rotate_left; (clear_value (e : x = _); rw [e]; clear e))
    | ((try lift_lets -underBinder); intro x; (have hf3 : ∀ y z w v, Keeps s0 y → Keeps s0 (x y z w v) := ?_); clear_value x; rotate_left; (clear_value (e : x = _); rw [e]; clear e; intros; beta_reduce))
    | ((try lift_lets -underBinder); intro x; try clear_value x) | with_reducible apply hf0 | with_reducible apply hf1
    | with_reducible apply hf2 | with_reducible apply hf3 | with_reducible apply hf4 | with_reducible apply hf5
    | with_reducible apply hf6 | with_reducible apply hf7 | with_reducible apply hf8 | with_reducible apply hf9
    | with_reducible apply State.startWork_keeps | with_reducible apply State.anyTouch_keeps
    | with_reducible apply State.restore_keeps | with_reducible apply State.opWrite_keeps | with_reducible apply State.stage_keeps
    | with_reducible apply State.startPart_keeps
    | (with_reducible refine Keeps.state (KeepsP.of ?_) ?_; on_goal 1 => with_reducible assumption)
    | (with_reducible refine Keeps.foldl ?_ ?_; on_goal 2 => intro _ _ _) | with_reducible apply Keeps.ite)

theorem startUpdate_keeps {s0 i s} (h_s : Keeps s0 s) : Keeps s0 (startUpdate i s) := by
  unfold startUpdate
  repeat' (first
    | with_reducible assumption | ((try lift_lets -underBinder); intro x; try clear_value x)
    | with_reducible apply State.invalid_keeps | with_reducible apply State.revertPart_keeps
    | with_reducible apply State.runPart_keeps | with_reducible apply Keeps.ite)

theorem execUpdate_keeps {s0 i s} (h_s : Keeps s0 s) : KeepsNext s0 (execUpdate i s) := by
  unfold execUpdate
  repeat' (first
    | with_reducible assumption | with_reducible apply goOn_keeps | with_reducible apply State.gate_keeps
    | with_reducible apply startUpdate_keeps)

theorem updatePartComplete_keeps {s0 d s} (h_s : Keeps s0 s) : Keeps s0 (updatePartComplete d s) := by
  unfold updatePartComplete
  repeat' (first
    | with_reducible assumption
    | ((try lift_lets -underBinder); intro x; (have hx : Keeps s0 x := ?_); clear_value x; rotate_left; (clear_value (e : x = _); rw [e]; clear e))
    | ((try lift_lets -underBinder); intro x; try clear_value x) | with_reducible apply hf0 | with_reducible apply hf1
    | with_reducible apply hf2 | with_reducible apply hf3 | with_reducible apply hf4 | with_reducible apply hf5
    | with_reducible apply hf6 | with_reducible apply hf7 | with_reducible apply hf8 | with_reducible apply hf9
    | with_reducible apply State.setFiligree_keeps | with_reducible apply State.stage_keeps
    | with_reducible apply State.settle_keeps | with_reducible apply State.endWork_keeps
    | (with_reducible refine Keeps.state (KeepsP.of ?_) ?_; on_goal 1 => with_reducible assumption)
    | with_reducible apply Keeps.ite | with_reducible apply Keeps.ite_fst
    | with_reducible refine Keeps.of_fst (by with_reducible assumption) ?_
    | with_reducible refine Keeps.of_snd (by with_reducible assumption) ?_
    | with_reducible refine KeepsS.elim (by with_reducible assumption) ?_
    | with_reducible refine KeepsT.elim (by with_reducible assumption) ?_ | split)

theorem execUpdatePartComplete_keeps {s0 d s} (h_s : Keeps s0 s) : KeepsNext s0 (execUpdatePartComplete d s) := by
  unfold execUpdatePartComplete
  repeat' (first | with_reducible assumption | with_reducible apply goOn_keeps | with_reducible apply updatePartComplete_keeps)

theorem State.getSmall_keeps {s0 s m} (h_s : Keeps s0 s) : Keeps s0 (State.getSmall s m) := by
  unfold State.getSmall
  repeat' (first
    | with_reducible assumption | with_reducible apply State.hbmWrite_keeps
    | (with_reducible refine Keeps.state (KeepsP.of ?_) ?_; on_goal 1 => with_reducible assumption)
    | (with_reducible refine Keeps.foldl ?_ ?_; on_goal 2 => intro _ _ _)
    | with_reducible refine Keeps.of_fst (by with_reducible assumption) ?_
    | with_reducible refine Keeps.of_snd (by with_reducible assumption) ?_
    | with_reducible refine KeepsS.elim (by with_reducible assumption) ?_
    | with_reducible refine KeepsT.elim (by with_reducible assumption) ?_ | split)

theorem State.openExps_keeps {s0 s} (h_s : Keeps s0 s) : Keeps s0 (State.openExps s) := by
  unfold State.openExps
  repeat' (first
    | with_reducible assumption
    | ((try lift_lets -underBinder); intro x; (have hx : Keeps s0 x := ?_); clear_value x; rotate_left; (clear_value (e : x = _); rw [e]; clear e))
    | ((try lift_lets -underBinder); intro x; try clear_value x) | with_reducible apply State.count_keeps
    | (with_reducible refine Keeps.state (KeepsP.of ?_) ?_; on_goal 1 => with_reducible assumption)
    | (with_reducible apply KeepsM.of; with_reducible assumption) | with_reducible apply Keeps.ite)

theorem State.skew_keeps {s0 s owner check expected found halt} (h_s : Keeps s0 s) : Keeps s0 (State.skew s owner check expected found halt) :=
  ⟨h_s.queue, h_s.wf⟩

theorem startSeal_keeps {s0 i s} (h_s : Keeps s0 s) : Keeps s0 (startSeal i s) := by
  unfold startSeal
  repeat' (first
    | with_reducible assumption
    | ((try lift_lets -underBinder); intro x; (have hx : Keeps s0 x := ?_); clear_value x; rotate_left; (clear_value (e : x = _); rw [e]; clear e))
    | ((try lift_lets -underBinder); intro x; try clear_value x) | with_reducible apply State.invalid_keeps
    | with_reducible apply State.skew_keeps | with_reducible apply State.startWork_keeps
    | (with_reducible refine Keeps.state (KeepsP.of ?_) ?_; on_goal 1 => with_reducible assumption)
    | (with_reducible apply KeepsM.of; with_reducible assumption) | with_reducible apply Keeps.ite)

theorem execSeal_keeps {s0 i s} (h_s : Keeps s0 s) : KeepsNext s0 (execSeal i s) := by
  unfold execSeal
  repeat' (first
    | with_reducible assumption | with_reducible apply goOn_keeps | with_reducible apply State.gate_keeps
    | with_reducible apply startSeal_keeps)

theorem State.sendRecord_keeps {s0 s m len dst owner} (h_s : Keeps s0 s) : Keeps s0 (State.sendRecord s m len dst owner) := by
  unfold State.sendRecord
  repeat' (first
    | with_reducible assumption | with_reducible apply State.originate_keeps
    | (with_reducible refine Keeps.foldl ?_ ?_; on_goal 2 => intro _ _ _))

theorem sealComplete_keeps {s0 s} (h_s : Keeps s0 s) : Keeps s0 (sealComplete s) := by
  unfold sealComplete
  repeat' (first
    | with_reducible assumption
    | ((try lift_lets -underBinder); intro x; (have hx : Keeps s0 x := ?_); clear_value x; rotate_left; (clear_value (e : x = _); rw [e]; clear e))
    | ((try lift_lets -underBinder); intro x; try clear_value x) | with_reducible apply State.settle_keeps
    | with_reducible apply State.endWork_keeps | with_reducible apply State.sendRecord_keeps
    | (with_reducible refine Keeps.state (KeepsP.of ?_) ?_; on_goal 1 => with_reducible assumption)
    | (with_reducible apply KeepsM.of; with_reducible assumption)
    | (with_reducible refine Keeps.foldl ?_ ?_; on_goal 2 => intro _ _ _) | with_reducible apply Keeps.ite)

theorem execSealComplete_keeps {s0 s} (h_s : Keeps s0 s) : KeepsNext s0 (execSealComplete s) := by
  unfold execSealComplete
  repeat' (first | with_reducible assumption | with_reducible apply goOn_keeps | with_reducible apply sealComplete_keeps)

theorem State.setPredSealed_keeps {s0 s k m} (h_s : Keeps s0 s) : Keeps s0 (State.setPredSealed s k m) :=
  ⟨h_s.queue, h_s.wf⟩

theorem State.setPredCommitted_keeps {s0 s k m} (h_s : Keeps s0 s) : Keeps s0 (State.setPredCommitted s k m) :=
  ⟨h_s.queue, h_s.wf⟩

theorem State.setFilled_keeps {s0 s k n} (h_s : Keeps s0 s) : Keeps s0 (State.setFilled s k n) :=
  ⟨h_s.queue, h_s.wf⟩

theorem State.takeSealed_keeps {s0 s k owner offset bytes} (h_s : Keeps s0 s) : Keeps s0 (State.takeSealed s k owner offset bytes) := by
  unfold State.takeSealed
  repeat' (first
    | with_reducible assumption
    | ((try lift_lets -underBinder); intro x; (have hx : Keeps s0 x := ?_); clear_value x; rotate_left; (clear_value (e : x = _); rw [e]; clear e))
    | ((try lift_lets -underBinder); intro x; try clear_value x) | with_reducible apply State.setFilled_keeps
    | with_reducible apply State.setPredSealed_keeps | with_reducible apply State.originate_keeps | with_reducible apply Keeps.ite)

theorem takeLocketAck_keeps {s0 a0 f s} (h_s : Keeps s0 s) : Keeps s0 (takeLocketAck a0 f s) := by
  unfold takeLocketAck
  repeat' (first
    | with_reducible assumption | (with_reducible refine Keeps.state (KeepsP.of ?_) ?_; on_goal 1 => with_reducible assumption)
    | (with_reducible apply KeepsM.of; with_reducible assumption) | with_reducible apply Keeps.ite)

theorem execLocketAckReceive_keeps {s0 p raw s} (h_s : Keeps s0 s) : KeepsNext s0 (execLocketAckReceive p raw s) := by
  unfold execLocketAckReceive
  repeat' (first
    | with_reducible assumption | with_reducible apply goOn_keeps | with_reducible apply receive_keeps
    | with_reducible apply takeLocketAck_keeps)

theorem State.outvoted_keeps {s0 s owner expected found} (h_s : Keeps s0 s) : Keeps s0 (State.outvoted s owner expected found) := by
  unfold State.outvoted
  repeat' (first | with_reducible assumption | with_reducible apply State.skew_keeps | with_reducible apply State.count_keeps)

theorem locketCompare_keeps {s0 s} (h_s : Keeps s0 s) : Keeps s0 (locketCompare s) := by
  unfold locketCompare
  repeat' (first
    | with_reducible assumption
    | ((try lift_lets -underBinder); intro x; (have hf1 : ∀ y z, Keeps s0 y → Keeps s0 (x y z) := ?_); clear_value x; rotate_left; (clear_value (e : x = _); rw [e]; clear e; intros; beta_reduce))
    | ((try lift_lets -underBinder); intro x; try clear_value x) | with_reducible apply hf0 | with_reducible apply hf1
    | with_reducible apply hf2 | with_reducible apply hf3 | with_reducible apply hf4 | with_reducible apply hf5
    | with_reducible apply hf6 | with_reducible apply hf7 | with_reducible apply hf8 | with_reducible apply hf9
    | with_reducible apply State.skew_keeps | with_reducible apply State.outvoted_keeps
    | (with_reducible refine Keeps.state (KeepsP.of ?_) ?_; on_goal 1 => with_reducible assumption)
    | (with_reducible apply KeepsM.of; with_reducible assumption) | with_reducible apply Keeps.ite | split)

theorem execLocketCompare_keeps {s0 s} (h_s : Keeps s0 s) : KeepsNext s0 (execLocketCompare s) := by
  unfold execLocketCompare
  repeat' (first | with_reducible assumption | with_reducible apply goOn_keeps | with_reducible apply locketCompare_keeps)

theorem State.sendHeartbeats_keeps {s0 s} (h_s : Keeps s0 s) : Keeps s0 (State.sendHeartbeats s) := by
  unfold State.sendHeartbeats
  repeat' (first
    | with_reducible assumption | ((try lift_lets -underBinder); intro x; try clear_value x)
    | with_reducible apply State.originate_keeps | (with_reducible refine Keeps.foldl ?_ ?_; on_goal 2 => intro _ _ _)
    | with_reducible apply Keeps.ite)

theorem takeHeartbeat_keeps {s0 a0 f s} (h_s : Keeps s0 s) : Keeps s0 (takeHeartbeat a0 f s) := by
  unfold takeHeartbeat
  repeat' (first
    | with_reducible assumption
    | ((try lift_lets -underBinder); intro x; (have hx : Keeps s0 x := ?_); clear_value x; rotate_left; (clear_value (e : x = _); rw [e]; clear e))
    | ((try lift_lets -underBinder); intro x; try clear_value x) | with_reducible apply State.put_keeps
    | (with_reducible refine Keeps.state (KeepsP.of ?_) ?_; on_goal 1 => with_reducible assumption)
    | (with_reducible apply KeepsM.of; with_reducible assumption) | with_reducible apply Keeps.ite)

theorem execHeartbeatReceive_keeps {s0 p raw s} (h_s : Keeps s0 s) : KeepsNext s0 (execHeartbeatReceive p raw s) := by
  unfold execHeartbeatReceive
  repeat' (first
    | with_reducible assumption | with_reducible apply goOn_keeps | with_reducible apply receive_keeps
    | with_reducible apply takeHeartbeat_keeps)

theorem State.sendCensus_keeps {s0 s} (h_s : Keeps s0 s) : Keeps s0 (State.sendCensus s) := by
  unfold State.sendCensus
  repeat' (first
    | with_reducible assumption | with_reducible apply State.flood_keeps
    | (with_reducible refine Keeps.foldl ?_ ?_; on_goal 2 => intro _ _ _))

theorem State.joinCensus_keeps {s0 s number received} (h_s : Keeps s0 s) : Keeps s0 (State.joinCensus s number received) := by
  unfold State.joinCensus
  repeat' (first
    | with_reducible assumption
    | ((try lift_lets -underBinder); intro x; (have hx : Keeps s0 x := ?_); clear_value x; rotate_left; (clear_value (e : x = _); rw [e]; clear e))
    | ((try lift_lets -underBinder); intro x; try clear_value x) | with_reducible apply State.put_keeps
    | with_reducible apply State.sendCensus_keeps
    | (with_reducible refine Keeps.state (KeepsP.of ?_) ?_; on_goal 1 => with_reducible assumption)
    | (with_reducible apply KeepsM.of; with_reducible assumption))

theorem State.startCensus_keeps {s0 s} (h_s : Keeps s0 s) : Keeps s0 (State.startCensus s) := by
  unfold State.startCensus
  repeat' (first | with_reducible assumption | with_reducible apply State.joinCensus_keeps)

theorem takeCensus_keeps {s0 a0 f s} (h_s : Keeps s0 s) : Keeps s0 (takeCensus a0 f s) := by
  unfold takeCensus
  repeat' (first
    | with_reducible assumption | ((try lift_lets -underBinder); intro x; try clear_value x)
    | with_reducible apply State.joinCensus_keeps | with_reducible apply State.sendCensus_keeps
    | (with_reducible refine Keeps.state (KeepsP.of ?_) ?_; on_goal 1 => with_reducible assumption)
    | (with_reducible apply KeepsM.of; with_reducible assumption) | with_reducible apply Keeps.ite)

theorem execCensusReceive_keeps {s0 p raw s} (h_s : Keeps s0 s) : KeepsNext s0 (execCensusReceive p raw s) := by
  unfold execCensusReceive
  repeat' (first
    | with_reducible assumption | with_reducible apply goOn_keeps | with_reducible apply receive_keeps
    | with_reducible apply takeCensus_keeps)

theorem heartbeatLost_keeps {s0 s} (h_s : Keeps s0 s) : Keeps s0 (heartbeatLost s) := by
  unfold heartbeatLost
  repeat' (first
    | with_reducible assumption
    | ((try lift_lets -underBinder); intro x; (have hx : Keeps s0 x := ?_); clear_value x; rotate_left; (clear_value (e : x = _); rw [e]; clear e))
    | ((try lift_lets -underBinder); intro x; try clear_value x) | with_reducible apply State.startCensus_keeps
    | with_reducible apply State.raiseTick_keeps
    | (with_reducible refine Keeps.state (KeepsP.of ?_) ?_; on_goal 1 => with_reducible assumption)
    | (with_reducible apply KeepsM.of; with_reducible assumption) | with_reducible apply Keeps.ite)

theorem execHeartbeatLost_keeps {s0 s} (h_s : Keeps s0 s) : KeepsNext s0 (execHeartbeatLost s) := by
  unfold execHeartbeatLost
  repeat' (first | with_reducible assumption | with_reducible apply goOn_keeps | with_reducible apply heartbeatLost_keeps)

theorem State.sendOutcomes_keeps {s0 s} (h_s : Keeps s0 s) : Keeps s0 (State.sendOutcomes s) := by
  unfold State.sendOutcomes
  repeat' (first
    | with_reducible assumption
    | ((try lift_lets -underBinder); intro x; (have hx : Keeps s0 x := ?_); clear_value x; rotate_left; (clear_value (e : x = _); rw [e]; clear e))
    | ((try lift_lets -underBinder); intro x; try clear_value x) | with_reducible apply State.originate_keeps
    | (with_reducible refine Keeps.state (KeepsP.of ?_) ?_; on_goal 1 => with_reducible assumption)
    | (with_reducible apply KeepsM.of; with_reducible assumption)
    | (with_reducible refine Keeps.foldl ?_ ?_; on_goal 2 => intro _ _ _))

theorem State.fence_keeps {s0 s} (h_s : Keeps s0 s) : Keeps s0 (State.fence s) := by
  unfold State.fence
  repeat' (first
    | with_reducible assumption | with_reducible apply State.stopProgram_keeps | with_reducible apply State.raiseTick_keeps
    | with_reducible apply State.put_keeps)

theorem censusClose_keeps {s0 s} (h_s : Keeps s0 s) : Keeps s0 (censusClose s) := by
  unfold censusClose
  repeat' (first
    | with_reducible assumption
    | ((try lift_lets -underBinder); intro x; (have hx : Keeps s0 x := ?_); clear_value x; rotate_left; (clear_value (e : x = _); rw [e]; clear e))
    | ((try lift_lets -underBinder); intro x; try clear_value x) | with_reducible apply State.put_keeps
    | with_reducible apply State.sendOutcomes_keeps | with_reducible apply State.fence_keeps
    | (with_reducible refine Keeps.state (KeepsP.of ?_) ?_; on_goal 1 => with_reducible assumption)
    | (with_reducible apply KeepsM.of; with_reducible assumption) | with_reducible apply Keeps.ite)

theorem State.setTableBit_keeps {s0 s t n v} (h_s : Keeps s0 s) : Keeps s0 (State.setTableBit s t n v) := by
  unfold State.setTableBit
  repeat' (first
    | with_reducible assumption | ((try lift_lets -underBinder); intro x; try clear_value x)
    | with_reducible apply State.writeThrough_keeps)

theorem State.flipTable_keeps {s0 s t} (h_s : Keeps s0 s) : Keeps s0 (State.flipTable s t) := by
  unfold State.flipTable
  repeat' (first
    | with_reducible assumption | ((try lift_lets -underBinder); intro x; try clear_value x)
    | with_reducible apply State.setTableBit_keeps)

theorem State.slotsFlipped_keeps {s0 s tables} (h_s : Keeps s0 s) : Keeps s0 (State.slotsFlipped s tables) := by
  unfold State.slotsFlipped
  repeat' (first
    | with_reducible assumption | ((try lift_lets -underBinder); intro x; try clear_value x)
    | with_reducible apply State.setUctx_keeps
    | (with_reducible refine Keeps.state (KeepsP.of ?_) ?_; on_goal 1 => with_reducible assumption)
    | (with_reducible refine Keeps.foldl ?_ ?_; on_goal 2 => intro _ _ _) | with_reducible apply Keeps.ite)

theorem State.countWatch_keeps {s0 s} (h_s : Keeps s0 s) : Keeps s0 (State.countWatch s) := by
  unfold State.countWatch
  repeat' (first
    | with_reducible assumption
    | ((try lift_lets -underBinder); intro x; (have hx : Keeps s0 x := ?_); clear_value x; rotate_left; (clear_value (e : x = _); rw [e]; clear e))
    | with_reducible apply State.countIf_keeps | with_reducible apply State.put_keeps | with_reducible apply State.count_keeps
    | (with_reducible refine Keeps.foldl ?_ ?_; on_goal 2 => intro _ _ _) | with_reducible apply Keeps.ite)

theorem State.commitRecords_keeps {s0 s flip} (h_s : Keeps s0 s) : Keeps s0 (State.commitRecords s flip) :=
  ⟨h_s.queue, h_s.wf⟩

theorem State.countNotReady_keeps {s0 s} (h_s : Keeps s0 s) : Keeps s0 (State.countNotReady s) := by
  unfold State.countNotReady
  repeat' (first
    | with_reducible assumption
    | ((try lift_lets -underBinder); intro x; (have hx : Keeps s0 x.2 := ?_); clear_value x; rotate_left; (clear_value (e : x = _); rw [e]; clear e))
    | with_reducible apply State.countIf_keeps | with_reducible apply State.count_keeps | with_reducible apply State.draw_keeps
    | with_reducible apply Keeps.ite)

theorem State.openStitch_keeps {s0 s} (h_s : Keeps s0 s) : Keeps s0 (State.openStitch s) := by
  unfold State.openStitch
  repeat' (first
    | with_reducible assumption | with_reducible apply State.put_keeps
    | (with_reducible refine Keeps.state (KeepsP.of ?_) ?_; on_goal 1 => with_reducible assumption)
    | (with_reducible refine Keeps.state (KeepsP.of ?_) ?_) | (with_reducible apply KeepsM.of))

theorem State.stitchAfter_keeps {s0 s regrew} (h_s : Keeps s0 s) : Keeps s0 (State.stitchAfter s regrew) := by
  unfold State.stitchAfter
  repeat' (first
    | with_reducible assumption | with_reducible apply State.openStitch_keeps | with_reducible apply State.put_keeps
    | with_reducible apply Keeps.ite)

theorem State.flipStep_keeps {s0 s flip} (h_s : Keeps s0 s) : Keeps s0 (State.flipStep s flip) := by
  unfold State.flipStep
  repeat' (first
    | with_reducible assumption
    | ((try lift_lets -underBinder); intro x; (have hx : Keeps s0 x := ?_); clear_value x; rotate_left; (clear_value (e : x = _); rw [e]; clear e))
    | ((try lift_lets -underBinder); intro x; try clear_value x) | with_reducible apply State.put_keeps
    | with_reducible apply State.slotsFlipped_keeps | with_reducible apply State.flipTable_keeps
    | with_reducible apply State.count_keeps | with_reducible apply State.plicAll_keeps
    | with_reducible apply State.openStitch_keeps | with_reducible apply State.stitchAfter_keeps
    | with_reducible apply State.raise_keeps | with_reducible apply State.countNotReady_keeps
    | (with_reducible refine Keeps.state (KeepsP.of ?_) ?_; on_goal 1 => with_reducible assumption)
    | (with_reducible apply KeepsM.of; with_reducible assumption)
    | (with_reducible refine Keeps.foldl ?_ ?_; on_goal 2 => intro _ _ _) | with_reducible apply Keeps.ite)

theorem State.beginHolds_keeps {s0 s n} (h_s : Keeps s0 s) : Keeps s0 (State.beginHolds s n) := by
  unfold State.beginHolds
  repeat' (first
    | with_reducible assumption
    | ((try lift_lets -underBinder); intro x; (have hx : Keeps s0 x := ?_); clear_value x; rotate_left; (clear_value (e : x = _); rw [e]; clear e))
    | ((try lift_lets -underBinder); intro x; try clear_value x) | with_reducible apply State.put_keeps
    | (with_reducible refine Keeps.state (KeepsP.of ?_) ?_; on_goal 1 => with_reducible assumption)
    | (with_reducible apply KeepsM.of; with_reducible assumption) | with_reducible apply Keeps.ite)

theorem State.commitStep_keeps {s0 s flip} (h_s : Keeps s0 s) : Keeps s0 (State.commitStep s flip) := by
  unfold State.commitStep
  repeat' (first
    | with_reducible assumption
    | ((try lift_lets -underBinder); intro x; (have hx : Keeps s0 x := ?_); clear_value x; rotate_left; (clear_value (e : x = _); rw [e]; clear e))
    | ((try lift_lets -underBinder); intro x; (have hx : KeepsM s0 x := ?_); clear_value x; rotate_left; (clear_value (e : x = _); rw [e]; clear e))
    | ((try lift_lets -underBinder); intro x; try clear_value x) | with_reducible apply State.flipStep_keeps
    | with_reducible apply State.commitRecords_keeps | with_reducible apply State.countWatch_keeps
    | with_reducible apply State.beginHolds_keeps | with_reducible apply State.count_keeps | with_reducible apply State.put_keeps
    | with_reducible apply State.plicAll_keeps | with_reducible apply State.setCommit_keeps
    | (with_reducible refine Keeps.state (KeepsP.of ?_) ?_; on_goal 1 => with_reducible assumption)
    | (with_reducible apply KeepsM.of; with_reducible assumption) | (with_reducible apply KeepsM.memory)
    | (with_reducible refine KeepsH.of ?_; with_reducible assumption)
    | (with_reducible refine KeepsO.of ?_; with_reducible assumption))

theorem State.noteReady_keeps {s0 s m vote armed} (h_s : Keeps s0 s) : Keeps s0 (State.noteReady s m vote armed) :=
  ⟨h_s.queue, h_s.wf⟩

theorem readySend_keeps {s0 s} (h_s : Keeps s0 s) : Keeps s0 (readySend s) := by
  unfold readySend
  repeat' (first
    | with_reducible assumption
    | ((try lift_lets -underBinder); intro x; (have hx : Keeps s0 x := ?_); clear_value x; rotate_left; (clear_value (e : x = _); rw [e]; clear e))
    | with_reducible apply State.setCommit_keeps | with_reducible apply State.noteReady_keeps
    | with_reducible apply State.originate_keeps | with_reducible apply Keeps.ite)

theorem execReadySend_keeps {s0 s} (h_s : Keeps s0 s) : KeepsNext s0 (execReadySend s) := by
  unfold execReadySend
  repeat' (first | with_reducible assumption | with_reducible apply goOn_keeps | with_reducible apply readySend_keeps)

theorem takeReady_keeps {s0 a0 f s} (h_s : Keeps s0 s) : Keeps s0 (takeReady a0 f s) := by
  unfold takeReady
  repeat' (first | with_reducible assumption | with_reducible apply State.noteReady_keeps | with_reducible apply Keeps.ite)

theorem execReadyReceive_keeps {s0 p raw s} (h_s : Keeps s0 s) : KeepsNext s0 (execReadyReceive p raw s) := by
  unfold execReadyReceive
  repeat' (first
    | with_reducible assumption | with_reducible apply goOn_keeps | with_reducible apply receive_keeps
    | with_reducible apply takeReady_keeps)

theorem takeDeltaAck_keeps {s0 a0 f s} (h_s : Keeps s0 s) : Keeps s0 (takeDeltaAck a0 f s) := by
  unfold takeDeltaAck
  repeat' (first
    | with_reducible assumption | (with_reducible refine Keeps.state (KeepsP.of ?_) ?_; on_goal 1 => with_reducible assumption)
    | (with_reducible apply KeepsM.of; with_reducible assumption) | with_reducible apply Keeps.ite)

theorem execDeltaAckReceive_keeps {s0 p raw s} (h_s : Keeps s0 s) : KeepsNext s0 (execDeltaAckReceive p raw s) := by
  unfold execDeltaAckReceive
  repeat' (first
    | with_reducible assumption | with_reducible apply goOn_keeps | with_reducible apply receive_keeps
    | with_reducible apply takeDeltaAck_keeps)

theorem coordinatorDecision_keeps {s0 s} (h_s : Keeps s0 s) : Keeps s0 (coordinatorDecision s) := by
  unfold coordinatorDecision
  repeat' (first
    | with_reducible assumption
    | ((try lift_lets -underBinder); intro x; (have hx : Keeps s0 x := ?_); clear_value x; rotate_left; (clear_value (e : x = _); rw [e]; clear e))
    | ((try lift_lets -underBinder); intro x; try clear_value x) | with_reducible apply State.tell_keeps
    | with_reducible apply State.commitStep_keeps | with_reducible apply Keeps.ite)

theorem execCoordinatorDecision_keeps {s0 s} (h_s : Keeps s0 s) : KeepsNext s0 (execCoordinatorDecision s) := by
  unfold execCoordinatorDecision
  repeat' (first | with_reducible assumption | with_reducible apply goOn_keeps | with_reducible apply coordinatorDecision_keeps)

theorem takeCommit_keeps {s0 a0 f s} (h_s : Keeps s0 s) : Keeps s0 (takeCommit a0 f s) := by
  unfold takeCommit
  repeat' (first | with_reducible assumption | with_reducible apply State.commitStep_keeps | with_reducible apply Keeps.ite)

theorem execCommitReceive_keeps {s0 p raw s} (h_s : Keeps s0 s) : KeepsNext s0 (execCommitReceive p raw s) := by
  unfold execCommitReceive
  repeat' (first
    | with_reducible assumption | with_reducible apply goOn_keeps | with_reducible apply receive_keeps
    | with_reducible apply takeCommit_keeps)

theorem commitTimeout_keeps {s0 s} (h_s : Keeps s0 s) : Keeps s0 (commitTimeout s) := by
  unfold commitTimeout
  repeat' (first
    | with_reducible assumption
    | ((try lift_lets -underBinder); intro x; (have hx : Keeps s0 x := ?_); clear_value x; rotate_left; (clear_value (e : x = _); rw [e]; clear e))
    | with_reducible apply State.raiseTick_keeps | with_reducible apply State.count_keeps
    | with_reducible apply State.coordinatorAborts_keeps | with_reducible apply State.startCensus_keeps
    | (with_reducible refine Keeps.state (KeepsP.of ?_) ?_; on_goal 1 => with_reducible assumption)
    | with_reducible apply Keeps.ite | with_reducible refine Keeps.of_fst (by with_reducible assumption) ?_
    | with_reducible refine Keeps.of_snd (by with_reducible assumption) ?_
    | with_reducible refine KeepsS.elim (by with_reducible assumption) ?_
    | with_reducible refine KeepsT.elim (by with_reducible assumption) ?_ | split)

theorem execCommitTimeout_keeps {s0 s} (h_s : Keeps s0 s) : KeepsNext s0 (execCommitTimeout s) := by
  unfold execCommitTimeout
  repeat' (first | with_reducible assumption | with_reducible apply goOn_keeps | with_reducible apply commitTimeout_keeps)

theorem takeOutcome_keeps {s0 a0 f s} (h_s : Keeps s0 s) : Keeps s0 (takeOutcome a0 f s) := by
  unfold takeOutcome
  repeat' (first
    | with_reducible assumption | ((try lift_lets -underBinder); intro x; try clear_value x)
    | (with_reducible refine Keeps.state (KeepsP.of ?_) ?_; on_goal 1 => with_reducible assumption)
    | (with_reducible apply KeepsM.of; with_reducible assumption) | with_reducible apply Keeps.ite)

theorem execOutcomeReceive_keeps {s0 p raw s} (h_s : Keeps s0 s) : KeepsNext s0 (execOutcomeReceive p raw s) := by
  unfold execOutcomeReceive
  repeat' (first
    | with_reducible assumption | with_reducible apply goOn_keeps | with_reducible apply receive_keeps
    | with_reducible apply takeOutcome_keeps)

theorem State.commitUnasked_keeps {s0 s} (h_s : Keeps s0 s) : Keeps s0 (State.commitUnasked s) := by
  unfold State.commitUnasked
  repeat' (first
    | with_reducible assumption
    | ((try lift_lets -underBinder); intro x; (have hx : Keeps s0 x.2 := ?_); clear_value x; rotate_left; (clear_value (e : x = _); rw [e]; clear e))
    | with_reducible apply State.draw_keeps | with_reducible apply State.commitStep_keeps)

theorem outcomeDecision_keeps {s0 s} (h_s : Keeps s0 s) : Keeps s0 (outcomeDecision s) := by
  unfold outcomeDecision
  repeat' (first
    | with_reducible assumption
    | ((try lift_lets -underBinder); intro x; (have hx : Keeps s0 x := ?_); clear_value x; rotate_left; (clear_value (e : x = _); rw [e]; clear e))
    | ((try lift_lets -underBinder); intro x; try clear_value x) | with_reducible apply State.commitUnasked_keeps
    | with_reducible apply State.enterAborting_keeps | with_reducible apply State.setCommit_keeps
    | with_reducible apply State.raiseAt_keeps
    | (with_reducible refine Keeps.state (KeepsP.of ?_) ?_; on_goal 1 => with_reducible assumption)
    | (with_reducible apply KeepsM.of; with_reducible assumption) | with_reducible apply Keeps.ite
    | with_reducible refine Keeps.of_fst (by with_reducible assumption) ?_
    | with_reducible refine Keeps.of_snd (by with_reducible assumption) ?_
    | with_reducible refine KeepsS.elim (by with_reducible assumption) ?_
    | with_reducible refine KeepsT.elim (by with_reducible assumption) ?_ | split)

theorem execOutcomeDecision_keeps {s0 s} (h_s : Keeps s0 s) : KeepsNext s0 (execOutcomeDecision s) := by
  unfold execOutcomeDecision
  repeat' (first | with_reducible assumption | with_reducible apply goOn_keeps | with_reducible apply outcomeDecision_keeps)

theorem resolveStep_keeps {s0 v s} (h_s : Keeps s0 s) : Keeps s0 (resolveStep v s).1 := by
  unfold resolveStep
  repeat' (first
    | with_reducible assumption
    | ((try lift_lets -underBinder); intro x; (have hx : Keeps s0 x := ?_); clear_value x; rotate_left; (clear_value (e : x = _); rw [e]; clear e))
    | ((try lift_lets -underBinder); intro x; try clear_value x) | with_reducible apply State.commitUnasked_keeps
    | with_reducible apply State.enterAborting_keeps
    | (with_reducible refine Keeps.state (KeepsP.of ?_) ?_; on_goal 1 => with_reducible assumption)
    | (with_reducible apply KeepsM.of; with_reducible assumption) | with_reducible apply Keeps.ite
    | with_reducible apply Keeps.ite_fst)

theorem State.rewrite_keeps {s0 s a1 bytes} (h_s : Keeps s0 s) : Keeps s0 (State.rewrite s a1 bytes) := by
  unfold State.rewrite
  repeat' (first
    | with_reducible assumption | with_reducible apply State.writeThrough_keeps
    | (with_reducible refine Keeps.foldl ?_ ?_; on_goal 2 => intro _ _ _))

theorem State.applyUndo_keeps {s0 s u} (h_s : Keeps s0 s) : Keeps s0 (State.applyUndo s u) := by
  unfold State.applyUndo
  repeat' (first
    | with_reducible assumption | ((try lift_lets -underBinder); intro x; try clear_value x)
    | with_reducible apply State.rewrite_keeps
    | (with_reducible refine Keeps.state (KeepsP.of ?_) ?_; on_goal 1 => with_reducible assumption)
    | with_reducible refine Keeps.of_fst (by with_reducible assumption) ?_
    | with_reducible refine Keeps.of_snd (by with_reducible assumption) ?_
    | with_reducible refine KeepsS.elim (by with_reducible assumption) ?_
    | with_reducible refine KeepsT.elim (by with_reducible assumption) ?_ | split)

theorem State.disarm_keeps {s0 s} (h_s : Keeps s0 s) : Keeps s0 (State.disarm s) := by
  unfold State.disarm
  repeat' (first
    | with_reducible assumption
    | ((try lift_lets -underBinder); intro x; (have hx : Keeps s0 x := ?_); clear_value x; rotate_left; (clear_value (e : x = _); rw [e]; clear e))
    | ((try lift_lets -underBinder); intro x; try clear_value x) | with_reducible apply State.endWork_keeps
    | with_reducible apply State.settle_keeps
    | (with_reducible refine Keeps.state (KeepsP.of ?_) ?_; on_goal 1 => with_reducible assumption)
    | (with_reducible apply KeepsM.of; with_reducible assumption)
    | (with_reducible refine Keeps.foldl ?_ ?_; on_goal 2 => intro _ _ _))

theorem State.discardSealed_keeps {s0 s} (h_s : Keeps s0 s) : Keeps s0 (State.discardSealed s) :=
  ⟨h_s.queue, h_s.wf⟩

theorem revertStart_keeps {s0 s} (h_s : Keeps s0 s) : Keeps s0 (revertStart s) := by
  unfold revertStart
  repeat' (first
    | with_reducible assumption
    | ((try lift_lets -underBinder); intro x; (have hx : Keeps s0 x := ?_); clear_value x; rotate_left; (clear_value (e : x = _); rw [e]; clear e))
    | ((try lift_lets -underBinder); intro x; (have hx : KeepsM s0 x := ?_); clear_value x; rotate_left; (clear_value (e : x = _); rw [e]; clear e))
    | ((try lift_lets -underBinder); intro x; try clear_value x) | with_reducible apply State.discardSealed_keeps
    | with_reducible apply State.disarm_keeps | with_reducible apply State.applyUndo_keeps
    | (with_reducible refine Keeps.state (KeepsP.of ?_) ?_; on_goal 1 => with_reducible assumption)
    | (with_reducible apply KeepsM.of; with_reducible assumption) | (with_reducible apply KeepsM.memory)
    | (with_reducible refine KeepsH.of ?_; with_reducible assumption)
    | (with_reducible refine KeepsO.of ?_; with_reducible assumption) | with_reducible exact KeepsH.empty
    | with_reducible exact KeepsO.empty | (with_reducible refine Keeps.foldl ?_ ?_; on_goal 2 => intro _ _ _)
    | with_reducible apply Keeps.ite)

theorem execRevertStart_keeps {s0 s} (h_s : Keeps s0 s) : KeepsNext s0 (execRevertStart s) := by
  unfold execRevertStart
  repeat' (first | with_reducible assumption | with_reducible apply goOn_keeps | with_reducible apply revertStart_keeps)

theorem State.restartStep_keeps {s0 s} (h_s : Keeps s0 s) : Keeps s0 (State.restartStep s) := by
  unfold State.restartStep
  repeat' (first
    | with_reducible assumption | (with_reducible refine Keeps.state (KeepsP.of ?_) ?_; on_goal 1 => with_reducible assumption)
    | (with_reducible apply KeepsM.of; with_reducible assumption) | with_reducible apply Keeps.ite)

theorem State.tryRestart_keeps {s0 s} (h_s : Keeps s0 s) : Keeps s0 (State.tryRestart s) := by
  unfold State.tryRestart
  repeat' (first
    | with_reducible assumption
    | ((try lift_lets -underBinder); intro x; (have hx : Keeps s0 x := ?_); clear_value x; rotate_left; (clear_value (e : x = _); rw [e]; clear e))
    | ((try lift_lets -underBinder); intro x; try clear_value x) | with_reducible apply State.tell_keeps
    | with_reducible apply State.restartStep_keeps
    | (with_reducible refine Keeps.state (KeepsP.of ?_) ?_; on_goal 1 => with_reducible assumption)
    | (with_reducible apply KeepsM.of; with_reducible assumption) | with_reducible apply Keeps.ite)

theorem State.noteReverted_keeps {s0 s m} (h_s : Keeps s0 s) : Keeps s0 (State.noteReverted s m) := by
  unfold State.noteReverted
  repeat' (first
    | with_reducible assumption | with_reducible apply State.tryRestart_keeps
    | (with_reducible refine Keeps.state (KeepsP.of ?_) ?_; on_goal 1 => with_reducible assumption)
    | (with_reducible apply KeepsM.of; with_reducible assumption))

theorem State.sendReverted_keeps {s0 s} (h_s : Keeps s0 s) : Keeps s0 (State.sendReverted s) := by
  unfold State.sendReverted
  repeat' (first
    | with_reducible assumption
    | ((try lift_lets -underBinder); intro x; (have hx : Keeps s0 x := ?_); clear_value x; rotate_left; (clear_value (e : x = _); rw [e]; clear e))
    | with_reducible apply State.setCommit_keeps | with_reducible apply State.noteReverted_keeps
    | with_reducible apply State.originate_keeps | with_reducible apply Keeps.ite)

theorem revertDone_keeps {s0 s} (h_s : Keeps s0 s) : Keeps s0 (revertDone s) := by
  have h1 := State.put_keeps (index := 0x8021) (sub := 6) (v := s.commit.revertFrames % 2 ^ 32) h_s
  have h2 : ∀ c, Keeps s0 { s.put 0x8021 6 (s.commit.revertFrames % 2 ^ 32) with commit := c } :=
    fun _ => Keeps.state (KeepsP.of h1) (KeepsM.of h1)
  unfold revertDone
  split
  · exact Keeps.ite (State.sendReverted_keeps (h2 _)) (h2 _)
  · exact h_s

theorem execRevertDone_keeps {s0 s} (h_s : Keeps s0 s) : KeepsNext s0 (execRevertDone s) := by
  unfold execRevertDone
  repeat' (first | with_reducible assumption | with_reducible apply goOn_keeps | with_reducible apply revertDone_keeps)

theorem takeReverted_keeps {s0 a0 f s} (h_s : Keeps s0 s) : Keeps s0 (takeReverted a0 f s) := by
  unfold takeReverted
  repeat' (first | with_reducible assumption | with_reducible apply State.noteReverted_keeps | with_reducible apply Keeps.ite)

theorem execRevertedReceive_keeps {s0 p raw s} (h_s : Keeps s0 s) : KeepsNext s0 (execRevertedReceive p raw s) := by
  unfold execRevertedReceive
  repeat' (first
    | with_reducible assumption | with_reducible apply goOn_keeps | with_reducible apply receive_keeps
    | with_reducible apply takeReverted_keeps)

theorem takeRestart_keeps {s0 a0 f s} (h_s : Keeps s0 s) : Keeps s0 (takeRestart a0 f s) := by
  unfold takeRestart
  repeat' (first | with_reducible assumption | with_reducible apply State.restartStep_keeps | with_reducible apply Keeps.ite)

theorem execRestartReceive_keeps {s0 p raw s} (h_s : Keeps s0 s) : KeepsNext s0 (execRestartReceive p raw s) := by
  unfold execRestartReceive
  repeat' (first
    | with_reducible assumption | with_reducible apply goOn_keeps | with_reducible apply receive_keeps
    | with_reducible apply takeRestart_keeps)

theorem State.stateLost_keeps {s0 s} (h_s : Keeps s0 s) : Keeps s0 (State.stateLost s) := by
  unfold State.stateLost
  repeat' (first | with_reducible assumption | with_reducible apply State.raise_keeps)

theorem State.askFill_keeps {s0 s x} (h_s : Keeps s0 s) : Keeps s0 (State.askFill s x) := by
  unfold State.askFill
  repeat' (first
    | with_reducible assumption
    | ((try lift_lets -underBinder); intro x; (have hx : Keeps s0 x := ?_); clear_value x; rotate_left; (clear_value (e : x = _); rw [e]; clear e))
    | ((try lift_lets -underBinder); intro x; try clear_value x) | with_reducible apply State.originate_keeps
    | (with_reducible refine Keeps.state (KeepsP.of ?_) ?_; on_goal 1 => with_reducible assumption)
    | (with_reducible apply KeepsM.of; with_reducible assumption))

theorem State.zeroFill_keeps {s0 s a1 n} (h_s : Keeps s0 s) : Keeps s0 (State.zeroFill s a1 n) := by
  unfold State.zeroFill
  repeat' (first | with_reducible assumption | with_reducible apply State.writeThrough_keeps)

theorem State.fillGroup_keeps {s0 s d} (h_s : Keeps s0 s) : Keeps s0 (State.fillGroup s d) := by
  unfold State.fillGroup
  repeat' (first
    | with_reducible assumption
    | ((try lift_lets -underBinder); intro x; (have hx : Keeps s0 x := ?_); clear_value x; rotate_left; (clear_value (e : x = _); rw [e]; clear e))
    | ((try lift_lets -underBinder); intro x; try clear_value x) | with_reducible apply State.stateLost_keeps
    | with_reducible apply State.zeroFill_keeps | with_reducible apply State.askFill_keeps
    | (with_reducible refine Keeps.state (KeepsP.of ?_) ?_; on_goal 1 => with_reducible assumption)
    | (with_reducible refine Keeps.foldl ?_ ?_; on_goal 2 => intro _ _ _) | with_reducible apply Keeps.ite
    | with_reducible refine Keeps.of_fst (by with_reducible assumption) ?_
    | with_reducible refine Keeps.of_snd (by with_reducible assumption) ?_
    | with_reducible refine KeepsS.elim (by with_reducible assumption) ?_
    | with_reducible refine KeepsT.elim (by with_reducible assumption) ?_ | split)

theorem State.fillTensor_keeps {s0 s d} (h_s : Keeps s0 s) : Keeps s0 (State.fillTensor s d) := by
  unfold State.fillTensor
  repeat' (first
    | with_reducible assumption
    | ((try lift_lets -underBinder); intro x; (have hx : Keeps s0 x := ?_); clear_value x; rotate_left; (clear_value (e : x = _); rw [e]; clear e))
    | ((try lift_lets -underBinder); intro x; try clear_value x) | with_reducible apply State.fillGroup_keeps
    | with_reducible apply State.zeroFill_keeps | with_reducible apply State.askFill_keeps
    | with_reducible apply State.stateLost_keeps
    | (with_reducible refine Keeps.state (KeepsP.of ?_) ?_; on_goal 1 => with_reducible assumption)
    | with_reducible apply Keeps.ite | split)

theorem State.fillRecords_keeps {s0 s} (h_s : Keeps s0 s) : Keeps s0 (State.fillRecords s) := by
  unfold State.fillRecords
  repeat' (first
    | with_reducible assumption
    | ((try lift_lets -underBinder); intro x; (have hf2 : ∀ y z w, Keeps s0 y → Keeps s0 (x y z w) := ?_); clear_value x; rotate_left; (clear_value (e : x = _); rw [e]; clear e; intros; beta_reduce))
    | with_reducible apply hf0 | with_reducible apply hf1 | with_reducible apply hf2 | with_reducible apply hf3
    | with_reducible apply hf4 | with_reducible apply hf5 | with_reducible apply hf6 | with_reducible apply hf7
    | with_reducible apply hf8 | with_reducible apply hf9 | with_reducible apply State.originate_keeps
    | with_reducible apply State.stateLost_keeps | with_reducible apply State.ask_keeps
    | (with_reducible refine Keeps.state (KeepsP.of ?_) ?_; on_goal 1 => with_reducible assumption)
    | (with_reducible refine Keeps.foldl ?_ ?_; on_goal 2 => intro _ _ _)
    | with_reducible refine Keeps.of_fst (by with_reducible assumption) ?_
    | with_reducible refine Keeps.of_snd (by with_reducible assumption) ?_
    | with_reducible refine KeepsS.elim (by with_reducible assumption) ?_
    | with_reducible refine KeepsT.elim (by with_reducible assumption) ?_ | split)

theorem State.beginFill_keeps {s0 s} (h_s : Keeps s0 s) : Keeps s0 (State.beginFill s) := by
  unfold State.beginFill
  repeat' (first
    | with_reducible assumption
    | ((try lift_lets -underBinder); intro x; (have hx : Keeps s0 x := ?_); clear_value x; rotate_left; (clear_value (e : x = _); rw [e]; clear e))
    | ((try lift_lets -underBinder); intro x; try clear_value x) | with_reducible apply State.setCommit_keeps
    | with_reducible apply State.fillTensor_keeps | with_reducible apply State.fillRecords_keeps
    | (with_reducible refine Keeps.state (KeepsP.of ?_) ?_; on_goal 1 => with_reducible assumption)
    | (with_reducible apply KeepsM.of; with_reducible assumption)
    | (with_reducible refine Keeps.foldl ?_ ?_; on_goal 2 => intro _ _ _))

theorem State.restartFill_keeps {s0 s before} (h_s : Keeps s0 s) : Keeps s0 (State.restartFill s before) := by
  unfold State.restartFill
  repeat' (first
    | with_reducible assumption | with_reducible apply State.beginFill_keeps | with_reducible apply State.count_keeps
    | with_reducible apply Keeps.ite)

theorem execCensusClose_keeps {s0 s} (h_s : Keeps s0 s) : KeepsNext s0 (execCensusClose s) := by
  unfold execCensusClose
  repeat' (first
    | with_reducible assumption | with_reducible apply goOn_keeps | with_reducible apply State.restartFill_keeps
    | with_reducible apply censusClose_keeps)

theorem takeFillReq_keeps {s0 a0 f s} (h_s : Keeps s0 s) : Keeps s0 (takeFillReq a0 f s) := by
  unfold takeFillReq
  repeat' (first
    | with_reducible assumption | ((try lift_lets -underBinder); intro x; try clear_value x)
    | with_reducible apply State.askRead_keeps
    | (with_reducible refine Keeps.state (KeepsP.of ?_) ?_; on_goal 1 => with_reducible assumption)
    | (with_reducible refine Keeps.foldl ?_ ?_; on_goal 2 => intro _ _ _) | with_reducible apply Keeps.ite
    | with_reducible refine Keeps.of_fst (by with_reducible assumption) ?_
    | with_reducible refine Keeps.of_snd (by with_reducible assumption) ?_
    | with_reducible refine KeepsS.elim (by with_reducible assumption) ?_
    | with_reducible refine KeepsT.elim (by with_reducible assumption) ?_ | split)

theorem execFillReqReceive_keeps {s0 p raw s} (h_s : Keeps s0 s) : KeepsNext s0 (execFillReqReceive p raw s) := by
  unfold execFillReqReceive
  repeat' (first
    | with_reducible assumption | with_reducible apply goOn_keeps | with_reducible apply receive_keeps
    | with_reducible apply takeFillReq_keeps)

theorem State.fillProgress_keeps {s0 s} (h_s : Keeps s0 s) : Keeps s0 (State.fillProgress s) := by
  unfold State.fillProgress
  repeat' (first | with_reducible assumption | with_reducible apply State.put_keeps)

theorem takeFillData_keeps {s0 a0 f s} (h_s : Keeps s0 s) : Keeps s0 (takeFillData a0 f s) := by
  unfold takeFillData
  repeat' (first
    | with_reducible assumption
    | ((try lift_lets -underBinder); intro x; (have hx : Keeps s0 x := ?_); clear_value x; rotate_left; (clear_value (e : x = _); rw [e]; clear e))
    | ((try lift_lets -underBinder); intro x; (have hx : Keeps s0 x.1 := ?_); clear_value x; rotate_left; (clear_value (e : x = _); rw [e]; clear e))
    | ((try lift_lets -underBinder); intro x; try clear_value x) | with_reducible apply State.writeThrough_keeps
    | with_reducible apply State.readThrough_keeps | with_reducible apply State.fillProgress_keeps
    | (with_reducible refine Keeps.state (KeepsP.of ?_) ?_; on_goal 1 => with_reducible assumption)
    | (with_reducible apply KeepsM.of; with_reducible assumption) | with_reducible apply Keeps.ite
    | with_reducible apply Keeps.ite_fst | with_reducible refine Keeps.of_fst (by with_reducible assumption) ?_
    | with_reducible refine Keeps.of_snd (by with_reducible assumption) ?_
    | with_reducible refine KeepsS.elim (by with_reducible assumption) ?_
    | with_reducible refine KeepsT.elim (by with_reducible assumption) ?_ | split)

theorem execFillDataReceive_keeps {s0 p raw s} (h_s : Keeps s0 s) : KeepsNext s0 (execFillDataReceive p raw s) := by
  unfold execFillDataReceive
  repeat' (first
    | with_reducible assumption | with_reducible apply goOn_keeps | with_reducible apply receive_keeps
    | with_reducible apply takeFillData_keeps)

theorem takeLocketReq_keeps {s0 a0 f s} (h_s : Keeps s0 s) : Keeps s0 (takeLocketReq a0 f s) := by
  unfold takeLocketReq
  repeat' (first
    | with_reducible assumption | ((try lift_lets -underBinder); intro x; try clear_value x)
    | with_reducible apply State.sendRecord_keeps
    | (with_reducible refine Keeps.state (KeepsP.of ?_) ?_; on_goal 1 => with_reducible assumption)
    | with_reducible apply Keeps.ite | with_reducible apply Keeps.ite_fst
    | with_reducible refine Keeps.of_fst (by with_reducible assumption) ?_
    | with_reducible refine Keeps.of_snd (by with_reducible assumption) ?_
    | with_reducible refine KeepsS.elim (by with_reducible assumption) ?_
    | with_reducible refine KeepsT.elim (by with_reducible assumption) ?_ | split)

theorem execLocketReqReceive_keeps {s0 p raw s} (h_s : Keeps s0 s) : KeepsNext s0 (execLocketReqReceive p raw s) := by
  unfold execLocketReqReceive
  repeat' (first
    | with_reducible assumption | with_reducible apply goOn_keeps | with_reducible apply receive_keeps
    | with_reducible apply takeLocketReq_keeps)

theorem State.takeFilled_keeps {s0 s owner offset bytes} (h_s : Keeps s0 s) : Keeps s0 (State.takeFilled s owner offset bytes) := by
  unfold State.takeFilled
  split
  · extract_lets r l s1 s2
    have h1 : Keeps s0 s1 := State.setFilled_keeps (Keeps.state (KeepsP.of h_s) (KeepsM.of h_s))
    have h2 : Keeps s0 s2 := State.getSmall_keeps h1
    exact Keeps.ite (Keeps.ite h2 (State.hbmWrite_keeps h2)) h1
  · split
    · exact State.setFilled_keeps (State.setPredCommitted_keeps h_s)
    · exact h_s

theorem takeLocketData_keeps {s0 a0 f s} (h_s : Keeps s0 s) : Keeps s0 (takeLocketData a0 f s) := by
  unfold takeLocketData
  repeat' (first
    | with_reducible assumption | ((try lift_lets -underBinder); intro x; try clear_value x)
    | with_reducible apply State.takeFilled_keeps | with_reducible apply State.takeSealed_keeps
    | (with_reducible refine Keeps.state (KeepsP.of ?_) ?_; on_goal 1 => with_reducible assumption)
    | with_reducible apply Keeps.ite | with_reducible refine Keeps.of_fst (by with_reducible assumption) ?_
    | with_reducible refine Keeps.of_snd (by with_reducible assumption) ?_
    | with_reducible refine KeepsS.elim (by with_reducible assumption) ?_
    | with_reducible refine KeepsT.elim (by with_reducible assumption) ?_ | split)

theorem execLocketDataReceive_keeps {s0 p raw s} (h_s : Keeps s0 s) : KeepsNext s0 (execLocketDataReceive p raw s) := by
  unfold execLocketDataReceive
  repeat' (first
    | with_reducible assumption | with_reducible apply goOn_keeps | with_reducible apply receive_keeps
    | with_reducible apply takeLocketData_keeps)

theorem resumeFill_keeps {s0 v s} (h_s : Keeps s0 s) : Keeps s0 (resumeFill v s).1 := by
  unfold resumeFill
  repeat' (first
    | with_reducible assumption
    | ((try lift_lets -underBinder); intro x; (have hx : Keeps s0 x := ?_); clear_value x; rotate_left; (clear_value (e : x = _); rw [e]; clear e))
    | ((try lift_lets -underBinder); intro x; try clear_value x) | with_reducible apply State.skew_keeps
    | (with_reducible refine Keeps.state (KeepsP.of ?_) ?_; on_goal 1 => with_reducible assumption)
    | (with_reducible apply KeepsM.of; with_reducible assumption) | with_reducible apply Keeps.ite
    | with_reducible apply Keeps.ite_fst | with_reducible refine Keeps.of_fst (by with_reducible assumption) ?_
    | with_reducible refine Keeps.of_snd (by with_reducible assumption) ?_
    | with_reducible refine KeepsS.elim (by with_reducible assumption) ?_
    | with_reducible refine KeepsT.elim (by with_reducible assumption) ?_ | split)

theorem restoreOwn_keeps {s0 bytes s} (h_s : Keeps s0 s) : Keeps s0 (restoreOwn bytes s).1 := by
  unfold restoreOwn
  repeat' (first
    | with_reducible assumption | with_reducible apply Mem.writeN_keeps
    | (with_reducible refine Keeps.state (KeepsP.of ?_) ?_; on_goal 1 => with_reducible assumption)
    | (with_reducible apply KeepsM.of; with_reducible assumption) | with_reducible apply Keeps.ite
    | with_reducible apply Keeps.ite_fst)

theorem reEncodeParity_keeps {s0 v s} (h_s : Keeps s0 s) : Keeps s0 (reEncodeParity v s).1 := by
  unfold reEncodeParity
  repeat' (first
    | with_reducible assumption
    | ((try lift_lets -underBinder); intro x; (have hx : Keeps s0 x := ?_); clear_value x; rotate_left; (clear_value (e : x = _); rw [e]; clear e))
    | ((try lift_lets -underBinder); intro x; try clear_value x) | with_reducible apply State.zeroFill_keeps
    | with_reducible apply State.askFill_keeps
    | (with_reducible refine Keeps.state (KeepsP.of ?_) ?_; on_goal 1 => with_reducible assumption)
    | (with_reducible refine Keeps.foldl ?_ ?_; on_goal 2 => intro _ _ _) | with_reducible apply Keeps.ite
    | with_reducible apply Keeps.ite_fst | with_reducible refine Keeps.of_fst (by with_reducible assumption) ?_
    | with_reducible refine Keeps.of_snd (by with_reducible assumption) ?_
    | with_reducible refine KeepsS.elim (by with_reducible assumption) ?_
    | with_reducible refine KeepsT.elim (by with_reducible assumption) ?_ | split)

theorem State.newMembership_keeps {s0 s was before} (h_s : Keeps s0 s) : Keeps s0 (State.newMembership s was before) := by
  unfold State.newMembership
  repeat' (first
    | with_reducible assumption | with_reducible apply State.beginFill_keeps | with_reducible apply State.sendReverted_keeps
    | with_reducible apply State.restartFill_keeps | with_reducible apply State.tryRestart_keeps
    | (with_reducible refine Keeps.state (KeepsP.of ?_) ?_; on_goal 1 => with_reducible assumption)
    | (with_reducible apply KeepsM.of; with_reducible assumption) | with_reducible apply Keeps.ite)

theorem routingBankSwitch_keeps {s0 s} (h_s : Keeps s0 s) : Keeps s0 (routingBankSwitch s) := by
  unfold routingBankSwitch
  repeat' (first
    | with_reducible assumption
    | ((try lift_lets -underBinder); intro x; (have hx : Keeps s0 x := ?_); clear_value x; rotate_left; (clear_value (e : x = _); rw [e]; clear e))
    | ((try lift_lets -underBinder); intro x; try clear_value x) | with_reducible apply State.put_keeps
    | with_reducible apply State.newMembership_keeps | with_reducible apply State.raiseTick_keeps
    | (with_reducible refine Keeps.state (KeepsP.of ?_) ?_; on_goal 1 => with_reducible assumption)
    | (with_reducible apply KeepsM.of; with_reducible assumption) | with_reducible apply Keeps.ite
    | with_reducible refine Keeps.of_fst (by with_reducible assumption) ?_
    | with_reducible refine Keeps.of_snd (by with_reducible assumption) ?_
    | with_reducible refine KeepsS.elim (by with_reducible assumption) ?_
    | with_reducible refine KeepsT.elim (by with_reducible assumption) ?_ | split)

theorem execRoutingBankSwitch_keeps {s0 s} (h_s : Keeps s0 s) : KeepsNext s0 (execRoutingBankSwitch s) := by
  unfold execRoutingBankSwitch
  repeat' (first | with_reducible assumption | with_reducible apply goOn_keeps | with_reducible apply routingBankSwitch_keeps)

theorem State.setSlot_keeps {s0 s k x} (h_s : Keeps s0 s) : Keeps s0 (State.setSlot s k x) := by
  unfold State.setSlot
  repeat' (first
    | with_reducible assumption | (with_reducible refine Keeps.state (KeepsP.of ?_) ?_; on_goal 1 => with_reducible assumption)
    | (with_reducible apply KeepsM.of; with_reducible assumption) | with_reducible apply Keeps.ite)

theorem State.measure_keeps {s0 s type d} (h_s : Keeps s0 s) : Keeps s0 (State.measure s type d) :=
  ⟨h_s.queue, h_s.wf⟩

theorem State.measureSet_keeps {s0 s x} (h_s : Keeps s0 s) : Keeps s0 (State.measureSet s x) := by
  unfold State.measureSet
  repeat' (first
    | with_reducible assumption | with_reducible apply State.measure_keeps
    | (with_reducible refine Keeps.foldl ?_ ?_; on_goal 2 => intro _ _ _))

theorem State.sampleStraps_keeps {s0 s} (h_s : Keeps s0 s) : Keeps s0 (State.sampleStraps s) := by
  unfold State.sampleStraps
  repeat' (first | with_reducible assumption | with_reducible apply State.put_keeps)

theorem State.bootFrom_keeps {s0 s k} (h_s : Keeps s0 s) : Keeps s0 (State.bootFrom s k) := by
  unfold State.bootFrom
  repeat' (first
    | with_reducible assumption
    | ((try lift_lets -underBinder); intro x; (have hx : Keeps s0 x := ?_); clear_value x; rotate_left; (clear_value (e : x = _); rw [e]; clear e))
    | ((try lift_lets -underBinder); intro x; try clear_value x) | with_reducible apply State.measureSet_keeps
    | with_reducible apply State.put_keeps
    | (with_reducible refine Keeps.state (KeepsP.of ?_) ?_; on_goal 1 => with_reducible assumption)
    | (with_reducible apply KeepsM.of; with_reducible assumption)
    | with_reducible refine Keeps.of_fst (by with_reducible assumption) ?_
    | with_reducible refine Keeps.of_snd (by with_reducible assumption) ?_
    | with_reducible refine KeepsS.elim (by with_reducible assumption) ?_
    | with_reducible refine KeepsT.elim (by with_reducible assumption) ?_ | split)

theorem State.boot_keeps {s0 s} (h_s : Keeps s0 s) : Keeps s0 (State.boot s) := by
  unfold State.boot
  repeat' (first
    | with_reducible assumption
    | ((try lift_lets -underBinder); intro x; (have hx : Keeps s0 x := ?_); clear_value x; rotate_left; (clear_value (e : x = _); rw [e]; clear e))
    | ((try lift_lets -underBinder); intro x; try clear_value x) | with_reducible apply State.sampleStraps_keeps
    | with_reducible apply State.bootFrom_keeps | with_reducible apply State.count_keeps
    | (with_reducible refine Keeps.state (KeepsP.of ?_) ?_; on_goal 1 => with_reducible assumption)
    | (with_reducible apply KeepsM.of; with_reducible assumption) | with_reducible apply Keeps.ite)

end Sys2Proof.Machine
end

