-- ==== Sys2Proof/Laws/KeepsFaults.lean ====
section
/-! SUPPORT. One lemma per function: it keeps the queue and the canonical form of the memories. Here:
dumps, contexts, resets, the collector, the guilty run, the stitch and the fetch. -/

namespace Sys2Proof.Machine

theorem State.keepSnapshots_keeps {s0 s} (h_s : Keeps s0 s) : Keeps s0 (State.keepSnapshots s) :=
  ⟨h_s.queue, h_s.wf⟩

theorem State.dump_keeps {s0 s full trigger sources} (h_s : Keeps s0 s) : Keeps s0 (State.dump s full trigger sources) := by
  unfold State.dump
  repeat' (first
    | with_reducible assumption
    | ((try lift_lets -underBinder); intro x; (have hx : Keeps s0 x := ?_); clear_value x; rotate_left; (clear_value (e : x = _); rw [e]; clear e))
    | ((try lift_lets -underBinder); intro x; try clear_value x) | with_reducible apply State.count_keeps
    | (with_reducible refine Keeps.state (KeepsP.of ?_) ?_; on_goal 1 => with_reducible assumption)
    | (with_reducible apply KeepsM.of; with_reducible assumption) | with_reducible apply Keeps.ite)

theorem requestDump_keeps {s0 v s} (h_s : Keeps s0 s) : Keeps s0 (requestDump v s).1 := by
  unfold requestDump
  repeat' (first
    | with_reducible assumption | with_reducible apply State.dump_keeps | with_reducible apply Keeps.ite
    | with_reducible apply Keeps.ite_fst)

theorem harvestDump_keeps {s0 v s} (h_s : Keeps s0 s) : Keeps s0 (harvestDump v s).1 := by
  unfold harvestDump
  repeat' (first
    | with_reducible assumption | ((try lift_lets -underBinder); intro x; try clear_value x)
    | (with_reducible refine Keeps.state (KeepsP.of ?_) ?_; on_goal 1 => with_reducible assumption)
    | (with_reducible apply KeepsM.of; with_reducible assumption) | with_reducible apply Keeps.ite
    | with_reducible apply Keeps.ite_fst)

theorem State.setCtxState_keeps {s0 s c v} (h_s : Keeps s0 s) : Keeps s0 (State.setCtxState s c v) := by
  unfold State.setCtxState
  repeat' (first | with_reducible assumption | with_reducible apply State.put_keeps)

theorem State.switchCore_keeps {s0 s core} (h_s : Keeps s0 s) : Keeps s0 (State.switchCore s core) := by
  unfold State.switchCore
  repeat' (first
    | with_reducible assumption | ((try lift_lets -underBinder); intro x; try clear_value x)
    | with_reducible apply State.setCore_keeps)

theorem State.stopContext_keeps {s0 s c core state pc cause} (h_s : Keeps s0 s) : Keeps s0 (State.stopContext s c core state pc cause) := by
  unfold State.stopContext
  repeat' (first
    | with_reducible assumption
    | ((try lift_lets -underBinder); intro x; (have hx : Keeps s0 x := ?_); clear_value x; rotate_left; (clear_value (e : x = _); rw [e]; clear e))
    | with_reducible apply State.setCtxState_keeps | with_reducible apply State.switchCore_keeps
    | with_reducible apply State.raise_keeps | (with_reducible refine Keeps.foldl ?_ ?_; on_goal 2 => intro _ _ _)
    | with_reducible apply Keeps.ite)

theorem State.loadContext_keeps {s0 s c} (h_s : Keeps s0 s) : Keeps s0 (State.loadContext s c) := by
  unfold State.loadContext
  repeat' (first
    | with_reducible assumption
    | ((try lift_lets -underBinder); intro x; (have hx : Keeps s0 x := ?_); clear_value x; rotate_left; (clear_value (e : x = _); rw [e]; clear e))
    | ((try lift_lets -underBinder); intro x; (have hx : Keeps s0 x.2 := ?_); clear_value x; rotate_left; (clear_value (e : x = _); rw [e]; clear e))
    | ((try lift_lets -underBinder); intro x; try clear_value x) | with_reducible apply State.setUctx_keeps
    | with_reducible apply State.setCtxState_keeps | with_reducible apply State.draw_keeps
    | with_reducible apply State.stopContext_keeps
    | (with_reducible refine Keeps.state (KeepsP.of ?_) ?_; on_goal 1 => with_reducible assumption)
    | with_reducible apply Keeps.ite)

theorem State.startCores_keeps {s0 s l} (h_s : Keeps s0 s) : Keeps s0 (State.startCores s l) := by
  unfold State.startCores
  repeat' (first
    | with_reducible assumption | with_reducible apply State.setCore_keeps
    | (with_reducible refine Keeps.foldl ?_ ?_; on_goal 2 => intro _ _ _))

theorem State.startContexts_keeps {s0 s} (h_s : Keeps s0 s) : Keeps s0 (State.startContexts s) := by
  unfold State.startContexts
  repeat' (first
    | with_reducible assumption
    | ((try lift_lets -underBinder); intro x; (have hx : Keeps s0 x := ?_); clear_value x; rotate_left; (clear_value (e : x = _); rw [e]; clear e))
    | ((try lift_lets -underBinder); intro x; try clear_value x) | with_reducible apply State.setCtxState_keeps
    | with_reducible apply State.setUctx_keeps | with_reducible apply State.measure_keeps
    | with_reducible apply State.loadContext_keeps | with_reducible apply State.startCores_keeps
    | (with_reducible refine Keeps.foldl ?_ ?_; on_goal 2 => intro _ _ _) | with_reducible apply Keeps.ite)

theorem State.clearFrond_keeps {s0 s d} (h_s : Keeps s0 s) : Keeps s0 (State.clearFrond s d) := by
  unfold State.clearFrond
  repeat' (first
    | with_reducible assumption
    | ((try lift_lets -underBinder); intro x; (have hx : Keeps s0 x := ?_); clear_value x; rotate_left; (clear_value (e : x = _); rw [e]; clear e))
    | ((try lift_lets -underBinder); intro x; try clear_value x) | with_reducible apply State.onUnit_keeps
    | with_reducible apply State.setArray_keeps | with_reducible apply State.settle_keeps
    | with_reducible apply State.setSorus_keeps | with_reducible apply State.setFiligree_keeps
    | (with_reducible refine Keeps.foldl ?_ ?_; on_goal 2 => intro _ _ _))

theorem State.beginFrondReset_keeps {s0 s d code} (h_s : Keeps s0 s) : Keeps s0 (State.beginFrondReset s d code) := by
  unfold State.beginFrondReset
  repeat' (first
    | with_reducible assumption
    | ((try lift_lets -underBinder); intro x; (have hx : Keeps s0 x := ?_); clear_value x; rotate_left; (clear_value (e : x = _); rw [e]; clear e))
    | ((try lift_lets -underBinder); intro x; try clear_value x) | with_reducible apply State.clearFrond_keeps
    | with_reducible apply State.dump_keeps
    | (with_reducible refine Keeps.state (KeepsP.of ?_) ?_; on_goal 1 => with_reducible assumption)
    | (with_reducible apply KeepsM.of; with_reducible assumption) | with_reducible apply Keeps.ite)

theorem State.releaseFrond_keeps {s0 s d} (h_s : Keeps s0 s) : Keeps s0 (State.releaseFrond s d) := by
  unfold State.releaseFrond
  repeat' (first
    | with_reducible assumption | with_reducible apply State.onUnit_keeps
    | (with_reducible refine Keeps.state (KeepsP.of ?_) ?_; on_goal 1 => with_reducible assumption)
    | (with_reducible refine Keeps.foldl ?_ ?_; on_goal 2 => intro _ _ _))

theorem frondResetDone_keeps {s0 d passed s} (h_s : Keeps s0 s) : Keeps s0 (frondResetDone d passed s) := by
  unfold frondResetDone
  repeat' (first
    | with_reducible assumption
    | ((try lift_lets -underBinder); intro x; (have hx : Keeps s0 x := ?_); clear_value x; rotate_left; (clear_value (e : x = _); rw [e]; clear e))
    | ((try lift_lets -underBinder); intro x; try clear_value x) | with_reducible apply State.count_keeps
    | with_reducible apply State.put_keeps | with_reducible apply State.releaseFrond_keeps
    | with_reducible apply State.raise_keeps
    | (with_reducible refine Keeps.state (KeepsP.of ?_) ?_; on_goal 1 => with_reducible assumption)
    | (with_reducible apply KeepsM.of; with_reducible assumption) | with_reducible apply Keeps.ite)

theorem execFrondResetDone_keeps {s0 d passed s} (h_s : Keeps s0 s) : KeepsNext s0 (execFrondResetDone d passed s) := by
  unfold execFrondResetDone
  repeat' (first | with_reducible assumption | with_reducible apply goOn_keeps | with_reducible apply frondResetDone_keeps)

theorem requestFrondReset_keeps {s0 d s} (h_s : Keeps s0 s) : Keeps s0 (requestFrondReset d s).1 := by
  unfold requestFrondReset
  repeat' (first
    | with_reducible assumption | with_reducible apply State.beginFrondReset_keeps | with_reducible apply State.abortStep_keeps
    | with_reducible apply Keeps.ite | with_reducible apply Keeps.ite_fst)

theorem State.clearCluster_keeps {s0 s d} (h_s : Keeps s0 s) : Keeps s0 (State.clearCluster s d) := by
  unfold State.clearCluster
  repeat' (first
    | with_reducible assumption
    | ((try lift_lets -underBinder); intro x; (have hx : Keeps s0 x := ?_); clear_value x; rotate_left; (clear_value (e : x = _); rw [e]; clear e))
    | ((try lift_lets -underBinder); intro x; try clear_value x) | with_reducible apply State.plic_keeps
    | (with_reducible refine Keeps.state (KeepsP.of ?_) ?_; on_goal 1 => with_reducible assumption)
    | (with_reducible apply KeepsM.of; with_reducible assumption) | with_reducible apply Keeps.ite)

theorem State.beginClusterReset_keeps {s0 s d code} (h_s : Keeps s0 s) : Keeps s0 (State.beginClusterReset s d code) := by
  unfold State.beginClusterReset
  repeat' (first
    | with_reducible assumption
    | ((try lift_lets -underBinder); intro x; (have hx : Keeps s0 x := ?_); clear_value x; rotate_left; (clear_value (e : x = _); rw [e]; clear e))
    | ((try lift_lets -underBinder); intro x; try clear_value x) | with_reducible apply State.abortStep_keeps
    | with_reducible apply State.clearCluster_keeps | with_reducible apply State.dump_keeps
    | (with_reducible refine Keeps.state (KeepsP.of ?_) ?_; on_goal 1 => with_reducible assumption)
    | (with_reducible apply KeepsM.of; with_reducible assumption) | with_reducible apply Keeps.ite)

theorem State.restartContexts_keeps {s0 s d} (h_s : Keeps s0 s) : Keeps s0 (State.restartContexts s d) := by
  unfold State.restartContexts
  repeat' (first
    | with_reducible assumption | ((try lift_lets -underBinder); intro x; try clear_value x)
    | with_reducible apply State.startCores_keeps | with_reducible apply State.loadContext_keeps
    | (with_reducible refine Keeps.foldl ?_ ?_; on_goal 2 => intro _ _ _))

theorem State.beginModuleReset_keeps {s0 s code} (h_s : Keeps s0 s) : Keeps s0 (State.beginModuleReset s code) := by
  unfold State.beginModuleReset
  repeat' (first
    | with_reducible assumption | (with_reducible refine Keeps.state (KeepsP.of ?_) ?_; on_goal 1 => with_reducible assumption)
    | (with_reducible apply KeepsM.of; with_reducible assumption) | with_reducible apply Keeps.ite)

theorem clusterResetDone_keeps {s0 d matches_ s} (h_s : Keeps s0 s) : Keeps s0 (clusterResetDone d matches_ s) := by
  unfold clusterResetDone
  repeat' (first
    | with_reducible assumption
    | ((try lift_lets -underBinder); intro x; (have hx : Keeps s0 x := ?_); clear_value x; rotate_left; (clear_value (e : x = _); rw [e]; clear e))
    | ((try lift_lets -underBinder); intro x; try clear_value x) | with_reducible apply State.beginModuleReset_keeps
    | with_reducible apply State.abortStep_keeps | with_reducible apply State.count_keeps
    | with_reducible apply State.restartContexts_keeps
    | (with_reducible refine Keeps.state (KeepsP.of ?_) ?_; on_goal 1 => with_reducible assumption)
    | (with_reducible apply KeepsM.of; with_reducible assumption) | with_reducible apply Keeps.ite)

theorem execClusterResetDone_keeps {s0 d imageMatches s} (h_s : Keeps s0 s) : KeepsNext s0 (execClusterResetDone d imageMatches s) := by
  unfold execClusterResetDone
  repeat' (first | with_reducible assumption | with_reducible apply goOn_keeps | with_reducible apply clusterResetDone_keeps)

theorem requestClusterReset_keeps {s0 d s} (h_s : Keeps s0 s) : Keeps s0 (requestClusterReset d s).1 := by
  unfold requestClusterReset
  repeat' (first
    | with_reducible assumption | with_reducible apply State.beginClusterReset_keeps | with_reducible apply Keeps.ite
    | with_reducible apply Keeps.ite_fst)

theorem requestModuleReset_keeps {s0 v s} (h_s : Keeps s0 s) : Keeps s0 (requestModuleReset v s).1 := by
  unfold requestModuleReset
  repeat' (first
    | with_reducible assumption | with_reducible apply State.beginModuleReset_keeps | with_reducible apply State.abortStep_keeps
    | with_reducible apply Keeps.ite | with_reducible apply Keeps.ite_fst)

theorem Memory.kept_keeps {s0 m} (h_m : KeepsM s0 m) : KeepsM s0 (Memory.kept m) := by
  unfold Memory.kept
  repeat' (first
    | with_reducible assumption | (with_reducible apply KeepsM.memory)
    | (with_reducible refine KeepsH.of ?_; with_reducible assumption) | with_reducible exact KeepsH.empty
    | with_reducible exact KeepsO.empty)

theorem State.takeMaxima_keeps {s0 s} (h_s : Keeps s0 s) : Keeps s0 (State.takeMaxima s) := by
  unfold State.takeMaxima
  repeat' (first
    | with_reducible assumption | ((try lift_lets -underBinder); intro x; try clear_value x)
    | (with_reducible refine Keeps.state (KeepsP.of ?_) ?_; on_goal 1 => with_reducible assumption)
    | (with_reducible apply KeepsM.of; with_reducible assumption)
    | (with_reducible refine Keeps.foldl ?_ ?_; on_goal 2 => intro _ _ _))

theorem State.trainPorts_keeps {s0 s was} (h_s : Keeps s0 s) (h_was : Keeps s0 was) : Keeps s0 (State.trainPorts s was) := by
  unfold State.trainPorts
  repeat' (first
    | with_reducible assumption | with_reducible apply State.put_keeps
    | (with_reducible refine Keeps.foldl ?_ ?_; on_goal 2 => intro _ _ _) | with_reducible apply Keeps.ite)

theorem State.keepSensors_keeps {s0 s was} (h_s : Keeps s0 s) (h_was : Keeps s0 was) : Keeps s0 (State.keepSensors s was) := by
  unfold State.keepSensors
  repeat' (first
    | with_reducible assumption | ((try lift_lets -underBinder); intro x; try clear_value x)
    | (with_reducible refine Keeps.state (KeepsP.of ?_) ?_; on_goal 1 => with_reducible assumption)
    | (with_reducible apply KeepsM.of; with_reducible assumption)
    | (with_reducible refine Keeps.foldl ?_ ?_; on_goal 2 => intro _ _ _))

theorem State.cleared_keeps {s0 s} (h_s : Keeps s0 s) : Keeps s0 (State.cleared s) := by
  unfold State.cleared
  repeat' (first
    | with_reducible assumption | with_reducible apply Memory.kept_keeps | with_reducible apply State.stored_keeps
    | (with_reducible refine Keeps.state (KeepsP.of ?_) ?_; on_goal 1 => with_reducible assumption)
    | (with_reducible apply KeepsM.of; with_reducible assumption))

theorem State.takeSettings_keeps {s0 s} (h_s : Keeps s0 s) : Keeps s0 (State.takeSettings s) :=
  ⟨h_s.queue, h_s.wf⟩

theorem State.trainStacks_keeps {s0 s corrupt} (h_s : Keeps s0 s) : Keeps s0 (State.trainStacks s corrupt) := by
  unfold State.trainStacks
  repeat' (first
    | with_reducible assumption
    | ((try lift_lets -underBinder); intro x; (have hx : Keeps s0 x := ?_); clear_value x; rotate_left; (clear_value (e : x = _); rw [e]; clear e))
    | ((try lift_lets -underBinder); intro x; try clear_value x) | with_reducible apply State.raise_keeps
    | (with_reducible refine Keeps.state (KeepsP.of ?_) ?_; on_goal 1 => with_reducible assumption)
    | (with_reducible apply KeepsM.of; with_reducible assumption)
    | (with_reducible refine Keeps.foldl ?_ ?_; on_goal 2 => intro _ _ _) | split)

theorem moduleReset_keeps {s0 s} (h_s : Keeps s0 s) : Keeps s0 (moduleReset s) := by
  unfold moduleReset
  repeat' (first
    | with_reducible assumption
    | ((try lift_lets -underBinder); intro x; (have hx : Keeps s0 x := ?_); clear_value x; rotate_left; (clear_value (e : x = _); rw [e]; clear e))
    | ((try lift_lets -underBinder); intro x; (have hx : Keeps s0 x.2 := ?_); clear_value x; rotate_left; (clear_value (e : x = _); rw [e]; clear e))
    | with_reducible apply State.dump_keeps | with_reducible apply State.takeMaxima_keeps
    | with_reducible apply State.cleared_keeps | with_reducible apply State.takeSettings_keeps
    | with_reducible apply State.keepSensors_keeps | with_reducible apply State.trainPorts_keeps
    | with_reducible apply State.put_keeps | with_reducible apply State.draw_keeps | with_reducible apply State.trainStacks_keeps
    | with_reducible apply State.boot_keeps | with_reducible apply State.count_keeps
    | (with_reducible refine Keeps.state (KeepsP.of ?_) ?_; on_goal 1 => with_reducible assumption)
    | with_reducible apply Keeps.ite | with_reducible apply Keeps.ite_fst
    | with_reducible refine Keeps.of_fst (by with_reducible assumption) ?_
    | with_reducible refine Keeps.of_snd (by with_reducible assumption) ?_
    | with_reducible refine KeepsS.elim (by with_reducible assumption) ?_
    | with_reducible refine KeepsT.elim (by with_reducible assumption) ?_ | split)

theorem execModuleReset_keeps {s0 s} (h_s : Keeps s0 s) : KeepsNext s0 (execModuleReset s) := by
  unfold execModuleReset
  repeat' (first | with_reducible assumption | with_reducible apply goOn_keeps | with_reducible apply moduleReset_keeps)

theorem State.powerDown_keeps {s0 s} (h_s : Keeps s0 s) : Keeps s0 (State.powerDown s) := by
  unfold State.powerDown
  repeat' (first
    | with_reducible assumption | with_reducible apply State.stored_keeps | with_reducible apply Memory.kept_keeps
    | (with_reducible refine Keeps.state (KeepsP.of ?_) ?_; on_goal 1 => with_reducible assumption)
    | (with_reducible apply KeepsM.memory) | with_reducible exact KeepsH.empty | with_reducible exact KeepsO.empty)

theorem State.shutdownRecord_keeps {s0 s w} (h_s : Keeps s0 s) : Keeps s0 (State.shutdownRecord s w) :=
  ⟨h_s.queue, h_s.wf⟩

theorem powerUp_keeps {s0 s} (h_s : Keeps s0 s) : Keeps s0 (powerUp s) := by
  unfold powerUp
  repeat' (first
    | with_reducible assumption
    | ((try lift_lets -underBinder); intro x; (have hx : Keeps s0 x := ?_); clear_value x; rotate_left; (clear_value (e : x = _); rw [e]; clear e))
    | ((try lift_lets -underBinder); intro x; (have hx : Keeps s0 x.2 := ?_); clear_value x; rotate_left; (clear_value (e : x = _); rw [e]; clear e))
    | ((try lift_lets -underBinder); intro x; try clear_value x) | with_reducible apply State.takeMaxima_keeps
    | with_reducible apply State.cleared_keeps | with_reducible apply State.takeSettings_keeps
    | with_reducible apply State.draw_keeps | with_reducible apply State.trainStacks_keeps | with_reducible apply State.boot_keeps
    | with_reducible apply State.put_keeps
    | (with_reducible refine Keeps.state (KeepsP.of ?_) ?_; on_goal 1 => with_reducible assumption)
    | (with_reducible apply KeepsM.memory) | with_reducible exact KeepsH.empty | with_reducible exact KeepsO.empty
    | with_reducible apply Keeps.ite)

theorem execPowerUp_keeps {s0 s} (h_s : Keeps s0 s) : KeepsNext s0 (execPowerUp s) := by
  unfold execPowerUp
  repeat' (first | with_reducible assumption | with_reducible apply goOn_keeps | with_reducible apply powerUp_keeps)

theorem State.haltStep_keeps {s0 s code} (h_s : Keeps s0 s) : Keeps s0 (State.haltStep s code) := by
  unfold State.haltStep
  repeat' (first
    | with_reducible assumption
    | ((try lift_lets -underBinder); intro x; (have hx : Keeps s0 x := ?_); clear_value x; rotate_left; (clear_value (e : x = _); rw [e]; clear e))
    | with_reducible apply State.abortStep_keeps | with_reducible apply State.stopProgram_keeps
    | (with_reducible refine Keeps.state (KeepsP.of ?_) ?_; on_goal 1 => with_reducible assumption)
    | with_reducible refine Keeps.of_fst (by with_reducible assumption) ?_
    | with_reducible refine Keeps.of_snd (by with_reducible assumption) ?_
    | with_reducible refine KeepsS.elim (by with_reducible assumption) ?_
    | with_reducible refine KeepsT.elim (by with_reducible assumption) ?_ | split)

theorem State.turnOff_keeps {s0 s record} (h_s : Keeps s0 s) : Keeps s0 (State.turnOff s record) := by
  unfold State.turnOff
  repeat' (first
    | with_reducible assumption | with_reducible apply State.powerDown_keeps | with_reducible apply State.shutdownRecord_keeps)

theorem State.act_keeps {s0 s a1 r} (h_s : Keeps s0 s) : Keeps s0 (State.act s a1 r) := by
  unfold State.act
  repeat' (first
    | with_reducible assumption | with_reducible apply State.abortStep_keeps | with_reducible apply State.beginFrondReset_keeps
    | with_reducible apply State.beginClusterReset_keeps | with_reducible apply State.haltStep_keeps
    | with_reducible apply State.beginModuleReset_keeps | with_reducible apply State.turnOff_keeps
    | (with_reducible refine Keeps.state (KeepsP.of ?_) ?_; on_goal 1 => with_reducible assumption)
    | with_reducible apply Keeps.ite | split)

theorem State.logReport_keeps {s0 s r a2} (h_s : Keeps s0 s) : Keeps s0 (State.logReport s r a2) := by
  unfold State.logReport
  repeat' (first
    | with_reducible assumption
    | ((try lift_lets -underBinder); intro x; (have hx : Keeps s0 x := ?_); clear_value x; rotate_left; (clear_value (e : x = _); rw [e]; clear e))
    | ((try lift_lets -underBinder); intro x; try clear_value x) | with_reducible apply State.count_keeps
    | with_reducible apply State.put_keeps
    | (with_reducible refine Keeps.state (KeepsP.of ?_) ?_; on_goal 1 => with_reducible assumption)
    | (with_reducible apply KeepsM.of; with_reducible assumption) | with_reducible apply Keeps.ite)

theorem State.compete_keeps {s0 s r a2} (h_s : Keeps s0 s) : Keeps s0 (State.compete s r a2) := by
  unfold State.compete
  repeat' (first
    | with_reducible assumption | ((try lift_lets -underBinder); intro x; try clear_value x)
    | (with_reducible refine Keeps.state (KeepsP.of ?_) ?_; on_goal 1 => with_reducible assumption)
    | (with_reducible apply KeepsM.of; with_reducible assumption) | with_reducible apply Keeps.ite)

theorem faultReport_keeps {s0 r s} (h_s : Keeps s0 s) : Keeps s0 (faultReport r s) := by
  unfold faultReport
  repeat' (first
    | with_reducible assumption
    | ((try lift_lets -underBinder); intro x; (have hx : Keeps s0 x := ?_); clear_value x; rotate_left; (clear_value (e : x = _); rw [e]; clear e))
    | ((try lift_lets -underBinder); intro x; try clear_value x) | with_reducible apply State.count_keeps
    | with_reducible apply State.act_keeps | with_reducible apply State.compete_keeps | with_reducible apply State.logReport_keeps
    | (with_reducible refine Keeps.state (KeepsP.of ?_) ?_; on_goal 1 => with_reducible assumption)
    | (with_reducible apply KeepsM.of; with_reducible assumption) | with_reducible apply Keeps.ite)

theorem execFaultReport_keeps {s0 r s} (h_s : Keeps s0 s) : KeepsNext s0 (execFaultReport r s) := by
  unfold execFaultReport
  repeat' (first | with_reducible assumption | with_reducible apply goOn_keeps | with_reducible apply faultReport_keeps)

theorem firstFaultLatch_keeps {s0 s} (h_s : Keeps s0 s) : Keeps s0 (firstFaultLatch s) := by
  unfold firstFaultLatch
  repeat' (first
    | with_reducible assumption
    | ((try lift_lets -underBinder); intro x; (have hx : Keeps s0 x := ?_); clear_value x; rotate_left; (clear_value (e : x = _); rw [e]; clear e))
    | ((try lift_lets -underBinder); intro x; try clear_value x) | with_reducible apply State.plic_keeps
    | (with_reducible refine Keeps.state (KeepsP.of ?_) ?_; on_goal 1 => with_reducible assumption)
    | (with_reducible apply KeepsM.of; with_reducible assumption) | split)

theorem execFirstFaultLatch_keeps {s0 s} (h_s : Keeps s0 s) : KeepsNext s0 (execFirstFaultLatch s) := by
  unfold execFirstFaultLatch
  repeat' (first | with_reducible assumption | with_reducible apply goOn_keeps | with_reducible apply firstFaultLatch_keeps)

theorem clearFault_keeps {s0 v s} (h_s : Keeps s0 s) : Keeps s0 (clearFault v s).1 := by
  unfold clearFault
  repeat' (first
    | with_reducible assumption | (with_reducible refine Keeps.state (KeepsP.of ?_) ?_; on_goal 1 => with_reducible assumption)
    | (with_reducible apply KeepsM.of; with_reducible assumption) | with_reducible apply Keeps.ite
    | with_reducible apply Keeps.ite_fst)

theorem State.raiseFrondHang_keeps {s0 s u} (h_s : Keeps s0 s) : Keeps s0 (State.raiseFrondHang s u) := by
  unfold State.raiseFrondHang
  repeat' (first
    | with_reducible assumption
    | ((try lift_lets -underBinder); intro x; (have hx : Keeps s0 x := ?_); clear_value x; rotate_left; (clear_value (e : x = _); rw [e]; clear e))
    | ((try lift_lets -underBinder); intro x; try clear_value x) | with_reducible apply State.raiseTick_keeps
    | with_reducible apply State.put_keeps
    | (with_reducible refine Keeps.state (KeepsP.of ?_) ?_; on_goal 1 => with_reducible assumption)
    | (with_reducible apply KeepsM.of; with_reducible assumption))

theorem frondHang_keeps {s0 u s} (h_s : Keeps s0 s) : Keeps s0 (frondHang u s) := by
  unfold frondHang
  repeat' (first
    | with_reducible assumption | with_reducible apply State.raiseFrondHang_keeps | with_reducible apply State.onUnit_keeps
    | (with_reducible refine Keeps.state (KeepsP.of ?_) ?_; on_goal 1 => with_reducible assumption)
    | with_reducible apply Keeps.ite)

theorem execFrondHang_keeps {s0 u s} (h_s : Keeps s0 s) : KeepsNext s0 (execFrondHang u s) := by
  unfold execFrondHang
  repeat' (first | with_reducible assumption | with_reducible apply goOn_keeps | with_reducible apply frondHang_keeps)

theorem unitHang_keeps {s0 u s} (h_s : Keeps s0 s) : Keeps s0 (unitHang u s) := by
  unfold unitHang
  repeat' (first
    | with_reducible assumption | with_reducible apply State.raiseTick_keeps | with_reducible apply State.onUnit_keeps
    | (with_reducible refine Keeps.state (KeepsP.of ?_) ?_; on_goal 1 => with_reducible assumption)
    | with_reducible apply Keeps.ite)

theorem execUnitHang_keeps {s0 u s} (h_s : Keeps s0 s) : KeepsNext s0 (execUnitHang u s) := by
  unfold execUnitHang
  repeat' (first | with_reducible assumption | with_reducible apply goOn_keeps | with_reducible apply unitHang_keeps)

theorem thallusHang_keeps {s0 c pc cause s} (h_s : Keeps s0 s) : Keeps s0 (thallusHang c pc cause s) := by
  unfold thallusHang
  repeat' (first
    | with_reducible assumption
    | ((try lift_lets -underBinder); intro x; (have hx : Keeps s0 x := ?_); clear_value x; rotate_left; (clear_value (e : x = _); rw [e]; clear e))
    | ((try lift_lets -underBinder); intro x; try clear_value x) | with_reducible apply State.setCore_keeps
    | with_reducible apply State.raiseTick_keeps)

theorem execThallusHang_keeps {s0 c pc cause s} (h_s : Keeps s0 s) : KeepsNext s0 (execThallusHang c pc cause s) := by
  unfold execThallusHang
  repeat' (first | with_reducible assumption | with_reducible apply goOn_keeps | with_reducible apply thallusHang_keeps)

theorem bridgeFail_keeps {s0 east eastward units address s} (h_s : Keeps s0 s) : Keeps s0 (bridgeFail east eastward units address s) := by
  unfold bridgeFail
  repeat' (first
    | with_reducible assumption
    | ((try lift_lets -underBinder); intro x; (have hx : Keeps s0 x := ?_); clear_value x; rotate_left; (clear_value (e : x = _); rw [e]; clear e))
    | ((try lift_lets -underBinder); intro x; try clear_value x) | with_reducible apply State.setLane_keeps
    | with_reducible apply State.poisonOp_keeps | with_reducible apply State.poisonHbm_keeps
    | with_reducible apply State.raiseBridge_keeps
    | (with_reducible refine Keeps.state (KeepsP.of ?_) ?_; on_goal 1 => with_reducible assumption)
    | with_reducible apply Keeps.ite | with_reducible refine Keeps.of_fst (by with_reducible assumption) ?_
    | with_reducible refine Keeps.of_snd (by with_reducible assumption) ?_
    | with_reducible refine KeepsS.elim (by with_reducible assumption) ?_
    | with_reducible refine KeepsT.elim (by with_reducible assumption) ?_ | split)

theorem execBridgeFail_keeps {s0 east eastward units address s} (h_s : Keeps s0 s) : KeepsNext s0 (execBridgeFail east eastward units address s) := by
  unfold execBridgeFail
  repeat' (first | with_reducible assumption | with_reducible apply goOn_keeps | with_reducible apply bridgeFail_keeps)

theorem requestInjection_keeps {s0 request s} (h_s : Keeps s0 s) : Keeps s0 (requestInjection request s).1 := by
  unfold requestInjection
  repeat' (first
    | with_reducible assumption | ((try lift_lets -underBinder); intro x; try clear_value x)
    | with_reducible apply State.put_keeps
    | (with_reducible refine Keeps.state (KeepsP.of ?_) ?_; on_goal 1 => with_reducible assumption)
    | (with_reducible apply KeepsM.of; with_reducible assumption) | with_reducible apply Keeps.ite
    | with_reducible apply Keeps.ite_fst)

theorem State.inject_keeps {s0 s code src kind} (h_s : Keeps s0 s) : Keeps s0 (State.inject s code src kind) := by
  unfold State.inject
  repeat' (first
    | with_reducible assumption | with_reducible apply State.raise_keeps | with_reducible apply State.onUnit_keeps
    | (with_reducible refine Keeps.state (KeepsP.of ?_) ?_; on_goal 1 => with_reducible assumption)
    | (with_reducible apply KeepsM.of; with_reducible assumption) | with_reducible apply Keeps.ite | split)

theorem injectionFire_keeps {s0 s} (h_s : Keeps s0 s) : Keeps s0 (injectionFire s) := by
  unfold injectionFire
  repeat' (first
    | with_reducible assumption
    | ((try lift_lets -underBinder); intro x; (have hx : Keeps s0 x := ?_); clear_value x; rotate_left; (clear_value (e : x = _); rw [e]; clear e))
    | ((try lift_lets -underBinder); intro x; try clear_value x) | with_reducible apply State.inject_keeps
    | with_reducible apply State.put_keeps
    | (with_reducible refine Keeps.state (KeepsP.of ?_) ?_; on_goal 1 => with_reducible assumption)
    | (with_reducible apply KeepsM.of; with_reducible assumption) | with_reducible apply Keeps.ite
    | with_reducible refine Keeps.of_fst (by with_reducible assumption) ?_
    | with_reducible refine Keeps.of_snd (by with_reducible assumption) ?_
    | with_reducible refine KeepsS.elim (by with_reducible assumption) ?_
    | with_reducible refine KeepsT.elim (by with_reducible assumption) ?_ | split)

theorem execInjectionFire_keeps {s0 s} (h_s : Keeps s0 s) : KeepsNext s0 (execInjectionFire s) := by
  unfold execInjectionFire
  repeat' (first | with_reducible assumption | with_reducible apply goOn_keeps | with_reducible apply injectionFire_keeps)

theorem State.clearForReplay_keeps {s0 s d} (h_s : Keeps s0 s) : Keeps s0 (State.clearForReplay s d) := by
  unfold State.clearForReplay
  repeat' (first
    | with_reducible assumption | with_reducible apply State.releaseFrond_keeps | with_reducible apply State.clearFrond_keeps)

theorem State.nextSuspect_keeps {s0 s r} (h_s : Keeps s0 s) : Keeps s0 (State.nextSuspect s r) := by
  unfold State.nextSuspect
  repeat' (first
    | with_reducible assumption | with_reducible apply State.clearForReplay_keeps
    | (with_reducible refine Keeps.state (KeepsP.of ?_) ?_; on_goal 1 => with_reducible assumption)
    | (with_reducible apply KeepsM.of; with_reducible assumption) | with_reducible apply Keeps.ite
    | (with_reducible refine Keeps.state (KeepsP.of ?_) ?_) | (with_reducible apply KeepsM.of))

theorem State.openReplay_keeps {s0 s} (h_s : Keeps s0 s) : Keeps s0 (State.openReplay s) := by
  unfold State.openReplay
  repeat' (first
    | with_reducible assumption | with_reducible apply State.nextSuspect_keeps
    | (with_reducible refine Keeps.state (KeepsP.of ?_) ?_; on_goal 1 => with_reducible assumption)
    | with_reducible apply Keeps.ite | with_reducible refine Keeps.of_fst (by with_reducible assumption) ?_
    | with_reducible refine Keeps.of_snd (by with_reducible assumption) ?_
    | with_reducible refine KeepsS.elim (by with_reducible assumption) ?_
    | with_reducible refine KeepsT.elim (by with_reducible assumption) ?_ | split)

theorem replayFrame_keeps {s0 s} (h_s : Keeps s0 s) : Keeps s0 (replayFrame s) := by
  unfold replayFrame
  repeat' (first
    | with_reducible assumption | (with_reducible refine Keeps.state (KeepsP.of ?_) ?_; on_goal 1 => with_reducible assumption)
    | (with_reducible apply KeepsM.of; with_reducible assumption)
    | with_reducible refine Keeps.of_fst (by with_reducible assumption) ?_
    | with_reducible refine Keeps.of_snd (by with_reducible assumption) ?_
    | with_reducible refine KeepsS.elim (by with_reducible assumption) ?_
    | with_reducible refine KeepsT.elim (by with_reducible assumption) ?_ | split)

theorem execReplayFrame_keeps {s0 s} (h_s : Keeps s0 s) : KeepsNext s0 (execReplayFrame s) := by
  unfold execReplayFrame
  repeat' (first | with_reducible assumption | with_reducible apply goOn_keeps | with_reducible apply replayFrame_keeps)

theorem replayPass_keeps {s0 s} (h_s : Keeps s0 s) : Keeps s0 (replayPass s) := by
  unfold replayPass
  repeat' (first
    | with_reducible assumption | with_reducible apply State.nextSuspect_keeps
    | (with_reducible refine Keeps.state (KeepsP.of ?_) ?_; on_goal 1 => with_reducible assumption)
    | with_reducible apply Keeps.ite | with_reducible refine Keeps.of_fst (by with_reducible assumption) ?_
    | with_reducible refine Keeps.of_snd (by with_reducible assumption) ?_
    | with_reducible refine KeepsS.elim (by with_reducible assumption) ?_
    | with_reducible refine KeepsT.elim (by with_reducible assumption) ?_ | split)

theorem execReplayPass_keeps {s0 s} (h_s : Keeps s0 s) : KeepsNext s0 (execReplayPass s) := by
  unfold execReplayPass
  repeat' (first | with_reducible assumption | with_reducible apply goOn_keeps | with_reducible apply replayPass_keeps)

theorem guiltyContext_keeps {s0 s} (h_s : Keeps s0 s) : Keeps s0 (guiltyContext s) := by
  unfold guiltyContext
  repeat' (first
    | with_reducible assumption
    | ((try lift_lets -underBinder); intro x; (have hx : Keeps s0 x := ?_); clear_value x; rotate_left; (clear_value (e : x = _); rw [e]; clear e))
    | ((try lift_lets -underBinder); intro x; try clear_value x) | with_reducible apply State.raiseTick_keeps
    | with_reducible apply State.put_keeps | with_reducible apply State.stopProgram_keeps
    | with_reducible apply State.beginFrondReset_keeps
    | (with_reducible refine Keeps.state (KeepsP.of ?_) ?_; on_goal 1 => with_reducible assumption)
    | (with_reducible apply KeepsM.of; with_reducible assumption) | with_reducible apply Keeps.ite
    | with_reducible refine Keeps.of_fst (by with_reducible assumption) ?_
    | with_reducible refine Keeps.of_snd (by with_reducible assumption) ?_
    | with_reducible refine KeepsS.elim (by with_reducible assumption) ?_
    | with_reducible refine KeepsT.elim (by with_reducible assumption) ?_ | split)

theorem execGuiltyContext_keeps {s0 s} (h_s : Keeps s0 s) : KeepsNext s0 (execGuiltyContext s) := by
  unfold execGuiltyContext
  repeat' (first | with_reducible assumption | with_reducible apply goOn_keeps | with_reducible apply guiltyContext_keeps)

theorem State.tickReplay_keeps {s0 s} (h_s : Keeps s0 s) : Keeps s0 (State.tickReplay s) := by
  unfold State.tickReplay
  repeat' (first
    | with_reducible assumption | (with_reducible refine Keeps.state (KeepsP.of ?_) ?_; on_goal 1 => with_reducible assumption)
    | (with_reducible apply KeepsM.of; with_reducible assumption) | with_reducible apply Keeps.ite
    | with_reducible refine Keeps.of_fst (by with_reducible assumption) ?_
    | with_reducible refine Keeps.of_snd (by with_reducible assumption) ?_
    | with_reducible refine KeepsS.elim (by with_reducible assumption) ?_
    | with_reducible refine KeepsT.elim (by with_reducible assumption) ?_ | split)

theorem State.setTableBytes_keeps {s0 s t off bytes} (h_s : Keeps s0 s) : Keeps s0 (State.setTableBytes s t off bytes) := by
  unfold State.setTableBytes
  repeat' (first
    | with_reducible assumption | ((try lift_lets -underBinder); intro x; try clear_value x)
    | with_reducible apply State.writeThrough_keeps)

theorem State.publish_keeps {s0 s t count span} (h_s : Keeps s0 s) : Keeps s0 (State.publish s t count span) := by
  unfold State.publish
  repeat' (first
    | with_reducible assumption
    | ((try lift_lets -underBinder); intro x; (have hx : Keeps s0 x := ?_); clear_value x; rotate_left; (clear_value (e : x = _); rw [e]; clear e))
    | ((try lift_lets -underBinder); intro x; try clear_value x) | with_reducible apply State.setTableBytes_keeps
    | with_reducible apply State.setTableBit_keeps | with_reducible apply State.count_keeps
    | (with_reducible refine Keeps.state (KeepsP.of ?_) ?_; on_goal 1 => with_reducible assumption)
    | (with_reducible apply KeepsM.of; with_reducible assumption))

theorem State.unpublish_keeps {s0 s t} (h_s : Keeps s0 s) : Keeps s0 (State.unpublish s t) := by
  unfold State.unpublish
  repeat' (first | with_reducible assumption | with_reducible apply State.setTableBit_keeps)

theorem State.slotsBack_keeps {s0 s tables} (h_s : Keeps s0 s) : Keeps s0 (State.slotsBack s tables) := by
  unfold State.slotsBack
  repeat' (first
    | with_reducible assumption | ((try lift_lets -underBinder); intro x; try clear_value x)
    | with_reducible apply State.setUctx_keeps
    | (with_reducible refine Keeps.state (KeepsP.of ?_) ?_; on_goal 1 => with_reducible assumption)
    | (with_reducible refine Keeps.foldl ?_ ?_; on_goal 2 => intro _ _ _))

theorem State.restartStitch_keeps {s0 s} (h_s : Keeps s0 s) : Keeps s0 (State.restartStitch s) := by
  unfold State.restartStitch
  repeat' (first
    | with_reducible assumption
    | ((try lift_lets -underBinder); intro x; (have hx : Keeps s0 x := ?_); clear_value x; rotate_left; (clear_value (e : x = _); rw [e]; clear e))
    | ((try lift_lets -underBinder); intro x; try clear_value x) | with_reducible apply State.slotsBack_keeps
    | with_reducible apply State.unpublish_keeps | with_reducible apply State.put_keeps
    | (with_reducible refine Keeps.state (KeepsP.of ?_) ?_; on_goal 1 => with_reducible assumption)
    | (with_reducible apply KeepsM.of; with_reducible assumption)
    | (with_reducible refine Keeps.foldl ?_ ?_; on_goal 2 => intro _ _ _) | with_reducible apply Keeps.ite)

theorem State.freshMeta_keeps {s0 s pat} (h_s : Keeps s0 s) : Keeps s0 (State.freshMeta s pat).1 := by
  unfold State.freshMeta
  repeat' (first
    | with_reducible assumption | ((try lift_lets -underBinder); intro x; try clear_value x) | with_reducible apply hf0
    | with_reducible apply hf1 | with_reducible apply hf2 | with_reducible apply hf3 | with_reducible apply hf4
    | with_reducible apply hf5 | with_reducible apply hf6 | with_reducible apply hf7 | with_reducible apply hf8
    | with_reducible apply hf9 | (with_reducible refine Keeps.state (KeepsP.of ?_) ?_; on_goal 1 => with_reducible assumption)
    | (with_reducible apply KeepsM.of; with_reducible assumption) | with_reducible apply Keeps.ite
    | with_reducible apply Keeps.ite_fst)

theorem State.stitchWrites_keeps {s0 s job blocks fresh} (h_s : Keeps s0 s) : Keeps s0 (State.stitchWrites s job blocks fresh) := by
  unfold State.stitchWrites
  repeat' (first
    | with_reducible assumption
    | ((try lift_lets -underBinder); intro x; (have hx : Keeps s0 x := ?_); clear_value x; rotate_left; (clear_value (e : x = _); rw [e]; clear e))
    | ((try lift_lets -underBinder); intro x; (have hx : Keeps s0 x.1 := ?_); clear_value x; rotate_left; (clear_value (e : x = _); rw [e]; clear e))
    | ((try lift_lets -underBinder); intro x; try clear_value x) | with_reducible apply State.freshMeta_keeps
    | with_reducible apply State.writeThrough_keeps | (with_reducible refine Keeps.foldl ?_ ?_; on_goal 2 => intro _ _ _))

theorem State.stitchTensor_keeps {s0 s job} (h_s : Keeps s0 s) : Keeps s0 (State.stitchTensor s job) := by
  unfold State.stitchTensor
  repeat' (first
    | with_reducible assumption
    | ((try lift_lets -underBinder); intro x; (have hx : Keeps s0 x := ?_); clear_value x; rotate_left; (clear_value (e : x = _); rw [e]; clear e))
    | ((try lift_lets -underBinder); intro x; try clear_value x) | with_reducible apply State.writeThrough_keeps
    | with_reducible apply State.stitchWrites_keeps | with_reducible apply State.count_keeps
    | with_reducible apply State.publish_keeps | (with_reducible refine Keeps.foldl ?_ ?_; on_goal 2 => intro _ _ _)
    | with_reducible apply Keeps.ite)

theorem stitchComplete_keeps {s0 jobs s} (h_s : Keeps s0 s) : Keeps s0 (stitchComplete jobs s) := by
  unfold stitchComplete
  repeat' (first
    | with_reducible assumption | with_reducible apply State.put_keeps | with_reducible apply State.stitchTensor_keeps
    | (with_reducible refine Keeps.foldl ?_ ?_; on_goal 2 => intro _ _ _))

theorem execStitchComplete_keeps {s0 jobs s} (h_s : Keeps s0 s) : KeepsNext s0 (execStitchComplete jobs s) := by
  unfold execStitchComplete
  repeat' (first | with_reducible assumption | with_reducible apply goOn_keeps | with_reducible apply stitchComplete_keeps)

theorem stitchLate_keeps {s0 s} (h_s : Keeps s0 s) : Keeps s0 (stitchLate s) := by
  unfold stitchLate
  repeat' (first
    | with_reducible assumption
    | ((try lift_lets -underBinder); intro x; (have hx : Keeps s0 x := ?_); clear_value x; rotate_left; (clear_value (e : x = _); rw [e]; clear e))
    | ((try lift_lets -underBinder); intro x; try clear_value x) | with_reducible apply State.raiseTick_keeps
    | with_reducible apply State.count_keeps
    | (with_reducible refine Keeps.state (KeepsP.of ?_) ?_; on_goal 1 => with_reducible assumption)
    | (with_reducible apply KeepsM.of; with_reducible assumption) | with_reducible apply Keeps.ite)

theorem execStitchLate_keeps {s0 s} (h_s : Keeps s0 s) : KeepsNext s0 (execStitchLate s) := by
  unfold execStitchLate
  repeat' (first | with_reducible assumption | with_reducible apply goOn_keeps | with_reducible apply stitchLate_keeps)

theorem streamFetch_keeps {s0 s} (h_s : Keeps s0 s) : Keeps s0 (streamFetch s) := by
  unfold streamFetch
  repeat' (first
    | with_reducible assumption
    | ((try lift_lets -underBinder); intro x; (have hx : Keeps s0 x := ?_); clear_value x; rotate_left; (clear_value (e : x = _); rw [e]; clear e))
    | ((try lift_lets -underBinder); intro x; try clear_value x) | with_reducible apply State.readBlock_keeps
    | with_reducible apply State.raise_keeps
    | (with_reducible refine Keeps.state (KeepsP.of ?_) ?_; on_goal 1 => with_reducible assumption)
    | (with_reducible apply KeepsM.of; with_reducible assumption)
    | (with_reducible refine Keeps.foldl ?_ ?_; on_goal 2 => intro _ _ _) | with_reducible apply Keeps.ite
    | with_reducible apply Keeps.ite_fst | with_reducible refine Keeps.of_fst (by with_reducible assumption) ?_
    | with_reducible refine Keeps.of_snd (by with_reducible assumption) ?_
    | with_reducible refine KeepsS.elim (by with_reducible assumption) ?_
    | with_reducible refine KeepsT.elim (by with_reducible assumption) ?_ | split)

theorem execStreamFetch_keeps {s0 s} (h_s : Keeps s0 s) : KeepsNext s0 (execStreamFetch s) := by
  unfold execStreamFetch
  repeat' (first | with_reducible assumption | with_reducible apply goOn_keeps | with_reducible apply streamFetch_keeps)

end Sys2Proof.Machine
end

