-- ==== Sys2Proof/Laws/KeepsPower.lean ====
section
/-! SUPPORT. One lemma per function: it keeps the queue and the canonical form of the memories. Here:
clocks, power, the user calls and the cores. -/

namespace Sys2Proof.Machine

theorem frameSyncEdge_keeps {s0 s} (h_s : Keeps s0 s) : Keeps s0 (frameSyncEdge s) := by
  unfold frameSyncEdge
  repeat' (first
    | with_reducible assumption | ((try lift_lets -underBinder); intro x; try clear_value x)
    | (with_reducible refine Keeps.state (KeepsP.of ?_) ?_; on_goal 1 => with_reducible assumption)
    | (with_reducible apply KeepsM.of; with_reducible assumption) | with_reducible apply Keeps.ite)

theorem execFrameSyncEdge_keeps {s0 s} (h_s : Keeps s0 s) : KeepsNext s0 (execFrameSyncEdge s) := by
  unfold execFrameSyncEdge
  repeat' (first | with_reducible assumption | with_reducible apply goOn_keeps | with_reducible apply frameSyncEdge_keeps)

theorem State.reportOffset_keeps {s0 s} (h_s : Keeps s0 s) : Keeps s0 (State.reportOffset s) := by
  unfold State.reportOffset
  repeat' (first
    | with_reducible assumption | with_reducible apply State.put_keeps
    | (with_reducible refine Keeps.state (KeepsP.of ?_) ?_; on_goal 1 => with_reducible assumption)
    | with_reducible refine Keeps.of_fst (by with_reducible assumption) ?_
    | with_reducible refine Keeps.of_snd (by with_reducible assumption) ?_
    | with_reducible refine KeepsS.elim (by with_reducible assumption) ?_
    | with_reducible refine KeepsT.elim (by with_reducible assumption) ?_ | split)

theorem syncLost_keeps {s0 s} (h_s : Keeps s0 s) : Keeps s0 (syncLost s) := by
  unfold syncLost
  repeat' (first
    | with_reducible assumption | with_reducible apply State.raiseTick_keeps | with_reducible apply State.reportOffset_keeps
    | (with_reducible refine Keeps.state (KeepsP.of ?_) ?_; on_goal 1 => with_reducible assumption)
    | with_reducible apply Keeps.ite | (with_reducible refine Keeps.state (KeepsP.of ?_) ?_) | (with_reducible apply KeepsM.of))

theorem execSyncLost_keeps {s0 s} (h_s : Keeps s0 s) : KeepsNext s0 (execSyncLost s) := by
  unfold execSyncLost
  repeat' (first | with_reducible assumption | with_reducible apply goOn_keeps | with_reducible apply syncLost_keeps)

theorem armTracking_keeps {s0 v s} (h_s : Keeps s0 s) : Keeps s0 (armTracking v s).1 := by
  unfold armTracking
  repeat' (first
    | with_reducible assumption | (with_reducible refine Keeps.state (KeepsP.of ?_) ?_; on_goal 1 => with_reducible assumption)
    | (with_reducible apply KeepsM.of; with_reducible assumption) | with_reducible apply Keeps.ite
    | with_reducible apply Keeps.ite_fst)

theorem State.syncTick_keeps {s0 s bundles l stretch} (h_s : Keeps s0 s) : Keeps s0 (State.syncTick s bundles l stretch) := by
  unfold State.syncTick
  repeat' (first
    | with_reducible assumption
    | ((try lift_lets -underBinder); intro x; (have hx : Keeps s0 x := ?_); clear_value x; rotate_left; (clear_value (e : x = _); rw [e]; clear e))
    | ((try lift_lets -underBinder); intro x; try clear_value x) | with_reducible apply State.reportOffset_keeps
    | (with_reducible refine Keeps.state (KeepsP.of ?_) ?_; on_goal 1 => with_reducible assumption)
    | (with_reducible apply KeepsM.of; with_reducible assumption) | with_reducible apply Keeps.ite
    | with_reducible refine Keeps.of_fst (by with_reducible assumption) ?_
    | with_reducible refine Keeps.of_snd (by with_reducible assumption) ?_
    | with_reducible refine KeepsS.elim (by with_reducible assumption) ?_
    | with_reducible refine KeepsT.elim (by with_reducible assumption) ?_ | split)

theorem refclkLoss_keeps {s0 s} (h_s : Keeps s0 s) : Keeps s0 (refclkLoss s) := by
  unfold refclkLoss
  repeat' (first
    | with_reducible assumption | with_reducible apply State.count_keeps | with_reducible apply State.put_keeps
    | (with_reducible refine Keeps.state (KeepsP.of ?_) ?_; on_goal 1 => with_reducible assumption)
    | (with_reducible apply KeepsM.of; with_reducible assumption) | with_reducible apply Keeps.ite
    | (with_reducible refine Keeps.state (KeepsP.of ?_) ?_) | (with_reducible apply KeepsM.of))

theorem execRefclkLoss_keeps {s0 s} (h_s : Keeps s0 s) : KeepsNext s0 (execRefclkLoss s) := by
  unfold execRefclkLoss
  repeat' (first | with_reducible assumption | with_reducible apply goOn_keeps | with_reducible apply refclkLoss_keeps)

theorem State.relock_keeps {s0 s} (h_s : Keeps s0 s) : Keeps s0 (State.relock s) := by
  unfold State.relock
  repeat' (first
    | with_reducible assumption | with_reducible apply State.put_keeps
    | (with_reducible refine Keeps.state (KeepsP.of ?_) ?_; on_goal 1 => with_reducible assumption)
    | (with_reducible refine Keeps.state (KeepsP.of ?_) ?_) | (with_reducible apply KeepsM.of))

theorem refclkReturn_keeps {s0 s} (h_s : Keeps s0 s) : Keeps s0 (refclkReturn s) := by
  unfold refclkReturn
  repeat' (first
    | with_reducible assumption | with_reducible apply State.relock_keeps
    | (with_reducible refine Keeps.state (KeepsP.of ?_) ?_; on_goal 1 => with_reducible assumption)
    | (with_reducible apply KeepsM.of; with_reducible assumption) | with_reducible apply Keeps.ite)

theorem execRefclkReturn_keeps {s0 s} (h_s : Keeps s0 s) : KeepsNext s0 (execRefclkReturn s) := by
  unfold execRefclkReturn
  repeat' (first | with_reducible assumption | with_reducible apply goOn_keeps | with_reducible apply refclkReturn_keeps)

theorem State.fallback_keeps {s0 s} (h_s : Keeps s0 s) : Keeps s0 (State.fallback s) := by
  unfold State.fallback
  repeat' (first
    | with_reducible assumption
    | ((try lift_lets -underBinder); intro x; (have hx : Keeps s0 x := ?_); clear_value x; rotate_left; (clear_value (e : x = _); rw [e]; clear e))
    | ((try lift_lets -underBinder); intro x; try clear_value x) | with_reducible apply State.count_keeps
    | (with_reducible refine Keeps.state (KeepsP.of ?_) ?_; on_goal 1 => with_reducible assumption)
    | (with_reducible apply KeepsM.of; with_reducible assumption))

theorem State.fixPlan_keeps {s0 s} (h_s : Keeps s0 s) : Keeps s0 (State.fixPlan s) := by
  unfold State.fixPlan
  repeat' (first
    | with_reducible assumption
    | ((try lift_lets -underBinder); intro x; (have hx : Keeps s0 x := ?_); clear_value x; rotate_left; (clear_value (e : x = _); rw [e]; clear e))
    | ((try lift_lets -underBinder); intro x; try clear_value x) | with_reducible apply State.put_keeps
    | with_reducible apply State.countIf_keeps | with_reducible apply State.count_keeps
    | (with_reducible refine Keeps.state (KeepsP.of ?_) ?_; on_goal 1 => with_reducible assumption)
    | (with_reducible apply KeepsM.of; with_reducible assumption)
    | (with_reducible refine Keeps.foldl ?_ ?_; on_goal 2 => intro _ _ _))

theorem planFix_keeps {s0 ready s} (h_s : Keeps s0 s) : Keeps s0 (planFix ready s) := by
  unfold planFix
  repeat' (first
    | with_reducible assumption | with_reducible apply State.fixPlan_keeps | with_reducible apply State.fallback_keeps
    | with_reducible apply Keeps.ite)

theorem execPlanFix_keeps {s0 controllerReady s} (h_s : Keeps s0 s) : KeepsNext s0 (execPlanFix controllerReady s) := by
  unfold execPlanFix
  repeat' (first | with_reducible assumption | with_reducible apply goOn_keeps | with_reducible apply planFix_keeps)

theorem State.takePlan_keeps {s0 s} (h_s : Keeps s0 s) : Keeps s0 (State.takePlan s) := by
  unfold State.takePlan
  repeat' (first
    | with_reducible assumption
    | ((try lift_lets -underBinder); intro x; (have hx : Keeps s0 x := ?_); clear_value x; rotate_left; (clear_value (e : x = _); rw [e]; clear e))
    | ((try lift_lets -underBinder); intro x; try clear_value x) | with_reducible apply State.put_keeps
    | with_reducible apply State.count_keeps
    | (with_reducible refine Keeps.state (KeepsP.of ?_) ?_; on_goal 1 => with_reducible assumption)
    | (with_reducible apply KeepsM.of; with_reducible assumption)
    | (with_reducible refine Keeps.foldl ?_ ?_; on_goal 2 => intro _ _ _) | with_reducible apply Keeps.ite
    | with_reducible refine Keeps.of_fst (by with_reducible assumption) ?_
    | with_reducible refine Keeps.of_snd (by with_reducible assumption) ?_
    | with_reducible refine KeepsS.elim (by with_reducible assumption) ?_
    | with_reducible refine KeepsT.elim (by with_reducible assumption) ?_ | split)

theorem State.keepUp_keeps {s0 s bundles} (h_s : Keeps s0 s) : Keeps s0 (State.keepUp s bundles) := by
  unfold State.keepUp
  repeat' (first
    | with_reducible assumption | with_reducible apply State.put_keeps
    | (with_reducible refine Keeps.foldl ?_ ?_; on_goal 2 => intro _ _ _) | with_reducible apply Keeps.ite)

theorem State.observe_keeps {s0 s phases} (h_s : Keeps s0 s) : Keeps s0 (State.observe s phases) := by
  unfold State.observe
  repeat' (first
    | with_reducible assumption | ((try lift_lets -underBinder); intro x; try clear_value x)
    | (with_reducible refine Keeps.state (KeepsP.of ?_) ?_; on_goal 1 => with_reducible assumption)
    | (with_reducible apply KeepsM.of; with_reducible assumption)
    | (with_reducible refine Keeps.foldl ?_ ?_; on_goal 2 => intro _ _ _))

theorem State.sampleRail_keeps {s0 s r mv ma} (h_s : Keeps s0 s) : Keeps s0 (State.sampleRail s r mv ma) := by
  unfold State.sampleRail
  repeat' (first
    | with_reducible assumption
    | ((try lift_lets -underBinder); intro x; (have hx : Keeps s0 x := ?_); clear_value x; rotate_left; (clear_value (e : x = _); rw [e]; clear e))
    | ((try lift_lets -underBinder); intro x; try clear_value x) | with_reducible apply State.count_keeps
    | with_reducible apply State.put_keeps
    | (with_reducible refine Keeps.state (KeepsP.of ?_) ?_; on_goal 1 => with_reducible assumption)
    | (with_reducible apply KeepsM.of; with_reducible assumption))

theorem powerSample_keeps {s0 mv ma rails s} (h_s : Keeps s0 s) : Keeps s0 (powerSample mv ma rails s) := by
  unfold powerSample
  repeat' (first
    | with_reducible assumption
    | ((try lift_lets -underBinder); intro x; (have hx : Keeps s0 x := ?_); clear_value x; rotate_left; (clear_value (e : x = _); rw [e]; clear e))
    | ((try lift_lets -underBinder); intro x; try clear_value x) | with_reducible apply State.sampleRail_keeps
    | with_reducible apply State.put_keeps | with_reducible apply State.raise_keeps
    | (with_reducible refine Keeps.state (KeepsP.of ?_) ?_; on_goal 1 => with_reducible assumption)
    | (with_reducible apply KeepsM.of; with_reducible assumption)
    | (with_reducible refine Keeps.foldl ?_ ?_; on_goal 2 => intro _ _ _) | with_reducible apply Keeps.ite)

theorem execPowerSample_keeps {s0 millivolts milliamps rails s} (h_s : Keeps s0 s) : KeepsNext s0 (execPowerSample millivolts milliamps rails s) := by
  unfold execPowerSample
  repeat' (first | with_reducible assumption | with_reducible apply goOn_keeps | with_reducible apply powerSample_keeps)

theorem inputLimiter_keeps {s0 s} (h_s : Keeps s0 s) : Keeps s0 (inputLimiter s) := by
  unfold inputLimiter
  repeat' (first
    | with_reducible assumption
    | ((try lift_lets -underBinder); intro x; (have hx : Keeps s0 x := ?_); clear_value x; rotate_left; (clear_value (e : x = _); rw [e]; clear e))
    | ((try lift_lets -underBinder); intro x; try clear_value x) | with_reducible apply State.countIf_keeps
    | with_reducible apply State.count_keeps
    | (with_reducible refine Keeps.state (KeepsP.of ?_) ?_; on_goal 1 => with_reducible assumption)
    | (with_reducible apply KeepsM.of; with_reducible assumption) | with_reducible apply Keeps.ite)

theorem execInputLimiter_keeps {s0 s} (h_s : Keeps s0 s) : KeepsNext s0 (execInputLimiter s) := by
  unfold execInputLimiter
  repeat' (first | with_reducible assumption | with_reducible apply goOn_keeps | with_reducible apply inputLimiter_keeps)

theorem State.powerTick_keeps {s0 s} (h_s : Keeps s0 s) : Keeps s0 (State.powerTick s) := by
  unfold State.powerTick
  repeat' (first
    | with_reducible assumption
    | ((try lift_lets -underBinder); intro x; (have hx : Keeps s0 x := ?_); clear_value x; rotate_left; (clear_value (e : x = _); rw [e]; clear e))
    | ((try lift_lets -underBinder); intro x; try clear_value x) | with_reducible apply State.put_keeps
    | (with_reducible refine Keeps.state (KeepsP.of ?_) ?_; on_goal 1 => with_reducible assumption)
    | (with_reducible apply KeepsM.of; with_reducible assumption) | with_reducible apply Keeps.ite)

theorem inputRange_keeps {s0 mv s} (h_s : Keeps s0 s) : Keeps s0 (inputRange mv s) := by
  unfold inputRange
  repeat' (first | with_reducible assumption | with_reducible apply State.raise_keeps | with_reducible apply Keeps.ite)

theorem execInputRange_keeps {s0 millivolts s} (h_s : Keeps s0 s) : KeepsNext s0 (execInputRange millivolts s) := by
  unfold execInputRange
  repeat' (first | with_reducible assumption | with_reducible apply goOn_keeps | with_reducible apply inputRange_keeps)

theorem inputUndervoltage_keeps {s0 mv s} (h_s : Keeps s0 s) : Keeps s0 (inputUndervoltage mv s) := by
  unfold inputUndervoltage
  repeat' (first | with_reducible assumption | with_reducible apply State.powerDown_keeps | with_reducible apply Keeps.ite)

theorem execInputUndervoltage_keeps {s0 millivolts s} (h_s : Keeps s0 s) : KeepsNext s0 (execInputUndervoltage millivolts s) := by
  unfold execInputUndervoltage
  repeat' (first | with_reducible assumption | with_reducible apply goOn_keeps | with_reducible apply inputUndervoltage_keeps)

theorem inputOvervoltage_keeps {s0 mv s} (h_s : Keeps s0 s) : Keeps s0 (inputOvervoltage mv s) := by
  unfold inputOvervoltage
  repeat' (first | with_reducible assumption | with_reducible apply State.powerDown_keeps | with_reducible apply Keeps.ite)

theorem execInputOvervoltage_keeps {s0 millivolts s} (h_s : Keeps s0 s) : KeepsNext s0 (execInputOvervoltage millivolts s) := by
  unfold execInputOvervoltage
  repeat' (first | with_reducible assumption | with_reducible apply goOn_keeps | with_reducible apply inputOvervoltage_keeps)

theorem overcurrent_keeps {s0 r measured s} (h_s : Keeps s0 s) : Keeps s0 (overcurrent r measured s) := by
  unfold overcurrent
  repeat' (first
    | with_reducible assumption
    | ((try lift_lets -underBinder); intro x; (have hx : Keeps s0 x := ?_); clear_value x; rotate_left; (clear_value (e : x = _); rw [e]; clear e))
    | ((try lift_lets -underBinder); intro x; try clear_value x) | with_reducible apply State.raise_keeps
    | (with_reducible refine Keeps.state (KeepsP.of ?_) ?_; on_goal 1 => with_reducible assumption)
    | (with_reducible apply KeepsM.of; with_reducible assumption) | with_reducible apply Keeps.ite)

theorem execOvercurrent_keeps {s0 rail measured s} (h_s : Keeps s0 s) : KeepsNext s0 (execOvercurrent rail measured s) := by
  unfold execOvercurrent
  repeat' (first | with_reducible assumption | with_reducible apply goOn_keeps | with_reducible apply overcurrent_keeps)

theorem regulatorFault_keeps {s0 r measured s} (h_s : Keeps s0 s) : Keeps s0 (regulatorFault r measured s) := by
  unfold regulatorFault
  repeat' (first | with_reducible assumption | with_reducible apply State.raise_keeps | with_reducible apply Keeps.ite)

theorem execRegulatorFault_keeps {s0 rail measured s} (h_s : Keeps s0 s) : KeepsNext s0 (execRegulatorFault rail measured s) := by
  unfold execRegulatorFault
  repeat' (first | with_reducible assumption | with_reducible apply goOn_keeps | with_reducible apply regulatorFault_keeps)

theorem droop_keeps {s0 r s} (h_s : Keeps s0 s) : Keeps s0 (droop r s) := by
  unfold droop
  repeat' (first
    | with_reducible assumption
    | ((try lift_lets -underBinder); intro x; (have hx : Keeps s0 x := ?_); clear_value x; rotate_left; (clear_value (e : x = _); rw [e]; clear e))
    | ((try lift_lets -underBinder); intro x; try clear_value x) | with_reducible apply State.count_keeps
    | (with_reducible refine Keeps.state (KeepsP.of ?_) ?_; on_goal 1 => with_reducible assumption)
    | (with_reducible apply KeepsM.of; with_reducible assumption) | with_reducible apply Keeps.ite)

theorem execDroop_keeps {s0 rail s} (h_s : Keeps s0 s) : KeepsNext s0 (execDroop rail s) := by
  unfold execDroop
  repeat' (first | with_reducible assumption | with_reducible apply goOn_keeps | with_reducible apply droop_keeps)

theorem droopRecovery_keeps {s0 r s} (h_s : Keeps s0 s) : Keeps s0 (droopRecovery r s) := by
  unfold droopRecovery
  repeat' (first
    | with_reducible assumption | (with_reducible refine Keeps.state (KeepsP.of ?_) ?_; on_goal 1 => with_reducible assumption)
    | (with_reducible apply KeepsM.of; with_reducible assumption) | with_reducible apply Keeps.ite)

theorem execDroopRecovery_keeps {s0 rail s} (h_s : Keeps s0 s) : KeepsNext s0 (execDroopRecovery rail s) := by
  unfold execDroopRecovery
  repeat' (first | with_reducible assumption | with_reducible apply goOn_keeps | with_reducible apply droopRecovery_keeps)

theorem State.droopCycle_keeps {s0 s} (h_s : Keeps s0 s) : Keeps s0 (State.droopCycle s) := by
  unfold State.droopCycle
  repeat' (first
    | with_reducible assumption
    | ((try lift_lets -underBinder); intro x; (have hx : Keeps s0 x := ?_); clear_value x; rotate_left; (clear_value (e : x = _); rw [e]; clear e))
    | ((try lift_lets -underBinder); intro x; try clear_value x) | with_reducible apply State.count_keeps
    | (with_reducible refine Keeps.state (KeepsP.of ?_) ?_; on_goal 1 => with_reducible assumption)
    | (with_reducible apply KeepsM.of; with_reducible assumption)
    | (with_reducible refine Keeps.foldl ?_ ?_; on_goal 2 => intro _ _ _) | with_reducible apply Keeps.ite)

theorem thermalSample_keeps {s0 n t s} (h_s : Keeps s0 s) : Keeps s0 (thermalSample n t s) := by
  unfold thermalSample
  repeat' (first
    | with_reducible assumption
    | ((try lift_lets -underBinder); intro x; (have hx : Keeps s0 x := ?_); clear_value x; rotate_left; (clear_value (e : x = _); rw [e]; clear e))
    | ((try lift_lets -underBinder); intro x; try clear_value x) | with_reducible apply State.put_keeps
    | with_reducible apply State.raise_keeps | with_reducible apply State.powerDown_keeps | with_reducible apply Keeps.ite)

theorem execThermalSample_keeps {s0 sensor sixteenths s} (h_s : Keeps s0 s) : KeepsNext s0 (execThermalSample sensor sixteenths s) := by
  unfold execThermalSample
  repeat' (first | with_reducible assumption | with_reducible apply goOn_keeps | with_reducible apply thermalSample_keeps)

theorem recalibrate_keeps {s0 measured s} (h_s : Keeps s0 s) : Keeps s0 (recalibrate measured s) := by
  unfold recalibrate
  repeat' (first
    | with_reducible assumption
    | ((try lift_lets -underBinder); intro x; (have hx : Keeps s0 x := ?_); clear_value x; rotate_left; (clear_value (e : x = _); rw [e]; clear e))
    | ((try lift_lets -underBinder); intro x; try clear_value x) | with_reducible apply State.countIf_keeps
    | with_reducible apply State.count_keeps
    | (with_reducible refine Keeps.state (KeepsP.of ?_) ?_; on_goal 1 => with_reducible assumption)
    | (with_reducible apply KeepsM.of; with_reducible assumption)
    | (with_reducible refine Keeps.foldl ?_ ?_; on_goal 2 => intro _ _ _))

theorem execCoefficientRecalibration_keeps {s0 measured s} (h_s : Keeps s0 s) : KeepsNext s0 (execCoefficientRecalibration measured s) := by
  unfold execCoefficientRecalibration
  repeat' (first | with_reducible assumption | with_reducible apply goOn_keeps | with_reducible apply recalibrate_keeps)

theorem State.lowerMaximum_keeps {s0 s key step now} (h_s : Keeps s0 s) : Keeps s0 (State.lowerMaximum s key step now) := by
  unfold State.lowerMaximum
  repeat' (first
    | with_reducible assumption | with_reducible apply State.put_keeps
    | (with_reducible refine Keeps.state (KeepsP.of ?_) ?_; on_goal 1 => with_reducible assumption)
    | (with_reducible apply KeepsM.of; with_reducible assumption) | with_reducible apply Keeps.ite)

theorem State.checkAge_keeps {s0 s j margin} (h_s : Keeps s0 s) : Keeps s0 (State.checkAge s j margin) := by
  unfold State.checkAge
  repeat' (first
    | with_reducible assumption
    | ((try lift_lets -underBinder); intro x; (have hx : Keeps s0 x := ?_); clear_value x; rotate_left; (clear_value (e : x = _); rw [e]; clear e))
    | ((try lift_lets -underBinder); intro x; try clear_value x) | with_reducible apply State.put_keeps
    | with_reducible apply State.lowerMaximum_keeps
    | (with_reducible refine Keeps.state (KeepsP.of ?_) ?_; on_goal 1 => with_reducible assumption)
    | (with_reducible apply KeepsM.of; with_reducible assumption) | with_reducible apply Keeps.ite)

theorem ageingCheck_keeps {s0 margins s} (h_s : Keeps s0 s) : Keeps s0 (ageingCheck margins s) := by
  unfold ageingCheck
  repeat' (first
    | with_reducible assumption | with_reducible apply State.checkAge_keeps
    | (with_reducible refine Keeps.foldl ?_ ?_; on_goal 2 => intro _ _ _))

theorem execAgeingCheck_keeps {s0 margins s} (h_s : Keeps s0 s) : KeepsNext s0 (execAgeingCheck margins s) := by
  unfold execAgeingCheck
  repeat' (first | with_reducible assumption | with_reducible apply goOn_keeps | with_reducible apply ageingCheck_keeps)

theorem State.mail_keeps {s0 s d entry} (h_s : Keeps s0 s) : Keeps s0 (State.mail s d entry) := by
  unfold State.mail
  repeat' (first
    | with_reducible assumption | ((try lift_lets -underBinder); intro x; try clear_value x)
    | with_reducible apply State.setBox_keeps)

theorem State.mailCycle_keeps {s0 s d} (h_s : Keeps s0 s) : Keeps s0 (State.mailCycle s d) := by
  unfold State.mailCycle
  repeat' (first
    | with_reducible assumption | ((try lift_lets -underBinder); intro x; try clear_value x)
    | with_reducible apply State.plic_keeps | with_reducible apply State.setBox_keeps
    | (with_reducible refine Keeps.state (KeepsP.of ?_) ?_; on_goal 1 => with_reducible assumption)
    | with_reducible apply Keeps.ite)

theorem startPost_keeps {s0 i s} (h_s : Keeps s0 s) : Keeps s0 (startPost i s) := by
  unfold startPost
  repeat' (first
    | with_reducible assumption | ((try lift_lets -underBinder); intro x; try clear_value x)
    | with_reducible apply State.raise_keeps | with_reducible apply State.count_keeps | with_reducible apply State.setBox_keeps
    | with_reducible apply State.mail_keeps
    | (with_reducible refine Keeps.state (KeepsP.of ?_) ?_; on_goal 1 => with_reducible assumption)
    | with_reducible apply Keeps.ite)

theorem execPost_keeps {s0 i s} (h_s : Keeps s0 s) : KeepsNext s0 (execPost i s) := by
  unfold execPost
  repeat' (first
    | with_reducible assumption | with_reducible apply goOn_keeps | with_reducible apply State.gate_keeps
    | with_reducible apply startPost_keeps)

theorem State.userRead_keeps {s0 s c core va n} (h_s : Keeps s0 s) : Keeps s0 (State.userRead s c core va n).1 := by
  unfold State.userRead
  repeat' (first
    | with_reducible assumption
    | ((try lift_lets -underBinder); intro x; (have hx : Keeps s0 x.1 := ?_); clear_value x; rotate_left; (clear_value (e : x = _); rw [e]; clear e))
    | with_reducible apply State.readThrough_keeps
    | (with_reducible refine Keeps.state (KeepsP.of ?_) ?_; on_goal 1 => with_reducible assumption)
    | with_reducible refine Keeps.of_fst (by with_reducible assumption) ?_
    | with_reducible refine Keeps.of_snd (by with_reducible assumption) ?_
    | with_reducible refine KeepsS.elim (by with_reducible assumption) ?_
    | with_reducible refine KeepsT.elim (by with_reducible assumption) ?_ | split)

theorem State.userWrite_keeps {s0 s c va bytes} (h_s : Keeps s0 s) : Keeps s0 (State.userWrite s c va bytes) := by
  unfold State.userWrite
  repeat' (first
    | with_reducible assumption | ((try lift_lets -underBinder); intro x; try clear_value x)
    | with_reducible apply State.writeThrough_keeps | with_reducible apply State.setUctx_keeps
    | with_reducible apply Mem.writeN_keeps
    | (with_reducible refine Keeps.state (KeepsP.of ?_) ?_; on_goal 1 => with_reducible assumption)
    | with_reducible refine Keeps.of_fst (by with_reducible assumption) ?_
    | with_reducible refine Keeps.of_snd (by with_reducible assumption) ?_
    | with_reducible refine KeepsS.elim (by with_reducible assumption) ?_
    | with_reducible refine KeepsT.elim (by with_reducible assumption) ?_ | split)

theorem State.setThread_keeps {s0 s c core x} (h_s : Keeps s0 s) : Keeps s0 (State.setThread s c core x) := by
  unfold State.setThread
  repeat' (first | with_reducible assumption | with_reducible apply State.setUctx_keeps)

theorem State.answerCall_keeps {s0 s c core v} (h_s : Keeps s0 s) : Keeps s0 (State.answerCall s c core v) := by
  unfold State.answerCall
  repeat' (first | with_reducible assumption | with_reducible apply State.setThread_keeps)

theorem State.call_keeps {s0 s core f} (h_s : Keeps s0 s) (h_f : ∀ x0 x1, Keeps s0 x1 → Keeps s0 (f x0 x1)) : Keeps s0 (State.call s core f) := by
  unfold State.call
  repeat' (first
    | with_reducible assumption | with_reducible apply h_f
    | (with_reducible refine Keeps.state (KeepsP.of ?_) ?_; on_goal 1 => with_reducible assumption)
    | with_reducible refine Keeps.of_fst (by with_reducible assumption) ?_
    | with_reducible refine Keeps.of_snd (by with_reducible assumption) ?_
    | with_reducible refine KeepsS.elim (by with_reducible assumption) ?_
    | with_reducible refine KeepsT.elim (by with_reducible assumption) ?_ | split)

theorem mapGrant_keeps {s0 core grant va s} (h_s : Keeps s0 s) : Keeps s0 (mapGrant core grant va s) := by
  unfold mapGrant
  repeat' (first
    | with_reducible assumption | ((try lift_lets -underBinder); intro x; try clear_value x)
    | with_reducible apply State.call_keeps | with_reducible apply State.answerCall_keeps
    | with_reducible apply State.setUctx_keeps
    | (with_reducible refine Keeps.state (KeepsP.of ?_) ?_; on_goal 1 => with_reducible assumption)
    | with_reducible apply Keeps.ite | with_reducible apply Keeps.ite_fst
    | with_reducible refine Keeps.of_fst (by with_reducible assumption) ?_
    | with_reducible refine Keeps.of_snd (by with_reducible assumption) ?_
    | with_reducible refine KeepsS.elim (by with_reducible assumption) ?_
    | with_reducible refine KeepsT.elim (by with_reducible assumption) ?_ | split)

theorem execMap_keeps {s0 core grant va s} (h_s : Keeps s0 s) : KeepsNext s0 (execMap core grant va s) := by
  unfold execMap
  repeat' (first | with_reducible assumption | with_reducible apply goOn_keeps | with_reducible apply mapGrant_keeps)

theorem unmapGrant_keeps {s0 core va s} (h_s : Keeps s0 s) : Keeps s0 (unmapGrant core va s) := by
  unfold unmapGrant
  repeat' (first
    | with_reducible assumption | ((try lift_lets -underBinder); intro x; try clear_value x)
    | with_reducible apply State.call_keeps | with_reducible apply State.answerCall_keeps
    | with_reducible apply State.setUctx_keeps
    | (with_reducible refine Keeps.state (KeepsP.of ?_) ?_; on_goal 1 => with_reducible assumption)
    | with_reducible apply Keeps.ite)

theorem execUnmap_keeps {s0 core va s} (h_s : Keeps s0 s) : KeepsNext s0 (execUnmap core va s) := by
  unfold execUnmap
  repeat' (first | with_reducible assumption | with_reducible apply goOn_keeps | with_reducible apply unmapGrant_keeps)

theorem State.handEntry_keeps {s0 s c core buffer entry} (h_s : Keeps s0 s) : Keeps s0 (State.handEntry s c core buffer entry) := by
  unfold State.handEntry
  repeat' (first
    | with_reducible assumption | with_reducible apply State.answerCall_keeps | with_reducible apply State.userWrite_keeps
    | (with_reducible refine Keeps.state (KeepsP.of ?_) ?_; on_goal 1 => with_reducible assumption)
    | with_reducible refine Keeps.of_fst (by with_reducible assumption) ?_
    | with_reducible refine Keeps.of_snd (by with_reducible assumption) ?_
    | with_reducible refine KeepsS.elim (by with_reducible assumption) ?_
    | with_reducible refine KeepsT.elim (by with_reducible assumption) ?_ | split)

theorem State.takeEntry_keeps {s0 s c core buffer} (h_s : Keeps s0 s) : Keeps s0 (State.takeEntry s c core buffer) := by
  unfold State.takeEntry
  repeat' (first
    | with_reducible assumption | with_reducible apply State.handEntry_keeps | with_reducible apply State.setUctx_keeps
    | (with_reducible refine Keeps.state (KeepsP.of ?_) ?_; on_goal 1 => with_reducible assumption) | split)

theorem mailReceive_keeps {s0 core buffer timeout s} (h_s : Keeps s0 s) : Keeps s0 (mailReceive core buffer timeout s) := by
  unfold mailReceive
  repeat' (first
    | with_reducible assumption | with_reducible apply State.call_keeps | with_reducible apply State.answerCall_keeps
    | with_reducible apply State.takeEntry_keeps | with_reducible apply State.setThread_keeps
    | (with_reducible refine Keeps.state (KeepsP.of ?_) ?_; on_goal 1 => with_reducible assumption)
    | with_reducible apply Keeps.ite | (with_reducible refine Keeps.state (KeepsP.of ?_) ?_) | (with_reducible apply KeepsM.of)
    | intro _)

theorem execMboxRecv_keeps {s0 core buffer timeout s} (h_s : Keeps s0 s) : KeepsNext s0 (execMboxRecv core buffer timeout s) := by
  unfold execMboxRecv
  repeat' (first | with_reducible assumption | with_reducible apply goOn_keeps | with_reducible apply mailReceive_keeps)

theorem mailTimeout_keeps {s0 core s} (h_s : Keeps s0 s) : Keeps s0 (mailTimeout core s) := by
  unfold mailTimeout
  repeat' (first
    | with_reducible assumption | with_reducible apply State.setThread_keeps
    | (with_reducible refine Keeps.state (KeepsP.of ?_) ?_; on_goal 1 => with_reducible assumption)
    | with_reducible refine Keeps.of_fst (by with_reducible assumption) ?_
    | with_reducible refine Keeps.of_snd (by with_reducible assumption) ?_
    | with_reducible refine KeepsS.elim (by with_reducible assumption) ?_
    | with_reducible refine KeepsT.elim (by with_reducible assumption) ?_ | split)

theorem execMboxRecvTimeout_keeps {s0 core s} (h_s : Keeps s0 s) : KeepsNext s0 (execMboxRecvTimeout core s) := by
  unfold execMboxRecvTimeout
  repeat' (first | with_reducible assumption | with_reducible apply goOn_keeps | with_reducible apply mailTimeout_keeps)

theorem State.deliver_keeps {s0 s d entry} (h_s : Keeps s0 s) : Keeps s0 (State.deliver s d entry) := by
  unfold State.deliver
  repeat' (first
    | with_reducible assumption | ((try lift_lets -underBinder); intro x; try clear_value x)
    | with_reducible apply State.count_keeps | with_reducible apply State.handEntry_keeps
    | with_reducible apply State.setThread_keeps | with_reducible apply State.setUctx_keeps
    | (with_reducible refine Keeps.state (KeepsP.of ?_) ?_; on_goal 1 => with_reducible assumption)
    | (with_reducible apply KeepsM.of; with_reducible assumption) | with_reducible apply Keeps.ite
    | with_reducible refine Keeps.of_fst (by with_reducible assumption) ?_
    | with_reducible refine Keeps.of_snd (by with_reducible assumption) ?_
    | with_reducible refine KeepsS.elim (by with_reducible assumption) ?_
    | with_reducible refine KeepsT.elim (by with_reducible assumption) ?_ | split)

theorem mailPop_keeps {s0 d s} (h_s : Keeps s0 s) : Keeps s0 (mailPop d s) := by
  unfold mailPop
  repeat' (first
    | with_reducible assumption | ((try lift_lets -underBinder); intro x; try clear_value x)
    | with_reducible apply State.deliver_keeps | with_reducible apply State.setBox_keeps
    | (with_reducible refine Keeps.state (KeepsP.of ?_) ?_; on_goal 1 => with_reducible assumption) | split)

theorem execMailboxPop_keeps {s0 die s} (h_s : Keeps s0 s) : KeepsNext s0 (execMailboxPop die s) := by
  unfold execMailboxPop
  repeat' (first | with_reducible assumption | with_reducible apply goOn_keeps | with_reducible apply mailPop_keeps)

theorem State.pushMail_keeps {s0 s d entry} (h_s : Keeps s0 s) : Keeps s0 (State.pushMail s d entry) := by
  unfold State.pushMail
  repeat' (first
    | with_reducible assumption
    | ((try lift_lets -underBinder); intro x; (have hx : Keeps s0 x := ?_); clear_value x; rotate_left; (clear_value (e : x = _); rw [e]; clear e))
    | ((try lift_lets -underBinder); intro x; try clear_value x) | with_reducible apply State.setBox_keeps
    | with_reducible apply State.answerCall_keeps | with_reducible apply State.count_keeps | with_reducible apply State.mail_keeps
    | (with_reducible refine Keeps.state (KeepsP.of ?_) ?_; on_goal 1 => with_reducible assumption)
    | with_reducible apply Keeps.ite)

theorem mailSend_keeps {s0 core d msg s} (h_s : Keeps s0 s) : Keeps s0 (mailSend core d msg s) := by
  unfold mailSend
  repeat' (first
    | with_reducible assumption | ((try lift_lets -underBinder); intro x; try clear_value x)
    | with_reducible apply State.call_keeps | with_reducible apply State.answerCall_keeps
    | with_reducible apply State.pushMail_keeps | with_reducible apply State.carry_keeps | with_reducible apply State.mail_keeps
    | with_reducible apply Keeps.ite)

theorem execMboxSend_keeps {s0 core die message s} (h_s : Keeps s0 s) : KeepsNext s0 (execMboxSend core die message s) := by
  unfold execMboxSend
  repeat' (first | with_reducible assumption | with_reducible apply goOn_keeps | with_reducible apply mailSend_keeps)

theorem submitSlot_keeps {s0 core t buffer count span s} (h_s : Keeps s0 s) : Keeps s0 (submitSlot core t buffer count span s) := by
  unfold submitSlot
  repeat' (first
    | with_reducible assumption
    | ((try lift_lets -underBinder); intro x; (have hx : Keeps s0 x := ?_); clear_value x; rotate_left; (clear_value (e : x = _); rw [e]; clear e))
    | ((try lift_lets -underBinder); intro x; (have hx : Keeps s0 x.1 := ?_); clear_value x; rotate_left; (clear_value (e : x = _); rw [e]; clear e))
    | ((try lift_lets -underBinder); intro x; try clear_value x) | with_reducible apply State.call_keeps
    | with_reducible apply State.answerCall_keeps | with_reducible apply State.userRead_keeps
    | with_reducible apply State.setThread_keeps | with_reducible apply State.count_keeps
    | with_reducible apply State.writeThrough_keeps | with_reducible apply State.setUctx_keeps
    | (with_reducible refine Keeps.state (KeepsP.of ?_) ?_; on_goal 1 => with_reducible assumption)
    | with_reducible apply Keeps.ite | with_reducible apply Keeps.ite_fst
    | with_reducible refine Keeps.of_fst (by with_reducible assumption) ?_
    | with_reducible refine Keeps.of_snd (by with_reducible assumption) ?_
    | with_reducible refine KeepsS.elim (by with_reducible assumption) ?_
    | with_reducible refine KeepsT.elim (by with_reducible assumption) ?_ | split)

theorem execSlotSubmit_keeps {s0 core table buffer count span s} (h_s : Keeps s0 s) : KeepsNext s0 (execSlotSubmit core table buffer count span s) := by
  unfold execSlotSubmit
  repeat' (first | with_reducible assumption | with_reducible apply goOn_keeps | with_reducible apply submitSlot_keeps)

theorem State.publishSlots_keeps {s0 s} (h_s : Keeps s0 s) : Keeps s0 (State.publishSlots s) := by
  unfold State.publishSlots
  repeat' (first
    | with_reducible assumption
    | ((try lift_lets -underBinder); intro x; (have hx : Keeps s0 x := ?_); clear_value x; rotate_left; (clear_value (e : x = _); rw [e]; clear e))
    | ((try lift_lets -underBinder); intro x; try clear_value x) | with_reducible apply State.publish_keeps
    | with_reducible apply State.setUctx_keeps
    | (with_reducible refine Keeps.state (KeepsP.of ?_) ?_; on_goal 1 => with_reducible assumption)
    | (with_reducible refine Keeps.foldl ?_ ?_; on_goal 2 => intro _ _ _) | with_reducible apply Keeps.ite)

theorem slotState_keeps {s0 core t s} (h_s : Keeps s0 s) : Keeps s0 (slotState core t s) := by
  unfold slotState
  repeat' (first
    | with_reducible assumption | ((try lift_lets -underBinder); intro x; try clear_value x)
    | with_reducible apply State.call_keeps | with_reducible apply State.answerCall_keeps)

theorem execSlotStatus_keeps {s0 core table s} (h_s : Keeps s0 s) : KeepsNext s0 (execSlotStatus core table s) := by
  unfold execSlotStatus
  repeat' (first | with_reducible assumption | with_reducible apply goOn_keeps | with_reducible apply slotState_keeps)

theorem yieldThread_keeps {s0 core s} (h_s : Keeps s0 s) : Keeps s0 (yieldThread core s) := by
  unfold yieldThread
  repeat' (first
    | with_reducible assumption | with_reducible apply State.call_keeps | with_reducible apply State.switchCore_keeps
    | with_reducible apply State.answerCall_keeps | intro _)

theorem execYield_keeps {s0 core s} (h_s : Keeps s0 s) : KeepsNext s0 (execYield core s) := by
  unfold execYield
  repeat' (first | with_reducible assumption | with_reducible apply goOn_keeps | with_reducible apply yieldThread_keeps)

theorem logRecord_keeps {s0 core buffer length s} (h_s : Keeps s0 s) : Keeps s0 (logRecord core buffer length s) := by
  unfold logRecord
  repeat' (first
    | with_reducible assumption
    | ((try lift_lets -underBinder); intro x; (have hx : Keeps s0 x := ?_); clear_value x; rotate_left; (clear_value (e : x = _); rw [e]; clear e))
    | ((try lift_lets -underBinder); intro x; (have hx : Keeps s0 x.1 := ?_); clear_value x; rotate_left; (clear_value (e : x = _); rw [e]; clear e))
    | ((try lift_lets -underBinder); intro x; try clear_value x) | with_reducible apply State.call_keeps
    | with_reducible apply State.answerCall_keeps | with_reducible apply State.userRead_keeps
    | (with_reducible refine Keeps.state (KeepsP.of ?_) ?_; on_goal 1 => with_reducible assumption)
    | (with_reducible apply KeepsM.of; with_reducible assumption) | with_reducible apply Keeps.ite
    | with_reducible apply Keeps.ite_fst | with_reducible refine Keeps.of_fst (by with_reducible assumption) ?_
    | with_reducible refine Keeps.of_snd (by with_reducible assumption) ?_
    | with_reducible refine KeepsS.elim (by with_reducible assumption) ?_
    | with_reducible refine KeepsT.elim (by with_reducible assumption) ?_ | split)

theorem execLog_keeps {s0 core buffer length s} (h_s : Keeps s0 s) : KeepsNext s0 (execLog core buffer length s) := by
  unfold execLog
  repeat' (first | with_reducible assumption | with_reducible apply goOn_keeps | with_reducible apply logRecord_keeps)

theorem exitContext_keeps {s0 core a1 s} (h_s : Keeps s0 s) : Keeps s0 (exitContext core a1 s) := by
  unfold exitContext
  repeat' (first
    | with_reducible assumption
    | ((try lift_lets -underBinder); intro x; (have hx : Keeps s0 x.2 := ?_); clear_value x; rotate_left; (clear_value (e : x = _); rw [e]; clear e))
    | ((try lift_lets -underBinder); intro x; try clear_value x) | with_reducible apply State.call_keeps
    | with_reducible apply State.draw_keeps | with_reducible apply State.stopContext_keeps)

theorem execExit_keeps {s0 core status s} (h_s : Keeps s0 s) : KeepsNext s0 (execExit core status s) := by
  unfold execExit
  repeat' (first | with_reducible assumption | with_reducible apply goOn_keeps | with_reducible apply exitContext_keeps)

theorem quantumEnd_keeps {s0 core s} (h_s : Keeps s0 s) : Keeps s0 (quantumEnd core s) := by
  unfold quantumEnd
  repeat' (first
    | with_reducible assumption | with_reducible apply State.call_keeps | with_reducible apply State.switchCore_keeps | intro _)

theorem execQuantumExpiry_keeps {s0 core s} (h_s : Keeps s0 s) : KeepsNext s0 (execQuantumExpiry core s) := by
  unfold execQuantumExpiry
  repeat' (first | with_reducible assumption | with_reducible apply goOn_keeps | with_reducible apply quantumEnd_keeps)

theorem contextException_keeps {s0 core pc cause s} (h_s : Keeps s0 s) : Keeps s0 (contextException core pc cause s) := by
  unfold contextException
  repeat' (first
    | with_reducible assumption | with_reducible apply State.call_keeps | with_reducible apply State.stopContext_keeps | intro _)

theorem execUserContextException_keeps {s0 core pc cause s} (h_s : Keeps s0 s) : KeepsNext s0 (execUserContextException core pc cause s) := by
  unfold execUserContextException
  repeat' (first | with_reducible assumption | with_reducible apply goOn_keeps | with_reducible apply contextException_keeps)

theorem State.coreEvent_keeps {s0 s c code n} (h_s : Keeps s0 s) : Keeps s0 (State.coreEvent s c code n) := by
  unfold State.coreEvent
  repeat' (first
    | with_reducible assumption | ((try lift_lets -underBinder); intro x; try clear_value x)
    | with_reducible apply State.setCore_keeps
    | (with_reducible refine Keeps.state (KeepsP.of ?_) ?_; on_goal 1 => with_reducible assumption)
    | with_reducible apply Keeps.ite)

theorem State.retire_keeps {s0 s c} (h_s : Keeps s0 s) : Keeps s0 (State.retire s c) := by
  unfold State.retire
  repeat' (first | with_reducible assumption | with_reducible apply State.setCore_keeps)

theorem State.putCsr_keeps {s0 s c n v} (h_s : Keeps s0 s) : Keeps s0 (State.putCsr s c n v) := by
  unfold State.putCsr
  repeat' (first
    | with_reducible assumption | ((try lift_lets -underBinder); intro x; try clear_value x)
    | with_reducible apply State.setCore_keeps
    | (with_reducible refine Keeps.state (KeepsP.of ?_) ?_; on_goal 1 => with_reducible assumption)
    | with_reducible apply Keeps.ite | split)

theorem State.illegalCore_keeps {s0 s c} (h_s : Keeps s0 s) : Keeps s0 (State.illegalCore s c) := by
  unfold State.illegalCore
  repeat' (first | with_reducible assumption | with_reducible apply State.setCore_keeps)

theorem State.csrAccess_keeps {s0 s c n write} (h_s : Keeps s0 s) : Keeps s0 (State.csrAccess s c n write) := by
  unfold State.csrAccess
  repeat' (first
    | with_reducible assumption
    | ((try lift_lets -underBinder); intro x; (have hx : Keeps s0 x := ?_); clear_value x; rotate_left; (clear_value (e : x = _); rw [e]; clear e))
    | ((try lift_lets -underBinder); intro x; try clear_value x) | with_reducible apply State.illegalCore_keeps
    | with_reducible apply State.putCsr_keeps | with_reducible apply State.setCore_keeps
    | with_reducible apply State.accessFault_keeps
    | (with_reducible refine Keeps.state (KeepsP.of ?_) ?_; on_goal 1 => with_reducible assumption)
    | with_reducible apply Keeps.ite | with_reducible refine Keeps.of_fst (by with_reducible assumption) ?_
    | with_reducible refine Keeps.of_snd (by with_reducible assumption) ?_
    | with_reducible refine KeepsS.elim (by with_reducible assumption) ?_
    | with_reducible refine KeepsT.elim (by with_reducible assumption) ?_ | split)

theorem State.setL2_keeps {s0 s d x} (h_s : Keeps s0 s) : Keeps s0 (State.setL2 s d x) :=
  ⟨h_s.queue, h_s.wf⟩

theorem State.dropLine_keeps {s0 s d line} (h_s : Keeps s0 s) : Keeps s0 (State.dropLine s d line) := by
  unfold State.dropLine
  repeat' (first
    | with_reducible assumption | ((try lift_lets -underBinder); intro x; try clear_value x)
    | (with_reducible refine Keeps.state (KeepsP.of ?_) ?_; on_goal 1 => with_reducible assumption)
    | (with_reducible apply KeepsM.of; with_reducible assumption))

theorem State.writeBack_keeps {s0 s c x} (h_s : Keeps s0 s) : Keeps s0 (State.writeBack s c x) := by
  unfold State.writeBack
  repeat' (first | with_reducible assumption | with_reducible apply State.sendWrite_keeps | with_reducible apply Keeps.ite)

theorem State.installLine_keeps {s0 s c x} (h_s : Keeps s0 s) : Keeps s0 (State.installLine s c x) := by
  unfold State.installLine
  repeat' (first
    | with_reducible assumption
    | ((try lift_lets -underBinder); intro x; (have hx : Keeps s0 x := ?_); clear_value x; rotate_left; (clear_value (e : x = _); rw [e]; clear e))
    | ((try lift_lets -underBinder); intro x; (have hx : Keeps s0 x.2 := ?_); clear_value x; rotate_left; (clear_value (e : x = _); rw [e]; clear e))
    | ((try lift_lets -underBinder); intro x; try clear_value x) | with_reducible apply State.draw_keeps
    | with_reducible apply State.dropLine_keeps | with_reducible apply State.writeBack_keeps
    | (with_reducible refine Keeps.state (KeepsP.of ?_) ?_; on_goal 1 => with_reducible assumption)
    | (with_reducible apply KeepsM.of; with_reducible assumption) | with_reducible apply Keeps.ite
    | with_reducible apply Keeps.ite_fst | with_reducible refine Keeps.of_fst (by with_reducible assumption) ?_
    | with_reducible refine Keeps.of_snd (by with_reducible assumption) ?_
    | with_reducible refine KeepsS.elim (by with_reducible assumption) ?_
    | with_reducible refine KeepsT.elim (by with_reducible assumption) ?_ | split)

theorem State.touchL1_keeps {s0 s c line fetch} (h_s : Keeps s0 s) : Keeps s0 (State.touchL1 s c line fetch) := by
  unfold State.touchL1
  repeat' (first
    | with_reducible assumption
    | ((try lift_lets -underBinder); intro x; (have hx : Keeps s0 x := ?_); clear_value x; rotate_left; (clear_value (e : x = _); rw [e]; clear e))
    | ((try lift_lets -underBinder); intro x; (have hx : Keeps s0 x.2 := ?_); clear_value x; rotate_left; (clear_value (e : x = _); rw [e]; clear e))
    | ((try lift_lets -underBinder); intro x; try clear_value x) | with_reducible apply State.coreEvent_keeps
    | with_reducible apply State.draw_keeps
    | (with_reducible refine Keeps.state (KeepsP.of ?_) ?_; on_goal 1 => with_reducible assumption)
    | with_reducible apply Keeps.ite | with_reducible apply Keeps.ite_fst
    | with_reducible refine Keeps.of_fst (by with_reducible assumption) ?_
    | with_reducible refine Keeps.of_snd (by with_reducible assumption) ?_
    | with_reducible refine KeepsS.elim (by with_reducible assumption) ?_
    | with_reducible refine KeepsT.elim (by with_reducible assumption) ?_ | (with_reducible refine Keeps.state (KeepsP.of ?_) ?_)
    | (with_reducible apply KeepsM.of))

theorem State.breakReservations_keeps {s0 s c a2} (h_s : Keeps s0 s) : Keeps s0 (State.breakReservations s c a2) := by
  unfold State.breakReservations
  repeat' (first
    | with_reducible assumption | with_reducible apply State.setCore_keeps
    | (with_reducible refine Keeps.state (KeepsP.of ?_) ?_; on_goal 1 => with_reducible assumption)
    | (with_reducible refine Keeps.foldl ?_ ?_; on_goal 2 => intro _ _ _) | with_reducible apply Keeps.ite
    | with_reducible apply Keeps.ite_fst | with_reducible refine Keeps.of_fst (by with_reducible assumption) ?_
    | with_reducible refine Keeps.of_snd (by with_reducible assumption) ?_
    | with_reducible refine KeepsS.elim (by with_reducible assumption) ?_
    | with_reducible refine KeepsT.elim (by with_reducible assumption) ?_ | split)

theorem State.storeLine_keeps {s0 s c a2 x bytes} (h_s : Keeps s0 s) : Keeps s0 (State.storeLine s c a2 x bytes) := by
  unfold State.storeLine
  repeat' (first
    | with_reducible assumption | with_reducible apply State.breakReservations_keeps | with_reducible apply State.setL2_keeps)

theorem State.hitLine_keeps {s0 s c a2 access x} (h_s : Keeps s0 s) : Keeps s0 (State.hitLine s c a2 access x) := by
  unfold State.hitLine
  repeat' (first
    | with_reducible assumption
    | ((try lift_lets -underBinder); intro x; (have hx : Keeps s0 x := ?_); clear_value x; rotate_left; (clear_value (e : x = _); rw [e]; clear e))
    | ((try lift_lets -underBinder); intro x; try clear_value x)
    | with_reducible apply State.coreData_keeps | with_reducible apply State.touchL1_keeps
    | with_reducible apply State.storeLine_keeps | with_reducible apply State.setCore_keeps
    | with_reducible apply State.setL2_keeps | with_reducible apply State.writeBack_keeps
    | with_reducible apply State.dropLine_keeps
    | (with_reducible refine Keeps.state (KeepsP.of ?_) ?_; on_goal 1 => with_reducible assumption)
    | with_reducible apply Keeps.ite | split)

theorem State.cachedAccess_keeps {s0 s c a2 access} (h_s : Keeps s0 s) : Keeps s0 (State.cachedAccess s c a2 access) := by
  unfold State.cachedAccess
  repeat' (first
    | with_reducible assumption | with_reducible apply State.hitLine_keeps | with_reducible apply State.ask_keeps
    | with_reducible apply State.coreEvent_keeps
    | (with_reducible refine Keeps.state (KeepsP.of ?_) ?_; on_goal 1 => with_reducible assumption)
    | with_reducible refine Keeps.of_fst (by with_reducible assumption) ?_
    | with_reducible refine Keeps.of_snd (by with_reducible assumption) ?_
    | with_reducible refine KeepsS.elim (by with_reducible assumption) ?_
    | with_reducible refine KeepsT.elim (by with_reducible assumption) ?_ | split)

theorem State.fillLine_keeps {s0 s c a2 access data poison} (h_s : Keeps s0 s) : Keeps s0 (State.fillLine s c a2 access data poison) := by
  unfold State.fillLine
  repeat' (first
    | with_reducible assumption
    | ((try lift_lets -underBinder); intro x; (have hx : Keeps s0 x := ?_); clear_value x; rotate_left; (clear_value (e : x = _); rw [e]; clear e))
    | with_reducible apply State.accessFault_keeps | with_reducible apply State.installLine_keeps
    | with_reducible apply State.cachedAccess_keeps | with_reducible apply Keeps.ite)

theorem State.misalignedCore_keeps {s0 s c} (h_s : Keeps s0 s) : Keeps s0 (State.misalignedCore s c) := by
  unfold State.misalignedCore
  repeat' (first | with_reducible assumption | with_reducible apply State.setCore_keeps)

theorem State.uncachedAccess_keeps {s0 s c a2 access} (h_s : Keeps s0 s) : Keeps s0 (State.uncachedAccess s c a2 access) := by
  unfold State.uncachedAccess
  repeat' (first
    | with_reducible assumption
    | ((try lift_lets -underBinder); intro x; (have hx : Keeps s0 x := ?_); clear_value x; rotate_left; (clear_value (e : x = _); rw [e]; clear e))
    | ((try lift_lets -underBinder); intro x; try clear_value x) | with_reducible apply State.coreLocal_keeps
    | with_reducible apply State.breakReservations_keeps | with_reducible apply State.setCore_keeps
    | with_reducible apply State.coreData_keeps | with_reducible apply State.cachedAccess_keeps
    | (with_reducible refine Keeps.state (KeepsP.of ?_) ?_; on_goal 1 => with_reducible assumption)
    | with_reducible apply Keeps.ite | split)

theorem State.localAccess_keeps {s0 s c a2 page access} (h_s : Keeps s0 s) : Keeps s0 (State.localAccess s c a2 page access) := by
  unfold State.localAccess
  repeat' (first
    | with_reducible assumption | ((try lift_lets -underBinder); intro x; try clear_value x)
    | with_reducible apply State.accessFault_keeps | with_reducible apply State.misalignedCore_keeps
    | with_reducible apply State.cachedAccess_keeps | with_reducible apply State.uncachedAccess_keeps
    | with_reducible apply Keeps.ite)

theorem State.windowAccess_keeps {s0 s c a2 access} (h_s : Keeps s0 s) : Keeps s0 (State.windowAccess s c a2 access) := by
  unfold State.windowAccess
  repeat' (first
    | with_reducible assumption
    | ((try lift_lets -underBinder); intro x; (have hf5 : ∀ y, Keeps s0 (x y) := ?_); clear_value x; rotate_left; (clear_value (e : x = _); rw [e]; clear e; intros; beta_reduce))
    | ((try lift_lets -underBinder); intro x; try clear_value x) | with_reducible apply hf0 | with_reducible apply hf1
    | with_reducible apply hf2 | with_reducible apply hf3 | with_reducible apply hf4 | with_reducible apply hf5
    | with_reducible apply hf6 | with_reducible apply hf7 | with_reducible apply hf8 | with_reducible apply hf9
    | with_reducible apply State.setCore_keeps | with_reducible apply State.accessFault_keeps
    | with_reducible apply State.misalignedCore_keeps | with_reducible apply State.wait_keeps
    | (with_reducible refine Keeps.state (KeepsP.of ?_) ?_; on_goal 1 => with_reducible assumption)
    | with_reducible apply Keeps.ite | with_reducible refine Keeps.of_fst (by with_reducible assumption) ?_
    | with_reducible refine Keeps.of_snd (by with_reducible assumption) ?_
    | with_reducible refine KeepsS.elim (by with_reducible assumption) ?_
    | with_reducible refine KeepsT.elim (by with_reducible assumption) ?_ | split)

theorem State.windowServed_keeps {s0 s c w} (h_s : Keeps s0 s) : Keeps s0 (State.windowServed s c w) := by
  unfold State.windowServed
  repeat' (first
    | with_reducible assumption | ((try lift_lets -underBinder); intro x; try clear_value x)
    | with_reducible apply State.coreData_keeps | with_reducible apply State.opWrite_keeps
    | (with_reducible refine Keeps.state (KeepsP.of ?_) ?_; on_goal 1 => with_reducible assumption)
    | with_reducible refine Keeps.of_fst (by with_reducible assumption) ?_
    | with_reducible refine Keeps.of_snd (by with_reducible assumption) ?_
    | with_reducible refine KeepsS.elim (by with_reducible assumption) ?_
    | with_reducible refine KeepsT.elim (by with_reducible assumption) ?_ | split)

theorem State.plicClaim_keeps {s0 s d ctx} (h_s : Keeps s0 s) : Keeps s0 (State.plicClaim s d ctx).1 := by
  unfold State.plicClaim
  repeat' (first
    | with_reducible assumption | ((try lift_lets -underBinder); intro x; try clear_value x)
    | with_reducible apply State.plic_keeps
    | (with_reducible refine Keeps.state (KeepsP.of ?_) ?_; on_goal 1 => with_reducible assumption)
    | (with_reducible apply KeepsM.of; with_reducible assumption) | with_reducible apply Keeps.ite
    | with_reducible apply Keeps.ite_fst | with_reducible refine Keeps.of_fst (by with_reducible assumption) ?_
    | with_reducible refine Keeps.of_snd (by with_reducible assumption) ?_
    | with_reducible refine KeepsS.elim (by with_reducible assumption) ?_
    | with_reducible refine KeepsT.elim (by with_reducible assumption) ?_ | split)

theorem State.plicComplete_keeps {s0 s d ctx k} (h_s : Keeps s0 s) : Keeps s0 (State.plicComplete s d ctx k) := by
  unfold State.plicComplete
  repeat' (first
    | with_reducible assumption | ((try lift_lets -underBinder); intro x; try clear_value x)
    | with_reducible apply State.plic_keeps
    | (with_reducible refine Keeps.state (KeepsP.of ?_) ?_; on_goal 1 => with_reducible assumption)
    | (with_reducible apply KeepsM.of; with_reducible assumption) | with_reducible apply Keeps.ite)

theorem State.deviceRead_keeps {s0 s d r} (h_s : Keeps s0 s) : Keeps s0 (State.deviceRead s d r).1 := by
  unfold State.deviceRead
  repeat' (first
    | with_reducible assumption | ((try lift_lets -underBinder); intro x; try clear_value x)
    | with_reducible apply State.plicClaim_keeps | with_reducible apply State.plic_keeps
    | (with_reducible refine Keeps.state (KeepsP.of ?_) ?_; on_goal 1 => with_reducible assumption) | split)

theorem State.statusWrite_keeps {s0 s d v} (h_s : Keeps s0 s) : Keeps s0 (State.statusWrite s d v) := by
  unfold State.statusWrite
  repeat' (first
    | with_reducible assumption
    | ((try lift_lets -underBinder); intro x; (have hx : Keeps s0 x := ?_); clear_value x; rotate_left; (clear_value (e : x = _); rw [e]; clear e))
    | ((try lift_lets -underBinder); intro x; try clear_value x) | with_reducible apply mailPop_keeps
    | with_reducible apply State.setBox_keeps
    | (with_reducible refine Keeps.state (KeepsP.of ?_) ?_; on_goal 1 => with_reducible assumption)
    | with_reducible apply Keeps.ite)

theorem State.deviceWrite_keeps {s0 s c r v} (h_s : Keeps s0 s) : Keeps s0 (State.deviceWrite s c r v) := by
  unfold State.deviceWrite
  repeat' (first
    | with_reducible assumption | ((try lift_lets -underBinder); intro x; try clear_value x)
    | with_reducible apply State.statusWrite_keeps | with_reducible apply State.plicComplete_keeps
    | with_reducible apply State.setCore_keeps | with_reducible apply State.plicClaim_keeps
    | (with_reducible refine Keeps.state (KeepsP.of ?_) ?_; on_goal 1 => with_reducible assumption)
    | (with_reducible apply KeepsM.of; with_reducible assumption) | split)

theorem State.deviceAccess_keeps {s0 s c r write} (h_s : Keeps s0 s) : Keeps s0 (State.deviceAccess s c r write) := by
  unfold State.deviceAccess
  repeat' (first
    | with_reducible assumption
    | ((try lift_lets -underBinder); intro x; (have hx : Keeps s0 x.1 := ?_); clear_value x; rotate_left; (clear_value (e : x = _); rw [e]; clear e))
    | with_reducible apply State.accessFault_keeps | with_reducible apply State.coreData_keeps
    | with_reducible apply State.deviceWrite_keeps | with_reducible apply State.deviceRead_keeps
    | (with_reducible refine Keeps.state (KeepsP.of ?_) ?_; on_goal 1 => with_reducible assumption)
    | with_reducible apply Keeps.ite | with_reducible apply Keeps.ite_fst
    | with_reducible refine Keeps.of_fst (by with_reducible assumption) ?_
    | with_reducible refine Keeps.of_snd (by with_reducible assumption) ?_
    | with_reducible refine KeepsS.elim (by with_reducible assumption) ?_
    | with_reducible refine KeepsT.elim (by with_reducible assumption) ?_ | split)

theorem State.boardAccess_keeps {s0 s c address access} (h_s : Keeps s0 s) : Keeps s0 (State.boardAccess s c address access) := by
  unfold State.boardAccess
  repeat' (first
    | with_reducible assumption | with_reducible apply boardReach_keeps | with_reducible apply State.accessFault_keeps
    | (with_reducible refine Keeps.state (KeepsP.of ?_) ?_; on_goal 1 => with_reducible assumption) | split)

theorem State.boardChecked_keeps {s0 s c address n write act} (h_s : Keeps s0 s) (h_act : ∀ x0, Keeps s0 x0 → Keeps s0 (act x0)) : Keeps s0 (State.boardChecked s c address n write act) := by
  unfold State.boardChecked
  repeat' (first
    | with_reducible assumption | with_reducible apply State.accessFault_keeps | with_reducible apply State.misalignedCore_keeps
    | with_reducible apply State.act_keeps | with_reducible apply h_act | with_reducible apply Keeps.ite)

theorem State.physicalAccess_keeps {s0 s c a2 page access} (h_s : Keeps s0 s) : Keeps s0 (State.physicalAccess s c a2 page access) := by
  unfold State.physicalAccess
  repeat' (first
    | with_reducible assumption | with_reducible apply State.localAccess_keeps | with_reducible apply State.boardChecked_keeps
    | with_reducible apply State.boardAccess_keeps | with_reducible apply State.windowAccess_keeps
    | with_reducible apply State.accessFault_keeps | with_reducible apply Keeps.ite | intro _)

theorem boardSpaceAccess_keeps {s0 c address access s} (h_s : Keeps s0 s) : Keeps s0 (boardSpaceAccess c address access s) := by
  unfold boardSpaceAccess
  repeat' (first
    | with_reducible assumption
    | ((try lift_lets -underBinder); intro x; (have hx : Keeps s0 x := ?_); clear_value x; rotate_left; (clear_value (e : x = _); rw [e]; clear e))
    | ((try lift_lets -underBinder); intro x; try clear_value x) | with_reducible apply State.retire_keeps
    | with_reducible apply State.boardChecked_keeps | with_reducible apply boardReach_keeps
    | with_reducible apply State.physicalAccess_keeps | with_reducible apply State.deviceAccess_keeps
    | with_reducible apply State.csrAccess_keeps
    | (with_reducible refine Keeps.state (KeepsP.of ?_) ?_; on_goal 1 => with_reducible assumption)
    | with_reducible apply Keeps.ite | split)

theorem execBoardSpaceAccess_keeps {s0 c address access s} (h_s : Keeps s0 s) : KeepsNext s0 (execBoardSpaceAccess c address access s) := by
  unfold execBoardSpaceAccess
  repeat' (first | with_reducible assumption | with_reducible apply goOn_keeps | with_reducible apply boardSpaceAccess_keeps)

end Sys2Proof.Machine
end

