-- ==== Sys2Proof/Laws/KeepsDictionary.lean ====
section
/-! SUPPORT. One lemma per function: it keeps the queue and the canonical form of the memories. Here:
the frames, repairs, updates and the dictionary. -/

namespace Sys2Proof.Machine

theorem State.freshLocket_keeps {s0 s} (h_s : Keeps s0 s) : Keeps s0 (State.freshLocket s) := by
  unfold State.freshLocket
  repeat' (first
    | with_reducible assumption
    | ((try lift_lets -underBinder); intro x; (have hx : Keeps s0 x := ?_); clear_value x; rotate_left; (clear_value (e : x = _); rw [e]; clear e))
    | ((try lift_lets -underBinder); intro x; try clear_value x)
    | (with_reducible refine Keeps.state (KeepsP.of ?_) ?_; on_goal 1 => with_reducible assumption)
    | (with_reducible apply KeepsM.of; with_reducible assumption))

theorem State.freshCounters_keeps {s0 s} (h_s : Keeps s0 s) : Keeps s0 (State.freshCounters s) := by
  unfold State.freshCounters
  repeat' (first
    | with_reducible assumption
    | ((try lift_lets -underBinder); intro x; (have hx : Keeps s0 x := ?_); clear_value x; rotate_left; (clear_value (e : x = _); rw [e]; clear e))
    | with_reducible apply State.put_keeps)

theorem State.startAccepted_keeps {s0 s tracking} (h_s : Keeps s0 s) : Keeps s0 (State.startAccepted s tracking) := by
  unfold State.startAccepted
  repeat' (first
    | with_reducible assumption
    | ((try lift_lets -underBinder); intro x; (have hx : Keeps s0 x := ?_); clear_value x; rotate_left; (clear_value (e : x = _); rw [e]; clear e))
    | ((try lift_lets -underBinder); intro x; (have hx : KeepsM s0 x := ?_); clear_value x; rotate_left; (clear_value (e : x = _); rw [e]; clear e))
    | ((try lift_lets -underBinder); intro x; try clear_value x) | with_reducible apply State.freshCounters_keeps
    | with_reducible apply State.freshLocket_keeps | with_reducible apply State.takeMaxima_keeps
    | with_reducible apply State.put_keeps | with_reducible apply State.startContexts_keeps
    | (with_reducible refine Keeps.state (KeepsP.of ?_) ?_; on_goal 1 => with_reducible assumption)
    | (with_reducible apply KeepsM.of; with_reducible assumption) | (with_reducible apply KeepsM.memory)
    | (with_reducible refine KeepsH.of ?_; with_reducible assumption)
    | (with_reducible refine KeepsO.of ?_; with_reducible assumption))

theorem startProgram_keeps {s0 s} (h_s : Keeps s0 s) : Keeps s0 (startProgram s).1 := by
  unfold startProgram
  repeat' (first
    | with_reducible assumption
    | ((try lift_lets -underBinder); intro x; (have hx : Keeps s0 x := ?_); clear_value x; rotate_left; (clear_value (e : x = _); rw [e]; clear e))
    | ((try lift_lets -underBinder); intro x; try clear_value x) | with_reducible apply State.startAccepted_keeps
    | with_reducible apply State.put_keeps
    | (with_reducible refine Keeps.state (KeepsP.of ?_) ?_; on_goal 1 => with_reducible assumption)
    | (with_reducible apply KeepsM.of; with_reducible assumption) | with_reducible apply Keeps.ite
    | with_reducible apply Keeps.ite_fst | split)

theorem stopCommand_keeps {s0 s} (h_s : Keeps s0 s) : Keeps s0 (stopCommand s).1 := by
  unfold stopCommand
  repeat' (first | with_reducible assumption | with_reducible apply State.stopProgram_keeps | with_reducible apply Keeps.ite)

theorem programCommand_keeps {s0 v s} (h_s : Keeps s0 s) : Keeps s0 (programCommand v s).1 := by
  unfold programCommand
  repeat' (first
    | with_reducible assumption | with_reducible apply startProgram_keeps | with_reducible apply stopCommand_keeps
    | with_reducible apply Keeps.ite | with_reducible apply Keeps.ite_fst)

theorem State.overrun_keeps {s0 s} (h_s : Keeps s0 s) : Keeps s0 (State.overrun s) := by
  unfold State.overrun
  repeat' (first
    | with_reducible assumption
    | ((try lift_lets -underBinder); intro x; (have hx : Keeps s0 x := ?_); clear_value x; rotate_left; (clear_value (e : x = _); rw [e]; clear e))
    | with_reducible apply State.count_keeps | with_reducible apply State.raiseTick_keeps
    | (with_reducible refine Keeps.state (KeepsP.of ?_) ?_; on_goal 1 => with_reducible assumption)
    | (with_reducible refine Keeps.foldl ?_ ?_; on_goal 2 => intro _ _ _) | with_reducible apply Keeps.ite | split)

theorem State.countTicks_keeps {s0 s} (h_s : Keeps s0 s) : Keeps s0 (State.countTicks s) := by
  unfold State.countTicks
  repeat' (first
    | with_reducible assumption
    | ((try lift_lets -underBinder); intro x; (have hx : Keeps s0 x := ?_); clear_value x; rotate_left; (clear_value (e : x = _); rw [e]; clear e))
    | ((try lift_lets -underBinder); intro x; try clear_value x) | with_reducible apply State.setUnit_keeps
    | (with_reducible refine Keeps.state (KeepsP.of ?_) ?_; on_goal 1 => with_reducible assumption)
    | (with_reducible apply KeepsM.of; with_reducible assumption)
    | (with_reducible refine Keeps.foldl ?_ ?_; on_goal 2 => intro _ _ _) | with_reducible apply Keeps.ite)

theorem State.castVote_keeps {s0 s} (h_s : Keeps s0 s) : Keeps s0 (State.castVote s) := by
  unfold State.castVote
  repeat' (first
    | with_reducible assumption
    | ((try lift_lets -underBinder); intro x; (have hx : Keeps s0 x := ?_); clear_value x; rotate_left; (clear_value (e : x = _); rw [e]; clear e))
    | ((try lift_lets -underBinder); intro x; try clear_value x) | with_reducible apply State.setCommit_keeps
    | (with_reducible refine Keeps.state (KeepsP.of ?_) ?_; on_goal 1 => with_reducible assumption)
    | (with_reducible apply KeepsM.of; with_reducible assumption) | with_reducible apply Keeps.ite
    | with_reducible apply Keeps.ite_fst | with_reducible refine Keeps.of_fst (by with_reducible assumption) ?_
    | with_reducible refine Keeps.of_snd (by with_reducible assumption) ?_
    | with_reducible refine KeepsS.elim (by with_reducible assumption) ?_
    | with_reducible refine KeepsT.elim (by with_reducible assumption) ?_ | split)

theorem State.countFrames_keeps {s0 s} (h_s : Keeps s0 s) : Keeps s0 (State.countFrames s) := by
  unfold State.countFrames
  repeat' (first
    | with_reducible assumption
    | ((try lift_lets -underBinder); intro x; (have hx : Keeps s0 x := ?_); clear_value x; rotate_left; (clear_value (e : x = _); rw [e]; clear e))
    | ((try lift_lets -underBinder); intro x; try clear_value x) | with_reducible apply State.count_keeps
    | (with_reducible refine Keeps.state (KeepsP.of ?_) ?_; on_goal 1 => with_reducible assumption)
    | (with_reducible apply KeepsM.of; with_reducible assumption) | with_reducible apply Keeps.ite)

theorem State.takeWritten_keeps {s0 s} (h_s : Keeps s0 s) : Keeps s0 (State.takeWritten s) := by
  unfold State.takeWritten
  repeat' (first
    | with_reducible assumption | with_reducible apply State.takeSettings_keeps
    | (with_reducible refine Keeps.state (KeepsP.of ?_) ?_; on_goal 1 => with_reducible assumption)
    | (with_reducible refine Keeps.state (KeepsP.of ?_) ?_) | (with_reducible apply KeepsM.of))

theorem State.reserveTick_keeps {s0 s} (h_s : Keeps s0 s) : Keeps s0 (State.reserveTick s) := by
  unfold State.reserveTick
  repeat' (first
    | with_reducible assumption
    | ((try lift_lets -underBinder); intro x; (have hx : Keeps s0 x := ?_); clear_value x; rotate_left; (clear_value (e : x = _); rw [e]; clear e))
    | ((try lift_lets -underBinder); intro x; try clear_value x) | with_reducible apply State.onUnit_keeps
    | (with_reducible refine Keeps.state (KeepsP.of ?_) ?_; on_goal 1 => with_reducible assumption)
    | (with_reducible apply KeepsM.of; with_reducible assumption)
    | (with_reducible refine Keeps.foldl ?_ ?_; on_goal 2 => intro _ _ _) | with_reducible apply Keeps.ite)

theorem State.injectionTick_keeps {s0 s} (h_s : Keeps s0 s) : Keeps s0 (State.injectionTick s) := by
  unfold State.injectionTick
  repeat' (first
    | with_reducible assumption | (with_reducible refine Keeps.state (KeepsP.of ?_) ?_; on_goal 1 => with_reducible assumption)
    | (with_reducible apply KeepsM.of; with_reducible assumption)
    | with_reducible refine Keeps.of_fst (by with_reducible assumption) ?_
    | with_reducible refine Keeps.of_snd (by with_reducible assumption) ?_
    | with_reducible refine KeepsS.elim (by with_reducible assumption) ?_
    | with_reducible refine KeepsT.elim (by with_reducible assumption) ?_ | split)

theorem State.closeFrame_keeps {s0 s} (h_s : Keeps s0 s) : Keeps s0 (State.closeFrame s) := by
  unfold State.closeFrame
  repeat' (first
    | with_reducible assumption
    | ((try lift_lets -underBinder); intro x; (have hx : Keeps s0 x := ?_); clear_value x; rotate_left; (clear_value (e : x = _); rw [e]; clear e))
    | ((try lift_lets -underBinder); intro x; (have hx : KeepsM s0 x := ?_); clear_value x; rotate_left; (clear_value (e : x = _); rw [e]; clear e))
    | ((try lift_lets -underBinder); intro x; try clear_value x) | with_reducible apply State.injectionTick_keeps
    | with_reducible apply State.reserveTick_keeps | with_reducible apply State.takeWritten_keeps
    | with_reducible apply State.countFrames_keeps | with_reducible apply State.castVote_keeps
    | with_reducible apply State.keepSnapshots_keeps | with_reducible apply State.countTicks_keeps
    | with_reducible apply State.overrun_keeps | with_reducible apply State.powerTick_keeps
    | with_reducible apply State.observe_keeps | with_reducible apply State.closeDebt_keeps
    | (with_reducible refine Keeps.state (KeepsP.of ?_) ?_; on_goal 1 => with_reducible assumption)
    | (with_reducible apply KeepsM.of; with_reducible assumption) | (with_reducible apply KeepsM.memory)
    | (with_reducible refine KeepsH.of ?_; with_reducible assumption)
    | (with_reducible refine KeepsO.of ?_; with_reducible assumption) | with_reducible exact KeepsH.empty
    | with_reducible exact KeepsO.empty | (with_reducible refine Keeps.foldl ?_ ?_; on_goal 2 => intro _ _ _)
    | with_reducible apply Keeps.ite)

theorem State.endProgram_keeps {s0 s reason halt} (h_s : Keeps s0 s) : Keeps s0 (State.endProgram s reason halt) := by
  unfold State.endProgram
  repeat' (first
    | with_reducible assumption
    | ((try lift_lets -underBinder); intro x; (have hx : Keeps s0 x := ?_); clear_value x; rotate_left; (clear_value (e : x = _); rw [e]; clear e))
    | ((try lift_lets -underBinder); intro x; (have hx : KeepsM s0 x := ?_); clear_value x; rotate_left; (clear_value (e : x = _); rw [e]; clear e))
    | ((try lift_lets -underBinder); intro x; try clear_value x) | with_reducible apply State.onUnit_keeps
    | with_reducible apply State.put_keeps | with_reducible apply State.settle_keeps | with_reducible apply State.setCommit_keeps
    | (with_reducible refine Keeps.state (KeepsP.of ?_) ?_; on_goal 1 => with_reducible assumption)
    | (with_reducible apply KeepsM.of; with_reducible assumption) | (with_reducible apply KeepsM.memory)
    | (with_reducible refine KeepsH.of ?_; with_reducible assumption)
    | (with_reducible refine KeepsO.of ?_; with_reducible assumption) | with_reducible exact KeepsH.empty
    | with_reducible exact KeepsO.empty | (with_reducible refine Keeps.foldl ?_ ?_; on_goal 2 => intro _ _ _)
    | with_reducible apply Keeps.ite)

theorem State.openStream_keeps {s0 s f j frames} (h_s : Keeps s0 s) : Keeps s0 (State.openStream s f j frames) := by
  unfold State.openStream
  repeat' (first
    | with_reducible assumption | with_reducible apply State.put_keeps
    | (with_reducible refine Keeps.state (KeepsP.of ?_) ?_; on_goal 1 => with_reducible assumption)
    | (with_reducible refine Keeps.state (KeepsP.of ?_) ?_) | (with_reducible apply KeepsM.of))

theorem State.openWait_keeps {s0 s f keep} (h_s : Keeps s0 s) : Keeps s0 (State.openWait s f keep) := by
  unfold State.openWait
  repeat' (first
    | with_reducible assumption
    | ((try lift_lets -underBinder); intro x; (have hx : Keeps s0 x := ?_); clear_value x; rotate_left; (clear_value (e : x = _); rw [e]; clear e))
    | ((try lift_lets -underBinder); intro x; try clear_value x) | with_reducible apply State.put_keeps
    | (with_reducible refine Keeps.state (KeepsP.of ?_) ?_; on_goal 1 => with_reducible assumption)
    | (with_reducible apply KeepsM.of; with_reducible assumption))

theorem State.openStep_keeps {s0 s} (h_s : Keeps s0 s) : Keeps s0 (State.openStep s) := by
  unfold State.openStep
  repeat' (first
    | with_reducible assumption
    | ((try lift_lets -underBinder); intro x; (have hx : Keeps s0 x := ?_); clear_value x; rotate_left; (clear_value (e : x = _); rw [e]; clear e))
    | ((try lift_lets -underBinder); intro x; try clear_value x) | with_reducible apply State.setCommit_keeps
    | with_reducible apply State.openExps_keeps | with_reducible apply State.abortStep_keeps
    | (with_reducible refine Keeps.state (KeepsP.of ?_) ?_; on_goal 1 => with_reducible assumption)
    | (with_reducible apply KeepsM.of; with_reducible assumption)
    | with_reducible refine Keeps.of_fst (by with_reducible assumption) ?_
    | with_reducible refine Keeps.of_snd (by with_reducible assumption) ?_
    | with_reducible refine KeepsS.elim (by with_reducible assumption) ?_
    | with_reducible refine KeepsT.elim (by with_reducible assumption) ?_ | split)

theorem State.openProgram_keeps {s0 s f} (h_s : Keeps s0 s) : Keeps s0 (State.openProgram s f) := by
  unfold State.openProgram
  repeat' (first
    | with_reducible assumption
    | ((try lift_lets -underBinder); intro x; (have hx : Keeps s0 x := ?_); clear_value x; rotate_left; (clear_value (e : x = _); rw [e]; clear e))
    | ((try lift_lets -underBinder); intro x; try clear_value x) | with_reducible apply State.put_keeps
    | with_reducible apply State.openWait_keeps | with_reducible apply State.beginFill_keeps
    | with_reducible apply State.openStep_keeps | with_reducible apply State.openStream_keeps
    | with_reducible apply State.setCommit_keeps
    | (with_reducible refine Keeps.state (KeepsP.of ?_) ?_; on_goal 1 => with_reducible assumption)
    | (with_reducible apply KeepsM.of; with_reducible assumption) | with_reducible apply Keeps.ite)

theorem State.poisonAhead_keeps {s0 s} (h_s : Keeps s0 s) : Keeps s0 (State.poisonAhead s) := by
  unfold State.poisonAhead
  repeat' (first
    | with_reducible assumption | with_reducible apply State.sendPoison_keeps
    | (with_reducible refine Keeps.state (KeepsP.of ?_) ?_; on_goal 1 => with_reducible assumption)
    | with_reducible apply Keeps.ite | with_reducible refine Keeps.of_fst (by with_reducible assumption) ?_
    | with_reducible refine Keeps.of_snd (by with_reducible assumption) ?_
    | with_reducible refine KeepsS.elim (by with_reducible assumption) ?_
    | with_reducible refine KeepsT.elim (by with_reducible assumption) ?_ | split)

theorem State.openFrame_keeps {s0 s} (h_s : Keeps s0 s) : Keeps s0 (State.openFrame s) := by
  unfold State.openFrame
  repeat' (first
    | with_reducible assumption
    | ((try lift_lets -underBinder); intro x; (have hx : Keeps s0 x := ?_); clear_value x; rotate_left; (clear_value (e : x = _); rw [e]; clear e))
    | ((try lift_lets -underBinder); intro x; try clear_value x) | with_reducible apply State.put_keeps
    | with_reducible apply State.endProgram_keeps | with_reducible apply State.poisonAhead_keeps
    | with_reducible apply State.openProgram_keeps | with_reducible apply State.count_keeps
    | with_reducible apply State.openWait_keeps | with_reducible apply State.openStep_keeps
    | with_reducible apply State.openStream_keeps
    | (with_reducible refine Keeps.state (KeepsP.of ?_) ?_; on_goal 1 => with_reducible assumption)
    | (with_reducible apply KeepsM.of; with_reducible assumption) | with_reducible apply Keeps.ite
    | with_reducible refine Keeps.of_fst (by with_reducible assumption) ?_
    | with_reducible refine Keeps.of_snd (by with_reducible assumption) ?_
    | with_reducible refine KeepsS.elim (by with_reducible assumption) ?_
    | with_reducible refine KeepsT.elim (by with_reducible assumption) ?_ | split)

theorem State.turnFrame_keeps {s0 s} (h_s : Keeps s0 s) : Keeps s0 (State.turnFrame s) := by
  unfold State.turnFrame
  repeat' (first
    | with_reducible assumption
    | ((try lift_lets -underBinder); intro x; (have hx : Keeps s0 x := ?_); clear_value x; rotate_left; (clear_value (e : x = _); rw [e]; clear e))
    | ((try lift_lets -underBinder); intro x; try clear_value x) | with_reducible apply State.keepUp_keeps
    | with_reducible apply State.takePlan_keeps | with_reducible apply State.syncTick_keeps
    | (with_reducible refine Keeps.state (KeepsP.of ?_) ?_; on_goal 1 => with_reducible assumption)
    | (with_reducible apply KeepsM.of; with_reducible assumption))

theorem State.restorePorts_keeps {s0 s} (h_s : Keeps s0 s) : Keeps s0 (State.restorePorts s) := by
  unfold State.restorePorts
  repeat' (first
    | with_reducible assumption | ((try lift_lets -underBinder); intro x; try clear_value x)
    | with_reducible apply State.setPort_keeps
    | (with_reducible refine Keeps.state (KeepsP.of ?_) ?_; on_goal 1 => with_reducible assumption)
    | (with_reducible refine Keeps.foldl ?_ ?_; on_goal 2 => intro _ _ _) | with_reducible apply Keeps.ite)

theorem frameTick_keeps {s0 s} (h_s : Keeps s0 s) : Keeps s0 (frameTick s) := by
  unfold frameTick
  repeat' (first
    | with_reducible assumption
    | ((try lift_lets -underBinder); intro x; (have hx : Keeps s0 x := ?_); clear_value x; rotate_left; (clear_value (e : x = _); rw [e]; clear e))
    | with_reducible apply streamFetch_keeps | with_reducible apply State.fallback_keeps
    | with_reducible apply State.openFrame_keeps | with_reducible apply State.turnFrame_keeps
    | with_reducible apply State.closeFrame_keeps | with_reducible apply State.tickReplay_keeps
    | with_reducible apply State.openReplay_keeps | with_reducible apply State.plicAll_keeps
    | with_reducible apply State.publishSlots_keeps | with_reducible apply State.restartStitch_keeps
    | with_reducible apply State.restorePorts_keeps | with_reducible apply State.relock_keeps
    | with_reducible apply State.sendHeartbeats_keeps | with_reducible apply Keeps.ite)

theorem execFrameTick_keeps {s0 s} (h_s : Keeps s0 s) : KeepsNext s0 (execFrameTick s) := by
  unfold execFrameTick
  repeat' (first | with_reducible assumption | with_reducible apply goOn_keeps | with_reducible apply frameTick_keeps)

theorem requestRepair_keeps {s0 request s} (h_s : Keeps s0 s) : Keeps s0 (requestRepair request s).1 := by
  unfold requestRepair
  repeat' (first
    | with_reducible assumption
    | ((try lift_lets -underBinder); intro x; (have hx : KeepsM s0 x := ?_); clear_value x; rotate_left; (clear_value (e : x = _); rw [e]; clear e))
    | ((try lift_lets -underBinder); intro x; try clear_value x) | with_reducible apply State.put_keeps
    | (with_reducible refine Keeps.state (KeepsP.of ?_) ?_; on_goal 1 => with_reducible assumption)
    | (with_reducible apply KeepsM.of; with_reducible assumption) | (with_reducible apply KeepsM.memory)
    | (with_reducible refine KeepsH.of ?_; with_reducible assumption)
    | (with_reducible refine KeepsO.of ?_; with_reducible assumption) | with_reducible exact KeepsH.empty
    | with_reducible exact KeepsO.empty | with_reducible apply Keeps.ite | with_reducible apply Keeps.ite_fst)

theorem evacuated_keeps {s0 s} (h_s : Keeps s0 s) : Keeps s0 (evacuated s) := by
  unfold evacuated
  repeat' (first
    | with_reducible assumption | (with_reducible refine Keeps.state (KeepsP.of ?_) ?_; on_goal 1 => with_reducible assumption)
    | (with_reducible apply KeepsM.memory) | (with_reducible refine KeepsH.of (KeepsM.of ?_); with_reducible assumption)
    | (with_reducible refine KeepsO.of (KeepsM.of ?_); with_reducible assumption) | with_reducible exact KeepsH.empty
    | with_reducible exact KeepsO.empty | with_reducible apply Keeps.ite
    | with_reducible refine Keeps.of_fst (by with_reducible assumption) ?_
    | with_reducible refine Keeps.of_snd (by with_reducible assumption) ?_
    | with_reducible refine KeepsS.elim (by with_reducible assumption) ?_
    | with_reducible refine KeepsT.elim (by with_reducible assumption) ?_ | split)

theorem execRepairEvacuationDone_keeps {s0 s} (h_s : Keeps s0 s) : KeepsNext s0 (execRepairEvacuationDone s) := by
  unfold execRepairEvacuationDone
  repeat' (first | with_reducible assumption | with_reducible apply goOn_keeps | with_reducible apply evacuated_keeps)

theorem softRepair_keeps {s0 s} (h_s : Keeps s0 s) : Keeps s0 (softRepair s) := by
  unfold softRepair
  repeat' (first
    | with_reducible assumption | with_reducible apply State.put_keeps
    | (with_reducible refine Keeps.state (KeepsP.of ?_) ?_; on_goal 1 => with_reducible assumption)
    | (with_reducible apply KeepsM.memory) | (with_reducible refine KeepsH.of (KeepsM.of ?_); with_reducible assumption)
    | (with_reducible refine KeepsO.of (KeepsM.of ?_); with_reducible assumption) | with_reducible exact KeepsH.empty
    | with_reducible exact KeepsO.empty | with_reducible apply Keeps.ite
    | with_reducible refine Keeps.of_fst (by with_reducible assumption) ?_
    | with_reducible refine Keeps.of_snd (by with_reducible assumption) ?_
    | with_reducible refine KeepsS.elim (by with_reducible assumption) ?_
    | with_reducible refine KeepsT.elim (by with_reducible assumption) ?_ | split
    | (with_reducible refine Keeps.state (KeepsP.of ?_) ?_))

theorem execRepairSoft_keeps {s0 s} (h_s : Keeps s0 s) : KeepsNext s0 (execRepairSoft s) := by
  unfold execRepairSoft
  repeat' (first | with_reducible assumption | with_reducible apply goOn_keeps | with_reducible apply softRepair_keeps)

theorem State.recountRepairs_keeps {s0 s k} (h_s : Keeps s0 s) : Keeps s0 (State.recountRepairs s k) := by
  unfold State.recountRepairs
  repeat' (first | with_reducible assumption | with_reducible apply State.put_keeps)

theorem State.recordRepair_keeps {s0 s r} (h_s : Keeps s0 s) : Keeps s0 (State.recordRepair s r) := by
  unfold State.recordRepair
  repeat' (first
    | with_reducible assumption
    | ((try lift_lets -underBinder); intro x; (have hx : Keeps s0 x := ?_); clear_value x; rotate_left; (clear_value (e : x = _); rw [e]; clear e))
    | ((try lift_lets -underBinder); intro x; (have hx : KeepsM s0 x := ?_); clear_value x; rotate_left; (clear_value (e : x = _); rw [e]; clear e))
    | ((try lift_lets -underBinder); intro x; try clear_value x) | with_reducible apply State.recountRepairs_keeps
    | with_reducible apply State.put_keeps
    | (with_reducible refine Keeps.state (KeepsP.of ?_) ?_; on_goal 1 => with_reducible assumption)
    | (with_reducible apply KeepsM.of; with_reducible assumption) | (with_reducible apply KeepsM.memory)
    | (with_reducible refine KeepsH.of ?_; with_reducible assumption)
    | (with_reducible refine KeepsO.of ?_; with_reducible assumption) | with_reducible exact KeepsH.empty
    | with_reducible exact KeepsO.empty | with_reducible apply Keeps.ite)

theorem restored_keeps {s0 s} (h_s : Keeps s0 s) : Keeps s0 (restored s) := by
  unfold restored
  repeat' (first
    | with_reducible assumption
    | ((try lift_lets -underBinder); intro x; (have hx : Keeps s0 x := ?_); clear_value x; rotate_left; (clear_value (e : x = _); rw [e]; clear e))
    | ((try lift_lets -underBinder); intro x; (have hx : KeepsM s0 x := ?_); clear_value x; rotate_left; (clear_value (e : x = _); rw [e]; clear e))
    | with_reducible apply State.put_keeps | with_reducible apply State.recordRepair_keeps | with_reducible apply evacuated_keeps
    | (with_reducible refine Keeps.state (KeepsP.of ?_) ?_; on_goal 1 => with_reducible assumption)
    | (with_reducible apply KeepsM.of; with_reducible assumption) | (with_reducible apply KeepsM.memory)
    | (with_reducible refine KeepsH.of ?_; with_reducible assumption)
    | (with_reducible refine KeepsO.of ?_; with_reducible assumption) | with_reducible exact KeepsH.empty
    | with_reducible exact KeepsO.empty | with_reducible apply Keeps.ite
    | with_reducible refine Keeps.of_fst (by with_reducible assumption) ?_
    | with_reducible refine Keeps.of_snd (by with_reducible assumption) ?_
    | with_reducible refine KeepsS.elim (by with_reducible assumption) ?_
    | with_reducible refine KeepsT.elim (by with_reducible assumption) ?_ | split)

theorem execRepairRestoreDone_keeps {s0 s} (h_s : Keeps s0 s) : KeepsNext s0 (execRepairRestoreDone s) := by
  unfold execRepairRestoreDone
  repeat' (first | with_reducible assumption | with_reducible apply goOn_keeps | with_reducible apply restored_keeps)

theorem repairEnds_keeps {s0 spare repaired s} (h_s : Keeps s0 s) : Keeps s0 (repairEnds spare repaired s) := by
  unfold repairEnds
  repeat' (first
    | with_reducible assumption
    | ((try lift_lets -underBinder); intro x; (have hx : Keeps s0 x := ?_); clear_value x; rotate_left; (clear_value (e : x = _); rw [e]; clear e))
    | ((try lift_lets -underBinder); intro x; (have hx : KeepsM s0 x := ?_); clear_value x; rotate_left; (clear_value (e : x = _); rw [e]; clear e))
    | with_reducible apply State.put_keeps | with_reducible apply Mem.havoc_keeps | with_reducible apply State.recordRepair_keeps
    | (with_reducible refine Keeps.state (KeepsP.of ?_) ?_; on_goal 1 => with_reducible assumption)
    | (with_reducible apply KeepsM.of; with_reducible assumption) | (with_reducible apply KeepsM.memory)
    | (with_reducible refine KeepsH.of ?_; with_reducible assumption)
    | (with_reducible refine KeepsH.of (KeepsM.of ?_); with_reducible assumption)
    | (with_reducible refine KeepsO.of ?_; with_reducible assumption) | with_reducible exact KeepsH.empty
    | with_reducible exact KeepsO.empty | (with_reducible refine Keeps.foldl ?_ ?_; on_goal 2 => intro _ _ _)
    | with_reducible apply Keeps.ite | with_reducible refine Keeps.of_fst (by with_reducible assumption) ?_
    | with_reducible refine Keeps.of_snd (by with_reducible assumption) ?_
    | with_reducible refine KeepsS.elim (by with_reducible assumption) ?_
    | with_reducible refine KeepsT.elim (by with_reducible assumption) ?_ | split)

theorem execRepairComplete_keeps {s0 spare repaired s} (h_s : Keeps s0 s) : KeepsNext s0 (execRepairComplete spare repaired s) := by
  unfold execRepairComplete
  repeat' (first | with_reducible assumption | with_reducible apply goOn_keeps | with_reducible apply repairEnds_keeps)

theorem nameBlock_keeps {s0 a0 s} (h_s : Keeps s0 s) : Keeps s0 (nameBlock a0 s).1 := by
  unfold nameBlock
  repeat' (first
    | with_reducible assumption | with_reducible apply State.put_keeps | with_reducible apply Keeps.ite
    | with_reducible apply Keeps.ite_fst)

theorem translateAddress_keeps {s0 a0 s} (h_s : Keeps s0 s) : Keeps s0 (translateAddress a0 s).1 := by
  unfold translateAddress
  repeat' (first
    | with_reducible assumption | with_reducible apply State.put_keeps | with_reducible apply Keeps.ite
    | with_reducible apply Keeps.ite_fst)

theorem State.updateCommand_keeps {s0 s allowed f} (h_s : Keeps s0 s) (h_f : ∀ x0, Keeps s0 x0 → Keeps s0 (f x0).1) : Keeps s0 (State.updateCommand s allowed f).1 := by
  unfold State.updateCommand
  repeat' (first
    | with_reducible assumption | with_reducible apply h_f | with_reducible apply Keeps.ite | with_reducible apply Keeps.ite_fst)

theorem updateVerify_keeps {s0 s} (h_s : Keeps s0 s) : Keeps s0 (updateVerify s).1 := by
  unfold updateVerify
  repeat' (first
    | with_reducible assumption | ((try lift_lets -underBinder); intro x; try clear_value x)
    | with_reducible apply State.updateCommand_keeps | with_reducible apply State.put_keeps
    | (with_reducible refine Keeps.state (KeepsP.of ?_) ?_; on_goal 1 => with_reducible assumption)
    | (with_reducible apply KeepsM.of; with_reducible assumption))

theorem verifyComplete_keeps {s0 s} (h_s : Keeps s0 s) : Keeps s0 (verifyComplete s) := by
  unfold verifyComplete
  repeat' (first
    | with_reducible assumption | with_reducible apply State.put_keeps
    | (with_reducible refine Keeps.state (KeepsP.of ?_) ?_; on_goal 1 => with_reducible assumption)
    | (with_reducible apply KeepsM.of; with_reducible assumption) | split)

theorem execVerifyComplete_keeps {s0 s} (h_s : Keeps s0 s) : KeepsNext s0 (execVerifyComplete s) := by
  unfold execVerifyComplete
  repeat' (first | with_reducible assumption | with_reducible apply goOn_keeps | with_reducible apply verifyComplete_keeps)

theorem updateInstall_keeps {s0 s} (h_s : Keeps s0 s) : Keeps s0 (updateInstall s).1 := by
  unfold updateInstall
  repeat' (first
    | with_reducible assumption | with_reducible apply State.updateCommand_keeps | with_reducible apply State.put_keeps
    | with_reducible apply State.setSlot_keeps
    | (with_reducible refine Keeps.state (KeepsP.of ?_) ?_; on_goal 1 => with_reducible assumption)
    | (with_reducible apply KeepsM.of; with_reducible assumption) | (with_reducible refine Keeps.state (KeepsP.of ?_) ?_)
    | (with_reducible apply KeepsM.of) | intro _)

theorem installComplete_keeps {s0 s} (h_s : Keeps s0 s) : Keeps s0 (installComplete s) := by
  unfold installComplete
  repeat' (first
    | with_reducible assumption
    | ((try lift_lets -underBinder); intro x; (have hx : Keeps s0 x := ?_); clear_value x; rotate_left; (clear_value (e : x = _); rw [e]; clear e))
    | with_reducible apply State.put_keeps | with_reducible apply State.setSlot_keeps | with_reducible apply State.boot_keeps
    | (with_reducible refine Keeps.state (KeepsP.of ?_) ?_; on_goal 1 => with_reducible assumption)
    | with_reducible apply Keeps.ite | split)

theorem execInstallComplete_keeps {s0 s} (h_s : Keeps s0 s) : KeepsNext s0 (execInstallComplete s) := by
  unfold execInstallComplete
  repeat' (first | with_reducible assumption | with_reducible apply goOn_keeps | with_reducible apply installComplete_keeps)

theorem State.activate_keeps {s0 s back} (h_s : Keeps s0 s) : Keeps s0 (State.activate s back) := by
  unfold State.activate
  repeat' (first
    | with_reducible assumption | with_reducible apply State.put_keeps
    | (with_reducible refine Keeps.state (KeepsP.of ?_) ?_; on_goal 1 => with_reducible assumption)
    | (with_reducible apply KeepsM.of; with_reducible assumption))

theorem updateActivate_keeps {s0 s} (h_s : Keeps s0 s) : Keeps s0 (updateActivate s).1 := by
  unfold updateActivate
  repeat' (first
    | with_reducible assumption | with_reducible apply State.updateCommand_keeps | with_reducible apply State.activate_keeps
    | intro _)

theorem updateRevert_keeps {s0 s} (h_s : Keeps s0 s) : Keeps s0 (updateRevert s).1 := by
  unfold updateRevert
  repeat' (first
    | with_reducible assumption | with_reducible apply State.updateCommand_keeps | with_reducible apply State.activate_keeps
    | with_reducible apply Keeps.ite | with_reducible apply Keeps.ite_fst | split | intro _)

theorem updateCommit_keeps {s0 s} (h_s : Keeps s0 s) : Keeps s0 (updateCommit s).1 := by
  unfold updateCommit
  repeat' (first
    | with_reducible assumption
    | ((try lift_lets -underBinder); intro x; (have hx : Keeps s0 x := ?_); clear_value x; rotate_left; (clear_value (e : x = _); rw [e]; clear e))
    | ((try lift_lets -underBinder); intro x; try clear_value x) | with_reducible apply State.updateCommand_keeps
    | with_reducible apply State.setSlot_keeps | with_reducible apply State.put_keeps
    | (with_reducible refine Keeps.state (KeepsP.of ?_) ?_; on_goal 1 => with_reducible assumption)
    | with_reducible apply Keeps.ite | with_reducible apply Keeps.ite_fst
    | with_reducible refine Keeps.of_fst (by with_reducible assumption) ?_
    | with_reducible refine Keeps.of_snd (by with_reducible assumption) ?_
    | with_reducible refine KeepsS.elim (by with_reducible assumption) ?_
    | with_reducible refine KeepsT.elim (by with_reducible assumption) ?_ | split)

theorem updateAbandon_keeps {s0 s} (h_s : Keeps s0 s) : Keeps s0 (updateAbandon s).1 := by
  unfold updateAbandon
  repeat' (first
    | with_reducible assumption
    | ((try lift_lets -underBinder); intro x; (have hx : Keeps s0 x := ?_); clear_value x; rotate_left; (clear_value (e : x = _); rw [e]; clear e))
    | ((try lift_lets -underBinder); intro x; try clear_value x) | with_reducible apply State.updateCommand_keeps
    | with_reducible apply State.setSlot_keeps | with_reducible apply State.put_keeps
    | (with_reducible refine Keeps.state (KeepsP.of ?_) ?_; on_goal 1 => with_reducible assumption)
    | (with_reducible apply KeepsM.of; with_reducible assumption) | with_reducible apply Keeps.ite)

theorem State.switchBanks_keeps {s0 s l} (h_s : Keeps s0 s) : Keeps s0 (State.switchBanks s l) :=
  ⟨h_s.queue, h_s.wf⟩

theorem State.readBack_keeps {s0 s} (l : List Nat) (h_s : Keeps s0 s) : Keeps s0 (State.readBack s l).1 := by
  induction l generalizing s with
  | nil => exact h_s
  | cons u l ih =>
    simp only [State.readBack]
    split
    · exact State.chance_keeps h_s
    · exact ih (State.chance_keeps h_s)

theorem State.stopActivation_keeps {s0 s k u} (h_s : Keeps s0 s) : Keeps s0 (State.stopActivation s k u) :=
  State.put_keeps (State.put_keeps ⟨h_s.queue, h_s.wf⟩)

theorem State.switchNext_keeps {s0 s k} (h_s : Keeps s0 s) : Keeps s0 (State.switchNext s k) := by
  have h := State.readBack_keeps (s.quiescent s.security.loading) h_s
  simp only [State.switchNext]
  split <;> rename_i e <;> rw [e] at h
  · exact State.switchBanks_keeps h
  · exact State.stopActivation_keeps h

theorem State.returnNext_keeps {s0 s} (h_s : Keeps s0 s) : Keeps s0 (State.returnNext s) :=
  ⟨h_s.queue, h_s.wf⟩

theorem State.restartCluster_keeps {s0 s d} (h_s : Keeps s0 s) : Keeps s0 (State.restartCluster s d) := by
  unfold State.restartCluster
  repeat' (first
    | with_reducible assumption
    | ((try lift_lets -underBinder); intro x; (have hx : Keeps s0 x := ?_); clear_value x; rotate_left; (clear_value (e : x = _); rw [e]; clear e))
    | ((try lift_lets -underBinder); intro x; try clear_value x) | with_reducible apply State.clearCluster_keeps
    | (with_reducible refine Keeps.state (KeepsP.of ?_) ?_; on_goal 1 => with_reducible assumption)
    | (with_reducible apply KeepsM.of; with_reducible assumption))

theorem State.atStep_keeps {s0 s n k back} (h_s : Keeps s0 s) : Keeps s0 (State.atStep s n k back) :=
  ⟨h_s.queue, h_s.wf⟩

theorem State.activated_keeps {s0 s k back} (h_s : Keeps s0 s) : Keeps s0 (State.activated s k back) := by
  unfold State.activated
  repeat' (first
    | with_reducible assumption | ((try lift_lets -underBinder); intro x; try clear_value x)
    | with_reducible apply State.put_keeps
    | (with_reducible refine Keeps.state (KeepsP.of ?_) ?_; on_goal 1 => with_reducible assumption)
    | (with_reducible apply KeepsM.of; with_reducible assumption))

theorem State.nextTables_keeps {s0 s k} (h_s : Keeps s0 s) : Keeps s0 (State.nextTables s k) :=
  ⟨h_s.queue, h_s.wf⟩

theorem activateStep_keeps {s0 s} (h_s : Keeps s0 s) : Keeps s0 (activateStep s) := by
  unfold activateStep
  repeat' (first
    | with_reducible assumption | with_reducible apply State.atStep_keeps | with_reducible apply State.measureSet_keeps
    | with_reducible apply State.nextTables_keeps | with_reducible apply State.switchNext_keeps
    | with_reducible apply State.returnNext_keeps
    | with_reducible apply State.restartCluster_keeps | with_reducible apply State.activated_keeps
    | (with_reducible refine Keeps.state (KeepsP.of ?_) ?_; on_goal 1 => with_reducible assumption)
    | (with_reducible apply KeepsM.of; with_reducible assumption) | with_reducible apply Keeps.ite
    | with_reducible refine Keeps.of_fst (by with_reducible assumption) ?_
    | with_reducible refine Keeps.of_snd (by with_reducible assumption) ?_
    | with_reducible refine KeepsS.elim (by with_reducible assumption) ?_
    | with_reducible refine KeepsT.elim (by with_reducible assumption) ?_ | split)

theorem execActivateStep_keeps {s0 s} (h_s : Keeps s0 s) : KeepsNext s0 (execActivateStep s) := by
  unfold execActivateStep
  repeat' (first | with_reducible assumption | with_reducible apply goOn_keeps | with_reducible apply activateStep_keeps)

theorem storeSettings_keeps {s0 v s} (h_s : Keeps s0 s) : Keeps s0 (storeSettings v s).1 := by
  unfold storeSettings
  repeat' (first
    | with_reducible assumption | (with_reducible refine Keeps.state (KeepsP.of ?_) ?_; on_goal 1 => with_reducible assumption)
    | (with_reducible apply KeepsM.of; with_reducible assumption) | with_reducible apply Keeps.ite
    | with_reducible apply Keeps.ite_fst)

theorem restoreDefaults_keeps {s0 v s} (h_s : Keeps s0 s) : Keeps s0 (restoreDefaults v s).1 := by
  unfold restoreDefaults
  repeat' (first
    | with_reducible assumption | (with_reducible refine Keeps.state (KeepsP.of ?_) ?_; on_goal 1 => with_reducible assumption)
    | (with_reducible apply KeepsM.of; with_reducible assumption) | with_reducible apply Keeps.ite
    | with_reducible apply Keeps.ite_fst)

theorem startQuote_keeps {s0 nonce s} (h_s : Keeps s0 s) : Keeps s0 (startQuote nonce s).1 := by
  unfold startQuote
  repeat' (first
    | with_reducible assumption | with_reducible apply State.put_keeps
    | (with_reducible refine Keeps.state (KeepsP.of ?_) ?_; on_goal 1 => with_reducible assumption)
    | (with_reducible apply KeepsM.of; with_reducible assumption) | with_reducible apply Keeps.ite
    | with_reducible apply Keeps.ite_fst)

theorem quoteComplete_keeps {s0 s} (h_s : Keeps s0 s) : Keeps s0 (quoteComplete s) := by
  unfold quoteComplete
  repeat' (first
    | with_reducible assumption | with_reducible apply State.put_keeps
    | (with_reducible refine Keeps.state (KeepsP.of ?_) ?_; on_goal 1 => with_reducible assumption)
    | (with_reducible apply KeepsM.of; with_reducible assumption)
    | with_reducible refine Keeps.of_fst (by with_reducible assumption) ?_
    | with_reducible refine Keeps.of_snd (by with_reducible assumption) ?_
    | with_reducible refine KeepsS.elim (by with_reducible assumption) ?_
    | with_reducible refine KeepsT.elim (by with_reducible assumption) ?_ | split)

theorem execQuoteComplete_keeps {s0 s} (h_s : Keeps s0 s) : KeepsNext s0 (execQuoteComplete s) := by
  unfold execQuoteComplete
  repeat' (first | with_reducible assumption | with_reducible apply goOn_keeps | with_reducible apply quoteComplete_keeps)

theorem maintenanceMode_keeps {s0 v s} (h_s : Keeps s0 s) : Keeps s0 (maintenanceMode v s).1 := by
  unfold maintenanceMode
  repeat' (first
    | with_reducible assumption | with_reducible apply State.put_keeps | with_reducible apply Keeps.ite
    | with_reducible apply Keeps.ite_fst)

theorem factoryToken_keeps {s0 token s} (h_s : Keeps s0 s) : Keeps s0 (factoryToken token s).1 := by
  unfold factoryToken
  repeat' (first
    | with_reducible assumption | with_reducible apply State.put_keeps | with_reducible apply Keeps.ite
    | with_reducible apply Keeps.ite_fst)

theorem holdStep_keeps {s0 v s} (h_s : Keeps s0 s) : Keeps s0 (holdStep v s).1 := by
  unfold holdStep
  repeat' (first
    | with_reducible assumption | (with_reducible refine Keeps.state (KeepsP.of ?_) ?_; on_goal 1 => with_reducible assumption)
    | (with_reducible apply KeepsM.of; with_reducible assumption))

theorem holdRelease_keeps {s0 v s} (h_s : Keeps s0 s) : Keeps s0 (holdRelease v s).1 := by
  unfold holdRelease
  repeat' (first
    | with_reducible assumption | (with_reducible refine Keeps.state (KeepsP.of ?_) ?_; on_goal 1 => with_reducible assumption)
    | (with_reducible apply KeepsM.of; with_reducible assumption) | with_reducible apply Keeps.ite
    | with_reducible apply Keeps.ite_fst)

theorem exportStep_keeps {s0 v s} (h_s : Keeps s0 s) : Keeps s0 (exportStep v s).1 := by
  unfold exportStep
  repeat' (first
    | with_reducible assumption | with_reducible apply State.put_keeps
    | (with_reducible refine Keeps.state (KeepsP.of ?_) ?_; on_goal 1 => with_reducible assumption)
    | (with_reducible apply KeepsM.of; with_reducible assumption))

theorem exportDone_keeps {s0 v s} (h_s : Keeps s0 s) : Keeps s0 (exportDone v s).1 := by
  unfold exportDone
  repeat' (first
    | with_reducible assumption | (with_reducible refine Keeps.state (KeepsP.of ?_) ?_; on_goal 1 => with_reducible assumption)
    | (with_reducible apply KeepsM.of; with_reducible assumption) | with_reducible apply Keeps.ite
    | with_reducible apply Keeps.ite_fst)

theorem State.onInactive_keeps {s0 s f} (h_s : Keeps s0 s) : Keeps s0 (State.onInactive s f) := by
  unfold State.onInactive
  repeat' (first
    | with_reducible assumption | (with_reducible refine Keeps.state (KeepsP.of ?_) ?_; on_goal 1 => with_reducible assumption)
    | (with_reducible apply KeepsM.of; with_reducible assumption) | with_reducible apply Keeps.ite)

theorem State.putNumber_keeps {s0 s index sub v} (h_s : Keeps s0 s) : Keeps s0 (State.putNumber s index sub v) := by
  unfold State.putNumber
  repeat' (first
    | with_reducible assumption
    | ((try lift_lets -underBinder); intro x; (have hx : Keeps s0 x := ?_); clear_value x; rotate_left; (clear_value (e : x = _); rw [e]; clear e))
    | ((try lift_lets -underBinder); intro x; try clear_value x) | with_reducible apply State.put_keeps
    | with_reducible apply State.onInactive_keeps
    | (with_reducible refine Keeps.state (KeepsP.of ?_) ?_; on_goal 1 => with_reducible assumption)
    | (with_reducible apply KeepsM.of; with_reducible assumption) | split)

theorem State.putDomain_keeps {s0 s index sub bytes} (h_s : Keeps s0 s) : Keeps s0 (State.putDomain s index sub bytes) := by
  unfold State.putDomain
  repeat' (first
    | with_reducible assumption | with_reducible apply State.onInactive_keeps
    | (with_reducible refine Keeps.state (KeepsP.of ?_) ?_; on_goal 1 => with_reducible assumption)
    | (with_reducible apply KeepsM.of; with_reducible assumption) | split)

theorem requestSwitch_keeps {s0 v s} (h_s : Keeps s0 s) : Keeps s0 (requestSwitch v s).1 := by
  unfold requestSwitch
  repeat' (first
    | with_reducible assumption | with_reducible apply State.put_keeps
    | (with_reducible refine Keeps.state (KeepsP.of ?_) ?_; on_goal 1 => with_reducible assumption)
    | (with_reducible refine Keeps.state (KeepsP.of ?_) ?_) | (with_reducible apply KeepsM.of))

theorem releaseFence_keeps {s0 v s} (h_s : Keeps s0 s) : Keeps s0 (releaseFence v s).1 := by
  unfold releaseFence
  repeat' (first | with_reducible assumption | with_reducible apply State.put_keeps | with_reducible apply Keeps.ite)

theorem requestCensus_keeps {s0 v s} (h_s : Keeps s0 s) : Keeps s0 (requestCensus v s).1 := by
  unfold requestCensus
  repeat' (first | with_reducible assumption | with_reducible apply State.startCensus_keeps | with_reducible apply Keeps.ite)

theorem updateOf_keeps {s0 v s} (h_s : Keeps s0 s) : Keeps s0 (updateOf v s).1 := by
  unfold updateOf
  repeat' (first
    | with_reducible assumption | with_reducible apply updateVerify_keeps | with_reducible apply updateInstall_keeps
    | with_reducible apply updateActivate_keeps | with_reducible apply updateRevert_keeps
    | with_reducible apply updateCommit_keeps | with_reducible apply updateAbandon_keeps
    | (with_reducible refine Keeps.state (KeepsP.of ?_) ?_; on_goal 1 => with_reducible assumption) | split)

theorem asBool_keeps {s0 f v s} (h_f : ∀ x0 x1, Keeps s0 x1 → Keeps s0 (f x0 x1).1) (h_s : Keeps s0 s) : Keeps s0 (asBool f v s).1 := by
  unfold asBool
  repeat' (first
    | with_reducible assumption | with_reducible apply h_f | with_reducible apply Keeps.ite | with_reducible apply Keeps.ite_fst)

theorem numberBehaviour_keeps {s0 index sub f n s} (e : numberBehaviour index sub = some f) (h : Keeps s0 s) :
    Keeps s0 (f n s).1 := by
  unfold numberBehaviour at e
  split at e <;> cases e
  all_goals first
      | with_reducible exact storeSettings_keeps h | with_reducible exact restoreDefaults_keeps h
      | with_reducible exact requestFrondReset_keeps h | with_reducible exact requestClusterReset_keeps h
      | with_reducible exact harvestDump_keeps h | with_reducible exact nameBlock_keeps h
      | with_reducible exact translateAddress_keeps h | with_reducible exact requestSwitch_keeps h
      | with_reducible exact restorePort_keeps h | with_reducible exact programCommand_keeps h
      | with_reducible exact resolveStep_keeps h | with_reducible exact exportStep_keeps h
      | with_reducible exact maintenanceMode_keeps h | with_reducible exact holdStep_keeps h
      | with_reducible exact updateOf_keeps h | with_reducible apply asBool_keeps _ h
  all_goals
    intro _ _ k
    first
      | with_reducible exact clearFault_keeps k | with_reducible exact requestModuleReset_keeps k
      | with_reducible exact requestDump_keeps k | with_reducible exact releaseFence_keeps k
      | with_reducible exact requestCensus_keeps k | with_reducible exact armTracking_keeps k
      | with_reducible exact resumeFill_keeps k | with_reducible exact reEncodeParity_keeps k
      | with_reducible exact exportDone_keeps k | with_reducible exact holdRelease_keeps k

theorem bytesBehaviour_keeps {s0 index sub f n s} (e : bytesBehaviour index sub = some f) (h : Keeps s0 s) :
    Keeps s0 (f n s).1 := by
  unfold bytesBehaviour at e
  split at e <;> cases e
  exacts [requestRepair_keeps h, restoreOwn_keeps h, startQuote_keeps h, factoryToken_keeps h, requestInjection_keeps h]

theorem State.store_keeps {s0 s index sub bytes} (h_s : Keeps s0 s) : Keeps s0 (State.store s index sub bytes).1 := by
  unfold State.store
  repeat' (first
    | with_reducible assumption | ((try lift_lets -underBinder); intro x; try clear_value x)
    | with_reducible apply numberBehaviour_keeps | with_reducible apply State.putNumber_keeps
    | with_reducible apply bytesBehaviour_keeps | with_reducible apply State.putDomain_keeps
    | (with_reducible refine Keeps.state (KeepsP.of ?_) ?_; on_goal 1 => with_reducible assumption)
    | with_reducible apply Keeps.ite | with_reducible apply Keeps.ite_fst
    | with_reducible refine Keeps.of_fst (by with_reducible assumption) ?_
    | with_reducible refine Keeps.of_snd (by with_reducible assumption) ?_
    | with_reducible refine KeepsS.elim (by with_reducible assumption) ?_
    | with_reducible refine KeepsT.elim (by with_reducible assumption) ?_ | split)

theorem State.counted_keeps {s0 s status} (h_s : Keeps s0 s) : Keeps s0 (State.counted s status) := by
  unfold State.counted
  repeat' (first | with_reducible assumption | with_reducible apply State.countIf_keeps | with_reducible apply State.count_keeps)

theorem State.byRole_keeps {s0 s role index sub f} (h_s : Keeps s0 s) (h_f : ∀ x0, Keeps s0 x0 → Keeps s0 (f x0).1) : Keeps s0 (State.byRole s role index sub f) := by
  unfold State.byRole
  repeat' (first
    | with_reducible assumption
    | ((try lift_lets -underBinder); intro x; (have hx : Keeps s0 x.1 := ?_); clear_value x; rotate_left; (clear_value (e : x = _); rw [e]; clear e))
    | ((try lift_lets -underBinder); intro x; try clear_value x) | with_reducible apply State.counted_keeps
    | with_reducible apply h_f | with_reducible apply Keeps.ite | with_reducible apply Keeps.ite_fst)

theorem State.command_keeps {s0 s role index sub v f} (h_s : Keeps s0 s) (h_f : ∀ x0 x1, Keeps s0 x1 → Keeps s0 (f x0 x1).1) : Keeps s0 (State.command s role index sub v f) := by
  unfold State.command
  repeat' (first
    | with_reducible assumption | with_reducible apply State.byRole_keeps | with_reducible apply h_f
    | with_reducible apply Keeps.ite | with_reducible apply Keeps.ite_fst | intro _)

theorem execProgramStart_keeps {s0 role s} (h_s : Keeps s0 s) : KeepsNext s0 (execProgramStart role s) := by
  unfold execProgramStart
  repeat' (first
    | with_reducible assumption | with_reducible apply goOn_keeps | with_reducible apply State.byRole_keeps
    | with_reducible apply startProgram_keeps)

theorem execProgramStop_keeps {s0 role s} (h_s : Keeps s0 s) : KeepsNext s0 (execProgramStop role s) := by
  unfold execProgramStop
  repeat' (first
    | with_reducible assumption | with_reducible apply goOn_keeps | with_reducible apply State.byRole_keeps
    | with_reducible apply stopCommand_keeps)

theorem execSyncTrackingArm_keeps {s0 role value s} (h_s : Keeps s0 s) : KeepsNext s0 (execSyncTrackingArm role value s) := by
  unfold execSyncTrackingArm
  repeat' (first
    | with_reducible assumption | with_reducible apply goOn_keeps | with_reducible apply State.command_keeps
    | with_reducible apply asBool_keeps | with_reducible apply armTracking_keeps | intro _)

theorem execClearFirstFault_keeps {s0 role value s} (h_s : Keeps s0 s) : KeepsNext s0 (execClearFirstFault role value s) := by
  unfold execClearFirstFault
  repeat' (first
    | with_reducible assumption | with_reducible apply goOn_keeps | with_reducible apply State.command_keeps
    | with_reducible apply asBool_keeps | with_reducible apply clearFault_keeps | intro _)

theorem execFrondResetRequest_keeps {s0 role value s} (h_s : Keeps s0 s) : KeepsNext s0 (execFrondResetRequest role value s) := by
  unfold execFrondResetRequest
  repeat' (first
    | with_reducible assumption | with_reducible apply goOn_keeps | with_reducible apply State.command_keeps
    | with_reducible apply requestFrondReset_keeps)

theorem execClusterResetRequest_keeps {s0 role value s} (h_s : Keeps s0 s) : KeepsNext s0 (execClusterResetRequest role value s) := by
  unfold execClusterResetRequest
  repeat' (first
    | with_reducible assumption | with_reducible apply goOn_keeps | with_reducible apply State.command_keeps
    | with_reducible apply requestClusterReset_keeps)

theorem execDumpRequest_keeps {s0 role value s} (h_s : Keeps s0 s) : KeepsNext s0 (execDumpRequest role value s) := by
  unfold execDumpRequest
  repeat' (first
    | with_reducible assumption | with_reducible apply goOn_keeps | with_reducible apply State.command_keeps
    | with_reducible apply asBool_keeps | with_reducible apply requestDump_keeps | intro _)

theorem execDumpHarvested_keeps {s0 role value s} (h_s : Keeps s0 s) : KeepsNext s0 (execDumpHarvested role value s) := by
  unfold execDumpHarvested
  repeat' (first
    | with_reducible assumption | with_reducible apply goOn_keeps | with_reducible apply State.command_keeps
    | with_reducible apply harvestDump_keeps)

theorem execMaintenanceMode_keeps {s0 role value s} (h_s : Keeps s0 s) : KeepsNext s0 (execMaintenanceMode role value s) := by
  unfold execMaintenanceMode
  repeat' (first
    | with_reducible assumption | with_reducible apply goOn_keeps | with_reducible apply State.command_keeps
    | with_reducible apply maintenanceMode_keeps)

theorem execHoldStep_keeps {s0 role value s} (h_s : Keeps s0 s) : KeepsNext s0 (execHoldStep role value s) := by
  unfold execHoldStep
  repeat' (first
    | with_reducible assumption | with_reducible apply goOn_keeps | with_reducible apply State.command_keeps
    | with_reducible apply holdStep_keeps)

theorem execHoldRelease_keeps {s0 role value s} (h_s : Keeps s0 s) : KeepsNext s0 (execHoldRelease role value s) := by
  unfold execHoldRelease
  repeat' (first
    | with_reducible assumption | with_reducible apply goOn_keeps | with_reducible apply State.command_keeps
    | with_reducible apply asBool_keeps | with_reducible apply holdRelease_keeps | intro _)

theorem execUpdateVerify_keeps {s0 role s} (h_s : Keeps s0 s) : KeepsNext s0 (execUpdateVerify role s) := by
  unfold execUpdateVerify
  repeat' (first
    | with_reducible assumption | with_reducible apply goOn_keeps | with_reducible apply State.byRole_keeps
    | with_reducible apply updateVerify_keeps)

theorem execUpdateInstall_keeps {s0 role s} (h_s : Keeps s0 s) : KeepsNext s0 (execUpdateInstall role s) := by
  unfold execUpdateInstall
  repeat' (first
    | with_reducible assumption | with_reducible apply goOn_keeps | with_reducible apply State.byRole_keeps
    | with_reducible apply updateInstall_keeps)

theorem execUpdateActivate_keeps {s0 role s} (h_s : Keeps s0 s) : KeepsNext s0 (execUpdateActivate role s) := by
  unfold execUpdateActivate
  repeat' (first
    | with_reducible assumption | with_reducible apply goOn_keeps | with_reducible apply State.byRole_keeps
    | with_reducible apply updateActivate_keeps)

theorem execUpdateRevert_keeps {s0 role s} (h_s : Keeps s0 s) : KeepsNext s0 (execUpdateRevert role s) := by
  unfold execUpdateRevert
  repeat' (first
    | with_reducible assumption | with_reducible apply goOn_keeps | with_reducible apply State.byRole_keeps
    | with_reducible apply updateRevert_keeps)

theorem execUpdateCommit_keeps {s0 role s} (h_s : Keeps s0 s) : KeepsNext s0 (execUpdateCommit role s) := by
  unfold execUpdateCommit
  repeat' (first
    | with_reducible assumption | with_reducible apply goOn_keeps | with_reducible apply State.byRole_keeps
    | with_reducible apply updateCommit_keeps)

theorem execUpdateAbandon_keeps {s0 role s} (h_s : Keeps s0 s) : KeepsNext s0 (execUpdateAbandon role s) := by
  unfold execUpdateAbandon
  repeat' (first
    | with_reducible assumption | with_reducible apply goOn_keeps | with_reducible apply State.byRole_keeps
    | with_reducible apply updateAbandon_keeps)

theorem execAttestationNonce_keeps {s0 role nonce s} (h_s : Keeps s0 s) : KeepsNext s0 (execAttestationNonce role nonce s) := by
  unfold execAttestationNonce
  repeat' (first
    | with_reducible assumption | with_reducible apply goOn_keeps | with_reducible apply State.byRole_keeps
    | with_reducible apply startQuote_keeps)

theorem execFactoryToken_keeps {s0 role token s} (h_s : Keeps s0 s) : KeepsNext s0 (execFactoryToken role token s) := by
  unfold execFactoryToken
  repeat' (first
    | with_reducible assumption | with_reducible apply goOn_keeps | with_reducible apply State.byRole_keeps
    | with_reducible apply factoryToken_keeps)

theorem execInjectionRequest_keeps {s0 role request s} (h_s : Keeps s0 s) : KeepsNext s0 (execInjectionRequest role request s) := by
  unfold execInjectionRequest
  repeat' (first
    | with_reducible assumption | with_reducible apply goOn_keeps | with_reducible apply State.byRole_keeps
    | with_reducible apply requestInjection_keeps)

theorem execRepairRequest_keeps {s0 role request s} (h_s : Keeps s0 s) : KeepsNext s0 (execRepairRequest role request s) := by
  unfold execRepairRequest
  repeat' (first
    | with_reducible assumption | with_reducible apply goOn_keeps | with_reducible apply State.byRole_keeps
    | with_reducible apply requestRepair_keeps)

theorem execMetadataAddress_keeps {s0 role value s} (h_s : Keeps s0 s) : KeepsNext s0 (execMetadataAddress role value s) := by
  unfold execMetadataAddress
  repeat' (first
    | with_reducible assumption | with_reducible apply goOn_keeps | with_reducible apply State.command_keeps
    | with_reducible apply nameBlock_keeps)

theorem execTranslateAddress_keeps {s0 role value s} (h_s : Keeps s0 s) : KeepsNext s0 (execTranslateAddress role value s) := by
  unfold execTranslateAddress
  repeat' (first
    | with_reducible assumption | with_reducible apply goOn_keeps | with_reducible apply State.command_keeps
    | with_reducible apply translateAddress_keeps)

theorem execPortRestore_keeps {s0 role value s} (h_s : Keeps s0 s) : KeepsNext s0 (execPortRestore role value s) := by
  unfold execPortRestore
  repeat' (first
    | with_reducible assumption | with_reducible apply goOn_keeps | with_reducible apply State.command_keeps
    | with_reducible apply restorePort_keeps)

theorem execConfigurationSwitchStep_keeps {s0 role value s} (h_s : Keeps s0 s) : KeepsNext s0 (execConfigurationSwitchStep role value s) := by
  unfold execConfigurationSwitchStep
  repeat' (first
    | with_reducible assumption | with_reducible apply goOn_keeps | with_reducible apply State.command_keeps
    | with_reducible apply requestSwitch_keeps)

theorem execFenceRelease_keeps {s0 role value s} (h_s : Keeps s0 s) : KeepsNext s0 (execFenceRelease role value s) := by
  unfold execFenceRelease
  repeat' (first
    | with_reducible assumption | with_reducible apply goOn_keeps | with_reducible apply State.command_keeps
    | with_reducible apply asBool_keeps | with_reducible apply releaseFence_keeps | intro _)

theorem execCensusRequest_keeps {s0 role value s} (h_s : Keeps s0 s) : KeepsNext s0 (execCensusRequest role value s) := by
  unfold execCensusRequest
  repeat' (first
    | with_reducible assumption | with_reducible apply goOn_keeps | with_reducible apply State.command_keeps
    | with_reducible apply asBool_keeps | with_reducible apply requestCensus_keeps | intro _)

theorem execResolve_keeps {s0 role value s} (h_s : Keeps s0 s) : KeepsNext s0 (execResolve role value s) := by
  unfold execResolve
  repeat' (first
    | with_reducible assumption | with_reducible apply goOn_keeps | with_reducible apply State.command_keeps
    | with_reducible apply resolveStep_keeps)

theorem execResume_keeps {s0 role value s} (h_s : Keeps s0 s) : KeepsNext s0 (execResume role value s) := by
  unfold execResume
  repeat' (first
    | with_reducible assumption | with_reducible apply goOn_keeps | with_reducible apply State.command_keeps
    | with_reducible apply asBool_keeps | with_reducible apply resumeFill_keeps | intro _)

theorem execRestoreRecord_keeps {s0 role record s} (h_s : Keeps s0 s) : KeepsNext s0 (execRestoreRecord role record s) := by
  unfold execRestoreRecord
  repeat' (first
    | with_reducible assumption | with_reducible apply goOn_keeps | with_reducible apply State.byRole_keeps
    | with_reducible apply restoreOwn_keeps)

theorem execReEncode_keeps {s0 role value s} (h_s : Keeps s0 s) : KeepsNext s0 (execReEncode role value s) := by
  unfold execReEncode
  repeat' (first
    | with_reducible assumption | with_reducible apply goOn_keeps | with_reducible apply State.command_keeps
    | with_reducible apply asBool_keeps | with_reducible apply reEncodeParity_keeps | intro _)

theorem execExportStep_keeps {s0 role value s} (h_s : Keeps s0 s) : KeepsNext s0 (execExportStep role value s) := by
  unfold execExportStep
  repeat' (first
    | with_reducible assumption | with_reducible apply goOn_keeps | with_reducible apply State.command_keeps
    | with_reducible apply exportStep_keeps)

theorem execExportDone_keeps {s0 role value s} (h_s : Keeps s0 s) : KeepsNext s0 (execExportDone role value s) := by
  unfold execExportDone
  repeat' (first
    | with_reducible assumption | with_reducible apply goOn_keeps | with_reducible apply State.command_keeps
    | with_reducible apply asBool_keeps | with_reducible apply exportDone_keeps | intro _)

theorem State.settingsCommand_keeps {s0 s role sub v f} (h_s : Keeps s0 s) (h_f : ∀ x0 x1, Keeps s0 x1 → Keeps s0 (f x0 x1).1) : Keeps s0 (State.settingsCommand s role sub v f) := by
  unfold State.settingsCommand
  repeat' (first
    | with_reducible assumption
    | ((try lift_lets -underBinder); intro x; (have hx : Keeps s0 x.1 := ?_); clear_value x; rotate_left; (clear_value (e : x = _); rw [e]; clear e))
    | ((try lift_lets -underBinder); intro x; try clear_value x) | with_reducible apply State.counted_keeps
    | with_reducible apply h_f | with_reducible apply Keeps.ite | with_reducible apply Keeps.ite_fst)

theorem execStoreSettings_keeps {s0 role value s} (h_s : Keeps s0 s) : KeepsNext s0 (execStoreSettings role value s) := by
  unfold execStoreSettings
  repeat' (first
    | with_reducible assumption | with_reducible apply goOn_keeps | with_reducible apply State.settingsCommand_keeps
    | with_reducible apply storeSettings_keeps)

theorem execRestoreDefaults_keeps {s0 role value s} (h_s : Keeps s0 s) : KeepsNext s0 (execRestoreDefaults role value s) := by
  unfold execRestoreDefaults
  repeat' (first
    | with_reducible assumption | with_reducible apply goOn_keeps | with_reducible apply State.settingsCommand_keeps
    | with_reducible apply restoreDefaults_keeps)

theorem State.register_keeps {s0 s index sub type value} (h_s : Keeps s0 s) : Keeps s0 (State.register s index sub type value).1 := by
  unfold State.register
  repeat' (first
    | with_reducible assumption | with_reducible apply State.store_keeps | with_reducible apply Keeps.ite
    | with_reducible apply Keeps.ite_fst)

theorem execRegisterWrite_keeps {s0 role index sub type value s} (h_s : Keeps s0 s) : KeepsNext s0 (execRegisterWrite role index sub type value s) := by
  unfold execRegisterWrite
  repeat' (first
    | with_reducible assumption | with_reducible apply goOn_keeps | with_reducible apply State.settingsCommand_keeps
    | with_reducible apply State.register_keeps | with_reducible apply State.byRole_keeps | with_reducible apply Keeps.ite | split
    | intro _)

end Sys2Proof.Machine
end

