-- ==== Sys2Proof/Laws/KeepsService.lean ====
section
/-! SUPPORT. One lemma per function: it keeps the queue and the canonical form of the memories. Here:
the exchange, the test port, the mask operations and the service interface. -/

namespace Sys2Proof.Machine

theorem startPack_keeps {s0 i s} (h_s : Keeps s0 s) : Keeps s0 (startPack i s) := by
  unfold startPack
  repeat' (first
    | with_reducible assumption
    | ((try lift_lets -underBinder); intro x; (have hx : Keeps s0 x := ?_); clear_value x; rotate_left; (clear_value (e : x = _); rw [e]; clear e))
    | ((try lift_lets -underBinder); intro x; (have hx : Keeps s0 x.1 := ?_); clear_value x; rotate_left; (clear_value (e : x = _); rw [e]; clear e))
    | ((try lift_lets -underBinder); intro x; try clear_value x) | with_reducible apply State.invalid_keeps
    | with_reducible apply State.anyTouch_keeps | with_reducible apply State.stored_keeps
    | with_reducible apply State.opWrite_keeps | with_reducible apply State.count_keeps
    | with_reducible apply State.reportMax_keeps | with_reducible apply State.startWork_keeps | with_reducible apply Keeps.ite)

theorem startKernel_keeps {s0 i s} (h_s : Keeps s0 s) : Keeps s0 (startKernel i s) := by
  unfold startKernel
  repeat' (first
    | with_reducible assumption | with_reducible apply startTableKernel_keeps | with_reducible apply startPack_keeps
    | with_reducible apply Keeps.ite)

theorem execKernel_keeps {s0 i s} (h_s : Keeps s0 s) : KeepsNext s0 (execKernel i s) := by
  unfold execKernel
  repeat' (first
    | with_reducible assumption | with_reducible apply goOn_keeps | with_reducible apply State.gate_keeps
    | with_reducible apply startKernel_keeps)

theorem kernelComplete_keeps {s0 d s} (h_s : Keeps s0 s) : Keeps s0 (kernelComplete d s) := by
  unfold kernelComplete
  repeat' (first
    | with_reducible assumption
    | ((try lift_lets -underBinder); intro x; (have hx : Keeps s0 x := ?_); clear_value x; rotate_left; (clear_value (e : x = _); rw [e]; clear e))
    | with_reducible apply State.count_keeps | with_reducible apply State.countIf_keeps | with_reducible apply State.settle_keeps
    | with_reducible apply State.endWork_keeps
    | (with_reducible refine Keeps.state (KeepsP.of ?_) ?_; on_goal 1 => with_reducible assumption)
    | with_reducible apply Keeps.ite | with_reducible refine Keeps.of_fst (by with_reducible assumption) ?_
    | with_reducible refine Keeps.of_snd (by with_reducible assumption) ?_
    | with_reducible refine KeepsS.elim (by with_reducible assumption) ?_
    | with_reducible refine KeepsT.elim (by with_reducible assumption) ?_ | split)

theorem execKernelComplete_keeps {s0 d s} (h_s : Keeps s0 s) : KeepsNext s0 (execKernelComplete d s) := by
  unfold execKernelComplete
  repeat' (first | with_reducible assumption | with_reducible apply goOn_keeps | with_reducible apply kernelComplete_keeps)

theorem State.jtagTakes_keeps {s0 s die op data} (h_s : Keeps s0 s) : Keeps s0 (State.jtagTakes s die op data) :=
  ⟨h_s.queue, h_s.wf⟩

theorem State.jtagBypass_keeps {s0 s die} (h_s : Keeps s0 s) : Keeps s0 (State.jtagBypass s die) := by
  unfold State.jtagBypass
  repeat' (first | with_reducible assumption | with_reducible apply State.jtagTakes_keeps)

theorem State.jtagPins_keeps {s0 s die op data} (h_s : Keeps s0 s) : Keeps s0 (State.jtagPins s die op data) := by
  unfold State.jtagPins
  repeat' (first
    | with_reducible assumption | with_reducible apply State.jtagBypass_keeps | with_reducible apply State.jtagTakes_keeps
    | with_reducible apply Keeps.ite)

theorem execExtest_keeps {s0 die s} (h_s : Keeps s0 s) : KeepsNext s0 (execExtest die s) := by
  unfold execExtest
  repeat' (first | with_reducible assumption | with_reducible apply goOn_keeps | with_reducible apply State.jtagPins_keeps)

theorem execIdcode_keeps {s0 die s} (h_s : Keeps s0 s) : KeepsNext s0 (execIdcode die s) := by
  unfold execIdcode
  repeat' (first | with_reducible assumption | with_reducible apply goOn_keeps | with_reducible apply State.jtagTakes_keeps)

theorem samplePreload_keeps {s0 die data s} (h_s : Keeps s0 s) : Keeps s0 (samplePreload die data s) := by
  unfold samplePreload
  repeat' (first
    | with_reducible assumption
    | ((try lift_lets -underBinder); intro x; (have hx : Keeps s0 x := ?_); clear_value x; rotate_left; (clear_value (e : x = _); rw [e]; clear e))
    | ((try lift_lets -underBinder); intro x; (have hx : Keeps s0 x.2 := ?_); clear_value x; rotate_left; (clear_value (e : x = _); rw [e]; clear e))
    | ((try lift_lets -underBinder); intro x; try clear_value x) | with_reducible apply State.draw_keeps
    | with_reducible apply State.jtagTakes_keeps
    | (with_reducible refine Keeps.state (KeepsP.of ?_) ?_; on_goal 1 => with_reducible assumption)
    | (with_reducible apply KeepsM.of; with_reducible assumption) | with_reducible apply Keeps.ite)

theorem execSamplePreload_keeps {s0 die data s} (h_s : Keeps s0 s) : KeepsNext s0 (execSamplePreload die data s) := by
  unfold execSamplePreload
  repeat' (first | with_reducible assumption | with_reducible apply goOn_keeps | with_reducible apply samplePreload_keeps)

theorem execClamp_keeps {s0 die s} (h_s : Keeps s0 s) : KeepsNext s0 (execClamp die s) := by
  unfold execClamp
  repeat' (first | with_reducible assumption | with_reducible apply goOn_keeps | with_reducible apply State.jtagPins_keeps)

theorem execHighz_keeps {s0 die s} (h_s : Keeps s0 s) : KeepsNext s0 (execHighz die s) := by
  unfold execHighz
  repeat' (first | with_reducible assumption | with_reducible apply goOn_keeps | with_reducible apply State.jtagPins_keeps)

theorem execBypass_keeps {s0 die s} (h_s : Keeps s0 s) : KeepsNext s0 (execBypass die s) := by
  unfold execBypass
  repeat' (first | with_reducible assumption | with_reducible apply goOn_keeps | with_reducible apply State.jtagBypass_keeps)

theorem State.countSkip_keeps {s0 s} (h_s : Keeps s0 s) : Keeps s0 (State.countSkip s) := by
  unfold State.countSkip
  repeat' (first
    | with_reducible assumption | with_reducible apply State.count_keeps
    | (with_reducible refine Keeps.state (KeepsP.of ?_) ?_; on_goal 1 => with_reducible assumption)
    | with_reducible apply Keeps.ite | (with_reducible refine Keeps.state (KeepsP.of ?_) ?_) | (with_reducible apply KeepsM.of))

theorem State.epochGate_keeps {s0 s op i p run} (h_s : Keeps s0 s) (h_run : ∀ x0, Keeps s0 x0 → Keeps s0 (run x0)) : Keeps s0 (State.epochGate s op i p run) := by
  unfold State.epochGate
  repeat' (first
    | with_reducible assumption | with_reducible apply State.startWork_keeps | with_reducible apply State.countSkip_keeps
    | with_reducible apply h_run | with_reducible apply Keeps.ite)

theorem State.rejectMask_keeps {s0 s op i p c} (h_s : Keeps s0 s) : Keeps s0 (State.rejectMask s op i p c) := by
  unfold State.rejectMask
  repeat' (first
    | with_reducible assumption | with_reducible apply State.onUnit_keeps | with_reducible apply State.sparseFormat_keeps
    | with_reducible apply State.count_keeps | with_reducible apply State.startWork_keeps
    | (with_reducible refine Keeps.state (KeepsP.of ?_) ?_; on_goal 1 => with_reducible assumption)
    | with_reducible apply Keeps.ite)

theorem State.maskReads_keeps {s0 s u ctx p n m} (h_s : Keeps s0 s) : Keeps s0 (State.maskReads s u ctx p n m) := by
  unfold State.maskReads
  repeat' (first | with_reducible assumption | with_reducible apply State.anyTouch_keeps)

theorem State.maskConsume_keeps {s0 s i t ix} (h_s : Keeps s0 s) : Keeps s0 (State.maskConsume s i t ix) := by
  unfold State.maskConsume
  repeat' (first | with_reducible assumption | with_reducible apply State.consume_keeps | with_reducible apply Keeps.ite)

theorem State.runPrune_keeps {s0 s i p} (h_s : Keeps s0 s) : Keeps s0 (State.runPrune s i p) := by
  unfold State.runPrune
  repeat' (first
    | with_reducible assumption
    | ((try lift_lets -underBinder); intro x; (have hx : Keeps s0 x := ?_); clear_value x; rotate_left; (clear_value (e : x = _); rw [e]; clear e))
    | ((try lift_lets -underBinder); intro x; try clear_value x) | with_reducible apply State.maskConsume_keeps
    | with_reducible apply State.rejectMask_keeps | with_reducible apply State.startWork_keeps
    | with_reducible apply State.anyWrite_keeps | with_reducible apply State.maskReads_keeps
    | (with_reducible refine Keeps.state (KeepsP.of ?_) ?_; on_goal 1 => with_reducible assumption)
    | with_reducible apply Keeps.ite | with_reducible refine Keeps.of_fst (by with_reducible assumption) ?_
    | with_reducible refine Keeps.of_snd (by with_reducible assumption) ?_
    | with_reducible refine KeepsS.elim (by with_reducible assumption) ?_
    | with_reducible refine KeepsT.elim (by with_reducible assumption) ?_ | split)

theorem startPrune_keeps {s0 i s} (h_s : Keeps s0 s) : Keeps s0 (startPrune i s) := by
  unfold startPrune
  repeat' (first
    | with_reducible assumption | ((try lift_lets -underBinder); intro x; try clear_value x)
    | with_reducible apply State.epochGate_keeps | with_reducible apply State.runPrune_keeps)

theorem execPrune_keeps {s0 i s} (h_s : Keeps s0 s) : KeepsNext s0 (execPrune i s) := by
  unfold execPrune
  repeat' (first
    | with_reducible assumption | with_reducible apply goOn_keeps | with_reducible apply State.gate_keeps
    | with_reducible apply startPrune_keeps)

theorem State.runRegrow_keeps {s0 s i p} (h_s : Keeps s0 s) : Keeps s0 (State.runRegrow s i p) := by
  unfold State.runRegrow
  repeat' (first
    | with_reducible assumption
    | ((try lift_lets -underBinder); intro x; (have hx : Keeps s0 x := ?_); clear_value x; rotate_left; (clear_value (e : x = _); rw [e]; clear e))
    | ((try lift_lets -underBinder); intro x; try clear_value x) | with_reducible apply State.maskConsume_keeps
    | with_reducible apply State.rejectMask_keeps | with_reducible apply State.maskReads_keeps
    | with_reducible apply State.anyWrite_keeps | with_reducible apply State.startWork_keeps
    | (with_reducible refine Keeps.state (KeepsP.of ?_) ?_; on_goal 1 => with_reducible assumption)
    | (with_reducible apply KeepsM.of; with_reducible assumption) | with_reducible apply Keeps.ite
    | with_reducible apply Keeps.ite_fst | with_reducible refine Keeps.of_fst (by with_reducible assumption) ?_
    | with_reducible refine Keeps.of_snd (by with_reducible assumption) ?_
    | with_reducible refine KeepsS.elim (by with_reducible assumption) ?_
    | with_reducible refine KeepsT.elim (by with_reducible assumption) ?_ | split)

theorem startRegrow_keeps {s0 i s} (h_s : Keeps s0 s) : Keeps s0 (startRegrow i s) := by
  unfold startRegrow
  repeat' (first
    | with_reducible assumption | ((try lift_lets -underBinder); intro x; try clear_value x)
    | with_reducible apply State.epochGate_keeps | with_reducible apply State.runRegrow_keeps)

theorem execRegrow_keeps {s0 i s} (h_s : Keeps s0 s) : KeepsNext s0 (execRegrow i s) := by
  unfold execRegrow
  repeat' (first
    | with_reducible assumption | with_reducible apply goOn_keeps | with_reducible apply State.gate_keeps
    | with_reducible apply startRegrow_keeps)

theorem startScore_keeps {s0 i s} (h_s : Keeps s0 s) : Keeps s0 (startScore i s) := by
  unfold startScore
  repeat' (first
    | with_reducible assumption | ((try lift_lets -underBinder); intro x; try clear_value x)
    | with_reducible apply State.rejectMask_keeps | with_reducible apply State.takeTile_keeps
    | with_reducible apply State.maskReads_keeps
    | (with_reducible refine Keeps.state (KeepsP.of ?_) ?_; on_goal 1 => with_reducible assumption)
    | with_reducible refine Keeps.of_fst (by with_reducible assumption) ?_
    | with_reducible refine Keeps.of_snd (by with_reducible assumption) ?_
    | with_reducible refine KeepsS.elim (by with_reducible assumption) ?_
    | with_reducible refine KeepsT.elim (by with_reducible assumption) ?_ | split)

theorem execScore_keeps {s0 i s} (h_s : Keeps s0 s) : KeepsNext s0 (execScore i s) := by
  unfold execScore
  repeat' (first
    | with_reducible assumption | with_reducible apply goOn_keeps | with_reducible apply State.gate_keeps
    | with_reducible apply startScore_keeps)

theorem maskOpComplete_keeps {s0 u s} (h_s : Keeps s0 s) : Keeps s0 (maskOpComplete u s) := by
  unfold maskOpComplete
  repeat' (first
    | with_reducible assumption | with_reducible apply State.completeTile_keeps | with_reducible apply State.settle_keeps
    | with_reducible apply State.endWork_keeps | with_reducible apply Keeps.ite)

theorem execMaskOpComplete_keeps {s0 u s} (h_s : Keeps s0 s) : KeepsNext s0 (execMaskOpComplete u s) := by
  unfold execMaskOpComplete
  repeat' (first | with_reducible assumption | with_reducible apply goOn_keeps | with_reducible apply maskOpComplete_keeps)

theorem startRoute_keeps {s0 i s} (h_s : Keeps s0 s) : Keeps s0 (startRoute i s) := by
  unfold startRoute
  repeat' (first
    | with_reducible assumption
    | ((try lift_lets -underBinder); intro x; (have hx : Keeps s0 x := ?_); clear_value x; rotate_left; (clear_value (e : x = _); rw [e]; clear e))
    | ((try lift_lets -underBinder); intro x; (have hx : Keeps s0 x.1 := ?_); clear_value x; rotate_left; (clear_value (e : x = _); rw [e]; clear e))
    | ((try lift_lets -underBinder); intro x; try clear_value x) | with_reducible apply State.anyTouch_keeps
    | with_reducible apply State.reportMax_keeps | with_reducible apply State.stored_keeps
    | with_reducible apply State.count_keeps | with_reducible apply State.startWork_keeps)

theorem execRoute_keeps {s0 i s} (h_s : Keeps s0 s) : KeepsNext s0 (execRoute i s) := by
  unfold execRoute
  repeat' (first
    | with_reducible assumption | with_reducible apply goOn_keeps | with_reducible apply State.gate_keeps
    | with_reducible apply startRoute_keeps)

theorem routeComplete_keeps {s0 d s} (h_s : Keeps s0 s) : Keeps s0 (routeComplete d s) := by
  unfold routeComplete
  repeat' (first
    | with_reducible assumption | with_reducible apply State.settle_keeps | with_reducible apply State.endWork_keeps
    | with_reducible apply State.opWrite_keeps
    | (with_reducible refine Keeps.state (KeepsP.of ?_) ?_; on_goal 1 => with_reducible assumption)
    | with_reducible refine Keeps.of_fst (by with_reducible assumption) ?_
    | with_reducible refine Keeps.of_snd (by with_reducible assumption) ?_
    | with_reducible refine KeepsS.elim (by with_reducible assumption) ?_
    | with_reducible refine KeepsT.elim (by with_reducible assumption) ?_ | split)

theorem execRouteComplete_keeps {s0 d s} (h_s : Keeps s0 s) : KeepsNext s0 (execRouteComplete d s) := by
  unfold execRouteComplete
  repeat' (first | with_reducible assumption | with_reducible apply goOn_keeps | with_reducible apply routeComplete_keeps)

theorem State.serveWrite_keeps {s0 s r} (h_s : Keeps s0 s) : Keeps s0 (State.serveWrite s r).1 := by
  unfold State.serveWrite
  repeat' (first
    | with_reducible assumption | ((try lift_lets -underBinder); intro x; try clear_value x)
    | with_reducible apply State.register_keeps | with_reducible apply Keeps.ite | with_reducible apply Keeps.ite_fst)

theorem State.endSession_keeps {s0 s inBand key} (h_s : Keeps s0 s) : Keeps s0 (State.endSession s inBand key) :=
  ⟨h_s.queue, h_s.wf⟩

theorem State.putSession_keeps {s0 s x} (h_s : Keeps s0 s) : Keeps s0 (State.putSession s x) := by
  unfold State.putSession
  repeat' (first
    | with_reducible assumption | with_reducible apply State.endSession_keeps
    | (with_reducible refine Keeps.state (KeepsP.of ?_) ?_; on_goal 1 => with_reducible assumption)
    | (with_reducible apply KeepsM.of; with_reducible assumption))

theorem State.serveInit_keeps {s0 s r} (h_s : Keeps s0 s) : Keeps s0 (State.serveInit s r).1 := by
  unfold State.serveInit
  repeat' (first
    | with_reducible assumption
    | ((try lift_lets -underBinder); intro x; (have hx : Keeps s0 x := ?_); clear_value x; rotate_left; (clear_value (e : x = _); rw [e]; clear e))
    | ((try lift_lets -underBinder); intro x; try clear_value x) | with_reducible apply State.endSession_keeps
    | with_reducible apply State.putSession_keeps
    | (with_reducible refine Keeps.state (KeepsP.of ?_) ?_; on_goal 1 => with_reducible assumption)
    | with_reducible apply Keeps.ite | with_reducible apply Keeps.ite_fst)

theorem State.segRead_keeps {s0 s r x} (h_s : Keeps s0 s) : Keeps s0 (State.segRead s r x).1 := by
  unfold State.segRead
  repeat' (first
    | with_reducible assumption | ((try lift_lets -underBinder); intro x; try clear_value x)
    | with_reducible apply State.endSession_keeps | with_reducible apply State.putSession_keeps
    | (with_reducible refine Keeps.state (KeepsP.of ?_) ?_; on_goal 1 => with_reducible assumption)
    | with_reducible apply Keeps.ite | with_reducible apply Keeps.ite_fst)

theorem State.segWrite_keeps {s0 s r x} (h_s : Keeps s0 s) : Keeps s0 (State.segWrite s r x).1 := by
  unfold State.segWrite
  repeat' (first
    | with_reducible assumption
    | ((try lift_lets -underBinder); intro x; (have hx : Keeps s0 x := ?_); clear_value x; rotate_left; (clear_value (e : x = _); rw [e]; clear e))
    | ((try lift_lets -underBinder); intro x; (have hx : Keeps s0 x.1 := ?_); clear_value x; rotate_left; (clear_value (e : x = _); rw [e]; clear e))
    | ((try lift_lets -underBinder); intro x; try clear_value x) | with_reducible apply State.putSession_keeps
    | with_reducible apply State.endSession_keeps | with_reducible apply State.store_keeps
    | (with_reducible refine Keeps.state (KeepsP.of ?_) ?_; on_goal 1 => with_reducible assumption)
    | with_reducible apply Keeps.ite | with_reducible apply Keeps.ite_fst)

theorem State.serveSeg_keeps {s0 s r} (h_s : Keeps s0 s) : Keeps s0 (State.serveSeg s r).1 := by
  unfold State.serveSeg
  repeat' (first
    | with_reducible assumption | with_reducible apply State.segWrite_keeps | with_reducible apply State.segRead_keeps
    | with_reducible apply State.putSession_keeps | with_reducible apply State.endSession_keeps
    | (with_reducible refine Keeps.state (KeepsP.of ?_) ?_; on_goal 1 => with_reducible assumption)
    | with_reducible apply Keeps.ite | with_reducible apply Keeps.ite_fst
    | with_reducible refine Keeps.of_fst (by with_reducible assumption) ?_
    | with_reducible refine Keeps.of_snd (by with_reducible assumption) ?_
    | with_reducible refine KeepsS.elim (by with_reducible assumption) ?_
    | with_reducible refine KeepsT.elim (by with_reducible assumption) ?_ | split)

theorem State.sendAnswer_keeps {s0 s inBand reply payload} (h_s : Keeps s0 s) : Keeps s0 (State.sendAnswer s inBand reply payload) := by
  unfold State.sendAnswer
  repeat' (first
    | with_reducible assumption | with_reducible apply State.toHost_keeps
    | (with_reducible refine Keeps.state (KeepsP.of ?_) ?_; on_goal 1 => with_reducible assumption)
    | (with_reducible apply KeepsM.of; with_reducible assumption) | with_reducible apply Keeps.ite)

theorem State.reply_keeps {s0 s r payload} (h_s : Keeps s0 s) : Keeps s0 (State.reply s r payload) := by
  unfold State.reply
  repeat' (first
    | with_reducible assumption | with_reducible apply State.sendAnswer_keeps | with_reducible apply State.counted_keeps)

theorem State.replyLater_keeps {s0 was s r payload} (h_was : Keeps s0 was) (h_s : Keeps s0 s) : Keeps s0 (State.replyLater was s r payload) := by
  unfold State.replyLater
  repeat' (first
    | with_reducible assumption | with_reducible apply State.reply_keeps
    | (with_reducible refine Keeps.state (KeepsP.of ?_) ?_; on_goal 1 => with_reducible assumption)
    | (with_reducible apply KeepsM.of; with_reducible assumption) | split)

theorem State.serve_keeps {s0 s r} (h_s : Keeps s0 s) : Keeps s0 (State.serve s r) := by
  unfold State.serve
  repeat' (first
    | with_reducible assumption
    | ((try lift_lets -underBinder); intro x; (have hx : Keeps s0 x.1 := ?_); clear_value x; rotate_left; (clear_value (e : x = _); rw [e]; clear e))
    | with_reducible apply State.reply_keeps | with_reducible apply State.serveWrite_keeps
    | with_reducible apply State.replyLater_keeps | with_reducible apply State.serveInit_keeps
    | with_reducible apply State.serveSeg_keeps | with_reducible apply State.endSession_keeps
    | (with_reducible refine Keeps.state (KeepsP.of ?_) ?_; on_goal 1 => with_reducible assumption)
    | with_reducible apply Keeps.ite | with_reducible apply Keeps.ite_fst | split)

theorem State.requestOf_keeps {s0 s m} (h_s : Keeps s0 s) : Keeps s0 (State.requestOf s m).2 := by
  unfold State.requestOf
  repeat' (first
    | with_reducible assumption | with_reducible exact KeepsS.none | with_reducible apply KeepsS.some
    | with_reducible exact KeepsT.none | with_reducible apply KeepsT.some
    | (with_reducible refine Keeps.state (KeepsP.of ?_) ?_; on_goal 1 => with_reducible assumption)
    | (with_reducible apply KeepsM.of; with_reducible assumption) | split)

theorem State.message_keeps {s0 s service m} (h_s : Keeps s0 s) : Keeps s0 (State.message s service m) := by
  unfold State.message
  repeat' (first
    | with_reducible assumption | with_reducible apply State.requestOf_keeps | with_reducible apply State.serve_keeps
    | (with_reducible refine Keeps.state (KeepsP.of ?_) ?_; on_goal 1 => with_reducible assumption)
    | with_reducible apply Keeps.ite | with_reducible refine Keeps.of_fst (by with_reducible assumption) ?_
    | with_reducible refine Keeps.of_snd (by with_reducible assumption) ?_
    | with_reducible refine KeepsS.elim (by with_reducible assumption) ?_
    | with_reducible refine KeepsT.elim (by with_reducible assumption) ?_ | split)

theorem execNagaukRead_keeps {s0 m s} (h_s : Keeps s0 s) : KeepsNext s0 (execNagaukRead m s) := by
  unfold execNagaukRead
  repeat' (first | with_reducible assumption | with_reducible apply goOn_keeps | with_reducible apply State.message_keeps)

theorem execNagaukWrite_keeps {s0 m s} (h_s : Keeps s0 s) : KeepsNext s0 (execNagaukWrite m s) := by
  unfold execNagaukWrite
  repeat' (first | with_reducible assumption | with_reducible apply goOn_keeps | with_reducible apply State.message_keeps)

theorem execSegInit_keeps {s0 m s} (h_s : Keeps s0 s) : KeepsNext s0 (execSegInit m s) := by
  unfold execSegInit
  repeat' (first | with_reducible assumption | with_reducible apply goOn_keeps | with_reducible apply State.message_keeps)

theorem execSeg_keeps {s0 m s} (h_s : Keeps s0 s) : KeepsNext s0 (execSeg m s) := by
  unfold execSeg
  repeat' (first | with_reducible assumption | with_reducible apply goOn_keeps | with_reducible apply State.message_keeps)

theorem execNagaukAbort_keeps {s0 m s} (h_s : Keeps s0 s) : KeepsNext s0 (execNagaukAbort m s) := by
  unfold execNagaukAbort
  repeat' (first | with_reducible assumption | with_reducible apply goOn_keeps | with_reducible apply State.message_keeps)

theorem execIdentify_keeps {s0 m s} (h_s : Keeps s0 s) : KeepsNext s0 (execIdentify m s) := by
  unfold execIdentify
  repeat' (first | with_reducible assumption | with_reducible apply goOn_keeps | with_reducible apply State.message_keeps)

theorem execSessionTimeout_keeps {s0 inBand key s} (h_s : Keeps s0 s) : KeepsNext s0 (execSessionTimeout inBand key s) := by
  unfold execSessionTimeout
  repeat' (first | with_reducible assumption | with_reducible apply goOn_keeps | with_reducible apply State.endSession_keeps)

theorem takeMgmt_keeps {s0 p f s} (h_s : Keeps s0 s) : Keeps s0 (takeMgmt p f s) := by
  unfold takeMgmt
  repeat' (first
    | with_reducible assumption | with_reducible apply State.dropInvalid_keeps | with_reducible apply State.sendAnswer_keeps
    | with_reducible apply State.counted_keeps | with_reducible apply State.plic_keeps
    | (with_reducible refine Keeps.state (KeepsP.of ?_) ?_; on_goal 1 => with_reducible assumption)
    | (with_reducible apply KeepsM.of; with_reducible assumption) | with_reducible apply Keeps.ite)

theorem execMgmtFlitReceive_keeps {s0 port raw s} (h_s : Keeps s0 s) : KeepsNext s0 (execMgmtFlitReceive port raw s) := by
  unfold execMgmtFlitReceive
  repeat' (first
    | with_reducible assumption | with_reducible apply goOn_keeps | with_reducible apply receive_keeps
    | with_reducible apply takeMgmt_keeps)

theorem storeComplete_keeps {s0 s} (h_s : Keeps s0 s) : Keeps s0 (storeComplete s) := by
  unfold storeComplete
  repeat' (first
    | with_reducible assumption
    | ((try lift_lets -underBinder); intro x; (have hx : Keeps s0 x := ?_); clear_value x; rotate_left; (clear_value (e : x = _); rw [e]; clear e))
    | ((try lift_lets -underBinder); intro x; try clear_value x) | with_reducible apply State.counted_keeps
    | with_reducible apply State.sendAnswer_keeps | with_reducible apply State.stored_keeps
    | with_reducible apply State.reply_keeps
    | (with_reducible refine Keeps.state (KeepsP.of ?_) ?_; on_goal 1 => with_reducible assumption)
    | (with_reducible apply KeepsM.of; with_reducible assumption)
    | with_reducible refine Keeps.of_fst (by with_reducible assumption) ?_
    | with_reducible refine Keeps.of_snd (by with_reducible assumption) ?_
    | with_reducible refine KeepsS.elim (by with_reducible assumption) ?_
    | with_reducible refine KeepsT.elim (by with_reducible assumption) ?_ | split)

theorem execStoreSettingsComplete_keeps {s0 s} (h_s : Keeps s0 s) : KeepsNext s0 (execStoreSettingsComplete s) := by
  unfold execStoreSettingsComplete
  repeat' (first | with_reducible assumption | with_reducible apply goOn_keeps | with_reducible apply storeComplete_keeps)

theorem busOff_keeps {s0 s} (h_s : Keeps s0 s) : Keeps s0 (busOff s) := by
  unfold busOff
  repeat' (first
    | with_reducible assumption | with_reducible apply State.count_keeps
    | (with_reducible refine Keeps.state (KeepsP.of ?_) ?_; on_goal 1 => with_reducible assumption)
    | (with_reducible apply KeepsM.of; with_reducible assumption) | with_reducible apply Keeps.ite)

theorem execCanBusOff_keeps {s0 s} (h_s : Keeps s0 s) : KeepsNext s0 (execCanBusOff s) := by
  unfold execCanBusOff
  repeat' (first | with_reducible assumption | with_reducible apply goOn_keeps | with_reducible apply busOff_keeps)

theorem execCanBusOffRecovery_keeps {s0 s} (h_s : Keeps s0 s) : KeepsNext s0 (execCanBusOffRecovery s) := by
  unfold execCanBusOffRecovery
  repeat' (first
    | with_reducible assumption | with_reducible apply goOn_keeps | with_reducible apply busOff_keeps
    | (with_reducible refine Keeps.state (KeepsP.of ?_) ?_; on_goal 1 => with_reducible assumption)
    | (with_reducible apply KeepsM.of; with_reducible assumption))

theorem takeUpFrame_keeps {s0 op i s} (h_s : Keeps s0 s) : Keeps s0 (takeUpFrame op i s) := by
  unfold takeUpFrame
  repeat' (first
    | with_reducible assumption | with_reducible apply startCall_keeps | with_reducible apply startCommitPoint_keeps
    | with_reducible apply startHalt_keeps | with_reducible apply startMark_keeps | with_reducible apply startNop_keeps
    | (with_reducible refine Keeps.state (KeepsP.of ?_) ?_; on_goal 1 => with_reducible assumption) | split)

theorem takeUpFrond_keeps {s0 op i s} (h_s : Keeps s0 s) : Keeps s0 (takeUpFrond op i s) := by
  unfold takeUpFrond
  repeat' (first
    | with_reducible assumption | with_reducible apply startMatmul_keeps | with_reducible apply startSpmm_keeps
    | with_reducible apply startScore_keeps | with_reducible apply startLoad_keeps | with_reducible apply startSwap_keeps
    | with_reducible apply startKernel_keeps | with_reducible apply startUpdate_keeps | with_reducible apply startPrune_keeps
    | with_reducible apply startRegrow_keeps | with_reducible apply startRoute_keeps | with_reducible apply startMode_keeps
    | (with_reducible refine Keeps.state (KeepsP.of ?_) ?_; on_goal 1 => with_reducible assumption) | split)

theorem takeUpOther_keeps {s0 op i s} (h_s : Keeps s0 s) : Keeps s0 (takeUpOther op i s) := by
  unfold takeUpOther
  repeat' (first
    | with_reducible assumption | with_reducible apply startRead_keeps | with_reducible apply startWrite_keeps
    | with_reducible apply startCopy_keeps | with_reducible apply startReduce_keeps | with_reducible apply startSend_keeps
    | with_reducible apply startRecv_keeps | with_reducible apply startBcast_keeps | with_reducible apply startPost_keeps
    | with_reducible apply startSeal_keeps | with_reducible apply startPhase_keeps | with_reducible apply startFloor_keeps
    | with_reducible apply startFence_keeps | with_reducible apply startMode_keeps | with_reducible apply State.startPhase_keeps
    | (with_reducible refine Keeps.state (KeepsP.of ?_) ?_; on_goal 1 => with_reducible assumption) | split)

theorem takeUp_keeps {s0 op i s} (h_s : Keeps s0 s) : Keeps s0 (takeUp op i s) := by
  unfold takeUp
  repeat' (first
    | with_reducible assumption | with_reducible apply takeUpFrame_keeps | with_reducible apply takeUpFrond_keeps
    | with_reducible apply takeUpOther_keeps | with_reducible apply Keeps.ite)

theorem pendingStart_keeps {s0 u s} (h_s : Keeps s0 s) : Keeps s0 (pendingStart u s) := by
  unfold pendingStart
  repeat' (first
    | with_reducible assumption
    | ((try lift_lets -underBinder); intro x; (have hx : Keeps s0 x := ?_); clear_value x; rotate_left; (clear_value (e : x = _); rw [e]; clear e))
    | with_reducible apply State.onUnit_keeps | with_reducible apply takeUp_keeps | with_reducible apply State.current_keeps
    | with_reducible apply State.invalid_keeps
    | (with_reducible refine Keeps.state (KeepsP.of ?_) ?_; on_goal 1 => with_reducible assumption)
    | with_reducible apply Keeps.ite | split)

theorem execPendingCommandStart_keeps {s0 unit s} (h_s : Keeps s0 s) : KeepsNext s0 (execPendingCommandStart unit s) := by
  unfold execPendingCommandStart
  repeat' (first | with_reducible assumption | with_reducible apply goOn_keeps | with_reducible apply pendingStart_keeps)

theorem State.scrub_keeps {s0 s k} (h_s : Keeps s0 s) : Keeps s0 (State.scrub s k) := by
  unfold State.scrub
  repeat' (first
    | with_reducible assumption
    | ((try lift_lets -underBinder); intro x; (have hx : Keeps s0 x := ?_); clear_value x; rotate_left; (clear_value (e : x = _); rw [e]; clear e))
    | ((try lift_lets -underBinder); intro x; (have hx : KeepsM s0 x := ?_); clear_value x; rotate_left; (clear_value (e : x = _); rw [e]; clear e))
    | ((try lift_lets -underBinder); intro x; try clear_value x) | with_reducible apply State.ask_keeps
    | with_reducible apply State.put_keeps | with_reducible apply State.count_keeps
    | (with_reducible refine Keeps.state (KeepsP.of ?_) ?_; on_goal 1 => with_reducible assumption)
    | (with_reducible apply KeepsM.of; with_reducible assumption) | (with_reducible apply KeepsM.memory)
    | (with_reducible refine KeepsH.of ?_; with_reducible assumption)
    | (with_reducible refine KeepsO.of ?_; with_reducible assumption) | with_reducible exact KeepsH.empty
    | with_reducible exact KeepsO.empty | (with_reducible refine Keeps.foldl ?_ ?_; on_goal 2 => intro _ _ _)
    | with_reducible apply Keeps.ite)

theorem State.collect_keeps {s0 s} (h_s : Keeps s0 s) : Keeps s0 (State.collect s) :=
  ⟨h_s.queue, h_s.wf⟩

theorem State.retrain_keeps {s0 s u} (h_s : Keeps s0 s) : Keeps s0 (State.retrain s u) := by
  unfold State.retrain
  repeat' (first
    | with_reducible assumption
    | ((try lift_lets -underBinder); intro x; (have hx : Keeps s0 x := ?_); clear_value x; rotate_left; (clear_value (e : x = _); rw [e]; clear e))
    | ((try lift_lets -underBinder); intro x; (have hx : KeepsM s0 x := ?_); clear_value x; rotate_left; (clear_value (e : x = _); rw [e]; clear e))
    | ((try lift_lets -underBinder); intro x; try clear_value x) | with_reducible apply State.raise_keeps
    | (with_reducible refine Keeps.state (KeepsP.of ?_) ?_; on_goal 1 => with_reducible assumption)
    | (with_reducible apply KeepsM.of; with_reducible assumption) | (with_reducible apply KeepsM.memory)
    | (with_reducible refine KeepsH.of ?_; with_reducible assumption)
    | (with_reducible refine KeepsO.of ?_; with_reducible assumption) | with_reducible exact KeepsH.empty
    | with_reducible exact KeepsO.empty | with_reducible apply Keeps.ite)

theorem State.runItem_keeps {s0 s u item} (h_s : Keeps s0 s) : Keeps s0 (State.runItem s u item) := by
  unfold State.runItem
  repeat' (first
    | with_reducible assumption | with_reducible apply State.retrain_keeps | with_reducible apply State.scrub_keeps
    | with_reducible apply State.collect_keeps
    | (with_reducible refine Keeps.state (KeepsP.of ?_) ?_; on_goal 1 => with_reducible assumption)
    | with_reducible apply Keeps.ite | split)

theorem State.reserveUnit_keeps {s0 s r u} (h_s : Keeps s0 s) : Keeps s0 (State.reserveUnit s r u) := by
  unfold State.reserveUnit
  repeat' (first
    | with_reducible assumption
    | ((try lift_lets -underBinder); intro x; (have hx : Keeps s0 x := ?_); clear_value x; rotate_left; (clear_value (e : x = _); rw [e]; clear e))
    | ((try lift_lets -underBinder); intro x; try clear_value x) | with_reducible apply State.onUnit_keeps
    | with_reducible apply State.count_keeps | with_reducible apply State.runItem_keeps
    | (with_reducible refine Keeps.state (KeepsP.of ?_) ?_; on_goal 1 => with_reducible assumption)
    | (with_reducible refine Keeps.foldl ?_ ?_; on_goal 2 => intro _ _ _) | with_reducible apply Keeps.ite)

theorem State.noteRoom_keeps {s0 s r} (h_s : Keeps s0 s) : Keeps s0 (State.noteRoom s r) := by
  unfold State.noteRoom
  repeat' (first
    | with_reducible assumption | (with_reducible refine Keeps.state (KeepsP.of ?_) ?_; on_goal 1 => with_reducible assumption)
    | (with_reducible apply KeepsM.memory) | (with_reducible refine KeepsH.of (KeepsM.of ?_); with_reducible assumption)
    | (with_reducible refine KeepsO.of (KeepsM.of ?_); with_reducible assumption) | with_reducible exact KeepsH.empty
    | with_reducible exact KeepsO.empty | with_reducible apply Keeps.ite)

theorem backgroundReserveStart_keeps {s0 s} (h_s : Keeps s0 s) : Keeps s0 (backgroundReserveStart s) := by
  unfold backgroundReserveStart
  repeat' (first
    | with_reducible assumption
    | ((try lift_lets -underBinder); intro x; (have hx : Keeps s0 x := ?_); clear_value x; rotate_left; (clear_value (e : x = _); rw [e]; clear e))
    | ((try lift_lets -underBinder); intro x; try clear_value x) | with_reducible apply State.count_keeps
    | with_reducible apply State.reserveUnit_keeps | with_reducible apply State.noteRoom_keeps
    | with_reducible apply State.callTable_keeps | (with_reducible refine Keeps.foldl ?_ ?_; on_goal 2 => intro _ _ _)
    | with_reducible apply Keeps.ite)

theorem execBackgroundReserveStart_keeps {s0 s} (h_s : Keeps s0 s) : KeepsNext s0 (execBackgroundReserveStart s) := by
  unfold execBackgroundReserveStart
  repeat' (first
    | with_reducible assumption | with_reducible apply goOn_keeps | with_reducible apply backgroundReserveStart_keeps)

end Sys2Proof.Machine
end

