-- ==== Sys2Proof/Laws/KeepsExec.lean ====
section
/-! SUPPORT. One lemma per function: it keeps the queue and the canonical form of the memories. Here:
every command, the arrivals, the tick and the step. -/

namespace Sys2Proof.Machine

theorem exec_keeps {s0 i s} (h_s : Keeps s0 s) : KeepsNext s0 (exec i s) := by
  unfold exec
  repeat' (first
    | with_reducible assumption | with_reducible apply execNop_keeps | with_reducible apply execCall_keeps
    | with_reducible apply execCommitPoint_keeps | with_reducible apply execHalt_keeps | with_reducible apply execMark_keeps
    | with_reducible apply execArrayIdle_keeps | with_reducible apply execMatmul_keeps | with_reducible apply execArrayHold_keeps
    | with_reducible apply execSorusIdle_keeps | with_reducible apply execSpmm_keeps | with_reducible apply execScore_keeps
    | with_reducible apply execSorusHold_keeps | with_reducible apply execFeederIdle_keeps | with_reducible apply execLoadw_keeps
    | with_reducible apply execLoadwT_keeps | with_reducible apply execSwap_keeps | with_reducible apply execFiligreeIdle_keeps
    | with_reducible apply execKernel_keeps | with_reducible apply execUpdate_keeps | with_reducible apply execPrune_keeps
    | with_reducible apply execRegrow_keeps | with_reducible apply execRoute_keeps | with_reducible apply execMcIdle_keeps
    | with_reducible apply execRead_keeps | with_reducible apply execWrite_keeps | with_reducible apply execCopy_keeps
    | with_reducible apply execReduce_keeps | with_reducible apply execPortIdle_keeps | with_reducible apply execPortSend_keeps
    | with_reducible apply execPortRecv_keeps | with_reducible apply execBcast_keeps | with_reducible apply execStavlinkIdle_keeps
    | with_reducible apply execStavlinkSend_keeps | with_reducible apply execStavlinkRecv_keeps
    | with_reducible apply execPost_keeps | with_reducible apply execSeal_keeps | with_reducible apply execPhase_keeps
    | with_reducible apply execFloor_keeps | with_reducible apply execFence_keeps
    | with_reducible apply execPendingCommandStart_keeps | with_reducible apply execLoadwComplete_keeps
    | with_reducible apply execSwapComplete_keeps | with_reducible apply execMatmulComplete_keeps
    | with_reducible apply execSpmmComplete_keeps | with_reducible apply execKernelComplete_keeps
    | with_reducible apply execUpdatePartComplete_keeps | with_reducible apply execRouteComplete_keeps
    | with_reducible apply execTransferComplete_keeps | with_reducible apply execFenceComplete_keeps
    | with_reducible apply execReduceWindowExpiry_keeps | with_reducible apply execSealComplete_keeps
    | with_reducible apply execFrameTick_keeps | with_reducible apply execStreamFetch_keeps
    | with_reducible apply execBackgroundReserveStart_keeps | with_reducible apply execFrameSyncEdge_keeps
    | with_reducible apply execSyncLost_keeps | with_reducible apply execPlanFix_keeps | with_reducible apply execBridgeFail_keeps
    | with_reducible apply execStreamFlitReceive_keeps | with_reducible apply execBstoreReceive_keeps
    | with_reducible apply execBreduceReceive_keeps | with_reducible apply execBloadReceive_keeps
    | with_reducible apply execBloadRspReceive_keeps | with_reducible apply execBamoReceive_keeps
    | with_reducible apply execBamoRspReceive_keeps | with_reducible apply execHeartbeatReceive_keeps
    | with_reducible apply execCensusReceive_keeps | with_reducible apply execPoisonStepReceive_keeps
    | with_reducible apply execNakReceive_keeps | with_reducible apply execCreditReceive_keeps
    | with_reducible apply execDegradeReceive_keeps | with_reducible apply execRetrainDoneReceive_keeps
    | with_reducible apply execLinkDegraded_keeps | with_reducible apply execPortRetrainComplete_keeps
    | with_reducible apply execPortStall_keeps | with_reducible apply execBoardLoadTimeout_keeps
    | with_reducible apply execStreamUnmatched_keeps | with_reducible apply execHeartbeatLost_keeps
    | with_reducible apply execCensusClose_keeps | with_reducible apply execRoutingBankSwitch_keeps
    | with_reducible apply execLocketDataReceive_keeps | with_reducible apply execLocketAckReceive_keeps
    | with_reducible apply execLocketCompare_keeps | with_reducible apply execDeltaAckReceive_keeps
    | with_reducible apply execReadySend_keeps | with_reducible apply execReadyReceive_keeps
    | with_reducible apply execCoordinatorDecision_keeps | with_reducible apply execCommitTimeout_keeps
    | with_reducible apply execCommitReceive_keeps | with_reducible apply execAbortReceive_keeps
    | with_reducible apply execRevertStart_keeps | with_reducible apply execRevertDone_keeps
    | with_reducible apply execRevertedReceive_keeps | with_reducible apply execRestartReceive_keeps
    | with_reducible apply execOutcomeReceive_keeps | with_reducible apply execOutcomeDecision_keeps
    | with_reducible apply execFillReqReceive_keeps | with_reducible apply execFillDataReceive_keeps
    | with_reducible apply execLocketReqReceive_keeps | with_reducible apply execFaultReport_keeps
    | with_reducible apply execFirstFaultLatch_keeps | with_reducible apply execFrondHang_keeps
    | with_reducible apply execUnitHang_keeps | with_reducible apply execThallusHang_keeps
    | with_reducible apply execFrondResetDone_keeps | with_reducible apply execClusterResetDone_keeps
    | with_reducible apply execModuleReset_keeps | with_reducible apply execReplayFrame_keeps
    | with_reducible apply execReplayPass_keeps | with_reducible apply execGuiltyContext_keeps
    | with_reducible apply execStitchLate_keeps | with_reducible apply execProgramStart_keeps
    | with_reducible apply execProgramStop_keeps | with_reducible apply execSyncTrackingArm_keeps
    | with_reducible apply execClearFirstFault_keeps | with_reducible apply execFrondResetRequest_keeps
    | with_reducible apply execClusterResetRequest_keeps | with_reducible apply execDumpRequest_keeps
    | with_reducible apply execDumpHarvested_keeps | with_reducible apply execStoreSettings_keeps
    | with_reducible apply execRestoreDefaults_keeps | with_reducible apply execMaintenanceMode_keeps
    | with_reducible apply execHoldStep_keeps | with_reducible apply execHoldRelease_keeps
    | with_reducible apply execUpdateVerify_keeps | with_reducible apply execUpdateInstall_keeps
    | with_reducible apply execInstallComplete_keeps | with_reducible apply execUpdateActivate_keeps
    | with_reducible apply execActivateStep_keeps | with_reducible apply execUpdateRevert_keeps
    | with_reducible apply execUpdateCommit_keeps | with_reducible apply execUpdateAbandon_keeps
    | with_reducible apply execAttestationNonce_keeps | with_reducible apply execQuoteComplete_keeps
    | with_reducible apply execFactoryToken_keeps | with_reducible apply execInjectionRequest_keeps
    | with_reducible apply execInjectionFire_keeps | with_reducible apply execRepairRequest_keeps
    | with_reducible apply execRepairEvacuationDone_keeps | with_reducible apply execRepairSoft_keeps
    | with_reducible apply execRepairRestoreDone_keeps | with_reducible apply execMetadataAddress_keeps
    | with_reducible apply execTranslateAddress_keeps | with_reducible apply execPortRestore_keeps
    | with_reducible apply execConfigurationSwitchStep_keeps | with_reducible apply execFenceRelease_keeps
    | with_reducible apply execCensusRequest_keeps | with_reducible apply execResolve_keeps
    | with_reducible apply execResume_keeps | with_reducible apply execRestoreRecord_keeps
    | with_reducible apply execReEncode_keeps | with_reducible apply execExportStep_keeps
    | with_reducible apply execExportDone_keeps | with_reducible apply execMailboxPop_keeps
    | with_reducible apply execRegisterWrite_keeps | with_reducible apply execNagaukRead_keeps
    | with_reducible apply execNagaukWrite_keeps | with_reducible apply execSegInit_keeps | with_reducible apply execSeg_keeps
    | with_reducible apply execNagaukAbort_keeps | with_reducible apply execIdentify_keeps
    | with_reducible apply execSessionTimeout_keeps | with_reducible apply execMgmtFlitReceive_keeps
    | with_reducible apply execCanBusOffRecovery_keeps | with_reducible apply execMap_keeps | with_reducible apply execUnmap_keeps
    | with_reducible apply execMboxRecv_keeps | with_reducible apply execMboxRecvTimeout_keeps
    | with_reducible apply execMboxSend_keeps | with_reducible apply execSlotSubmit_keeps
    | with_reducible apply execSlotStatus_keeps | with_reducible apply execYield_keeps | with_reducible apply execLog_keeps
    | with_reducible apply execExit_keeps | with_reducible apply execQuantumExpiry_keeps
    | with_reducible apply execUserContextException_keeps | with_reducible apply execPowerUp_keeps
    | with_reducible apply execInputRange_keeps | with_reducible apply execInputUndervoltage_keeps
    | with_reducible apply execInputOvervoltage_keeps | with_reducible apply execPowerSample_keeps
    | with_reducible apply execInputLimiter_keeps | with_reducible apply execOvercurrent_keeps
    | with_reducible apply execRegulatorFault_keeps | with_reducible apply execDroop_keeps
    | with_reducible apply execDroopRecovery_keeps | with_reducible apply execThermalSample_keeps
    | with_reducible apply execCoefficientRecalibration_keeps | with_reducible apply execAgeingCheck_keeps
    | with_reducible apply execRefclkLoss_keeps | with_reducible apply execRefclkReturn_keeps
    | with_reducible apply execExtest_keeps | with_reducible apply execIdcode_keeps | with_reducible apply execSamplePreload_keeps
    | with_reducible apply execClamp_keeps | with_reducible apply execHighz_keeps | with_reducible apply execBypass_keeps
    | with_reducible apply execMaskOpComplete_keeps | with_reducible apply execStitchComplete_keeps
    | with_reducible apply execVerifyComplete_keeps | with_reducible apply execStoreSettingsComplete_keeps
    | with_reducible apply execRepairComplete_keeps | with_reducible apply execIdleReceive_keeps
    | with_reducible apply execCanBusOff_keeps | with_reducible apply execBoardSpaceAccess_keeps
    | with_reducible apply State.count_keeps | with_reducible apply fenceComplete_keeps | with_reducible apply loadwComplete_keeps
    | with_reducible apply swapComplete_keeps | with_reducible apply matmulComplete_keeps
    | with_reducible apply spmmComplete_keeps | with_reducible apply transferComplete_keeps
    | with_reducible apply reduceWindowExpiry_keeps | with_reducible apply linkDegraded_keeps
    | with_reducible apply State.resume_keeps | with_reducible apply portStall_keeps | with_reducible apply boardLoadTimeout_keeps
    | with_reducible apply streamUnmatched_keeps | with_reducible apply updatePartComplete_keeps
    | with_reducible apply sealComplete_keeps | with_reducible apply locketCompare_keeps
    | with_reducible apply heartbeatLost_keeps | with_reducible apply State.fence_keeps | with_reducible apply censusClose_keeps
    | with_reducible apply readySend_keeps | with_reducible apply coordinatorDecision_keeps
    | with_reducible apply commitTimeout_keeps | with_reducible apply outcomeDecision_keeps
    | with_reducible apply revertStart_keeps | with_reducible apply revertDone_keeps
    | with_reducible apply routingBankSwitch_keeps | with_reducible apply frondResetDone_keeps
    | with_reducible apply clusterResetDone_keeps | with_reducible apply moduleReset_keeps | with_reducible apply powerUp_keeps
    | with_reducible apply faultReport_keeps | with_reducible apply firstFaultLatch_keeps | with_reducible apply frondHang_keeps
    | with_reducible apply unitHang_keeps | with_reducible apply thallusHang_keeps | with_reducible apply bridgeFail_keeps
    | with_reducible apply injectionFire_keeps | with_reducible apply replayFrame_keeps | with_reducible apply replayPass_keeps
    | with_reducible apply guiltyContext_keeps | with_reducible apply stitchComplete_keeps | with_reducible apply stitchLate_keeps
    | with_reducible apply streamFetch_keeps | with_reducible apply frameSyncEdge_keeps | with_reducible apply syncLost_keeps
    | with_reducible apply refclkLoss_keeps | with_reducible apply refclkReturn_keeps | with_reducible apply planFix_keeps
    | with_reducible apply powerSample_keeps | with_reducible apply inputLimiter_keeps | with_reducible apply inputRange_keeps
    | with_reducible apply inputUndervoltage_keeps | with_reducible apply inputOvervoltage_keeps
    | with_reducible apply overcurrent_keeps | with_reducible apply regulatorFault_keeps | with_reducible apply droop_keeps
    | with_reducible apply droopRecovery_keeps | with_reducible apply thermalSample_keeps | with_reducible apply ageingCheck_keeps
    | with_reducible apply State.call_keeps | with_reducible apply boardSpaceAccess_keeps | with_reducible apply frameTick_keeps
    | with_reducible apply translateAddress_keeps | with_reducible apply updateVerify_keeps
    | with_reducible apply verifyComplete_keeps | with_reducible apply updateInstall_keeps
    | with_reducible apply installComplete_keeps | with_reducible apply updateActivate_keeps
    | with_reducible apply updateRevert_keeps | with_reducible apply updateCommit_keeps | with_reducible apply updateAbandon_keeps
    | with_reducible apply activateStep_keeps | with_reducible apply storeSettings_keeps
    | with_reducible apply restoreDefaults_keeps | with_reducible apply quoteComplete_keeps
    | with_reducible apply maintenanceMode_keeps | with_reducible apply factoryToken_keeps | with_reducible apply holdStep_keeps
    | with_reducible apply holdRelease_keeps | with_reducible apply exportStep_keeps | with_reducible apply exportDone_keeps
    | with_reducible apply kernelComplete_keeps | with_reducible apply samplePreload_keeps
    | with_reducible apply maskOpComplete_keeps | with_reducible apply routeComplete_keeps
    | with_reducible apply State.message_keeps | with_reducible apply backgroundReserveStart_keeps
    | with_reducible apply goOn_keeps | split)

theorem State.dispatch_keeps {s0 s} (h_s : Keeps s0 s) : Keeps s0 (State.dispatch s).2 := by
  unfold State.dispatch
  repeat' (first
    | with_reducible assumption | ((try lift_lets -underBinder); intro x; try clear_value x)
    | (with_reducible refine Keeps.state (KeepsP.of ?_) ?_; on_goal 1 => with_reducible assumption)
    | (with_reducible apply KeepsM.of; with_reducible assumption))

theorem State.dropLoop_keeps {s0 s} (h_s : Keeps s0 s) : Keeps s0 (State.dropLoop s) := by
  unfold State.dropLoop
  repeat' (first
    | with_reducible assumption | (with_reducible refine Keeps.state (KeepsP.of ?_) ?_; on_goal 1 => with_reducible assumption)
    | (with_reducible apply KeepsM.of; with_reducible assumption) | with_reducible apply Keeps.ite | split)

theorem State.credit_keeps {s0 s p} (h_s : Keeps s0 s) : Keeps s0 (State.credit s p) := by
  unfold State.credit
  repeat' (first
    | with_reducible assumption | with_reducible apply State.blockLanded_keeps | with_reducible apply State.recvLanded_keeps
    | with_reducible apply Keeps.ite)

theorem State.creditIn_keeps {s0 s n p} (h_s : Keeps s0 s) : Keeps s0 (State.creditIn s n p) := by
  unfold State.creditIn
  repeat' (first
    | with_reducible assumption | with_reducible apply State.credit_keeps | with_reducible apply State.arriveIn_keeps
    | (with_reducible refine Keeps.state (KeepsP.of ?_) ?_; on_goal 1 => with_reducible assumption)
    | with_reducible apply Keeps.ite)

theorem State.putEffect_keeps {s0 s p} (h_s : Keeps s0 s) : Keeps s0 (State.putEffect s p) := by
  unfold State.putEffect
  repeat' (first
    | with_reducible assumption | ((try lift_lets -underBinder); intro x; try clear_value x)
    | with_reducible apply State.creditIn_keeps | with_reducible apply State.writeBytes_keeps
    | with_reducible apply State.reduceBytes_keeps | with_reducible apply State.landLocal_keeps
    | with_reducible apply State.landPiece_keeps
    | (with_reducible refine Keeps.state (KeepsP.of ?_) ?_; on_goal 1 => with_reducible assumption)
    | with_reducible apply Keeps.ite | split)

theorem State.readEffect_keeps {s0 s p a2 n hint uses} (h_s : Keeps s0 s) : Keeps s0 (State.readEffect s p a2 n hint uses) := by
  unfold State.readEffect
  repeat' (first
    | with_reducible assumption
    | ((try lift_lets -underBinder); intro x; (have hx : Keeps s0 x.1 := ?_); clear_value x; rotate_left; (clear_value (e : x = _); rw [e]; clear e))
    | ((try lift_lets -underBinder); intro x; try clear_value x) | with_reducible apply State.readBlock_keeps
    | with_reducible apply State.arriveIn_keeps
    | (with_reducible refine Keeps.state (KeepsP.of ?_) ?_; on_goal 1 => with_reducible assumption)
    | (with_reducible refine Keeps.foldl_fst ?_ ?_; on_goal 2 => intro _ _ _))

theorem State.amoEffect_keeps {s0 s p a2 op n x} (h_s : Keeps s0 s) : Keeps s0 (State.amoEffect s p a2 op n x) := by
  unfold State.amoEffect
  repeat' (first
    | with_reducible assumption
    | ((try lift_lets -underBinder); intro x; (have hx : Keeps s0 x.1 := ?_); clear_value x; rotate_left; (clear_value (e : x = _); rw [e]; clear e))
    | ((try lift_lets -underBinder); intro x; try clear_value x) | with_reducible apply State.atomic_keeps
    | with_reducible apply State.arriveIn_keeps)

theorem State.effect_keeps {s0 s r} (h_s : Keeps s0 s) : Keeps s0 (State.effect s r) := by
  unfold State.effect
  repeat' (first
    | with_reducible assumption | with_reducible apply State.putEffect_keeps | with_reducible apply State.readEffect_keeps
    | with_reducible apply State.amoEffect_keeps | with_reducible apply State.checkBlock_keeps
    | with_reducible apply State.put_keeps | with_reducible apply State.ask_keeps | with_reducible apply State.scrub_keeps
    | (with_reducible refine Keeps.state (KeepsP.of ?_) ?_; on_goal 1 => with_reducible assumption)
    | with_reducible apply Keeps.ite | split)

theorem State.effects_keeps {s0 s} (h_s : Keeps s0 s) : Keeps s0 (State.effects s) := by
  unfold State.effects
  repeat' (first
    | with_reducible assumption | ((try lift_lets -underBinder); intro x; try clear_value x)
    | with_reducible apply State.effect_keeps | with_reducible apply State.setTraffic_keeps
    | (with_reducible refine Keeps.state (KeepsP.of ?_) ?_; on_goal 1 => with_reducible assumption)
    | (with_reducible refine Keeps.foldl ?_ ?_; on_goal 2 => intro _ _ _) | split)

theorem State.laneArrivals_keeps {s0 s l} (h_s : Keeps s0 s) : Keeps s0 (State.laneArrivals s l) := by
  unfold State.laneArrivals
  repeat' (first
    | with_reducible assumption | ((try lift_lets -underBinder); intro x; try clear_value x)
    | with_reducible apply State.carry_keeps | with_reducible apply State.setLane_keeps
    | (with_reducible refine Keeps.state (KeepsP.of ?_) ?_; on_goal 1 => with_reducible assumption)
    | (with_reducible refine Keeps.foldl ?_ ?_; on_goal 2 => intro _ _ _) | split)

theorem State.perform_keeps {s0 s p} (h_s : Keeps s0 s) : Keeps s0 (State.perform s p) := by
  unfold State.perform
  repeat' (first
    | with_reducible assumption | with_reducible apply State.credit_keeps | with_reducible apply State.opWrite_keeps
    | with_reducible apply State.blockHome_keeps | with_reducible apply State.coreData_keeps
    | with_reducible apply State.answer_keeps | with_reducible apply State.takeRequest_keeps
    | with_reducible apply State.fillLine_keeps | with_reducible apply State.originate_keeps
    | with_reducible apply State.pushMail_keeps | with_reducible apply State.ask_keeps | with_reducible apply State.mail_keeps
    | with_reducible apply State.store_keeps
    | (with_reducible refine Keeps.state (KeepsP.of ?_) ?_; on_goal 1 => with_reducible assumption) | split)

theorem State.arrive_keeps {s0 s p} (h_s : Keeps s0 s) : Keeps s0 (State.arrive s p) := by
  unfold State.arrive
  repeat' (first
    | with_reducible assumption | ((try lift_lets -underBinder); intro x; try clear_value x)
    | with_reducible apply State.carry_keeps | with_reducible apply State.arriveIn_keeps
    | with_reducible apply State.perform_keeps | with_reducible apply State.claimBank_keeps
    | with_reducible apply State.store_keeps
    | (with_reducible refine Keeps.state (KeepsP.of ?_) ?_; on_goal 1 => with_reducible assumption)
    | with_reducible apply Keeps.ite | split)

theorem State.transitArrivals_keeps {s0 s} (h_s : Keeps s0 s) : Keeps s0 (State.transitArrivals s) := by
  unfold State.transitArrivals
  repeat' (first
    | with_reducible assumption | ((try lift_lets -underBinder); intro x; try clear_value x)
    | with_reducible apply State.arrive_keeps | with_reducible apply State.setTraffic_keeps
    | (with_reducible refine Keeps.state (KeepsP.of ?_) ?_; on_goal 1 => with_reducible assumption)
    | (with_reducible refine Keeps.foldl ?_ ?_; on_goal 2 => intro _ _ _) | split)

theorem State.arrivals_keeps {s0 s} (h_s : Keeps s0 s) : Keeps s0 (State.arrivals s) := by
  unfold State.arrivals
  repeat' (first
    | with_reducible assumption
    | ((try lift_lets -underBinder); intro x; (have hx : Keeps s0 x := ?_); clear_value x; rotate_left; (clear_value (e : x = _); rw [e]; clear e))
    | with_reducible apply State.effects_keeps | with_reducible apply State.laneArrivals_keeps
    | with_reducible apply State.transitArrivals_keeps | (with_reducible refine Keeps.foldl ?_ ?_; on_goal 2 => intro _ _ _)
    | with_reducible apply Keeps.ite)

theorem State.unitCycle_keeps {s0 s u} (h_s : Keeps s0 s) : Keeps s0 (State.unitCycle s u) := by
  unfold State.unitCycle
  repeat' (first
    | with_reducible assumption
    | ((try lift_lets -underBinder); intro x; (have hx : Keeps s0 x := ?_); clear_value x; rotate_left; (clear_value (e : x = _); rw [e]; clear e))
    | ((try lift_lets -underBinder); intro x; try clear_value x) | with_reducible apply State.onUnit_keeps
    | (with_reducible refine Keeps.state (KeepsP.of ?_) ?_; on_goal 1 => with_reducible assumption)
    | with_reducible apply Keeps.ite)

theorem State.frondUnitCycle_keeps {s0 s u move} (h_s : Keeps s0 s) (h_move : ∀ x0, Keeps s0 x0 → Keeps s0 (move x0)) : Keeps s0 (State.frondUnitCycle s u move) := by
  unfold State.frondUnitCycle
  repeat' (first
    | with_reducible assumption
    | ((try lift_lets -underBinder); intro x; (have hx : Keeps s0 x := ?_); clear_value x; rotate_left; (clear_value (e : x = _); rw [e]; clear e))
    | ((try lift_lets -underBinder); intro x; try clear_value x) | with_reducible apply State.slip_keeps
    | with_reducible apply State.onUnit_keeps | with_reducible apply h_move | with_reducible apply Keeps.ite)

theorem State.countHolds_keeps {s0 s d} (h_s : Keeps s0 s) : Keeps s0 (State.countHolds s d) := by
  unfold State.countHolds
  repeat' (first
    | with_reducible assumption
    | ((try lift_lets -underBinder); intro x; (have hx : Keeps s0 x := ?_); clear_value x; rotate_left; (clear_value (e : x = _); rw [e]; clear e))
    | ((try lift_lets -underBinder); intro x; try clear_value x) | with_reducible apply State.countIf_keeps)

theorem State.filigreeCycle_keeps {s0 s u} (h_s : Keeps s0 s) : Keeps s0 (State.filigreeCycle s u) := by
  unfold State.filigreeCycle
  repeat' (first
    | with_reducible assumption | with_reducible apply State.partCycle_keeps | with_reducible apply State.onUnit_keeps
    | (with_reducible refine Keeps.state (KeepsP.of ?_) ?_; on_goal 1 => with_reducible assumption)
    | with_reducible apply Keeps.ite | with_reducible refine Keeps.of_fst (by with_reducible assumption) ?_
    | with_reducible refine Keeps.of_snd (by with_reducible assumption) ?_
    | with_reducible refine KeepsS.elim (by with_reducible assumption) ?_
    | with_reducible refine KeepsT.elim (by with_reducible assumption) ?_ | split)

theorem State.dieCycle_keeps {s0 s d} (h_s : Keeps s0 s) : Keeps s0 (State.dieCycle s d) := by
  unfold State.dieCycle
  repeat' (first
    | with_reducible assumption
    | ((try lift_lets -underBinder); intro x; (have hx : Keeps s0 x := ?_); clear_value x; rotate_left; (clear_value (e : x = _); rw [e]; clear e))
    | ((try lift_lets -underBinder); intro x; (have hf3 : ∀ y z w v, Keeps s0 y → Keeps s0 (x y z w v) := ?_); clear_value x; rotate_left; (clear_value (e : x = _); rw [e]; clear e; intros; beta_reduce))
    | ((try lift_lets -underBinder); intro x; try clear_value x) | with_reducible apply hf0 | with_reducible apply hf1
    | with_reducible apply hf2 | with_reducible apply hf3 | with_reducible apply hf4 | with_reducible apply hf5
    | with_reducible apply hf6 | with_reducible apply hf7 | with_reducible apply hf8 | with_reducible apply hf9
    | with_reducible apply State.count_keeps | with_reducible apply State.setFiligree_keeps
    | with_reducible apply State.frondUnitCycle_keeps | with_reducible apply State.arrayCycle_keeps
    | with_reducible apply State.sorusCycle_keeps | with_reducible apply State.feederCycle_keeps
    | with_reducible apply State.filigreeCycle_keeps | with_reducible apply State.countHolds_keeps
    | (with_reducible refine Keeps.state (KeepsP.of ?_) ?_; on_goal 1 => with_reducible assumption)
    | with_reducible apply Keeps.ite)

theorem State.unitCycles_keeps {s0 s} (h_s : Keeps s0 s) : Keeps s0 (State.unitCycles s) := by
  unfold State.unitCycles
  repeat' (first
    | with_reducible assumption
    | ((try lift_lets -underBinder); intro x; (have hx : Keeps s0 x := ?_); clear_value x; rotate_left; (clear_value (e : x = _); rw [e]; clear e))
    | ((try lift_lets -underBinder); intro x; try clear_value x) | with_reducible apply State.dieCycle_keeps
    | with_reducible apply State.unitCycle_keeps | with_reducible apply State.setTraffic_keeps
    | (with_reducible refine Keeps.state (KeepsP.of ?_) ?_; on_goal 1 => with_reducible assumption)
    | (with_reducible apply KeepsM.of; with_reducible assumption)
    | (with_reducible refine Keeps.foldl ?_ ?_; on_goal 2 => intro _ _ _) | with_reducible apply Keeps.ite)

theorem State.refillAll_keeps {s0 s} (h_s : Keeps s0 s) : Keeps s0 (State.refillAll s) := by
  unfold State.refillAll
  repeat' (first
    | with_reducible assumption | with_reducible apply State.refill_keeps
    | (with_reducible refine Keeps.foldl ?_ ?_; on_goal 2 => intro _ _ _))

theorem State.fenceCycle_keeps {s0 s} (h_s : Keeps s0 s) : Keeps s0 (State.fenceCycle s) := by
  unfold State.fenceCycle
  repeat' (first
    | with_reducible assumption
    | ((try lift_lets -underBinder); intro x; (have hx : Keeps s0 x := ?_); clear_value x; rotate_left; (clear_value (e : x = _); rw [e]; clear e))
    | ((try lift_lets -underBinder); intro x; try clear_value x) | with_reducible apply State.count_keeps
    | (with_reducible refine Keeps.state (KeepsP.of ?_) ?_; on_goal 1 => with_reducible assumption)
    | (with_reducible apply KeepsM.of; with_reducible assumption) | with_reducible apply Keeps.ite)

theorem State.reportCycle_keeps {s0 s} (h_s : Keeps s0 s) : Keeps s0 (State.reportCycle s) :=
  ⟨h_s.queue, h_s.wf⟩

theorem State.fabricCycle_keeps {s0 s} (h_s : Keeps s0 s) : Keeps s0 (State.fabricCycle s) := by
  unfold State.fabricCycle
  repeat' (first
    | with_reducible assumption
    | ((try lift_lets -underBinder); intro x; (have hx : Keeps s0 x := ?_); clear_value x; rotate_left; (clear_value (e : x = _); rw [e]; clear e))
    | ((try lift_lets -underBinder); intro x; try clear_value x) | with_reducible apply State.hopCycle_keeps
    | with_reducible apply State.linkCycle_keeps | with_reducible apply State.setPort_keeps
    | (with_reducible refine Keeps.state (KeepsP.of ?_) ?_; on_goal 1 => with_reducible assumption)
    | (with_reducible apply KeepsM.of; with_reducible assumption)
    | (with_reducible refine Keeps.foldl ?_ ?_; on_goal 2 => intro _ _ _))

theorem State.clusterCycle_keeps {s0 s d} (h_s : Keeps s0 s) : Keeps s0 (State.clusterCycle s d) :=
  ⟨h_s.queue, h_s.wf⟩

theorem State.bridgeStall_keeps {s0 s k n} (h_s : Keeps s0 s) : Keeps s0 (State.bridgeStall s k n) := by
  unfold State.bridgeStall
  repeat' (first | with_reducible assumption | with_reducible apply State.coreEvent_keeps | with_reducible apply Keeps.ite)

theorem State.coreCycle_keeps {s0 s k} (h_s : Keeps s0 s) : Keeps s0 (State.coreCycle s k) := by
  unfold State.coreCycle
  repeat' (first
    | with_reducible assumption
    | ((try lift_lets -underBinder); intro x; (have hx : Keeps s0 x := ?_); clear_value x; rotate_left; (clear_value (e : x = _); rw [e]; clear e))
    | ((try lift_lets -underBinder); intro x; try clear_value x) | with_reducible apply State.bridgeStall_keeps
    | with_reducible apply State.count_keeps | with_reducible apply State.setCore_keeps
    | (with_reducible refine Keeps.state (KeepsP.of ?_) ?_; on_goal 1 => with_reducible assumption)
    | with_reducible refine Keeps.of_fst (by with_reducible assumption) ?_
    | with_reducible refine Keeps.of_snd (by with_reducible assumption) ?_
    | with_reducible refine KeepsS.elim (by with_reducible assumption) ?_
    | with_reducible refine KeepsT.elim (by with_reducible assumption) ?_ | split)

theorem State.windowCycle_keeps {s0 s k} (h_s : Keeps s0 s) : Keeps s0 (State.windowCycle s k) := by
  unfold State.windowCycle
  repeat' (first
    | with_reducible assumption | ((try lift_lets -underBinder); intro x; try clear_value x)
    | with_reducible apply State.coreEvent_keeps | with_reducible apply State.windowServed_keeps
    | with_reducible apply State.setCore_keeps | with_reducible apply State.claimBank_keeps
    | (with_reducible refine Keeps.state (KeepsP.of ?_) ?_; on_goal 1 => with_reducible assumption)
    | with_reducible apply Keeps.ite | with_reducible apply Keeps.ite_fst
    | with_reducible refine Keeps.of_fst (by with_reducible assumption) ?_
    | with_reducible refine Keeps.of_snd (by with_reducible assumption) ?_
    | with_reducible refine KeepsS.elim (by with_reducible assumption) ?_
    | with_reducible refine KeepsT.elim (by with_reducible assumption) ?_ | split)

theorem State.windowCycles_keeps {s0 s} (h_s : Keeps s0 s) : Keeps s0 (State.windowCycles s) := by
  unfold State.windowCycles
  repeat' (first
    | with_reducible assumption | with_reducible apply State.windowCycle_keeps
    | (with_reducible refine Keeps.foldl ?_ ?_; on_goal 2 => intro _ _ _))

theorem State.thallusCycle_keeps {s0 s} (h_s : Keeps s0 s) : Keeps s0 (State.thallusCycle s) := by
  unfold State.thallusCycle
  repeat' (first
    | with_reducible assumption
    | ((try lift_lets -underBinder); intro x; (have hx : Keeps s0 x := ?_); clear_value x; rotate_left; (clear_value (e : x = _); rw [e]; clear e))
    | ((try lift_lets -underBinder); intro x; try clear_value x) | with_reducible apply State.coreCycle_keeps
    | with_reducible apply State.mailCycle_keeps | with_reducible apply State.clusterCycle_keeps
    | (with_reducible refine Keeps.state (KeepsP.of ?_) ?_; on_goal 1 => with_reducible assumption)
    | (with_reducible apply KeepsM.of; with_reducible assumption)
    | (with_reducible refine Keeps.foldl ?_ ?_; on_goal 2 => intro _ _ _))

theorem State.serverCycle_keeps {s0 s} (h_s : Keeps s0 s) : Keeps s0 (State.serverCycle s) := by
  have go : ∀ x, Keeps s0 x → Keeps s0 (if x.get 0x1005 1 = 0 then x
      else if x.power.holdRest + 1 < 1250000 then { x with power := { x.power with holdRest := x.power.holdRest + 1 } }
      else { x.count 0x1005 3 1 with power := { x.power with holdRest := 0 } }) := by
    intro x h
    have h1 : Keeps s0 (x.count 0x1005 3 1) := State.count_keeps h
    exact Keeps.ite h (Keeps.ite (Keeps.state (KeepsP.of h) (KeepsM.of h)) (Keeps.state (KeepsP.of h1) (KeepsM.of h1)))
  exact go _ (Keeps.state (KeepsP.of h_s) (KeepsM.of h_s))

theorem State.retrainCycle_keeps {s0 s} (h_s : Keeps s0 s) : Keeps s0 (State.retrainCycle s) := by
  unfold State.retrainCycle
  repeat' (first
    | with_reducible assumption
    | ((try lift_lets -underBinder); intro x; (have hx : Keeps s0 x := ?_); clear_value x; rotate_left; (clear_value (e : x = _); rw [e]; clear e))
    | ((try lift_lets -underBinder); intro x; (have hx : KeepsM s0 x := ?_); clear_value x; rotate_left; (clear_value (e : x = _); rw [e]; clear e))
    | ((try lift_lets -underBinder); intro x; try clear_value x) | with_reducible apply State.countIf_keeps
    | (with_reducible refine Keeps.state (KeepsP.of ?_) ?_; on_goal 1 => with_reducible assumption)
    | (with_reducible apply KeepsM.of; with_reducible assumption) | (with_reducible apply KeepsM.memory)
    | (with_reducible refine KeepsH.of ?_; with_reducible assumption)
    | (with_reducible refine KeepsO.of ?_; with_reducible assumption))

theorem State.scrubCycle_keeps {s0 s} (h_s : Keeps s0 s) : Keeps s0 (State.scrubCycle s) := by
  unfold State.scrubCycle
  repeat' (first
    | with_reducible assumption
    | ((try lift_lets -underBinder); intro x; (have hx : Keeps s0 x := ?_); clear_value x; rotate_left; (clear_value (e : x = _); rw [e]; clear e))
    | ((try lift_lets -underBinder); intro x; (have hx : KeepsM s0 x := ?_); clear_value x; rotate_left; (clear_value (e : x = _); rw [e]; clear e))
    | ((try lift_lets -underBinder); intro x; try clear_value x) | with_reducible apply State.count_keeps
    | (with_reducible refine Keeps.state (KeepsP.of ?_) ?_; on_goal 1 => with_reducible assumption)
    | (with_reducible apply KeepsM.of; with_reducible assumption) | (with_reducible apply KeepsM.memory)
    | (with_reducible refine KeepsH.of ?_; with_reducible assumption)
    | (with_reducible refine KeepsO.of ?_; with_reducible assumption) | with_reducible exact KeepsH.empty
    | with_reducible exact KeepsO.empty | with_reducible apply Keeps.ite)

theorem State.revertCycle_keeps {s0 s} (h_s : Keeps s0 s) : Keeps s0 (State.revertCycle s) := by
  unfold State.revertCycle
  repeat' (first
    | with_reducible assumption | (with_reducible refine Keeps.state (KeepsP.of ?_) ?_; on_goal 1 => with_reducible assumption)
    | (with_reducible apply KeepsM.of; with_reducible assumption) | with_reducible apply Keeps.ite)

theorem State.issueTraffic_keeps {s0 s} (h_s : Keeps s0 s) : Keeps s0 (State.issueTraffic s) := by
  unfold State.issueTraffic
  repeat' (first
    | with_reducible assumption | ((try lift_lets -underBinder); intro x; try clear_value x)
    | with_reducible apply State.serveTraffic_keeps | with_reducible apply State.issueBlocks_keeps
    | (with_reducible refine Keeps.foldl ?_ ?_; on_goal 2 => intro _ _ _))

theorem State.repairCycle_keeps {s0 s} (h_s : Keeps s0 s) : Keeps s0 (State.repairCycle s) := by
  unfold State.repairCycle
  repeat' (first
    | with_reducible assumption | with_reducible apply State.put_keeps
    | (with_reducible refine Keeps.state (KeepsP.of ?_) ?_; on_goal 1 => with_reducible assumption)
    | (with_reducible apply KeepsM.memory) | (with_reducible refine KeepsH.of (KeepsM.of ?_); with_reducible assumption)
    | (with_reducible refine KeepsO.of (KeepsM.of ?_); with_reducible assumption) | with_reducible exact KeepsH.empty
    | with_reducible exact KeepsO.empty | with_reducible apply Keeps.ite
    | with_reducible refine Keeps.of_fst (by with_reducible assumption) ?_
    | with_reducible refine Keeps.of_snd (by with_reducible assumption) ?_
    | with_reducible refine KeepsS.elim (by with_reducible assumption) ?_
    | with_reducible refine KeepsT.elim (by with_reducible assumption) ?_ | split
    | (with_reducible refine Keeps.state (KeepsP.of ?_) ?_))

theorem State.ageTraffic_keeps {s0 s} (h_s : Keeps s0 s) : Keeps s0 (State.ageTraffic s) := by
  unfold State.ageTraffic
  repeat' (first
    | with_reducible assumption
    | ((try lift_lets -underBinder); intro x; (have hx : Keeps s0 x := ?_); clear_value x; rotate_left; (clear_value (e : x = _); rw [e]; clear e))
    | ((try lift_lets -underBinder); intro x; (have hx : KeepsM s0 x := ?_); clear_value x; rotate_left; (clear_value (e : x = _); rw [e]; clear e))
    | with_reducible apply State.repairCycle_keeps | with_reducible apply State.setTraffic_keeps
    | (with_reducible refine Keeps.state (KeepsP.of ?_) ?_; on_goal 1 => with_reducible assumption)
    | (with_reducible apply KeepsM.of; with_reducible assumption) | (with_reducible apply KeepsM.memory)
    | (with_reducible refine KeepsH.of ?_; with_reducible assumption)
    | (with_reducible refine KeepsO.of ?_; with_reducible assumption))

theorem State.passCycle_keeps {s0 s} (h_s : Keeps s0 s) : Keeps s0 (State.passCycle s) := by
  unfold State.passCycle
  repeat' (first
    | with_reducible assumption | with_reducible apply State.ageTraffic_keeps | with_reducible apply State.droopCycle_keeps
    | with_reducible apply State.revertCycle_keeps | with_reducible apply State.scrubCycle_keeps
    | with_reducible apply State.retrainCycle_keeps | with_reducible apply State.serverCycle_keeps
    | with_reducible apply State.thallusCycle_keeps | with_reducible apply State.fabricCycle_keeps
    | with_reducible apply State.reportCycle_keeps | with_reducible apply State.fenceCycle_keeps
    | with_reducible apply State.refillAll_keeps | with_reducible apply State.unitCycles_keeps
    | with_reducible apply State.windowCycles_keeps | with_reducible apply State.issueTraffic_keeps)

/-- A cycle keeps the canonical form of the memories. -/
theorem State.advance_wf {s : State} (h : s.mem.wf = true) : s.advance.mem.wf = true := by
  have h1 : Keeps s s.passCycle := State.passCycle_keeps (Keeps.refl s)
  have h2 : ∀ c, Keeps s { s.passCycle with clock := c } := fun _ => Keeps.state (KeepsP.of h1) (KeepsM.of h1)
  unfold State.advance
  dsimp only
  refine (State.arrivals_keeps (s0 := s) ?_).wf h
  exact Keeps.ite (h2 _) (h2 _)

/-- So does the idle tick. -/
theorem State.idle_wf {s : State} (h : s.mem.wf = true) : s.idle.mem.wf = true := by
  unfold State.idle
  split
  · exact h
  · have h1 : Keeps s s.dropLoop := State.dropLoop_keeps (Keeps.refl s)
    dsimp only
    split
    · split
      · rename_i e
        exact State.advance_wf ((Keeps.of_snd e (State.dispatch_keeps h1)).wf h)
      · rename_i e
        exact (Keeps.of_snd e (State.dispatch_keeps h1)).wf h
    · exact h1.wf h

end Sys2Proof.Machine
end

