-- ==== Sys2Proof/WellFormed.lean ====
section
/-! DEFINITION. Which commands are well formed: every operand within the range its field has in the manual. -/

namespace Sys2Proof

/-- The fields of a bundle and of a command word (Tables 2.3 and 2.4). -/
def Issue.wf (i : Issue) : Bool :=
  decide (i.unit < 256) && decide (i.dur < 65536) && decide (i.ctx < 16) && decide (i.seq < 65536) &&
  decide (1 ≤ i.slot) && decide (i.slot ≤ 7) &&
  (match i.tbl with
   | none => true
   | some t => decide (t.table < 256) && decide (t.callSeq < 65536))

/-- A command of the stream to a unit of the ids `ids` (Table 2.5). -/
def Issue.wfFor (i : Issue) (lo hi : Nat) : Bool := i.wf && decide (lo ≤ i.unit) && decide (i.unit ≤ hi)

/-- A command to an array: units 0x10 to 0x12 and 0x18 to 0x1A. -/
def Issue.wfArray (i : Issue) : Bool := i.wfFor 0x10 0x12 || i.wfFor 0x18 0x1A

/-- A flit is 256 bytes and arrives on one of the 17 ports (R272). -/
def wfFlit (port : Nat) (raw : List Byte) : Bool := decide (port ≤ 16) && raw.length == 256

/-- A Nagauk frame has a 29-bit identifier and at most 64 bytes (R392, R394). -/
def Message.wf : Message → Bool
  | .can identifier payload => decide (identifier < 2 ^ 29) && decide (payload.length ≤ 64)
  | .inBand => true

/-- The widths of an access to a physical address. -/
def MemAccess.wf : MemAccess → Bool
  | .fetch n => n == 2 || n == 4
  | .load n => decide (1 ≤ n) && decide (n ≤ 64)
  | .store b => decide (1 ≤ b.length) && decide (b.length ≤ 64)
  | .amo op _ _ => decide (op ≤ 8)
  | .loadReserved _ | .storeConditional _ _ | .cache _ => true

/-- The widths a core's access may have (Table 11.3). -/
def CoreAccess.wf : CoreAccess → Bool
  | .load n => decide (1 ≤ n) && decide (n ≤ 236)
  | .store b => decide (1 ≤ b.length) && decide (b.length ≤ 236)
  | .amo op _ _ => decide (op ≤ 8)
  | .physical _ m => m.wf
  | .device _ _ => true
  | .csr n _ => decide (n < 4096)

/-- Every operand of the command lies in the range the manual gives it. -/
def Instr.wf : Instr → Bool
  | .nop i | .call i | .commitPoint i | .halt i | .mark i => i.wfFor 0 0
  | .arrayIdle i | .matmul i | .arrayHold i => i.wfArray
  | .sorusIdle i | .spmm i | .score i | .sorusHold i => i.wfFor 0x20 0x22
  | .feederIdle i | .loadw i | .loadwT i | .swap i => i.wfFor 0x28 0x2A
  | .filigreeIdle i | .kernel i | .update i | .prune i | .regrow i | .route i => i.wfFor 0x30 0x32
  | .mcIdle i | .read i | .write i | .copy i | .reduce i => i.wfFor 0x40 0x4B
  | .portIdle i | .portSend i | .portRecv i | .bcast i => i.wfFor 0x50 0x5F
  | .stavlinkIdle i | .stavlinkSend i | .stavlinkRecv i => i.wfFor 0x60 0x60
  | .post i => i.wfFor 0x70 0x72
  | .seal i => i.wfFor 0x78 0x78
  | .phase i | .floor i => i.wfFor 0x7C 0x7C
  | .fence i => i.wfFor 0x7F 0x7F
  | .pendingCommandStart u | .matmulComplete u | .transferComplete u | .reduceWindowExpiry u | .frondHang u
  | .unitHang u | .maskOpComplete u => decide (u < 128)
  | .loadwComplete d | .swapComplete d | .spmmComplete d | .kernelComplete d | .updatePartComplete d
  | .routeComplete d | .frondResetDone d _ | .clusterResetDone d _ | .mailboxPop d | .extest d | .idcode d
  | .samplePreload d _ | .clamp d | .highz d | .bypass d => decide (d < 3)
  | .fenceComplete c => decide (c < 16)
  | .bridgeFail _ _ units _ => decide (units < 2 ^ 32)
  | .streamFlitReceive p r | .bstoreReceive p r | .breduceReceive p r | .bloadReceive p r | .bloadRspReceive p r
  | .bamoReceive p r | .bamoRspReceive p r | .heartbeatReceive p r | .censusReceive p r | .poisonStepReceive p r
  | .nakReceive p r | .creditReceive p r | .degradeReceive p r | .retrainDoneReceive p r | .locketDataReceive p r
  | .locketAckReceive p r | .deltaAckReceive p r | .readyReceive p r | .commitReceive p r | .abortReceive p r
  | .revertedReceive p r | .restartReceive p r | .outcomeReceive p r | .fillReqReceive p r | .fillDataReceive p r
  | .locketReqReceive p r | .mgmtFlitReceive p r | .idleReceive p r => wfFlit p r
  | .linkDegraded p | .portRetrainComplete p _ | .portStall p => decide (p ≤ 16)
  | .boardLoadTimeout q => decide (q < 65536)
  | .faultReport r => decide (r.code < 4096) && decide (r.source < 256) && decide (r.die < 3) && decide (r.ctx < 16) &&
      decide (r.frame < 2 ^ 48) && decide (r.cycle < 2 ^ 20) && decide (r.detail < 2 ^ 384)
  | .thallusHang c _ _ | .mboxRecvTimeout c | .yield c | .quantumExpiry c | .exit c _
  | .userContextException c _ _ => decide (c < 24)
  | .map c g va => decide (c < 24) && decide (g < 255) && decide (va < 2 ^ 48)
  | .unmap c va => decide (c < 24) && decide (va < 2 ^ 48)
  | .mboxRecv c b _ => decide (c < 24) && decide (b < 2 ^ 48)
  | .mboxSend c d _ => decide (c < 24) && decide (d < 3)
  | .slotSubmit c t b _ _ => decide (c < 24) && decide (t < 256) && decide (b < 2 ^ 48)
  | .slotStatus c t => decide (c < 24) && decide (t < 256)
  | .log c b n => decide (c < 24) && decide (b < 2 ^ 48) && decide (n ≤ 256)
  | .syncTrackingArm _ v | .clearFirstFault _ v | .dumpRequest _ v | .maintenanceMode _ v | .holdRelease _ v
  | .fenceRelease _ v | .censusRequest _ v | .resume _ v | .reEncode _ v | .exportDone _ v | .frondResetRequest _ v
  | .clusterResetRequest _ v | .dumpHarvested _ v | .portRestore _ v | .resolve _ v => decide (v < 256)
  | .storeSettings _ v | .restoreDefaults _ v => decide (v < 2 ^ 32)
  | .holdStep _ v | .metadataAddress _ v | .translateAddress _ v | .configurationSwitchStep _ v
  | .exportStep _ v => decide (v < 2 ^ 64)
  | .attestationNonce _ b => b.length == 32
  | .injectionRequest _ b | .repairRequest _ b => b.length == 16
  | .factoryToken _ b => decide (b.length < 2 ^ 32)
  | .restoreRecord _ b => decide (b.length < 2 ^ 32)
  | .registerWrite _ i s t _ => decide (i < 65536) && decide (s < 256) && decide (t < 256)
  | .nagaukRead m | .nagaukWrite m | .segInit m | .seg m | .nagaukAbort m | .identify m => m.wf
  | .sessionTimeout _ k => decide (k < 65536)
  | .inputRange v | .inputUndervoltage v | .inputOvervoltage v => decide (v < 2 ^ 24)
  | .powerSample v a rails => decide (v < 2 ^ 24) && decide (a < 2 ^ 24) && decide (rails.length ≤ 18)
  | .overcurrent r m | .regulatorFault r m => decide (r ≤ 17) && decide (m < 2 ^ 24)
  | .droop r | .droopRecovery r => decide (r ≤ 8)
  | .thermalSample n t => decide (n < 36) && decide (-32768 ≤ t) && decide (t ≤ 32767)
  | .coefficientRecalibration l => l.length == 18
  | .ageingCheck l => l.length == 27
  | .stitchComplete js => js.all fun j => decide (j.tensor < 2 ^ 32)
  | .boardSpaceAccess c a x => decide (c < 24) && decide (a < 2 ^ 46) && x.wf
  | .sealComplete | .frameTick | .streamFetch | .backgroundReserveStart | .frameSyncEdge | .syncLost | .planFix _
  | .streamUnmatched | .heartbeatLost | .censusClose | .routingBankSwitch | .locketCompare | .readySend
  | .coordinatorDecision | .commitTimeout | .revertStart | .revertDone | .outcomeDecision | .firstFaultLatch
  | .moduleReset | .replayFrame | .replayPass | .guiltyContext | .stitchLate | .programStart _ | .programStop _
  | .updateVerify _ | .updateInstall _ | .installComplete | .updateActivate _ | .activateStep | .updateRevert _
  | .updateCommit _ | .updateAbandon _ | .quoteComplete | .injectionFire | .repairEvacuationDone | .repairSoft
  | .repairRestoreDone | .canBusOffRecovery | .powerUp | .inputLimiter | .refclkLoss | .refclkReturn
  | .verifyComplete | .storeSettingsComplete | .repairComplete _ _ | .canBusOff => true

end Sys2Proof
end

