-- ==== Sys2Proof/Tests/Slice0.lean ====
section
/-! SUPPORT. Tests: the witnesses of the statements' hypotheses, the manual's worked values, and the terms that the well-formedness check
refuses. -/

open Sys2Proof Sys2Proof.Machine Sys2Proof.Safety

namespace Sys2Proof.Tests

set_option Elab.async false

/-! ### Small states -/

/-- A command of context 0 to a unit. -/
def cmd (unit arg : Nat) (dur : Nat := 0) : Issue :=
  { unit := unit, dur := dur, arg := BitVec.ofNat 32 arg, ctx := 0, seq := 0, slot := 1, tbl := none }

/-- A number in HBM. -/
def poke (a n v : Nat) (s : State) : State := s.hbmWrite a (leBytes n v) false

/-- A training program runs, with its descriptor directory at 0x3000 and its table directory at 0x4000. -/
def train : State :=
  { State.reset with
    dict := [(objKey 0x6010 3, 1)]
    program := { kind := 1, descDir := 0x3000, tableDir := 0x4000 } }

/-- Directory entry `e` holds the one descriptor `v`, with its header. -/
def withDesc (e v : Nat) (s : State) : State :=
  poke (0x10000 * (e + 1)) 64 (0x101 + e + v) (poke (0x3000 + 16 * e) 12 (0x10000 * (e + 1) + 2 ^ 64) s)

/-- The command of a unit that names descriptor 0 of entry `e`. -/
def use (unit e : Nat) (dur : Nat := 0) : Issue := cmd unit (e * 2 ^ 24) dur

/-- A unit runs work of an opcode. -/
def working (u op : Nat) (s : State) : State :=
  s.setUnit u { work := some { cmd := { op := op, issue := cmd u 0 }, left := some 1, load := .none } }

/-- A unit runs work of an opcode whose last cycle has passed. -/
def finished (u op : Nat) : State :=
  train.setUnit u { work := some { cmd := { op := op, issue := cmd u 0 }, left := some 0, load := .none } }

/-! ### Frame control, marker, fence and modes -/

theorem test_witness_frame_control :
    ∀ p ∈ [(0, cmd 0 0), (2, cmd 0 1), (3, cmd 0 0), (4, cmd 0 0xFFFFFFFF)], TakesEffect p.1 p.2 train := by
  unfold TakesEffect; decide +kernel

/-- Table 0 with one bundle in slot A at 0x5000. -/
def withTable (s : State) : State := poke 0x4000 32 (0x5000 + 2 ^ 128 + 100 * 2 ^ 160) s

theorem test_witness_call :
    TakesEffect 1 (cmd 0 0) (withTable train) ∧ (withTable train).program.calls.contains ((cmd 0 0).arg.toNat, (cmd 0 0).seq) = false := by
  unfold TakesEffect; decide +kernel

theorem test_witness_markers_and_fence :
    ∀ p ∈ [(1, cmd 0x7C 255), (2, cmd 0x7C 0x1004E2), (2, cmd 0x7C 0x120578), (1, cmd 0x7F 7), (1, cmd 0x7F 1)],
      TakesEffect p.1 p.2 train := by
  unfold TakesEffect; decide +kernel

/-- A fence of a context over three dies. -/
def fence (ctx left : Nat) (late ended : Bool) : Fence := { ctx := ctx, mask := 7, frame := 0, cycle := 0, left := left, late := late, ended := ended }

/-- Before the fence that completes stand one of another context, one still in its cycles, and one that a transfer holds. -/
theorem test_witness_fence_complete :
    ∀ f ∈ [fence 0 0 false false, fence 0 3 true true], (f.ctx = 0 ∧ (f.ended = true ∨ (f.left = 0 ∧ f.late = false))) ∧
      ∀ e ∈ [fence 1 0 false false, fence 0 3 false false, fence 0 0 true false],
        ¬(e.ctx = 0 ∧ (e.ended = true ∨ (e.left = 0 ∧ e.late = false))) := by decide +kernel

theorem test_witness_standing_modes :
    ∀ p ∈ [(0, cmd 0x10 0), (2, cmd 0x1A 0 5), (0, cmd 0x20 0), (3, cmd 0x22 0), (0, cmd 0x28 0), (0, cmd 0x30 0),
      (0, cmd 0x4B 0), (0, cmd 0x50 0), (0, cmd 0x60 0 0xFFFF)], TakesEffect p.1 p.2 train := by
  unfold TakesEffect; decide +kernel

/-! ### Dense arrays, feeders and Sorus -/

/-- An address of the operand store. -/
def op (off : Nat) : Nat := 2 ^ 63 + off

/-- A tile of 32 input lines and 32 output columns, with its operands apart; `extra` adds flags and further fields. -/
def tileD (m extra : Nat) : Nat :=
  7 * 2 ^ 32 + op 0 * 2 ^ 64 + op 0x10000 * 2 ^ 128 + op 0x20000 * 2 ^ 192 + m * 2 ^ 256 + 32 * 2 ^ 288 + 32 * 2 ^ 304 + extra

theorem test_witness_loads :
    TakesEffect 1 (use 0x28 1) (withDesc 1 (tileD 1 0) train) ∧ TakesEffect 1 (use 0x2A 1) (withDesc 1 (tileD 1 0) train) ∧
      TakesEffect 2 (use 0x29 1) (withDesc 1 (tileD 1 (2 ^ 345)) train) := by
  unfold TakesEffect; decide +kernel

/-- Number `v` of `n` bytes in an operand store. -/
def pokeOp (d off n v : Nat) (s : State) : State := s.opWrite d off (leBytes n v) false

/-- The feeder of a die has run the four cycles of a SWAP. -/
def swapped (d : Nat) : State :=
  let w : Work := { cmd := { op := 3, issue := cmd (0x28 + d) 0 }, left := some 0, load := .none }
  train.setUnit (0x28 + d) { work := some w }

/-- The feeder of a die runs a load of tile 0 with cycles to go. -/
def loading (d o : Nat) (left : Option Nat) : State :=
  let w : Work := { cmd := { op := o, issue := use (0x28 + d) 1 }, left := left, load := .none }
  (withDesc 1 (tileD 1 0) train).setUnit (0x28 + d) { work := some w }

theorem test_witness_swap :
    (∀ u ∈ [0x28, 0x2A], TakesEffect 3 (cmd u 0) (train.setArray (u - 0x10) { shadow := { tag := some (7, op 0) } })) ∧
      ∀ d ∈ [0, 1, 2], (swapped d).swapOver d = true ∧ (swapped d).program.clearing = false := by
  refine ⟨?_, by decide +kernel⟩
  unfold TakesEffect; decide +kernel

/-- A load has its last cycle to go, or none. -/
theorem test_witness_load_rows :
    ∀ d ∈ [0, 2], ∀ p ∈ [(1, 511), (2, 0)], ∀ w ∈ ((loading d p.1 (some (p.2 + 1))).unit (0x28 + d)).work,
      w.left = some (p.2 + 1) ∧ (w.cmd.op = 1 ∨ w.cmd.op = 2) ∧ w.cmd.issue.unit = 0x28 + d ∧
      ((loading d p.1 (some (p.2 + 1))).unit (0x28 + d)).work.isSome = true ∧
      (∀ v ∈ ((loading d p.1 (some 0)).unit (0x28 + d)).work, v.left = some 0 ∧ v.cmd.op = p.1) ∧
      (loading d p.1 (some 0)).program.clearing = false := by decide +kernel

/-- A tile that gathers its one row through route 0, and that route, for one token, one expert and one slot. -/
def gatherD : Nat := tileD 1 (2 ^ 350)
def routeD : Nat :=
  7 * 2 ^ 32 + op 0x40000 * 2 ^ 64 + op 0x50000 * 2 ^ 128 + 2 ^ 216 + 2 ^ 224 + 512 * 2 ^ 288

/-- Arrays whose active weights are those of `tileD`. -/
def loaded (s : State) : State :=
  { s with arrays := [(0x10, { active := { tag := some (7, op 0) } }), (0x1A, { active := { tag := some (7, op 0) } })] }

/-- Frame 2 in progress. -/
def frame2 (s : State) : State := { s with clock := { s.clock with frame := 2 } }

/-- Rows to stream in groups of one or four, and rows that a mask skips. -/
theorem test_witness_row_groups :
    ∀ p ∈ [(1, [(0, false)]), (4, [(0, true), (1, false), (2, true)]), (4, [(0, true)])], 0 < p.1 ∧ p.2 ≠ [] := by decide +kernel

/-- Tile 0 of one row under a mask plane at 0x10200, behind its activations, that skips the row. -/
def skipping : State :=
  pokeOp 0 0x10210 1 1 (pokeOp 0 0x10204 4 0x10001 (withDesc 1 (tileD 1 (2 ^ 349)) (loaded train)))

theorem test_witness_matmul :
    (∀ u ∈ [0x10, 0x1A], TakesEffect 1 (use u 1) (withDesc 1 (tileD 1 0) (loaded train)) ∧
      ((withDesc 1 (tileD 1 0) (loaded train)).array u).active.tag = some ((withDesc 1 (tileD 1 0) (loaded train)).tile (use u 1)).tag ∧
      (withDesc 1 (tileD 1 0) (loaded train)).swapFreezing (unitDie u) = false ∧
      (((withDesc 1 (tileD 1 0) (loaded train)).tile (use u 1)).gather ||
        ((withDesc 1 (tileD 1 0) (loaded train)).tile (use u 1)).scatter) = false ∧
      (withDesc 1 (tileD 1 0) (loaded train)).skipped (unitDie u) ((withDesc 1 (tileD 1 0) (loaded train)).tile (use u 1)) 0 = false) ∧
    (TakesEffect 1 (use 0x10 1) (withDesc 5 routeD (withDesc 1 gatherD (loaded train))) ∧
      ((withDesc 5 routeD (withDesc 1 gatherD (loaded train))).array 0x10).active.tag =
        some ((withDesc 5 routeD (withDesc 1 gatherD (loaded train))).tile (use 0x10 1)).tag ∧
      (withDesc 5 routeD (withDesc 1 gatherD (loaded train))).swapFreezing 0 = false ∧
      (withDesc 5 routeD (withDesc 1 gatherD (loaded train))).routeFresh 0
        ((withDesc 5 routeD (withDesc 1 gatherD (loaded train))).tileRoute
          ((withDesc 5 routeD (withDesc 1 gatherD (loaded train))).tile (use 0x10 1))) = true) ∧
    (TakesEffect 1 (use 0x10 1) (frame2 (withDesc 5 routeD (withDesc 1 gatherD (loaded train)))) ∧
      ((withDesc 5 routeD (withDesc 1 gatherD (loaded train))).tile (use 0x10 1)).gather = true ∧
      (frame2 (withDesc 5 routeD (withDesc 1 gatherD (loaded train)))).routeFresh 0
        ((withDesc 5 routeD (withDesc 1 gatherD (loaded train))).tileRoute
          ((withDesc 5 routeD (withDesc 1 gatherD (loaded train))).tile (use 0x10 1))) = false) ∧
    (TakesEffect 1 (use 0x18 1) (withDesc 1 (tileD 1 0) train) ∧
      ((withDesc 1 (tileD 1 0) train).array 0x18).active.tag ≠ some ((withDesc 1 (tileD 1 0) train).tile (use 0x18 1)).tag ∧
      train.faults.replay.isSome = false) := by
  unfold TakesEffect; decide +kernel

theorem test_witness_matmul_skipped :
    TakesEffect 1 (use 0x10 1) skipping ∧ (skipping.array 0x10).active.tag = some (skipping.tile (use 0x10 1)).tag ∧
      skipping.swapFreezing 0 = false ∧ ∀ m < (skipping.tile (use 0x10 1)).m, skipping.skipped 0 (skipping.tile (use 0x10 1)) m = true := by
  unfold TakesEffect; decide +kernel

/-- The index at 0x30000 of a tensor 7 of one dense block of format 0. -/
def withIndex (d : Nat) (s : State) : State :=
  pokeOp d 0x30084 4 1 (pokeOp d 0x30044 4 1 (pokeOp d 0x30000 64
    (0x15049 + 7 * 2 ^ 32 + 2 ^ 64 + 2 ^ 80 + 2 ^ 96 + 16 * 2 ^ 128 + 128 * 2 ^ 192 + 192 * 2 ^ 224 + 256 * 2 ^ 256 + 320 * 2 ^ 288) s))

/-- A die-`d` tile of the Sorus with its index, dense or sampled. -/
def sparse (d extra : Nat) : State :=
  withIndex d (withDesc 1 (tileD 1 (2 ^ 344 + 0x30000 * 2 ^ 448 + extra)) train)

/-- The tile without an index, and one that gathers through a route of an earlier frame. -/
def unindexed : State := withDesc 1 (tileD 1 (2 ^ 344 + 0x30000 * 2 ^ 448)) train

def staleSparse : State := frame2 (withDesc 5 routeD (sparse 0 (2 ^ 350)))

/-- Nothing stalls the Sorus and the tile's index passes the checks of header and directories; an index of no bytes fails the first,
and a route of an earlier frame is stale. -/
theorem test_witness_spmm :
    (∀ p ∈ [(0, 0, 0), (2, 2 ^ 17, 0x20000)],
      TakesEffect 1 (use (0x20 + p.1) 1) (sparse p.1 p.2.1) ∧
      (((sparse p.1 p.2.1).tile (use (0x20 + p.1) 1)).gather || ((sparse p.1 p.2.1).tile (use (0x20 + p.1) 1)).scatter) = false ∧
      (sparse p.1 p.2.1).headChecks ((sparse p.1 p.2.1).index p.1 0x30000) ((sparse p.1 p.2.1).tile (use (0x20 + p.1) 1))
        p.2.2 0 (1, 1) = none ∧
      ((sparse p.1 p.2.1).tile (use (0x20 + p.1) 1)).sidx = 0x30000 ∧ ((sparse p.1 p.2.1).unit (0x20 + p.1)).stalled = false) ∧
    (TakesEffect 1 (use 0x20 1) unindexed ∧ ((unindexed.tile (use 0x20 1)).gather || (unindexed.tile (use 0x20 1)).scatter) = false ∧
      (unindexed.headChecks (unindexed.index 0 0x30000) (unindexed.tile (use 0x20 1)) 0 0 (1, 1)).isSome = true) ∧
    TakesEffect 1 (use 0x20 1) staleSparse ∧ (staleSparse.tile (use 0x20 1)).gather = true ∧
      staleSparse.routeFresh 0 (staleSparse.tileRoute (staleSparse.tile (use 0x20 1))) = false := by
  unfold TakesEffect; decide +kernel

/-- A unit with work in its drain tail that has no cycle left. -/
def tailing (u op : Nat) (load : Load) (s : State) : State :=
  s.setUnit u { tails := [{ cmd := { op := op, issue := cmd u 0 }, left := some 0, load := load }] }

/-- What a Sorus has of a tile of which every line is handed over. -/
def ended : Sparse := { serial := 0, head := 0, todo := [], used := [], next := 0, lines := [], masked := false, poison := false }

theorem test_witness_drains :
    (∀ u ∈ [0x10, 0x1A], unitClass u = 1 ∧ (tailing u 1 (.stream [] [] [] false) train).program.clearing = false ∧
      ((tailing u 1 (.stream [] [] [] false) train).unit u).tails.map (fun w => (w.left, w.drained)) = [(some 0, true)]) ∧
    ∀ d ∈ [0, 2], ∀ load ∈ [.none, .sparse ended], ((tailing (0x20 + d) 1 load train).sparseDone d 1).isSome = true ∧
      (tailing (0x20 + d) 1 load train).program.clearing = false := by decide +kernel

/-! ### Filigree and mask operations -/

/-- A kernel of one row and one column with its planes apart. -/
def kernelD (code extra : Nat) : Nat := 7 * 2 ^ 32 + code * 2 ^ 64 + 0x800 * 2 ^ 224 + 0x1000 * 2 ^ 320 + extra

/-- Code 0x09 fed by a drain, code 0x0C on its own, and PACK. -/
def fedD : Nat := kernelD 0x09 (2 ^ 80) - 0x800 * 2 ^ 224
def packD : Nat := kernelD 0x40 (3 * 2 ^ 72) - 0x800 * 2 ^ 224

theorem test_witness_kernels :
    (∀ p ∈ [(fedD, 0x09), (kernelD 0x0C 0, 0x0C)],
      TakesEffect 1 (use 0x30 3) (withDesc 3 p.1 train) ∧ ((withDesc 3 p.1 train).kernel (use 0x30 3)).code = p.2 ∧
        kernelFed p.2 = (p.2 == 0x09)) ∧
    (TakesEffect 1 (use 0x32 3) (withDesc 3 packD train) ∧ ((withDesc 3 packD train).kernel (use 0x32 3)).code = 0x40 ∧
      inStore ((withDesc 3 packD train).kernel (use 0x32 3)).dst
        ((withDesc 3 packD train).pack 2 ((withDesc 3 packD train).kernel (use 0x32 3))).1.length = true ∧
      2 < (withDesc 3 packD train).mem.ops.length) ∧
    ∀ d ∈ [0, 2], (finished (0x30 + d) 1).kernelDone d = true ∧
      (finished (0x30 + d) 1).get 0x6058 (d + 1) + 1 < objLimit 0x6058 (d + 1) := by
  unfold TakesEffect; decide +kernel

/-- A layer of one row and one column, with a program of one operation at 0x1000 and its layer block at 0x2000. -/
def layerD (mode : Nat) : Nat :=
  7 * 2 ^ 32 + mode * 2 ^ 112 + 2 ^ 120 + 0x1000 * 2 ^ 128 + 0x2000 * 2 ^ 160 + 2 ^ 224 + 2 ^ 256 + 2 ^ 288

/-- That layer, its program, and a layer block without slots. -/
def withLayer (mode : Nat) : State := pokeOp 0 0x1000 4 1 (withDesc 4 (layerD mode) train)

theorem test_witness_update :
    (∀ mode ∈ [0, 1, 2, 3], TakesEffect 2 (use 0x30 4) (withLayer mode) ∧
      (((withLayer mode).layerBlock 0 ((withLayer mode).layer (use 0x30 4)).lblk).slotsOk &&
        (withLayer mode).slotsHome 0 ((withLayer mode).layer (use 0x30 4)) ((withLayer mode).layerBlock 0 ((withLayer mode).layer (use 0x30 4)).lblk) &&
        programOk ((withLayer mode).layer (use 0x30 4)) ((withLayer mode).layerBlock 0 ((withLayer mode).layer (use 0x30 4)).lblk)
          ((withLayer mode).updateProgram 0 ((withLayer mode).layer (use 0x30 4)))) = true ∧
      ((withLayer mode).layer (use 0x30 4)).mode = mode ∧ ((withLayer mode).filigree 0).withholding = false) ∧
    ∀ d ∈ [0, 2], ((finished (0x30 + d) 2).unit (0x30 + d)).work.map (fun w => (w.cmd.op, w.left)) = some (2, some 0) := by
  unfold TakesEffect; decide +kernel

/-- A mask operation on tile 0: period 1 or more, one candidate, its score plane, candidates and output in the operand store. -/
def maskD (op period extra : Nat) : Nat :=
  7 * 2 ^ 32 + op * 2 ^ 64 + 2 ^ 72 + 2 ^ 80 + period * 2 ^ 128 + 4 * 2 ^ 160 + 2 ^ 224 + Tests.op 0x40000 * 2 ^ 256 +
    Tests.op 0x41000 * 2 ^ 320 + Tests.op 0x42000 * 2 ^ 384 + extra

/-- A Sorus tile with its index on a die, and a mask operation of it. -/
def masked (d op period : Nat) : State := withDesc 6 (maskD op period 0) (sparse d 0)

/-- The same with an index of no block. -/
def bare (d op : Nat) : State :=
  pokeOp d 0x30000 64 (0x15049 + 7 * 2 ^ 32 + 2 ^ 64 + 2 ^ 80 + 128 * 2 ^ 192 + 192 * 2 ^ 224 + 192 * 2 ^ 256 + 192 * 2 ^ 288)
    (withDesc 6 (maskD op 1 0) (withDesc 1 (tileD 1 (2 ^ 344 + 0x30000 * 2 ^ 448)) train))

theorem test_witness_prune :
    ∀ p ∈ [(0, 1), (2, 3)],
      TakesEffect 3 (use (0x30 + p.1) 6) (bare p.1 p.2) ∧
      (bare p.1 p.2).maskStep ((bare p.1 p.2).maskOp (use (0x30 + p.1) 6)) = true ∧ (bare p.1 p.2).get 0x6050 3 ≠ 1 ∧
      (bare p.1 p.2).maskChecks ((bare p.1 p.2).maskTile ((bare p.1 p.2).maskOp (use (0x30 + p.1) 6)))
        ((bare p.1 p.2).index p.1 ((bare p.1 p.2).maskTile ((bare p.1 p.2).maskOp (use (0x30 + p.1) 6))).sidx) = none ∧
      (bare p.1 p.2).maskBounds p.1 ((bare p.1 p.2).maskOp (use (0x30 + p.1) 6))
        ((bare p.1 p.2).index p.1 ((bare p.1 p.2).maskTile ((bare p.1 p.2).maskOp (use (0x30 + p.1) 6))).sidx)
        (pruneBytes (bare p.1 p.2) (use (0x30 + p.1) 6)).length = none ∧
      p.1 < (bare p.1 p.2).mem.ops.length := by
  unfold TakesEffect; decide +kernel

theorem test_witness_mask_step_not_due :
    (∀ p ∈ [(0x30, 1), (0x32, 3)], TakesEffect 3 (use p.1 6) (masked 0 p.2 2) ∧
      (masked 0 p.2 2).maskStep ((masked 0 p.2 2).maskOp (use p.1 6)) = false) ∧
    (∀ p ∈ [(0x30, 4), (0x32, 5)], TakesEffect 4 (use p.1 6) (masked 0 p.2 2) ∧
      (masked 0 p.2 2).maskStep ((masked 0 p.2 2).maskOp (use p.1 6)) = false) := by
  unfold TakesEffect; decide +kernel

/-- A REGROW after a PRUNE that left an empty delta list of tensor 7 and step 0. -/
def regrowing : State := pokeOp 0 0x42000 16 7 (masked 0 4 1)

theorem test_witness_regrow :
    TakesEffect 4 (use 0x30 6) regrowing ∧ regrowing.maskStep (regrowing.maskOp (use 0x30 6)) = true ∧
      regrowing.get 0x6050 3 ≠ 1 ∧ regrowFits regrowing (use 0x30 6) = true := by
  unfold TakesEffect; decide +kernel

/-- A score works through its jobs; one whose index is missing fails; an ended one leaves. -/
theorem test_witness_score :
    (∀ d ∈ [0, 2], TakesEffect 2 (use (0x20 + d) 6) (masked d 6 1) ∧ ((masked d 6 1).unit (0x20 + d)).stalled = false ∧
      (masked d 6 1).maskChecks ((masked d 6 1).sparseTile { op := 2, issue := use (0x20 + d) 6 })
        ((masked d 6 1).index d ((masked d 6 1).sparseTile { op := 2, issue := use (0x20 + d) 6 }).sidx) = none ∧
      (masked d 6 1).maskBounds d ((masked d 6 1).maskOp (use (0x20 + d) 6))
        ((masked d 6 1).index d ((masked d 6 1).sparseTile { op := 2, issue := use (0x20 + d) 6 }).sidx) 16 = none) ∧
    (TakesEffect 2 (use 0x20 6) (withDesc 6 (maskD 6 1 0) unindexed) ∧
      (withDesc 6 (maskD 6 1 0) unindexed).maskChecks ((withDesc 6 (maskD 6 1 0) unindexed).sparseTile { op := 2, issue := use 0x20 6 })
        ((withDesc 6 (maskD 6 1 0) unindexed).index 0
          ((withDesc 6 (maskD 6 1 0) unindexed).sparseTile { op := 2, issue := use 0x20 6 }).sidx) ≠ none) ∧
    (∀ p ∈ [(0x30, 3), (0x32, 4)], ((finished p.1 p.2).unit p.1).work.map (fun w => (w.cmd.op, w.left)) = some (p.2, some 0)) ∧
    ∀ d ∈ [0, 2], ∀ load ∈ [.none, .sparse Tests.ended], ((tailing (0x20 + d) 2 load train).sparseDone d 2).isSome = true ∧
      (tailing (0x20 + d) 2 load train).program.clearing = false := by
  unfold TakesEffect; decide +kernel

/-- A ROUTE of a die has one byte to deliver and no cycle left. -/
def routing (d : Nat) : State :=
  let w : Work := { cmd := { op := 5, issue := cmd 0x30 0 }, left := some 0, load := .bytes 0 [1] false }
  train.setUnit (0x30 + d) { work := some w }

theorem test_witness_route :
    (∀ u ∈ [0x30, 0x32], TakesEffect 5 (use u 5) (withDesc 5 routeD train)) ∧
    ∀ d ∈ [0, 2], ∃ w, ((routing d).unit (0x30 + d)).work = some w ∧ w.cmd.op = 5 ∧ w.load = .bytes 0 [1] false ∧ w.left = some 0 ∧
      (routing d).mem.ops.length = 3 := by
  refine ⟨by unfold TakesEffect; decide +kernel, ?_⟩
  simp only [List.mem_cons, List.not_mem_nil, or_false]
  rintro d (rfl | rfl) <;> exact ⟨_, rfl, rfl, rfl, rfl, rfl⟩

/-! ### Memory controllers -/

/-- A transfer of `n` blocks. -/
def xferD (src dst n extra : Nat) : Nat := 7 * 2 ^ 32 + src * 2 ^ 64 + dst * 2 ^ 128 + n * 2 ^ 192 + extra

/-- The start of a stack. -/
def stack (k : Nat) : Nat := k * 2 ^ 37

theorem test_witness_read :
    (∀ p ∈ [(0x40, stack 0 + 0x200000), (0x4B, stack 11 + 0x200), (0x40, stack 3 + 88000000000 - 512)],
      TakesEffect 1 (use p.1 2) (withDesc 2 (xferD p.2 (op 0) 1 0) train) ∧
      reservedRange ((withDesc 2 (xferD p.2 (op 0) 1 0) train).transfer (use p.1 2)).src
        (512 * ((withDesc 2 (xferD p.2 (op 0) 1 0) train).transfer (use p.1 2)).blocks) = false) ∧
    (∀ p ∈ [(0x40, stack 3 + 88000000000), (0x4B, stack 4 + 92000000000)],
      TakesEffect 1 (use p.1 2) (withDesc 2 (xferD p.2 (op 0) 1 0) train) ∧
      reservedRange ((withDesc 2 (xferD p.2 (op 0) 1 0) train).transfer (use p.1 2)).src
        (512 * ((withDesc 2 (xferD p.2 (op 0) 1 0) train).transfer (use p.1 2)).blocks) = true) ∧
    train.mem.ops.length = 3 ∧ unitClass 0x40 = 5 := by
  unfold TakesEffect; decide +kernel

/-- Tensor 7, of a class, in 0x200000 to 0x203FFF, with its record plane at 0x300000. -/
def tensorD (cls : Nat) : Nat := 7 * 2 ^ 32 + 0x200000 * 2 ^ 64 + 0x4000 * 2 ^ 128 + cls * 2 ^ 200 + 0x300000 * 2 ^ 384

def withTensor (cls : Nat) (s : State) : State := withDesc 0 (tensorD cls) s

/-- The tensor of a transfer keeps no record plane. -/
def unrecorded (s : State) (tensor : Nat) : Bool :=
  match s.tensorDesc tensor with
  | some d => bits d 207 200 != 2 && bits d 207 200 != 4 && bits d 207 200 != 5
  | none => true

/-- A state with one transfer and tensor 7, which keeps no record plane. -/
def copying (src dst n : Nat) : State := withTensor 0 (withDesc 2 (xferD src dst n 0) train)

/-- A board map with module 12 at place 2 and nothing at place 3. -/
def boarded (s : State) : State :=
  { s with fabric := { s.fabric with bank0 := { s.fabric.bank0 with board := [(2, 12)] } } }

theorem test_witness_copy :
    (∀ u ∈ [0x40, 0x4B],
      TakesEffect 3 (use u 2) (copying 0x400000 0x200000 2) ∧
      reservedRange ((copying 0x400000 0x200000 2).transfer (use u 2)).src 1024 = false ∧
      (copying 0x400000 0x200000 2).copyRemote ((copying 0x400000 0x200000 2).transfer (use u 2)) = false ∧
      reservedRange (0x200000 % 2 ^ 41) ((copying 0x400000 0x200000 2).transfer (use u 2)).storedBytes = false ∧
      ((copying 0x400000 0x200000 2).transfer (use u 2)).tableReserved = false ∧
      ((copying 0x400000 0x200000 2).transfer (use u 2)).redop = 0) ∧
    ∀ p ∈ [(2, true), (3, false)],
      TakesEffect 3 (use 0x40 2) (boarded (copying 0x400000 (2 ^ 62 + p.1 * 2 ^ 41) 1)) ∧
      (boarded (copying 0x400000 (2 ^ 62 + p.1 * 2 ^ 41) 1)).copyRemote
        ((boarded (copying 0x400000 (2 ^ 62 + p.1 * 2 ^ 41) 1)).transfer (use 0x40 2)) = true ∧
      ((boarded (copying 0x400000 (2 ^ 62 + p.1 * 2 ^ 41) 1)).boardModule p.1 != 0xFFFF) = p.2 := by
  unfold TakesEffect; decide +kernel

theorem test_witness_write :
    (∀ u ∈ [0x40, 0x4B], TakesEffect 2 (use u 2) (copying (op 0) 0x200000 2) ∧
      reservedRange ((copying (op 0) 0x200000 2).transfer (use u 2)).dst ((copying (op 0) 0x200000 2).transfer (use u 2)).storedBytes
        = false ∧
      ((copying (op 0) 0x200000 2).transfer (use u 2)).tableReserved = false ∧
      ((copying (op 0) 0x200000 2).transfer (use u 2)).redop = 0) ∧
    unrecorded (copying (op 0) 0x200000 2) 7 = true ∧ unrecorded train 7 = true := by
  unfold TakesEffect; decide +kernel

theorem test_witness_record_plane :
    ∀ cls ∈ [2, 4, 5], (withTensor cls train).tensorDesc 7 = some (0x101 + tensorD cls) ∧ bits (0x101 + tensorD cls) 207 200 = cls ∧
      tensorBase (tensorD cls) ≤ 0x203FFE ∧ 0x203FFE + 2 ≤ tensorBase (tensorD cls) + tensorLength (tensorD cls) ∧
      0x203FFE + 2 ≤ tensorRecord (tensorD cls) + (0x203FFE - tensorBase (tensorD cls)) := by decide +kernel

/-- An armed window at an address. -/
def window (a : Nat) : Window := windowOf (transferOf (xferD 0 a 1 (6 * 2 ^ 232))) 0

/-- Windows of stack `k` that are open. -/
def windowed (k : Nat) (l : List Window) : State :=
  { withDesc 2 (xferD 0 (stack k + 0x200000) 1 (6 * 2 ^ 232)) train with
    mem := { (withDesc 2 (xferD 0 (stack k + 0x200000) 1 (6 * 2 ^ 232)) train).mem with windows := [(k, l)] } }

theorem test_witness_reduce :
    (∀ k ∈ [0, 11], ∀ l ∈ [[], List.replicate 7 (window (stack k)), List.replicate 8 (window (stack k)), [window (stack k + 0x200000)]],
      TakesEffect 4 (use (0x40 + k) 2 1) (windowed k l) ∧
      reservedRange (stack k + 0x200000) 512 = false ∧ ((windowed k l).transfer (use (0x40 + k) 2 1)).storedBytes = 512 ∧
      ((windowed k l).transfer (use (0x40 + k) 2 1)).tableReserved = false ∧ (windowed k l).windowsOf k = l ∧
      (windowed k l).commitState = 0) ∧
    (∀ k ∈ [0, 11], overlaps (stack k + 0x200000) 512 (window (stack k)).base (window (stack k)).bytes = false ∧
      overlaps (stack k + 0x200000) 512 (window (stack k + 0x200000)).base (window (stack k + 0x200000)).bytes = true) ∧
    ∀ p ∈ [(0x40, 4), (0x4B, 4), (0x40, 1), (0x45, 2), (0x4B, 3)],
      ((finished p.1 p.2).unit p.1).work.map (fun w => (w.cmd.op, w.left)) = some (p.2, some 0) := by
  unfold TakesEffect; decide +kernel

/-! ### Ports, mailboxes and the Locket unit -/

theorem test_witness_send :
    (∀ p ∈ [(0x50, op 0), (0x5F, 0x200000), (0x60, op 0)],
      TakesEffect 1 (use p.1 2) (withDesc 2 (xferD p.2 0 1 (5 * 2 ^ 256)) train) ∧
      (bit ((withDesc 2 (xferD p.2 0 1 (5 * 2 ^ 256)) train).transfer (use p.1 2)).src 63 = true ∨
        reservedRange ((withDesc 2 (xferD p.2 0 1 (5 * 2 ^ 256)) train).transfer (use p.1 2)).src
          (512 * ((withDesc 2 (xferD p.2 0 1 (5 * 2 ^ 256)) train).transfer (use p.1 2)).blocks) = false)) ∧
    (∀ u ∈ [0x50, 0x60], TakesEffect 1 (use u 2) (withDesc 2 (xferD (stack 3 + 88000000000) 0 1 (5 * 2 ^ 256)) train)) ∧
    reservedRange (stack 3 + 88000000000) 512 = true ∧ bit (stack 3 + 88000000000) 63 = false ∧
    (train.put 0x5020 17 0).up 16 = false := by
  unfold TakesEffect; decide +kernel

/-- Multicast group 0 of module 5 with its ROLE. -/
def withGroup (role : Nat) (s : State) : State :=
  { s with fabric := { s.fabric with bank0 := { s.fabric.bank0 with groups := [(0, 5 + role * 4096)] } } }

theorem test_witness_bcast :
    TakesEffect 3 (use 0x50 2) (withGroup 0 (withDesc 2 (xferD (op 0) 0 1 0) train)) ∧
    (withDesc 2 (xferD (op 0) 0 1 0) train).transfer (use 0x50 2) = transferOf (0x103 + xferD (op 0) 0 1 0) ∧
    (transferOf (0x103 + xferD (op 0) 0 1 0)).dsrc = 0 ∧ bit (transferOf (0x103 + xferD (op 0) 0 1 0)).src 63 = true ∧
    TakesEffect 3 (use 0x5F 2) (withGroup 1 (withDesc 2 (xferD 0 0 0 (0x400000 * 2 ^ 424 + 2 ^ 488)) train)) ∧
    (withDesc 2 (xferD 0 0 0 (0x400000 * 2 ^ 424 + 2 ^ 488)) train).transfer (use 0x5F 2) =
      transferOf (0x103 + xferD 0 0 0 (0x400000 * 2 ^ 424 + 2 ^ 488)) ∧
    (transferOf (0x103 + xferD 0 0 0 (0x400000 * 2 ^ 424 + 2 ^ 488))).blocks = 0 ∧
    (transferOf (0x103 + xferD 0 0 0 (0x400000 * 2 ^ 424 + 2 ^ 488))).dblocks = 1 ∧
    reservedRange (transferOf (0x103 + xferD 0 0 0 (0x400000 * 2 ^ 424 + 2 ^ 488))).dsrc 512 = false := by
  unfold TakesEffect; decide +kernel

theorem test_witness_recv :
    ∀ u ∈ [0x50, 0x5F, 0x60],
      TakesEffect 2 (use u 2) (withDesc 2 (xferD 0 (op 0) 1 0) train) ∧ train.fabric.recvs.length < 64 ∧
      bit ((withDesc 2 (xferD 0 (op 0) 1 0) train).transfer (use u 2)).dst 63 = true ∧
      ((withDesc 2 (xferD 0 (op 0) 1 0) train).transfer (use u 2)).tableReserved = false ∧ train.fabric.unmatched = [] ∧
      TakesEffect 2 (use u 2) (withDesc 2 (xferD 0 (op 0) 1 0) { train with fabric := { train.fabric with
        recvs := List.replicate 64 { cmd := { op := 2, issue := cmd 0x50 0 }, landed := 0, serial := 0, source := 0, parts := [] } } }) := by
  unfold TakesEffect; decide +kernel

theorem test_witness_post :
    ∀ p ∈ [(0x70, 255, 0, false), (0x72, 0, 0, false), (0x70, 256, 0, true), (0x72, 250, 6, true)],
      TakesEffect 1 (cmd p.1 9) (train.setBox (p.1 - 0x70) { ring := List.replicate p.2.1 0, landing := List.replicate p.2.2.1 0 }) ∧
      (train.setBox (p.1 - 0x70) { ring := List.replicate p.2.1 0, landing := List.replicate p.2.2.1 0 }).boxFull (p.1 - 0x70)
        = p.2.2.2 ∧
      bit (kget 0 train.thallus.plicServing (p.1 - 0x70)) 1 = false := by
  unfold TakesEffect; decide +kernel

theorem test_witness_seal :
    (∀ b ∈ [false, true], TakesEffect 1 (cmd 0x78 0) { train with commit := { train.commit with sealed := b } }) ∧
      ((finished 0x78 1).unit 0x78).work.map (fun w => (w.cmd.op, w.left)) = some (1, some 0) := by
  unfold TakesEffect; decide +kernel

/-! ### Pending commands, the frame and time -/

/-- A command waits at a unit. -/
def queued (u o : Nat) (s : State) : State := s.onUnit u fun x => { x with waiting := [{ op := o, issue := cmd u 0 }] }

theorem test_witness_pending :
    (∀ u ∈ [0x40, 0x10], ((queued u 0 train).unit u).waiting = [{ op := 0, issue := cmd u 0 }] ∧ (queued u 0 train).takesUp u = true ∧
      ((queued u 0 train).unit u).work = none ∧ (queued u 0 train).mayTakeUp { op := 0, issue := cmd u 0 } = true) ∧
    ((queued 0x40 0 (working 0x40 1 train)).unit 0x40).waiting = [{ op := 0, issue := cmd 0x40 0 }] ∧
      (queued 0x40 0 (working 0x40 1 train)).takesUp 0x40 = false := by decide +kernel

/-- A module without power. -/
def dark : State := { State.reset with power := { State.reset.power with on := false } }

/-- The stream's first frame, one bundle of SEQ `seq` without commands at 0x6000, is next. -/
def opening (seq : Nat) : State :=
  poke 0x6000 64 (2 ^ 27 + seq * 2 ^ 32) { train with program := { train.program with
    opening := true, frames := 1, steadyFrames := 1, steadyBase := 0x6000 } }

/-- Table 0xFF with a bundle of span 100. -/
def background (s : State) : State := poke (0x4000 + 32 * 0xFF) 32 (0x5000 + 2 ^ 128 + 100 * 2 ^ 160) s

theorem test_witness_ticks_and_reserve :
    train.power.on = true ∧ dark.power.on = false ∧ train.hasBackground = false ∧
      ((background train).hasBackground && (background train).callOk 0xFF (background train).clock.cycle (background train).flen)
        = true := by decide +kernel

theorem test_witness_fetch :
    train.fetchDue = true ∧ State.reset.fetchDue = false ∧ (opening 0).fetchDue = true ∧ (opening 1).fetchDue = true ∧
      ((opening 0).readFrame (opening 0).nextIndex ((opening 0).nextPlace (opening 0).nextIndex).1
        ((opening 0).nextPlace (opening 0).nextIndex).2).2 = none ∧
      ((opening 1).readFrame (opening 1).nextIndex ((opening 1).nextPlace (opening 1).nextIndex).1
        ((opening 1).nextPlace (opening 1).nextIndex).2).2.isSome = true := by decide +kernel

/-- The clock at cycle 100 of frame 1, with an edge last sampled at a cycle. -/
def edge (last : Nat) (placing arming : Bool) : State :=
  { State.reset with clock := { State.reset.clock with
    frame := 1, cycle := 100, lastEdge := some (1, last), placing := placing, arming := arming } }

/-- Tracking, with no sync point and a number of ticks without an edge. -/
def quiet (n : Nat) : State := { train with clock := { train.clock with tracking := true, quiet := n } }

/-- Tracking, with a sync point far from the tick. -/
def misplaced : State := { train with clock := { train.clock with tracking := true, syncPoint := some 30000 } }

theorem test_witness_clocks :
    State.reset.power.on = true ∧ (edge 91 true true).sameEdge = true ∧
      ((edge 90 true true).sameEdge = false ∧ (edge 90 true true).clock.placing = true) ∧
      ((edge 90 false true).sameEdge = false ∧ (edge 90 false true).clock.placing = false ∧
        (edge 90 false true).clock.arming = true) ∧
      ((edge 90 false false).sameEdge = false ∧ (edge 90 false false).clock.arming = false) ∧
      ((quiet 15).syncGone = true ∧ (quiet 15).tickOffset = none) ∧ (quiet 14).syncGone = false ∧
      (misplaced.syncGone = true ∧ misplaced.tickOffset.isSome = true) ∧
      State.reset.get 0x1005 1 ≠ 1 ∧ (State.reset.put 0x1005 1 1).get 0x1005 1 ≠ 0 ∧
      (!(State.reset.put 0x1005 1 1).running || (State.reset.put 0x1005 1 1).waitFrame) = true ∧
      (train.put 0x1005 1 1).get 0x1005 1 ≠ 0 ∧
      (!({ train.put 0x1005 1 1 with program := { train.program with at_ := some 0 } } : State).running ||
        ({ train.put 0x1005 1 1 with program := { train.program with at_ := some 0 } } : State).waitFrame) = false := by
  decide +kernel

theorem test_witness_plan :
    State.reset.power.plan = none ∧ (true && !State.reset.faults.clusterReset.contains 1) = true ∧
      (false && !State.reset.faults.clusterReset.contains 1) = false ∧
      ({ State.reset with power := { State.reset.power with plan := some ([], [], 0) } } : State).power.plan.isSome = true := by
  decide +kernel

/-! ### The link, streams and the board space -/

/-- A flit, and its 256 bytes. -/
def flit (type addr : Nat) (payload : List Byte) (src : Nat := 5) : Flit :=
  { type := type, cls := 0, poison := false, src := src, dst := 0xFFF, slice := 0, seq := 0, ack := 0, addr := addr, payload := payload }

def wire (type addr : Nat) (payload : List Byte) (src : Nat := 5) : List Byte := (flit type addr payload src).encode

/-- The bytes of a flit on the module's own path, where no CRC is looked at. -/
def loose (type addr : Nat) (payload : List Byte) (src : Nat := 5) : List Byte :=
  (flit type addr payload src).body 0 0 ++ [0, 0, 0, 0]

/-- A flit is at the front of the module's own path. -/
def looped (raw : List Byte) (s : State) : State := { s with fabric := { s.fabric with loop := [raw] } }

/-- Whatever flit a command takes arrives where it stands at the front of the module's own path. -/
theorem loop_arrives {raw : List Byte} {mine : Flit → Bool} {s : State} (hp : s.power.on = true) (hl : s.fabric.loop = [])
    (h : mine (flitOf raw) = true) : Arrives 17 raw mine (looped raw s) (flitOf raw) s := by
  refine ⟨hp, .inl ⟨rfl, rfl, h, rfl, ?_⟩⟩
  cases s with | mk => rename_i fabric _ _ _ _ _ _ _ _ _; cases fabric; cases hl; rfl

/-- A port of the module stands in a state, with flits of SEQ 4,095 and of another SEQ in its replay buffer, and slice 3
permitted; the module's id is 9, of slice 3. -/
def linked (p state seq : Nat) (retraining : Option Bool := none) (pace : Nat := 2560) : State :=
  let s := (((train.put 0x5020 (p + 1) state).put 0x5001 1 9).put 0x5001 2 3).setPort p
    { replay := [stampFlit (loose 1 0 [1]) 4095 0, stampFlit (loose 1 0 [1]) seq 0], retraining := retraining, pace := pace }
  { s with fabric := { s.fabric with bank0 := { s.fabric.bank0 with tags := [(p, 3)] } } }

theorem whole {f : Flit} (hs : f.seq = 0) (ha : f.ack = 0)
    (hz : leBytes 16 (bits (leNat ((f.body 0 0).take 16)) 47 0 + 2 ^ 72 * bits (leNat ((f.body 0 0).take 16)) 127 72) ++
      (f.body 0 0).drop 16 = f.body 0 0) (hl : (f.body 0 0).length = 252) : flitIntact f.encode = true := by
  have := flitIntact_append hl hz
  rwa [Flit.encode, hs, ha]

theorem link_arrives {p : Nat} {raw : List Byte} {mine : Flit → Bool} {s : State} (hi : flitIntact raw = true)
    (h : s.power.on = true ∧ p ≤ 16 ∧ s.up p = true ∧ flitOk p raw = true ∧ mine (flitOf raw) = true ∧
      (flitOf raw).type = 0xC ∧ (flitOf raw).seq = (s.port p).rxSeq) :
    Arrives p raw mine s (flitOf raw) (s.takeFlit p (flitOf raw)) := by
  obtain ⟨hp, h16, hu, ho, hm, ht, hs⟩ := h
  exact ⟨hp, .inr ⟨h16, hu, hi, ho, hm, by omega, hs, rfl, .inl ⟨ht, rfl⟩⟩⟩

theorem test_witness_idle :
    flitIntact (wire 0 0 []) = true ∧ (flitOf (wire 0 0 [])).type = 0 ∧
    ∀ p ∈ [0, 16], (linked p 1 0).power.on = true ∧ (linked p 1 0).up p = true ∧ flitOk p (wire 0 0 []) = true ∧
      (∀ r ∈ ((linked p 1 7).port p).replay, seqOf r ≠ (flitOf (wire 0 0 [])).ack) ∧
      ((linked p 1 0).port p).replay = [stampFlit (loose 1 0 [1]) 4095 0] ++ stampFlit (loose 1 0 [1]) 0 0 :: [] ∧
      seqOf (stampFlit (loose 1 0 [1]) 0 0) = (flitOf (wire 0 0 [])).ack ∧
      ∀ x ∈ [stampFlit (loose 1 0 [1]) 4095 0], seqOf x ≠ (flitOf (wire 0 0 [])).ack :=
  ⟨whole rfl rfl (by decide +kernel) (by decide +kernel), by decide +kernel⟩

/-- A NAK that names a SEQ of the replay buffer, with the link free or not, and one that names another; a CREDIT with nothing to send. -/
theorem test_witness_nak_and_credit :
    ∀ p ∈ [0, 16], ∀ pace ∈ [2560, 0],
      Arrives p (wire 12 0 [255, 15]) (ofLink 0) (linked p 1 7 none pace) (flitOf (wire 12 0 [255, 15]))
        ((linked p 1 7 none pace).takeFlit p (flitOf (wire 12 0 [255, 15]))) ∧
      Arrives p (wire 12 0 [5, 0]) (ofLink 0) (linked p 1 7 none pace) (flitOf (wire 12 0 [5, 0]))
        ((linked p 1 7 none pace).takeFlit p (flitOf (wire 12 0 [5, 0]))) ∧
      Arrives p (wire 12 1 [3]) (ofLink 1) (linked p 2 7 none pace) (flitOf (wire 12 1 [3]))
        ((linked p 2 7 none pace).takeFlit p (flitOf (wire 12 1 [3]))) ∧
      ((((linked p 1 7 none pace).takeFlit p (flitOf (wire 12 0 [255, 15]))).port p).replay.dropWhile fun r => seqOf r != 4095).length = 2 ∧
      ((((linked p 1 7 none pace).takeFlit p (flitOf (wire 12 0 [5, 0]))).port p).replay.dropWhile fun r => seqOf r != 5) = [] ∧
      leNat (flitOf (wire 12 0 [255, 15])).payload % 4096 = 4095 ∧ leNat (flitOf (wire 12 0 [5, 0])).payload % 4096 = 5 ∧
      (((linked p 1 7 none pace).takeFlit p (flitOf (wire 12 0 [255, 15]))).port p).pace = pace ∧
      ((linked p 1 7 none pace).takeFlit p (flitOf (wire 12 0 [255, 15]))).up p = true ∧
      (((linked p 1 7 none pace).takeFlit p (flitOf (wire 12 0 [255, 15]))).port p).queue = [] ∧
      (((linked p 2 7 none pace).takeFlit p (flitOf (wire 12 1 [3]))).port p).queue = [] ∧
      (((linked p 2 7 none pace).takeFlit p (flitOf (wire 12 1 [3]))).port p).resend = [] := by
  simp only [List.mem_cons, List.not_mem_nil, or_false]
  rintro p (rfl | rfl) pace (rfl | rfl) <;>
  exact ⟨link_arrives (whole rfl rfl (by decide +kernel) (by decide +kernel)) (by decide +kernel),
    link_arrives (whole rfl rfl (by decide +kernel) (by decide +kernel)) (by decide +kernel),
    link_arrives (whole rfl rfl (by decide +kernel) (by decide +kernel)) (by decide +kernel), by decide +kernel⟩

theorem test_witness_retrain_done :
    ∀ r ∈ [none, some true, some false],
      Arrives 16 (wire 12 3 []) (ofLink 3) (linked 16 2 7 r) (flitOf (wire 12 3 []))
        ((linked 16 2 7 r).takeFlit 16 (flitOf (wire 12 3 []))) ∧
      (((linked 16 2 7 r).takeFlit 16 (flitOf (wire 12 3 []))).port 16).retraining = r ∧
      ((linked 16 2 7 r).takeFlit 16 (flitOf (wire 12 3 []))).portState 16 ≠ 0 := by
  simp only [List.mem_cons, List.not_mem_nil, or_false]
  rintro r (rfl | rfl | rfl) <;>
  exact ⟨link_arrives (whole rfl rfl (by decide +kernel) (by decide +kernel)) (by decide +kernel), by decide +kernel⟩

theorem test_witness_far_degrade :
    ∀ r ∈ [(1, none), (2, none), (1, some true), (2, some false)],
      Arrives 0 (wire 12 2 []) (ofLink 2) (linked 0 r.1 7 r.2) (flitOf (wire 12 2 []))
        ((linked 0 r.1 7 r.2).takeFlit 0 (flitOf (wire 12 2 []))) ∧
      (((linked 0 r.1 7 r.2).takeFlit 0 (flitOf (wire 12 2 []))).port 0).retraining = r.2 ∧
      ((linked 0 r.1 7 r.2).takeFlit 0 (flitOf (wire 12 2 []))).portState 0 = r.1 := by
  simp only [List.mem_cons, List.not_mem_nil, or_false]
  rintro r (rfl | rfl | rfl | rfl) <;>
  exact ⟨link_arrives (whole rfl rfl (by decide +kernel) (by decide +kernel)) (by decide +kernel), by decide +kernel⟩

theorem test_witness_degrade :
    ∀ p ∈ [0, 16], ((linked p 1 7).port p).retraining = none ∧ (linked p 1 7).portState p = 1 ∧ (linked p 2 7).portState p = 2 ∧
      (linked p 0 7).portState p ≠ 1 ∧ (linked p 3 7).portState p ≠ 2 ∧
      ((linked p 1 7 (some false)).port p).retraining = some false ∧ ((linked p 2 7 (some true)).port p).retraining = some true ∧
      ((linked p 1 7).port p).queue = [] ∧ ((train.setPort p { queue := [loose 1 0 [1]] }).port p).queue = [loose 1 0 [1]] := by
  decide +kernel

/-- A flit for this module, of its slice; from Stavlink; and one of a type that no destination is looked at for. -/
def mine (type addr : Nat) (payload : List Byte) : List Byte :=
  ({ flit type addr payload with dst := 9, slice := 3 } : Flit).encode

theorem test_witness_arrivals :
    Arrives 3 (mine 1 7 [1, 2, 3, 4]) (ofType 1) (linked 3 1 7) (flitOf (mine 1 7 [1, 2, 3, 4]))
        ((linked 3 1 7).takeFlit 3 (flitOf (mine 1 7 [1, 2, 3, 4]))) ∧
      Arrives 15 (mine 9 1 [1]) (ofType 9) (linked 15 2 7) (flitOf (mine 9 1 [1]))
        ((linked 15 2 7).takeFlit 15 (flitOf (mine 9 1 [1]))) ∧
      Arrives 16 (wire 2 0x400000 [9]) (ofType 2) (linked 16 1 7) { flitOf (wire 2 0x400000 [9]) with src := 0xFFF }
        ((linked 16 1 7).takeFlit 16 (flitOf (wire 2 0x400000 [9]))) ∧
      ((linked 16 1 7).takeFlit 16 (flitOf (wire 2 0x400000 [9]))).boardSource 16 (flitOf (wire 2 0x400000 [9])) = true := by
  refine ⟨⟨by decide +kernel, .inr ⟨by omega, by decide +kernel, whole rfl rfl (by decide +kernel) (by decide +kernel),
      by decide +kernel, by decide +kernel, by decide +kernel, by decide +kernel, rfl, .inr (.inr (by decide +kernel))⟩⟩,
    ⟨by decide +kernel, .inr ⟨by omega, by decide +kernel, whole rfl rfl (by decide +kernel) (by decide +kernel),
      by decide +kernel, by decide +kernel, by decide +kernel, by decide +kernel, rfl, .inr (.inr (by decide +kernel))⟩⟩,
    ⟨by decide +kernel, .inr ⟨by omega, by decide +kernel, whole rfl rfl (by decide +kernel) (by decide +kernel),
      by decide +kernel, by decide +kernel, by decide +kernel, by decide +kernel, rfl, .inr (.inl (by decide +kernel))⟩⟩,
    by decide +kernel⟩

/-- An armed RECV of one block for STREAM flits of tag 0 from any module: into the operand store of die W, or to `dst` in HBM with
further fields of the transfer. -/
def receiving (dst extra : Nat) : State :=
  { withDesc 2 (xferD 0 dst 1 (0xFFF * 2 ^ 256 + extra)) train with fabric := { train.fabric with
    recvs := [{ cmd := { op := 2, issue := use 0x50 2 }, landed := 0, serial := 0, source := 0, parts := [] }] } }

/-- A number of STREAM flits that wait, the first since a frame. -/
def unmatched (n frame : Nat) : State :=
  { train with fabric := { train.fabric with unmatched := List.replicate n (3, frame, loose 1 7 [1]) } }

theorem test_witness_stream :
    (∀ n ∈ [0, 255], (unmatched n 0).entryFor 17 (flitOf (loose 1 7 [1, 2, 3, 4])) = none ∧
      (unmatched n 0).fabric.unmatched.length < 256 ∧
      Arrives 17 (loose 1 7 [1, 2, 3, 4]) (ofType 1) (looped (loose 1 7 [1, 2, 3, 4]) (unmatched n 0))
        (flitOf (loose 1 7 [1, 2, 3, 4])) (unmatched n 0)) ∧
    ((unmatched 256 0).entryFor 17 (flitOf (loose 1 7 [1, 2, 3, 4])) = none ∧ 256 ≤ (unmatched 256 0).fabric.unmatched.length) ∧
    (∀ p ∈ [(op 0, 0, true, false, 0), (0x200000, 0, false, false, 0), (0x200000, 6 * 2 ^ 232, false, false, 6)],
      (receiving p.1 p.2.1).entryFor 17 (flitOf (loose 1 (127 * 2 ^ 20) [1, 2, 3, 4])) = (receiving p.1 p.2.1).fabric.recvs.head? ∧
      ofType 1 (flitOf (loose 1 (127 * 2 ^ 20) [1, 2, 3, 4])) = true ∧
      bit ((receiving p.1 p.2.1).transfer (use 0x50 2)).dst 63 = p.2.2.1 ∧
      ((receiving p.1 p.2.1).transfer (use 0x50 2)).hdr = p.2.2.2.1 ∧ ((receiving p.1 p.2.1).transfer (use 0x50 2)).redop = p.2.2.2.2) ∧
    ((receiving (op 0) 0).mem.ops.length = 3 ∧
      ((receiving (op 0) 0).fabric.recvs.find? fun r => r.cmd.issue.unit == 0x50) = (receiving (op 0) 0).fabric.recvs.head? ∧
      512 * ((receiving (op 0) 0).transfer (use 0x50 2)).blocks = 512) ∧
    ((unmatched 1 0).fabric.unmatched = (3, 0, loose 1 7 [1]) :: [] ∧ ¬ 0 < (unmatched 1 0).clock.frame ∧
      0 < (frame2 (unmatched 1 0)).clock.frame) := by
  refine ⟨?_, by decide +kernel, by decide +kernel, by decide +kernel, by decide +kernel⟩
  simp only [List.mem_cons, List.not_mem_nil, or_false]
  rintro n (rfl | rfl) <;> exact ⟨by decide +kernel, by decide +kernel, loop_arrives rfl rfl (by decide +kernel)⟩

/-- Fenced. -/
def fencedOff (s : State) : State := s.put 0x5040 5 1

/-- A window of an operation at 0x400000. -/
def armed (o : Nat) : State :=
  { train with mem := { train.mem with windows := [(0, [windowOf (transferOf (xferD 0 0x400000 1 (o * 2 ^ 232))) 0])] } }

theorem plain_of {s : State} {tensor a n : Nat} (h : s.dirCount 0 = 0) (h1 : overlaps a n s.program.descDir 48 = false)
    (h2 : overlaps a n (s.dirBase 0) (64 * s.dirCount 0) = false) : plainLanding s tensor a n :=
  ⟨by simp [State.tensorDesc, h], h1, h2⟩

theorem test_witness_board_store :
    (∀ p ∈ [(0x400000, [1]), (stack 3 + 88000000000 - 2, [1, 2])],
      Arrives 17 (loose 2 p.1 p.2) (ofType 2) (looped (loose 2 p.1 p.2) train) (flitOf (loose 2 p.1 p.2)) train ∧
      train.boardSource 17 (flitOf (loose 2 p.1 p.2)) = true ∧ (train.fenced && 17 != 16) = false ∧
      programArea ((flitOf (loose 2 p.1 p.2)).addr % 2 ^ 41) (flitOf (loose 2 p.1 p.2)).payload.length = true ∧
      plainLanding train 0 ((flitOf (loose 2 p.1 p.2)).addr % 2 ^ 41) (flitOf (loose 2 p.1 p.2)).payload.length) ∧
    (programArea ((flitOf (loose 2 (stack 3 + 88000000000 - 1) [1, 2])).addr % 2 ^ 41) 2 = false) ∧
    ((linked 3 1 7).boardSource 3 (flitOf (mine 2 0x400000 [1])) = false) ∧
    ((fencedOff train).fenced && 17 != 16) = true ∧ ((fencedOff train).fenced && 16 != 16) = false := by
  refine ⟨?_, by decide +kernel⟩
  simp only [List.mem_cons, List.not_mem_nil, or_false]
  rintro p (rfl | rfl) <;>
  exact ⟨loop_arrives rfl rfl (by decide +kernel), by decide +kernel, by decide +kernel, by decide +kernel,
    plain_of (by decide +kernel) (by decide +kernel) (by decide +kernel)⟩

theorem test_witness_board_reduce :
    Arrives 17 (loose 3 0x400000 [1]) (ofType 3) (looped (loose 3 0x400000 [1]) (armed 6)) (flitOf (loose 3 0x400000 [1])) (armed 6) ∧
      (armed 6).boardSource 17 (flitOf (loose 3 0x400000 [1])) = true ∧ ((armed 6).fenced && 17 != 16) = false ∧
      programArea 0x400000 1 = true ∧ programArea (stack 3 + 88000000000 - 1) 2 = false ∧
      train.windowAt (stack 3 + 88000000000 - 1) 1 = none ∧
      train.windowFor 0x400000 1 = none ∧ (armed 6).windowFor 0x400200 1 = none ∧ (armed 6).windowFor 0x4001FF 2 = none ∧
      (armed 6).windowFor 0x4001FF 1 = some (windowOf (transferOf (xferD 0 0x400000 1 (6 * 2 ^ 232))) 0) ∧
      (windowOf (transferOf (xferD 0 0x400000 1 (6 * 2 ^ 232))) 0).aligned 0x4001FF 1 = true ∧
      (armed 4).windowFor 0x400001 4 = some (windowOf (transferOf (xferD 0 0x400000 1 (4 * 2 ^ 232))) 0) ∧
      (windowOf (transferOf (xferD 0 0x400000 1 (4 * 2 ^ 232))) 0).aligned 0x400001 4 = false ∧
      (armed 0).windowFor 0x400000 1 = some (windowOf (transferOf (xferD 0 0x400000 1 0)) 0) := by
  refine ⟨loop_arrives rfl rfl (by decide +kernel), by decide +kernel⟩

/-- The payload of a BLOAD of `n` bytes, and of a BAMO of an operation with operand 1. -/
def loadPay (n : Nat) : List Byte := leBytes 3 (n * 2 ^ 16)
def amoPay (o wide : Nat) : List Byte := leBytes 16 (o * 2 ^ 16 + wide * 2 ^ 20 + 2 ^ 64)

theorem test_witness_board_loads :
    (∀ n ∈ [1, 236], Arrives 17 (loose 4 0x400000 (loadPay n)) (ofType 4) (looped (loose 4 0x400000 (loadPay n)) train)
      (flitOf (loose 4 0x400000 (loadPay n))) train ∧ bits (leNat (flitOf (loose 4 0x400000 (loadPay n))).payload) 23 16 = n) ∧
    programArea (stack 4 + 92000000000) 1 = false ∧
    (∀ p ∈ [(0, 0), (8, 1)],
      Arrives 17 (loose 6 0x400000 (amoPay p.1 p.2)) (ofType 6) (looped (loose 6 0x400000 (amoPay p.1 p.2)) train)
        (flitOf (loose 6 0x400000 (amoPay p.1 p.2))) train ∧
      bits (leNat (flitOf (loose 6 0x400000 (amoPay p.1 p.2))).payload) 19 16 = p.1 ∧
      bit (leNat (flitOf (loose 6 0x400000 (amoPay p.1 p.2))).payload) 20 = (p.2 == 1)) ∧
    programArea 0x400000 8 = true ∧ plainLanding train (train.landTensor 0x400000) 0x400000 8 ∧
    plainLanding train (train.landTensor 0x400000) 0x400000 4 := by
  refine ⟨?_, by decide +kernel, ?_, by decide +kernel, plain_of (by decide +kernel) (by decide +kernel) (by decide +kernel),
    plain_of (by decide +kernel) (by decide +kernel) (by decide +kernel)⟩
  all_goals simp only [List.mem_cons, List.not_mem_nil, or_false]
  · rintro n (rfl | rfl) <;> exact ⟨loop_arrives rfl rfl (by decide +kernel), by decide +kernel⟩
  · rintro p (rfl | rfl) <;> exact ⟨loop_arrives rfl rfl (by decide +kernel), by decide +kernel, by decide +kernel⟩

/-- A core's request 5 is open: a load, or an AMO. -/
def asking (amo : Bool) : State :=
  { train with fabric := { train.fabric with
    boardReqs := [{ id := 5, core := 23, length := 4, left := 9, amo := amo, dst := 5, address := 0x400000 }] } }

/-- Index 0 of the board map is module 9, which is the module's own id or another. -/
def mapped (own : Nat) : State :=
  let s := train.put 0x5001 1 own
  { s with fabric := { s.fabric with bank0 := { s.fabric.bank0 with board := [(0, 9)] } } }

theorem test_witness_board_answers :
    ∀ amo ∈ [false, true],
      Arrives 17 (loose 5 5 [1]) (ofType 5) (looped (loose 5 5 [1]) (asking amo)) (flitOf (loose 5 5 [1])) (asking amo) ∧
      Arrives 17 (loose 7 5 [1]) (ofType 7) (looped (loose 7 5 [1]) (asking amo)) (flitOf (loose 7 5 [1])) (asking amo) ∧
      ((asking amo).fabric.boardReqs.find? fun r => r.id == (flitOf (loose 7 5 [1])).addr % 2 ^ 16 && r.amo == amo) =
        (asking amo).fabric.boardReqs.head? ∧
      ((asking amo).fabric.boardReqs.find? fun r => r.id == (flitOf (loose 7 5 [1])).addr % 2 ^ 16 && r.amo == !amo) = none ∧
      (flitOf (loose 7 5 [1])).poison = false ∧
      (flitOf (({ flit 7 5 [1] with poison := true } : Flit).body 0 0)).poison = true ∧
      ((asking amo).fabric.boardReqs.find? fun r => r.id == 5) = (asking amo).fabric.boardReqs.head? ∧
      ((asking amo).fabric.boardReqs.find? fun r => r.id == 4) = none := by
  intro amo _
  have arrived : ∀ o : Nat, o = 5 ∨ o = 7 → Arrives 17 (loose o 5 [1]) (ofType o) (looped (loose o 5 [1]) (asking amo))
      (flitOf (loose o 5 [1])) (asking amo) := by
    rintro o (rfl | rfl) <;> exact loop_arrives rfl rfl (by decide +kernel)
  refine ⟨arrived 5 (.inl rfl), arrived 7 (.inr rfl), ?_⟩
  clear arrived
  revert amo
  decide +kernel

/-- A core in machine mode, with window 3 of its cluster enabled over the first 4 KiB of the operand store. -/
def machine : State :=
  let s := train.setCore 23 { mode := 3 }
  { s with thallus := { s.thallus with windows := [(11, 2 ^ 60 + 0xFFF * 2 ^ 32)] } }

/-- CSRs of every privilege, one that no core has and one that is read only; a window access at the end of its limit. -/
theorem test_witness_core_accesses :
    (∀ s ∈ [train, machine], s.faults.clusterReset.contains (23 / 8) = false ∧ (s.retire 23).caller 23 = none ∧
      (s.core 23).mode ≠ 0) ∧
    (∀ n ∈ [0xC00, 0x100, 0xF14], (csrKnown n && decide (bits n 9 8 ≤ (machine.core 23).mode)) = true) ∧
    csrKnown 0x7FF = false ∧ (train.core 23).mode < bits 0xF14 9 8 ∧ bits 0xC00 11 10 = 3 ∧
    (2 ^ 41 ≤ 0x20000000000 ∧ 0x220000000000 - 1 < 0x220000000000) ∧
    machine.windowRange 23 (0x300000000000 + 3 * 2 ^ 27 + 0xFF8) 8 false = some 0xFF8 ∧
    crosses (0x300000000000 + 3 * 2 ^ 27 + 0xFF8) 8 = false ∧ 0x300000000000 + 3 * 2 ^ 27 + 0xFF8 < 0x300020000000 ∧
    bit (1#64 <<< 32).toNat 32 = true := by decide +kernel

/-! ### The slice and the commit of a step -/

/-- The module, id 9, in a ring of members, in a commit state of the running step. -/
def ring (ids : List Nat) (commit : Nat := 0) : State :=
  let s := (train.put 0x5001 1 9).put 0x8020 2 commit
  { s with fabric := { s.fabric with bank0 := { s.fabric.bank0 with members := ids } } }

theorem test_witness_heartbeat :
    (∀ src ∈ [5, 7, 12], Arrives 17 (loose 8 3 [1] src) (ofType 8) (looped (loose 8 3 [1] src) (ring [5, 9, 12]))
      (flitOf (loose 8 3 [1] src)) (ring [5, 9, 12])) ∧
    (ring [5, 9, 12]).successors.head? = some 12 ∧ (ring [5, 9, 12]).predecessors.head? = some 5 ∧
    (ring [5, 9]).successors.head? = some 5 ∧ (ring [5, 9]).predecessors.head? = some 5 ∧
    (flitOf (loose 8 3 [1] 12)).src = 12 := by
  refine ⟨?_, by decide +kernel⟩
  simp only [List.mem_cons, List.not_mem_nil, or_false]
  rintro src (rfl | rfl | rfl) <;> exact loop_arrives rfl rfl (by decide +kernel)

/-- Frame `n` with the last heartbeats in frame 0. -/
def beaten (n : Nat) : State :=
  let s := ring [5, 9]
  { s with clock := { s.clock with frame := n }, fabric := { s.fabric with beatNext := some 0, beatPrev := some 0 } }

theorem test_witness_heartbeat_lost : (beaten 4).heartbeatGone = true ∧ (beaten 3).heartbeatGone = false := by decide +kernel

/-- A census of a number is open, or closed, with members of a bitmap reached. -/
def census (n : Nat) (opened : Option Nat) (bitmap : List Nat) (s : State) : State :=
  { s.put 0x5040 1 n with fabric := { s.fabric with census := opened, bitmap := bitmap } }

theorem test_witness_census :
    (∀ opened ∈ [none, some 0], Arrives 17 (loose 9 2 [3]) (ofType 9) (looped (loose 9 2 [3]) (census 2 opened [] (ring [5, 9])))
      (flitOf (loose 9 2 [3])) (census 2 opened [] (ring [5, 9]))) ∧
    (census 1 none [] (ring [5, 9])).get 0x5040 1 < bits (flitOf (loose 9 2 [3])).addr 15 0 ∧
    bits (flitOf (loose 9 2 [3])).addr 15 0 = (census 2 none [] (ring [5, 9])).get 0x5040 1 ∧
    bits (flitOf (loose 9 2 [3])).addr 15 0 < (census 3 none [] (ring [5, 9])).get 0x5040 1 := by
  refine ⟨?_, by decide +kernel⟩
  simp only [List.mem_cons, List.not_mem_nil, or_false]
  rintro opened (rfl | rfl) <;> exact loop_arrives rfl rfl (by decide +kernel)

/-- With two members a module continues where the anchor is reached; without a program there is no step to decide. -/
theorem test_witness_census_close :
    State.reset.fabric.census = none ∧ (census 1 (some 0) [0] (ring [5, 9])).fabric.census.isSome = true ∧
      (census 1 (some 0) [1] (ring [5, 9])).continues = false ∧ (census 1 (some 0) [1] (ring [5, 9])).running = true ∧
      (census 1 (some 0) [0] (ring [5, 9])).continues = true ∧ (census 1 (some 0) [0] (ring [5, 9])).training = true ∧
      (census 1 (some 0) [0] State.reset).training = false ∧
      (census 1 (some 0) [0] { State.reset with fabric := { State.reset.fabric with bank0 := { State.reset.fabric.bank0 with
        members := [0xFFF, 9] } } }).continues = true := by decide +kernel

/-- A bank switch waits, with one route in the inactive bank. -/
def switching (route : Nat) : State :=
  { State.reset with fabric := { State.reset.fabric with
    switchAt := some 0, bank1 := { State.reset.fabric.bank1 with routes := [(5, route)] } } }

theorem test_witness_bank_switch :
    State.reset.fabric.switchAt = none ∧ (switching 0).fabric.switchAt.isSome = true ∧
      (switching 15).inactiveBank.ok (switching 15).moduleId = true ∧ (switching 17).inactiveBank.ok (switching 17).moduleId = false ∧
      (switching 16).inactiveBank.ok (switching 16).moduleId = false := by decide +kernel

/-- A RESIL flit of a kind about a module, for step 0. -/
def resil (kind subject : Nat) (payload : List Byte) (src : Nat := 5) : List Byte := loose 0xB (kind + 16 * subject) payload src

theorem test_witness_resil :
    ∀ k ∈ [0, 1, 2, 3, 4, 5, 6, 7, 8, 9, 10, 11],
      Arrives 17 (resil k 5 [0, 0, 0, 0, 1]) (ofKind k) (looped (resil k 5 [0, 0, 0, 0, 1]) (ring [5, 9, 12]))
        (flitOf (resil k 5 [0, 0, 0, 0, 1])) (ring [5, 9, 12]) ∧
      (ring [5, 9, 12]).concerns (flitOf (resil k 5 [0, 0, 0, 0, 1])) = true ∧
      (flitOf (resil k 5 [0, 0, 0, 0, 1])).src = 5 ∧ (flitOf (resil k 5 [0, 0, 0, 0, 1])).subject = 5 := by
  simp only [List.mem_cons, List.not_mem_nil, or_false]
  rintro k (rfl | rfl | rfl | rfl | rfl | rfl | rfl | rfl | rfl | rfl | rfl | rfl) <;>
  exact ⟨loop_arrives rfl rfl (by decide +kernel), by decide +kernel⟩

theorem test_witness_record_copies :
    (ring [5, 9, 12]).commitState ≠ 6 ∧ (ring [5, 9, 12]).predecessorIndex 5 = some 0 ∧
      (ring [5, 9, 12]).predecessorIndex 12 = some 1 ∧
      (∀ payload ∈ [[0, 0, 0, 0, 1], [255, 255, 15, 0, 1]],
        leNat ((flitOf (resil 0 5 payload)).payload.take 4) + ((flitOf (resil 0 5 payload)).payload.drop 4).length ≤ 2 ^ 20) := by
  decide +kernel

/-- The records of a member with predecessors: byte 16 of its own sealed record and of the two copies, in the ring. -/
def records (ids : List Nat) (own one two : Byte) : State :=
  let s := ring ids 1
  { s with
    commit := { s.commit with sealed := true, sealSent := true }
    locket := { s.locket with
      ownSealed := Mem.write {} 16 own, pred1Sealed := Mem.write {} 16 one, pred2Sealed := Mem.write {} 16 two
      lengths := [0, 0, 0, 400000, 0, 400000] } }

theorem test_witness_compare :
    (∀ p ∈ [([9], 1, 0, 0), ([5, 9], 1, 1, 0), ([5, 9], 1, 2, 0), ([5, 9, 12], 1, 1, 1), ([5, 9, 12], 1, 1, 2), ([5, 9, 12], 1, 2, 1),
        ([5, 9, 12], 1, 2, 2), ([5, 9, 12], 1, 2, 3)],
      (records p.1 p.2.1 p.2.2.1 p.2.2.2).commit.compareDone = false ∧ (records p.1 p.2.1 p.2.2.1 p.2.2.2).recordsHeld = true) ∧
    (records [9] 1 0 0).predecessors = [] ∧ (records [5, 9] 1 1 0).predecessors = [5] ∧
    (records [5, 9, 12] 1 1 1).predecessors = 5 :: 12 :: [] ∧
    commonFields (Mem.write {} 16 1) = commonFields (Mem.write {} 16 1) ∧
    commonFields (Mem.write {} 16 1) ≠ commonFields (Mem.write {} 16 2) ∧
    commonFields (Mem.write {} 16 1) ≠ commonFields (Mem.write {} 16 3) ∧
    commonFields (Mem.write {} 16 2) ≠ commonFields (Mem.write {} 16 3) := by decide +kernel

/-- Every condition of READY but the acknowledgements of copies, which come from the members of a list. -/
def voted (ids acks : List Nat) : State :=
  let s := records ids 1 1 1
  { s with commit := { s.commit with compareDone := true, compared := true, acks := acks } }

theorem test_witness_ready :
    (voted [5, 9, 12] [5, 12]).readyNow = true ∧ (voted [5, 9, 12] [5]).readyNow = false ∧
      (voted [5, 9, 12] [5, 12]).isCoordinator = false ∧ (voted [9, 12] [12]).readyNow = true ∧
      (voted [9, 12] [12]).isCoordinator = true ∧
      ((ring [9, 5]).isCoordinator = true ∧ (ring [9, 5]).concerns (flitOf (resil 3 5 [0, 0, 0, 0])) = true ∧ 5 ∈ (ring [9, 5]).live) := by
  decide +kernel

/-- The coordinator of two members at cycle 0 of a frame, READY, with the READYs of a list, frame 0 that of its commit point. -/
def deciding (frame : Nat) (readys : List Nat) : State :=
  let s := ring [9, 5] 2
  { s with
    clock := { s.clock with frame := frame }
    commit := { s.commit with frame := some 0, readys := readys.map fun m => (m, true, true) } }

theorem test_witness_decision :
    (∀ p ∈ [(2, [9, 5], true), (3, [9, 5], true), (1, [9, 5], false), (2, [9], false)],
      ((deciding p.1 p.2.1).isCoordinator && (deciding p.1 p.2.1).training && (deciding p.1 p.2.1).commitState == 2 &&
        !(deciding p.1 p.2.1).commit.decided && (deciding p.1 p.2.1).decisionFrame && (deciding p.1 p.2.1).allReady) = p.2.2) ∧
    (∀ p ∈ [(2, true), (1, false)], ((ring [5, 9] p.1).concerns (flitOf (resil 4 5 [1, 0, 0, 0])) && (ring [5, 9] p.1).commitState == 2 &&
      (flitOf (resil 4 5 [1, 0, 0, 0])).src == (ring [5, 9] p.1).coordinator) = p.2) := by decide +kernel

theorem test_witness_timeouts :
    ((deciding 2 [9]).commit.frame = some 0 ∧ (deciding 2 [9]).training = true ∧ (deciding 2 [9]).isCoordinator = true ∧
      (deciding 2 [9]).commit.decided = false ∧ (deciding 2 [9]).commitState ≤ 2 ∧ (deciding 2 [9]).clock.frame = 0 + 2 ∧
      (deciding 2 [9]).allReady = false) ∧
    ((deciding 3 []).commitState = 2 ∧ (deciding 3 []).clock.frame = 0 + 3) ∧
    (∀ n ∈ [0, 2, 3, 7], (ring [5, 9] n).concerns (flitOf (resil 5 5 [0, 0, 0, 0])) = true ∧ (ring [5, 9] n).commitState = n) ∧
    ((ring [5, 9]).training = true ∧ (flitOf (loose 0xA 0 [0, 0, 0, 0])).addr = (ring [5, 9]).stepCount % 2 ^ 48 ∧
      (ring [5, 9]).fabric.poisonSeen ≠ some (ring [5, 9]).stepCount ∧
      (flitOf (loose 0xA 1 [0, 0, 0, 0])).addr ≠ (ring [5, 9]).stepCount % 2 ^ 48 ∧
      Arrives 17 (loose 0xA 0 [0, 0, 0, 0]) (ofType 0xA) (looped (loose 0xA 0 [0, 0, 0, 0]) (ring [5, 9]))
        (flitOf (loose 0xA 0 [0, 0, 0, 0])) (ring [5, 9])) :=
  ⟨by decide +kernel, by decide +kernel, by decide +kernel, by decide +kernel, by decide +kernel, by decide +kernel,
    by decide +kernel, loop_arrives rfl rfl (by decide +kernel)⟩

/-- A reverting member, or one whose revert has not begun. -/
def reverting (n : Nat) (b halt : Bool) : State :=
  let s := ring [9, 5] n
  { s with commit := { s.commit with reverting := b, haltRevert := halt, reverteds := [9] } }

theorem test_witness_revert :
    ((reverting 4 false false).commitState = 4 ∧ (reverting 4 false false).commit.reverting = false ∧
      (reverting 4 false false).stepWork = false) ∧
    ((reverting 7 false true).commitState = 7 ∧ (reverting 7 false true).commit.haltRevert = true ∧
      (reverting 7 false true).stepWork = false) ∧
    (∀ n ∈ [4, 7], (reverting n true false).commit.reverting = true ∧ (reverting n true false).resetsDone = true) ∧
    ({ reverting 4 true false with faults := { train.faults with frondReset := [0] } } : State).resetsDone = false ∧
    (∀ n ∈ [5, 7], ((reverting n false false).isCoordinator && (reverting n false false).concerns (flitOf (resil 6 5 [])) &&
      (reverting n false false).live.contains (flitOf (resil 6 5 [])).src) = true ∧ (reverting n false false).commitState = n) ∧
    (∀ m ∈ (reverting 5 false false).live, m = 5 ∨ m ∈ (reverting 5 false false).commit.reverteds) ∧
    (∀ e ∈ (reverting 5 false false).members, memberState e ≠ 1) ∧
    (12 ∈ (ring [9, 5, 12] 5).live ∧ 12 ≠ 5 ∧ 12 ∉ (ring [9, 5, 12] 5).commit.reverteds) ∧
    ((ring [5, 9]).isCoordinator = false) := by decide +kernel

/-- A READY member with outcomes after a census that reached the members of a bitmap. -/
def outcomes (l : List (Nat × Nat)) (bitmap : List Nat) : State :=
  let s := census 1 none bitmap (ring [5, 9, 12] 2)
  { s with commit := { s.commit with censusFrame := some 0, outcomes := l } }

theorem test_witness_outcomes :
    ((outcomes [] []).training && (outcomes [] []).commit.censusFrame.isSome) = true ∧
      (train.training && train.commit.censusFrame.isSome) = false ∧ (outcomes [] []).commitState = 2 ∧
      (∃ o ∈ (outcomes [(12, 0)] [1]).commit.outcomes, o.2 = 0) ∧
      ((∀ o ∈ (outcomes [(12, 1)] [1]).commit.outcomes, o.2 ≠ 0) ∧ ∃ o ∈ (outcomes [(12, 1)] [1]).commit.outcomes, o.2 = 1) ∧
      ((∀ o ∈ (outcomes [(12, 2)] [0]).commit.outcomes, o.2 ≠ 0) ∧ (outcomes [(12, 2)] [0]).reached = [0] ∧
        (outcomes [(12, 2)] [0]).members[0]? = some 5 ∧ memberId 5 = (outcomes [(12, 2)] [0]).coordinator) ∧
      ((∀ o ∈ (outcomes [(12, 2)] [1, 2]).commit.outcomes, o.2 ≠ 0 ∧ o.2 ≠ 1) ∧ (outcomes [(12, 2)] [1, 2]).reached = [1, 2] ∧
        (outcomes [(12, 2)] [1, 2]).members = [5, 9, 12] ∧ (outcomes [(12, 2)] [1, 2]).coordinator = 5) := by decide +kernel

/-- A fill of tensor 7 from module 5 is out, plain or with a coefficient; the member fills, or is in another commit state. -/
def filling (coef : Nat) (n : Nat := 6) : State :=
  let s := withTensor 0 (ring [5, 9] n)
  { s with commit := { s.commit with fills := [{ source := 5, tensor := 7, dest := 7, coef := coef, left := 4 }] } }

theorem test_witness_fill :
    (∀ coef ∈ [0, 3], Arrives 17 (resil 10 9 [7, 0, 0, 0, 0, 0, 0, 0, 1, 2, 3, 4]) (ofKind 0xA)
        (looped (resil 10 9 [7, 0, 0, 0, 0, 0, 0, 0, 1, 2, 3, 4]) (filling coef))
        (flitOf (resil 10 9 [7, 0, 0, 0, 0, 0, 0, 0, 1, 2, 3, 4])) (filling coef) ∧
      ((filling coef).commit.fills.find? fun x =>
        x.source == (flitOf (resil 10 9 [7, 0, 0, 0, 0, 0, 0, 0, 1, 2, 3, 4])).src &&
          x.dest == bits (leNat ((flitOf (resil 10 9 [7, 0, 0, 0, 0, 0, 0, 0, 1, 2, 3, 4])).payload.take 8)) 31 0) =
        (filling coef).commit.fills.head? ∧
      (filling coef).tensorDesc 7 = some (0x101 + tensorD 0)) ∧
    (∀ n ∈ [5, 7], Arrives 17 (resil 9 9 (leBytes 16 (7 + 2 ^ 64))) (ofKind 9) (looped (resil 9 9 (leBytes 16 (7 + 2 ^ 64))) (filling 0 n))
        (flitOf (resil 9 9 (leBytes 16 (7 + 2 ^ 64)))) (filling 0 n) ∧ (filling 0 n).commitState = n ∧
      (filling 0 n).tensorDesc (bits (leNat (flitOf (resil 9 9 (leBytes 16 (7 + 2 ^ 64)))).payload) 31 0) = some (0x101 + tensorD 0) ∧
      0 < cdiv (512 * bits (leNat (flitOf (resil 9 9 (leBytes 16 (7 + 2 ^ 64)))).payload) 95 64) 228) := by
  simp only [List.mem_cons, List.not_mem_nil, or_false]
  refine ⟨?_, ?_⟩
  · rintro coef (rfl | rfl) <;> exact ⟨loop_arrives rfl rfl (by decide +kernel), by decide +kernel⟩
  · rintro n (rfl | rfl) <;> exact ⟨loop_arrives rfl rfl (by decide +kernel), by decide +kernel⟩

/-! ### Faults, resets and recovery -/

/-- A report of a code and source at a stamp. -/
def report (code source cycle : Nat) : Report :=
  { code := code, source := source, die := 1, ctx := 0, frame := 0, cycle := cycle, detail := 0, halt := false, replay := false }

/-- A module with a latched record, or with reports that compete. -/
def faulted (record : Bool) (competing : List Report) : State :=
  { State.reset with faults := { State.reset.faults with
    record := if record then some (report 0x201 0x40 5, 0, 0) else none, competing := competing.map fun r => (r, 0) } }

/-- A source of cluster C's controller is in service. -/
def serving (k : Nat) : State := { State.reset with thallus := { State.reset.thallus with plicServing := [(1, 2 ^ k)] } }

/-- A block is inside the bridge from die C to die E, on its way to an address. -/
def crossing (a : Nat) : State :=
  State.reset.setLane 2 { wire := [(5, { unit := 0x48, ctx := 0, cls := 0, frame := 0, cycle := 0, die := 1, own := true, at_ := 2
                                         to_ := 2, data := List.replicate 64 0, poison := false, deed := .write a 0 0 0 })] }

/-- A block of the bridge lands on an address; no other address is landed on. -/
theorem test_witness_bridge :
    ((State.reset.setLane 2 ((crossing (stack 8)).lane 2)).lane (2 * b2n true + b2n (!true))).wire.findIdx?
      (fun p => p.2.landsOn (stack 8 + 63)) = some 0 ∧
    (∀ a ∈ [stack 8 + 64, op 0], ∀ q ∈ ((crossing (stack 8)).lane (2 * b2n true + b2n (!true))).wire, q.2.landsOn a = false) ∧
    (((crossing (stack 8)).lane 2).wire[0]?).isSome = true ∧ bit (stack 8 + 64) 63 = false ∧ bit (op 0) 63 = true := by decide +kernel

theorem test_witness_reports :
    State.reset.carried (report 0x403 0xB0 5) = 0 ∧ (faulted true []).carried (report 0x403 0xB0 5) = 0 ∧
      (faultRow 0x403).isSome = true ∧ (faulted false []).faults.record = none ∧ (faulted true []).faults.record.isSome = true ∧
      (faulted false [report 0x201 0x40 5, report 0x201 0x40 4]).faults.competing ≠ [] ∧
      (faulted false []).faults.competing = [] ∧ bit (kget 0 State.reset.thallus.plicServing 1) 5 = false ∧
      bit (kget 0 (serving 5).thallus.plicServing 1) 5 = true := by decide +kernel

/-- A unit with work at its third unfinished tick, or its second. -/
def late (u n : Nat) : State := train.setUnit u { ((working u 1 train).unit u) with ticks := n }

theorem test_witness_hangs :
    (∀ u ∈ [0x10, 0x32], (frondUnit u && (late u 3).hangs u) = true ∧ (frondUnit u && (late u 2).hangs u) = false) ∧
    (∀ u ∈ [0x40, 0x78], (!frondUnit u && (late u 3).hangs u) = true ∧ (!frondUnit u && (late u 2).hangs u) = false) ∧
    bit 0x400000 63 = false ∧ bit (op 64) 63 = true := by decide +kernel

/-- Fronds or clusters in reset. -/
def resetting (fronds clusters : List Nat) : State :=
  { train with faults := { train.faults with frondReset := fronds, clusterReset := clusters } }

theorem test_witness_resets :
    (∀ d ∈ [0, 2], (resetting [d] []).faults.frondReset.contains d = true ∧ (resetting [] [d]).faults.clusterReset.contains d = true ∧
      train.faults.frondReset.contains d = false ∧ train.faults.clusterReset.contains d = false) ∧
    ({ train with faults := { train.faults with moduleReset := some 0x601 } } : State).faults.moduleReset = some 0x601 ∧
    State.reset.mem.lines = [] ∧
    train.faults.moduleReset = none ∧ dark.power.on = false ∧ dark.faults.corrupt = [] ∧ train.power.on = true := by decide +kernel

/-- A replay of Frond 0 in a phase with suspects, with or without work on the Frond. -/
def replaying (phase : Nat) (left : List Nat) (busy : Bool) : State :=
  let s := if busy then working 0x10 1 train else train
  { s with faults := { s.faults with
    replay := some { die := 0, left := left, suspects := left, guilty := [], frame := 1, cmds := [], phase := phase } } }

theorem test_witness_replay :
    ((replaying 2 [1, 5] false).faults.replay.map fun r => (r.phase, r.left)) = some (2, 1 :: [5]) ∧
      (∀ left ∈ [[1], [1, 5]], ((replaying 3 left false).faults.replay.map fun r => (r.phase, r.left)) = some (3, left) ∧
        (replaying 3 left false).frondWorks 0 = false) ∧ [1].tail = [] ∧ [1, 5].tail ≠ [] ∧
      (replaying 3 [1] true).frondWorks 0 = true ∧
      (∀ left ∈ [[1], [5, 1]], ((replaying 6 left true).faults.replay.map fun r => (r.phase, r.left)) = some (6, left) ∧
        (replaying 6 left true).frondWorks 0 = true ∧ (replaying 6 left true).running = true) := by decide +kernel

/-- The stitcher at work with its budget of frames: counter and budget. -/
def stitching (counter budget : Nat) : State :=
  let s := ((train.put 0x6050 5 counter).put 0x6050 1 budget).put 0x6050 3 1
  { s with thallus := { s.thallus with stitching := [0] } }

/-- The blocks of a stitch whose old index and delta list are empty. -/
def plainJob : StitchJob :=
  { tensor := 7, delta := 0x500000, oldIndex := 0x510000, newIndex := 0x520000, metaPlane := 0, oldScales := 0
    newScales := 0, descs := [], tables := [] }

theorem test_witness_stitch : plainJob.tables = [] ∧ train.stitchDue = false ∧ (stitching 0 1).stitchDue = true := by decide +kernel

/-! ### The dictionary -/

theorem test_witness_writes :
    (∀ x ∈ objectWrites .host 1 [], MayWrite (State.reset.put 0xA006 2 1) .host x.2.1 x.2.2) ∧
      (∀ x ∈ objectWrites .mgmt 1 [], dark.serves = false ∧ (resetting [] [1]).serves = false) ∧
      (State.reset.serves = true ∧ State.reset.writeStatus .mgmt 0x5012 1 = 3 ∧ State.reset.writeStatus .host 0x1000 1 = 5 ∧
        State.reset.writeStatus .host 0x6010 0 = 5 ∧ State.reset.writeStatus .host 0x7777 1 = 1 ∧
        State.reset.writeStatus .host 0x6010 99 = 2 ∧ train.writeStatus .host 0x5001 1 = 5) ∧
      objLimit 0x6002 1 ≤ 256 ∧ objLimit 0x8050 1 ≤ 2 ^ 64 := by unfold MayWrite; decide +kernel

theorem test_witness_register_write :
    MayWrite State.reset .host 0x2001 1 ∧ (0x2001 : Nat) ≠ 0x1010 ∧ 4 ≠ objType 0x2001 1 ∧ objType 0x2001 1 = 3 ∧
      typeLen 3 = 2 ∧ [(1 : Byte)].length ≠ typeLen 3 ∧ numberBehaviour 0x2001 1 = none ∧
      State.reset.valueOk 0x2001 1 (leNat [0, 0]) = false ∧ State.reset.valueOk 0x2001 1 (leNat [0xB8, 0x0B]) = true := by
  unfold MayWrite; decide +kernel

theorem test_witness_objects_and_addresses :
    objHighest 0x1000 ≠ 0 ∧ objHighest 0xF010 ≠ 0 ∧ State.reset.security.recovery = false ∧ objRow 0x1000 (objHighest 0x1000) ≠ none ∧
      (12 * 2 ^ 37 - 1 < 2 ^ 41 ∧ populated (11 * 2 ^ 37 + 95999999999) 1 = true ∧ populated (11 * 2 ^ 37 + 96000000000) 1 = false ∧
        populated (12 * 2 ^ 37) 1 = false ∧ addressDie (3 * 2 ^ 37) = 0 ∧ addressDie (4 * 2 ^ 37) = 1 ∧
        addressDie (8 * 2 ^ 37) = 2) := by decide +kernel

/-- Module 9 of slice 3, without a program, whose object 0x6010.01 names an empty page, or the header of a training program. -/
def stopped (header : Nat) : State :=
  poke 0x7000 64 header { State.reset with dict := [(objKey 0x5001 1, 9), (objKey 0x5001 2, 3), (objKey 0x6010 1, 0x7000),
    (objKey 0x6020 2, 0), (objKey 0x6020 1, 1), (objKey 0x6020 3, 1)].foldl (fun m p => kput p.1 p.2 m) [] }

def headerD : Nat :=
  0x54443645 + 2 ^ 32 + 2 ^ 48 + 4 * 2 ^ 64 + 2 ^ 96 + 0x6000 * 2 ^ 128 + 0x3000 * 2 ^ 320 + 0x4000 * 2 ^ 384

/-- The state whose checks START makes. -/
def named (s : State) : State :=
  { s with program := { programOf (s.hbmLE (s.get 0x6010 1) 64) with clearing := s.program.clearing } }

theorem test_witness_start_and_stop :
    (∀ h ∈ [0, headerD], MayWrite (stopped h) .host 0x6010 2 ∧ (stopped h).running = false ∧
      ((named (stopped h)).startReason ((stopped h).hbmLE ((stopped h).get 0x6010 1) 64) = 0 ↔ h = headerD)) ∧
    MayWrite train .host 0x6010 2 ∧ train.running = true ∧ train.program.stopping = none := by
  unfold MayWrite; decide +kernel

/-- An ageing maximum and a stored setting of another object than maintenance mode, with a module reset waiting. -/
def aged : State :=
  { State.reset with power := { State.reset.power with maxima := [(objKey 0x2005 4, 1225)] }
                     server := { State.reset.server with stored := some [(objKey 0x2001 1, 2500)] }
                     faults := { State.reset.faults with moduleReset := some 0x601 } }

theorem test_witness_maintenance :
    (∀ s ∈ [State.reset, train], MayWrite s .host 0x9001 1) ∧ State.reset.running = false ∧ train.running = true ∧
      (State.reset.put 0x9001 1 1).maintenance = true ∧ (State.reset.put 0x9001 1 1).running = false ∧
      MayWrite (State.reset.put 0x9001 1 1) .host 0x6010 2 ∧ MayWrite (State.reset.put 0x9001 1 1) .host 0x4040 1 ∧
      (State.reset.put 0x9001 1 1).mem.repair = none ∧
      (leBytes 16 (11 + 2 ^ 24 + 2 ^ 64)).length = 16 ∧ repairLegal (leNat (leBytes 16 (11 + 2 ^ 24 + 2 ^ 64))) = true ∧
      bit (leNat (leBytes 16 (11 + 2 ^ 24 + 2 ^ 64))) 65 = false ∧
      (aged.faults.moduleReset = some 0x601 ∧ (∀ p ∈ aged.power.maxima, p.1 ≠ objKey 0x9001 1) ∧
        ∀ p ∈ aged.server.stored.getD [], p.1 ≠ objKey 0x9001 1) := by unfold MayWrite; decide +kernel

/-- A program that tracks FRAME_SYNC, or does not. -/
def tracking (b : Bool) : State := { train with program := { train.program with tracked := b } }

theorem test_witness_control :
    (∀ x ∈ [(0x6002, 1), (0x3001, 3), (0x3060, 5), (0x9002, 1), (0x9002, 2), (0x8050, 1), (0x8050, 3), (0x5025, 1), (0x5012, 1),
        (0x5040, 3), (0x4044, 1), (0x4045, 1)], MayWrite State.reset .host x.1 x.2) ∧
      (∀ b ∈ [true, false], MayWrite (tracking b) .host 0x6002 1 ∧ (tracking b).program.tracked = b) ∧
      (({ State.reset with faults := { State.reset.faults with dumps := [([1], 1, 1), ([], 0, 0), ([2], 1, 2)] } } : State).faults.dumps[2]?
        = some ([2], 1, 2)) ∧
      (State.reset.put 0x8050 2 2).get 0x8050 2 = 2 ∧ State.reset.get 0x8050 2 ≠ 2 ∧
      (∀ p ∈ [0, 16], (linked p 2 0).portState p = 2 ∧ (linked p 3 0).portState p = 3 ∧ (linked p 1 0).portState p ≠ 2 ∧
        (linked p 1 0).portState p ≠ 3) ∧
      (11 * 2 ^ 37 + 95999999999 < 2 ^ 41 ∧ populated (11 * 2 ^ 37 + 95999999999) 1 = true) := by
  unfold MayWrite; decide +kernel

/-- A training member in a commit state, halted with an unknown outcome or not. -/
def halted (n : Nat) (unknown : Bool) : State :=
  let s := train.put 0x8020 2 n
  { s with commit := { s.commit with unknown := unknown } }

theorem test_witness_requests :
    (∀ x ∈ [(0x3040, 2), (0x3040, 3), (0x3060, 1), (0x5040, 4), (0x8020, 3)],
      MayWrite State.reset .host x.1 x.2 ∧ MayWrite train .host x.1 x.2) ∧
      (∀ d ∈ [0, 2], train.faults.frondReset.contains d = false ∧ train.faults.clusterReset.contains d = false) ∧
      State.reset.running = false ∧ (halted 7 false).commitState = 7 ∧ (train.running = true ∧ train.commitState ≠ 7) ∧
      (MayWrite (halted 7 true) .host 0x8020 3 ∧ (halted 7 true).commitState = 7 ∧ (halted 7 true).commit.unknown = true) ∧
      (halted 4 true).commitState ≠ 7 ∧ (halted 7 false).commit.unknown = false := by unfold MayWrite; decide +kernel

/-- A filling member of module 9 in slice 3 whose committed record is of a CRC, with nothing to fill. -/
def restoring (crc : Nat) : State :=
  let s := (stopped 0).put 0x8020 2 6
  { s with locket := { s.locket with ownCommitted := Mem.writeN (Mem.writeN {} 0
    (leBytes 18 (0x544C3645 + 2 ^ 32 + 9 * 2 ^ 48 + 3 * 2 ^ 128))) 252 (leBytes 4 crc) } }

theorem test_witness_fill_ends :
    MayWrite (restoring 0) .host 0x8041 1 ∧ (restoring 0).commitState = 6 ∧ State.reset.commitState ≠ 6 ∧
      (restoring 0).restoreCheck = some (4, 0x544C3645, 0x544C3645) ∧ (restoring 0x48674BC7).restoreCheck = none ∧
      MayWrite (restoring 0) .host 0x8041 3 ∧ MayWrite (restoring 0) .host 0x8041 5 ∧ (restoring 0).dirCount 0 = 0 := by
  unfold MayWrite; decide +kernel

/-- Live update in a status, with a set in slot B that was committed or not. -/
def updating (status : Nat) (x : Option ImageSet := none) : State :=
  let s := (State.reset.put 0x9010 4 status).put 0x9010 2 512
  { s with security := { s.security with slotB := x } }

def setB (committed : Bool) : ImageSet :=
  { version := 1, svn := 1, key := 0, images := [], revoke := 0, bytes := [], committed := committed, made := false }

theorem test_witness_update_commands :
    (∀ n ∈ [0, 1, 2, 3, 4, 5, 6, 7, 0x80, 0x81, 0x82], MayWrite (updating n) .host 0x9010 3 ∧ (updating n).get 0x9010 4 = n) ∧
      [1, 3, 5].contains 5 = true ∧ [1, 3, 5].contains 6 = false ∧ [2, 4, 0x80, 0x81, 0x82].contains 6 = false ∧
      (updating 0).security.recovery = false ∧ (updating 0).get 0x9010 2 ≠ 0 ∧ (updating 6).maintenance = false ∧
      ((updating 6 (some (setB true))).slot (updating 6 (some (setB true))).otherSlot).isSome = true ∧
      ((updating 6).put 0x9001 1 1).maintenance = true ∧
      (((updating 6).put 0x9001 1 1).slot ((updating 6).put 0x9001 1 1).security.active).isSome = true ∧
      (setB false).revoke = 0 := by unfold MayWrite; decide +kernel

/-- A set under VERIFY or one that was verified, and an activation at a step. -/
def checking (set : List Byte) : State :=
  { updating 1 with security := { (updating 1).security with checking := some set } }

def installing : State := { updating 3 with security := { (updating 3).security with verified := some (setB false) } }

def activating (n : Nat) (clusters : List Nat) : State :=
  let s := updating 5 (some (setB true))
  { s with security := { s.security with activating := some (n, 1, true), directories := [(1, 0, true), (0, 0, false)] }, faults := { s.faults with clusterReset := clusters } }

/-- A set that passes rests on the key hashes, which are free; one of no bytes fails check 0x01. -/
theorem test_witness_update_ends :
    ((checking []).get 0x9010 4 = 1 ∧ (checking []).security.checking = some [] ∧
      (checking []).checkSet [] = .inr (1, (imageHeader []).type)) ∧
    (installing.get 0x9010 4 = 3 ∧ installing.security.verified = some (setB false) ∧ installing.security.recovery = false ∧
      installing.checkSet (setB false).bytes = .inr (1, (imageHeader []).type)) ∧
    (∀ n ∈ [1, 2, 3, 4, 5, 6, 7], (activating n []).security.activating = some (n, 1, true) ∧
      (activating n []).slot 1 = some (setB true)) ∧ (activating 3 []).security.loading = [] ∧
    (activating 5 [0]).faults.clusterReset.contains 0 = true ∧ (activating 5 []).faults.clusterReset.contains 0 = false ∧
    (activating 7 [1]).faults.clusterReset.contains 1 = true ∧ (activating 7 []).faults.clusterReset.contains 1 = false ∧
    (activating 7 []).security.directories.length = 2 := by
  decide +kernel

/-- A settings write in progress, a quote that forms, and factory test mode. -/
def saving : State := { State.reset with server := { State.reset.server with saving := some (none, none) } }

def forming : State := { State.reset with security := { State.reset.security with forming := some [1] } }

def factory : State := State.reset.put 0xA006 2 1

theorem test_witness_settings_and_quotes :
    (∀ sub ∈ [1, 2], MayWrite State.reset .host 0x1010 sub ∧ MayWrite saving .host 0x1010 sub) ∧ State.reset.server.saving.isNone = true ∧
      saving.server.saving.isSome = true ∧
      (MayWrite State.reset .host 0xA004 1 ∧ MayWrite forming .host 0xA004 1 ∧ (List.replicate 32 (1 : Byte)).length = 32 ∧
        State.reset.security.forming = none ∧ forming.security.forming = some [1] ∧ State.reset.security.serial.length = 16) ∧
      validUnit 0x40 = true := by unfold MayWrite; decide +kernel

theorem test_witness_saving : saving.server.saving = some (none, none) := rfl

theorem test_witness_factory_and_injection :
    (MayWrite State.reset .mgmt 0xA006 1 ∧ (!bit (State.reset.get 0x1006 1) 7 && !State.reset.running && State.reset.tokenOk []) = false) ∧
      (MayWrite factory .host 0xF010 1 ∧ factory.factory = true) ∧
      (∀ kind ∈ [0, 1, 2], (leBytes 16 (0x101 + kind * 2 ^ 24 + 2 ^ 64)).length = 16 ∧
        bits (leNat (leBytes 16 (0x101 + kind * 2 ^ 24 + 2 ^ 64))) 25 24 ≠ 3 ∧
        bits (leNat (leBytes 16 (0x101 + kind * 2 ^ 24 + 2 ^ 64))) 15 12 = 0 ∧
        bits (leNat (leBytes 16 (0x101 + kind * 2 ^ 24 + 2 ^ 64))) 31 26 = 0 ∧
        bits (leNat (leBytes 16 (0x101 + kind * 2 ^ 24 + 2 ^ 64))) 127 80 = 0 ∧
        bits (leNat (leBytes 16 (0x101 + kind * 2 ^ 24 + 2 ^ 64))) 79 64 ≠ 0) ∧
      (({ State.reset with faults := { State.reset.faults with injection := some (0x101, 0x40, 2, 0, 1) } } : State).faults.injection =
        some (0x101, 0x40, 2, 0, 0 + 1)) := by unfold MayWrite; decide +kernel

/-- A double-bit error injected into array A of Frond 1 poisons the granule that its next tile reads and is reported (R256, R364). -/
theorem test_injected_double_bit_error :
    let s := (factory.inject 0x202 0x11 1).strikeOp 0x11 0 (2 ^ 63 + 1024)
    s.mem.opPoison = [(1, 2)] ∧ s.faults.corrupt = [] ∧ s.faults.inFlight.map (fun r => (r.2.code, r.2.source)) = [(0x202, 0x11)] ∧
      (factory.inject 0x202 0x11 1).faults.inFlight = [] := by decide +kernel

/-- A repair of one row in a status of object 0x4041. -/
def repairing (live : Bool) (status : Nat) : State :=
  let r : Repair := { stack := 11, pc := 63, bank := 63, row := 0, rows := 1, hard := false, live := live }
  let s := State.reset.put 0x4041 1 status
  { s with mem := { s.mem with repair := some r, evacuated := if live then r.blocks else [] } }

theorem test_witness_repairs :
    MayWrite State.reset .host 0x4040 1 ∧ (repairing true 1).mem.repair.isSome = true ∧ State.reset.mem.repair = none ∧
      repairLegal (12 + 2 ^ 24) = false ∧
      (∀ w ∈ [0 + 2 ^ 24 + 2 ^ 65, 11 + 63 * 2 ^ 8 + 63 * 2 ^ 16 + 16 * 2 ^ 24 + 2 ^ 65], repairLegal w = true ∧ (repairOf w).live = true) ∧
      (repairLegal (2 ^ 24) = true ∧ (repairOf (2 ^ 24)).live = false ∧ State.reset.maintenance = false) ∧
      (∀ n ∈ [1, 2, 3], ((repairing true n).mem.repair.map (·.live)) = some true ∧ (repairing true n).get 0x4041 1 = n ∧
        (repairing true n).repairFrame = true ∧ ∀ r ∈ (repairing true n).mem.repair, r.blocks ⊆ (repairing true n).mem.evacuated) ∧
      ((repairing false 2).mem.repair.map (·.live)) = some false ∧ train.repairFrame = false := by unfold MayWrite; decide +kernel

/-! ### Nagauk -/

/-- Requests in the in-band ring: of a service on TAG 7, with the payload given. -/
def asked (service : Nat) (payload : List Byte) (s : State) : State :=
  { s with server := { s.server with ring := [(7 * 2 ^ 16 + service, payload)] } }

/-- The header of a READ or WRITE of an object, and of a SEG_INIT of a read. -/
def header (index sub : Nat) (rest : List Byte) : List Byte := leBytes 2 index ++ leBytes 1 sub ++ rest

theorem test_witness_services :
    (∀ p ∈ [(1, header 0x1000 2 [0, 0, 0, 0, 0], 0), (1, header 0x1000 3 [0, 0, 0, 0, 0], 0), (1, header 0x7777 1 [0, 0, 0, 0, 0], 1)],
      ((asked p.1 p.2.1 State.reset).requestOf .inBand).1 = some (ringRequest (7 * 2 ^ 16 + p.1, p.2.1)) ∧
      (ringRequest (7 * 2 ^ 16 + p.1, p.2.1)).clean = true ∧ (ringRequest (7 * 2 ^ 16 + p.1, p.2.1)).service = p.1 ∧
      State.reset.readStatus .host (ringRequest (7 * 2 ^ 16 + p.1, p.2.1)).index (ringRequest (7 * 2 ^ 16 + p.1, p.2.1)).sub = p.2.2) ∧
    (∀ p ∈ [(2, header 0x1000 2 [2, 1, 0, 0, 0, 9], 5), (2, header 0x2001 1 [3, 2, 0, 0, 0, 0xB8, 0x0B], 0)],
      (ringRequest (7 * 2 ^ 16 + p.1, p.2.1)).clean = true ∧ (ringRequest (7 * 2 ^ 16 + p.1, p.2.1)).service = 2 ∧
      State.reset.writeStatus .host (ringRequest (7 * 2 ^ 16 + p.1, p.2.1)).index (ringRequest (7 * 2 ^ 16 + p.1, p.2.1)).sub = p.2.2 ∧
      leNat (((ringRequest (7 * 2 ^ 16 + p.1, p.2.1)).payload.drop 4).take 2) ≤ (ringRequest (7 * 2 ^ 16 + p.1, p.2.1)).room ∧
      leNat (((ringRequest (7 * 2 ^ 16 + p.1, p.2.1)).payload.drop 4).take 2) ≤
        ((ringRequest (7 * 2 ^ 16 + p.1, p.2.1)).payload.drop 8).length) ∧
    (∀ k ∈ [5, 6], (ringRequest (7 * 2 ^ 16 + k, List.replicate 8 0)).clean = true ∧
      (ringRequest (7 * 2 ^ 16 + k, List.replicate 8 0)).service = k) ∧
    (∀ k ∈ [1, 2, 3, 4, 5, 6], (ringRequest (7 * 2 ^ 16 + k, List.replicate 7 0)).clean = false) ∧
    State.reset.serves = true ∧ dark.serves = false ∧ (State.reset.requestOf .inBand).1 = none := by decide +kernel

/-- A session of TAG 7, reading or writing, with data. -/
def session (key : Nat) (writing : Bool) (data : List Byte) : Session :=
  { inBand := true, key := key, role := .host, index := 0x5010, sub := 1, writing := writing, data := data, total := 9, seq := 3
    prev := none, idle := 0 }

def talking (l : List Session) : State := { State.reset with server := { State.reset.server with sessions := l } }

/-- The header of a SEG of a SEQ, with LAST, and the data it carries. -/
def part (seq last : Nat) (data : List Byte) : List Byte :=
  [0, BitVec.ofNat 8 seq, BitVec.ofNat 8 last, 0, BitVec.ofNat 8 data.length, 0, 0, 0] ++ data

theorem test_witness_sessions :
    ((ringRequest (7 * 2 ^ 16 + 3, header 0x1000 2 [0, 0, 0, 0, 0])).clean = true ∧
      (ringRequest (7 * 2 ^ 16 + 3, header 0x1000 2 [0, 0, 0, 0, 0])).byte 3 = 0 ∧
      State.reset.readStatus .host 0x1000 2 = 0) ∧
    (((talking ((List.range 16).map fun k => session (8 + k) false [])).endSession true 7).sessionsFull true = true ∧
      ((talking ((List.range 16).map fun k => session (7 + k) false [])).endSession true 7).sessionsFull true = false) ∧
    (∀ p ∈ [(false, List.replicate 228 (1 : Byte)), (false, List.replicate 229 (1 : Byte)), (true, [1])],
      (talking [session 7 p.1 p.2]).session true 7 = some (session 7 p.1 p.2)) ∧
    (ringRequest (7 * 2 ^ 16 + 4, part 3 0 [])).room = 228 ∧
    (∀ p ∈ [part 3 0 [2], part 3 1 [2]], (ringRequest (7 * 2 ^ 16 + 4, p)).clean = true ∧
      (ringRequest (7 * 2 ^ 16 + 4, p)).service = 4 ∧ (ringRequest (7 * 2 ^ 16 + 4, p)).byte 1 = (session 7 true [1]).seq ∧
      leNat (((ringRequest (7 * 2 ^ 16 + 4, p)).payload.drop 4).take 2) ≤ ((ringRequest (7 * 2 ^ 16 + 4, p)).payload.drop 8).length) ∧
    ((ringRequest (7 * 2 ^ 16 + 4, part 3 0 [2])).byte 2 = 0 ∧ (ringRequest (7 * 2 ^ 16 + 4, part 3 1 [2])).byte 2 ≠ 0 ∧
      (session 7 true [1]).data.length + 1 ≠ (session 7 true [1]).total) ∧
    (talking []).session true 7 = none := by decide +kernel

theorem test_witness_management :
    (∀ n ∈ [0, 63, 64], Arrives 17 (loose 0xD 1 (List.replicate 8 0)) (ofType 0xD)
      (looped (loose 0xD 1 (List.replicate 8 0)) { State.reset with server := { State.reset.server with ring := List.replicate n (0, []) } })
      (flitOf (loose 0xD 1 (List.replicate 8 0))) { State.reset with server := { State.reset.server with ring := List.replicate n (0, []) } }) ∧
    (mgmtOk (flitOf (loose 0xD 1 (List.replicate 8 0))) = true ∧ bit (flitOf (loose 0xD 1 (List.replicate 8 0))).addr 4 = false ∧
      bit (flitOf (loose 0xD 17 (List.replicate 8 0))).addr 4 = true ∧ mgmtOk (flitOf (loose 0xD 1 (List.replicate 7 0))) = false ∧
      mgmtOk (flitOf (loose 0xD 33 (List.replicate 8 0))) = false) ∧
    (bit (kget 0 State.reset.thallus.plicServing 1) 7 = false ∧ bit (kget 0 (serving 7).thallus.plicServing 1) 7 = true) ∧
    State.reset.server.busOff = false ∧
    ({ State.reset with server := { State.reset.server with busOff := true } } : State).server.busOff = true := by
  refine ⟨?_, by decide +kernel⟩
  simp only [List.mem_cons, List.not_mem_nil, or_false]
  rintro n (rfl | rfl | rfl) <;> exact loop_arrives rfl rfl (by decide +kernel)

/-! ### User contexts -/

/-- Context 4 runs on core 23, with a record of its own. -/
def inContext (u : UserCtx) : State :=
  let s := ((State.reset.put 0x6067 5 2).put 0x6063 5 (2 ^ 23)).setUctx 4 u
  { s.setCore 23 { tctx := 4 } with program := train.program }

/-- Core 23, of cluster E, outside reset, without a user thread: indexes of the board map that are empty, the module's own, and
another module's; accesses of every kind. -/
theorem test_witness_board_accesses :
    (∀ own ∈ [8, 9], (mapped own).faults.clusterReset.contains (23 / 8) = false ∧ ((mapped own).retire 23).caller 23 = none ∧
      ∀ a ∈ [0x400000, 15 * 2 ^ 41 + 8], ∀ n ∈ [1, 8], ((mapped own).retire 23).coreMay 23 (2 ^ 62 + a) n true = true ∧
        crosses a n = false) ∧
    crosses 0x40003F 2 = true ∧ (resetting [] [2]).faults.clusterReset.contains (23 / 8) = true ∧
    (∀ a ∈ [0x400000, 0x401000], ((inContext {}).retire 23).coreMay 23 (2 ^ 62 + a) 8 false = false) ∧
    (mapped 9).boardModule ((15 * 2 ^ 41 + 8) / 2 ^ 41) = 0xFFFF ∧
    ((mapped 9).boardModule (0x400000 / 2 ^ 41) ≠ 0xFFFF ∧ (mapped 9).boardModule (0x400000 / 2 ^ 41) = (mapped 9).moduleId) ∧
    ((mapped 8).boardModule (0x400000 / 2 ^ 41) ≠ 0xFFFF ∧ (mapped 8).boardModule (0x400000 / 2 ^ 41) ≠ (mapped 8).moduleId) ∧
    populated (0x400000 % 2 ^ 41) 8 = true ∧ populated (96000000000 % 2 ^ 41) 1 = false ∧
    (coreDie 23 = addressDie (stack 8 % 2 ^ 41) ∧ coreDie 0 = addressDie (0x400000 % 2 ^ 41)) ∧ 0x400004 % 2 ^ 41 % 4 = 0 := by
  decide +kernel

/-- Context 4 with a quota of 1 MiB, a queue, and pages in use. -/
def quotad (queue pages : List Nat) : State := (inContext { queue := queue, pages := pages }).put 0x6064 5 1

/-- Rings of die 2 with room and without, MBOX_RECV within the quota of 1 MiB and over it, with an entry, without one, and a wait that
has ended. -/
theorem test_witness_calls :
    CallsFrom (inContext {}) 23 4 ∧ 4 ≤ bits (0x40000000#32).toNat 31 28 ∧ bits (0x30000000#32).toNat 31 28 < 4 ∧
      ((inContext {}).setBox 2 { ring := List.replicate 255 0 }).boxFull 2 = false ∧
      ((inContext {}).setBox 2 { ring := List.replicate 256 0 }).boxFull 2 = true ∧
      CallsFrom ((inContext {}).setBox 2 { ring := List.replicate 256 0 }) 23 4 ∧
      (∀ q ∈ [[9], []], CallsFrom (quotad q []) 23 4 ∧ (quotad q []).mappingAt 4 0x1000 = none ∧ ((quotad q []).uctx 4).queue = q ∧
        ((quotad q []).uctx 4).used + 4096 * (((quotad q []).uctx 4).newPages 0x1000 16).length ≤ (quotad q []).ctxObject 0x6064 4 * 2 ^ 20) ∧
      (CallsFrom (quotad [] (List.range 256)) 23 4 ∧ (quotad [] (List.range 256)).mappingAt 4 0x100000 = none ∧
        (quotad [] (List.range 256)).ctxObject 0x6064 4 * 2 ^ 20 <
          ((quotad [] (List.range 256)).uctx 4).used + 4096 * (((quotad [] (List.range 256)).uctx 4).newPages 0x100000 16).length) ∧
      (inContext { threads := [(23, { waiting := some (0x1000, 5) })] }).expired 23 = some 4 := by unfold CallsFrom; decide +kernel

/-- An entry for a destination heads the ring of die 0; context 4 runs, with a number of entries in its queue. -/
def popped (dest n : Nat) : State := (inContext { queue := List.replicate n 0 }).setBox 0 { ring := [dest * 2 ^ 28] }

theorem test_witness_pop :
    (∀ p ∈ [(0, 0), (3, 0), (4, 255), (4, 256), (15, 0)], ((popped p.1 p.2).box 0).ring = p.1 * 2 ^ 28 :: [] ∧
      bits (p.1 * 2 ^ 28) 31 28 = p.1 ∧ ((popped p.1 p.2).uctx 4).queue.length = p.2) ∧
      (popped 4 255).ctxState 4 = 2 ∧ (popped 15 0).ctxState 15 ≠ 2 ∧ (popped 4 255).waiter 4 = none ∧
      (State.reset.box 2).ring = [] := by decide +kernel

/-- Context 4 with grants of one page each, the first mapped at 0x1000, the last over the descriptor directory. -/
def granted : State :=
  State.put (inContext { grants := [(0x400000, 0x1000, true), (0x401000, 0x1000, true), (0x3000, 0x1000, true)], maps := [(0x1000, 0)] }) 0x6010 3 1

theorem test_witness_maps :
    CallsFrom granted 23 4 ∧ (granted.uctx 4).grants[3]? = none ∧ (granted.uctx 4).grants[1]? = some (0x401000, 0x1000, true) ∧
      (granted.grantLocal 0x401000 = some 0x401000 ∧ granted.streamPage 0x401000 0x1000 = false) ∧
      ((granted.uctx 4).grants[2]? = some (0x3000, 0x1000, true) ∧ granted.grantLocal 0x3000 = some 0x3000 ∧
        granted.streamPage 0x3000 0x1000 = true) ∧
      (∀ va ∈ [0x0, 0x2000], va % 4096 = 0 ∧ ∀ m ∈ (granted.uctx 4).maps, ∀ h ∈ (granted.uctx 4).grants[m.2]?,
        overlaps m.1 h.2.1 va 0x1000 = false) ∧ 0x1001 % 4096 ≠ 0 ∧ (∃ m ∈ (granted.uctx 4).maps, m.1 = 0x1000) ∧
      ∀ m ∈ (granted.uctx 4).maps, m.1 ≠ 0x2000 := by unfold CallsFrom; decide +kernel

/-- Context 4 may submit slots of table 0, whose alternate slot lies at 0x600000. -/
def submitting : State := poke 0x4008 8 0x600000 ((inContext {}).put 0x6062 5 0)

theorem test_witness_submit_and_end :
    CallsFrom submitting 23 4 ∧ submitting.program.kind ≠ 0 ∧ submitting.slotPending 0 = false ∧ submitting.mappingAt 4 0x1000 = none ∧
      submitting.slotCheck 4 0 0 0 [] = some 1 ∧
      ({ submitting with domains := { submitting.domains with tableSets := [(4, [1])] } } : State).slotCheck 4 0 1 100 [0] = none ∧
      populated (submitting.alternateBase 0) 64 = true ∧ (inContext {}).ctxObject 0x6061 4 ≠ 1 ∧
      (CallsFrom ((inContext {}).put 0x6061 5 1) 23 4 ∧ ((inContext {}).put 0x6061 5 1).ctxObject 0x6061 4 = 1) := by
  unfold CallsFrom; decide +kernel

/-! ### Power, temperature and JTAG -/

/-- A hundred input samples of a power in mW, with a number of them in a row over the cap. -/
def sampled (n mw : Nat) : State :=
  { State.reset with power := { State.reset.power with samples := List.replicate 100 mw, overCap := n } }

theorem test_witness_power :
    State.reset.power.on = true ∧ dark.power.on = false ∧ (sampled 10 0).limiterDue = true ∧ (sampled 9 0).limiterDue = false ∧
      (3800000 < meanPower ((63000 * 61000 / 1000 :: (sampled 0 3800000).power.samples).take 100) ∧
        meanPower (sampled 0 3800000).power.samples ≤ 3800000) ∧
      meanPower ((50000 * 60000 / 1000 :: (sampled 0 3800000).power.samples).take 100) ≤ 3800000 := by decide +kernel

/-- A sensor last read a temperature in sixteenths of a degree. -/
def warm (n t : Nat) : State := State.reset.put 0x2030 (n + 1) t

/-- A rail in droop. -/
def drooping (r : Nat) : State := { State.reset with power := { State.reset.power with drooping := [r] } }

theorem test_witness_rails_and_temperature :
    (State.reset.power.drooping.contains 8 = false ∧ (drooping 8).power.drooping.contains 8 = true) ∧
      (∀ n ∈ [0, 23], signed 16 ((warm n 1679).get 0x2030 (n + 1)) < 1680 ∧
        1680 ≤ signed 16 ((warm n 1680).get 0x2030 (n + 1)) ∧ signed 16 ((warm n 1839).get 0x2030 (n + 1)) < 1840 ∧
        (warm n 1839).faults.replay = none) ∧
      (∀ n ∈ [24, 35], signed 16 ((warm n 1599).get 0x2030 (n + 1)) < 1600) ∧
      (State.reset.running = false ∧ 1250 < State.reset.agedMaximum (objKey 0x2005 4)) := by decide +kernel

theorem test_witness_jtag :
    State.reset.security.jtag.length = 3 ∧ State.reset.security.shift.length = 3 ∧ State.reset.moduleState ≠ 3 ∧
      train.moduleState = 3 := by decide +kernel

/-! ### The manual's worked values -/

/-- The state a command answers. -/
def after (c : Instr) (s : State) : State :=
  match exec c s with
  | .next t => t
  | .fault _ => s
  | .refused _ => s

/-- The check value of CRC-32C, and the products of the memory chapter's and the resilience chapter's examples. -/
theorem test_crc_and_field :
    crc32c [0x31, 0x32, 0x33, 0x34, 0x35, 0x36, 0x37, 0x38, 0x39] = 0xE3069283#32 ∧
      (0x55#8 ^^^ gfMul 0x02 0x80) = 0x48#8 ∧ gfMul 0x40 0x07 = 0xDD#8 ∧ gfMul 0x80 0x08 = 0x74#8 := by decide +kernel

/-- Table 6.4: the draw of one element, and the value it stores. -/
theorem test_draw :
    draw 0x0000000700001000 0x203 12 0x40 0 = 0xCB19 ∧
      mix 0x00001203#32 = 0xE9AAAE94#32 ∧ mix 0xE9AAAE97#32 = 0x4EB366F2#32 := by decide +kernel

/-- The three update operations of the update chapter's example. -/
theorem test_update_operations :
    (updateOpOf 0x00A50441 = { word := 0x00A50441, op := 1, d := 1, a := 1, b := 4, c := 9, as_ := false, bs := true, cs := false, k := 0 }) ∧
      ((updateOpOf 0x0000000A).op = 0x0A ∧ (updateOpOf 0x0000000A).ok = true) ∧
      ((updateOpOf 0x01F5D80C).a = 6 ∧ (updateOpOf 0x01F5D80C).b = 7 ∧ (updateOpOf 0x01F5D80C).c = 13 ∧ (updateOpOf 0x01F5D80C).ok = true) ∧
      ((updateOpOf 0x03F9D80C).c = 14 ∧ (updateOpOf 0x03F9D80C).k = 1 ∧ (updateOpOf 0x03F9D80C).ok = true) := by decide +kernel

/-- The bundle of the frames chapter's example, and the POST of the Thallus chapter's. -/
theorem test_bundle :
    (bundleOf (0x0000002503001000 + 0x2901020001000140 * 2 ^ 64 + 0x1101110001000141 * 2 ^ 128 + 0x1901110001000142 * 2 ^ 192)
        0 0x1000 none).commands.map (fun c => (c.1, c.2.unit, c.2.dur, c.2.arg.toNat, c.2.seq, c.2.slot)) =
      [(1, 0x29, 512, 0x1000140, 0x25, 1), (1, 0x11, 4352, 0x1000141, 0x25, 2), (1, 0x19, 4352, 0x1000142, 0x25, 3)] ∧
    leBytes 8 0x0000002503001000 = [0x00, 0x10, 0x00, 0x03, 0x25, 0x00, 0x00, 0x00] ∧
    (issueOf (bundleOf 0 6 0 none) 0x7101000060000021 1).2.arg = 0x60000021#32 ∧
    (issueOf (bundleOf 0 6 0 none) 0x7101000060000021 1).2.unit = 0x71 := by decide +kernel

/-- The local address of the memory chapter's example, and the reserve of the default frame. -/
theorem test_address_and_reserve :
    stackOf 0xA123456600 = 5 ∧ stackOffset 0xA123456600 = 0x123456600 ∧ addressDie 0xA123456600 = 1 ∧
      translation 0xA123456600 = packFields [(8, 5), (8, 0x23), (8, 5), (32, 1165)] ∧
      State.reset.reserveCycles 65536 = 983 ∧ State.reset.reserveCycles 49152 = 737 := by decide +kernel

/-- Node 0x21 answers the READ of the management chapter's example: identifier 0x0E21_5092, 2,741 W, padded to 12 bytes. -/
theorem test_nagauk_read :
    (after (.nagaukRead (.can 0x0C284292 [0x02, 0x20, 0x01, 0, 0, 0, 0, 0]))
      ((State.reset.put 0x1003 1 0x21).put 0x2002 1 2741)).server.canOut =
    [(0x0E215092, [0, 3, 2, 0, 0, 0, 0, 0, 0xB5, 0x0A, 0, 0])] := by decide +kernel

/-- The masks of PALETTE 0xC953 of the sparse chapter's example: group 0 takes the first and group 1 the second. -/
theorem test_palette :
    groupPositions 1 0xC953 0 0 = [0, 1] ∧ groupPositions 1 0xC953 4 1 = [0, 2] ∧ groupPositions 1 0xC953 2 0 = [0, 3] ∧
      groupPositions 1 0xC953 3 0 = [2, 3] := by decide +kernel

/-! ### What a command does, on small states -/

/-- The tag that is shadow in both arrays is active in both when SWAP ends (R70). -/
theorem test_swap_exchanges :
    let s := (swapped 0).setArray 0x18 { (swapped 0).array 0x18 with shadow := { ((swapped 0).array 0x18).shadow with tag := some (7, op 0) } }
    ((after (.swapComplete 0) s).array 0x18).active.tag = some (7, op 0) ∧
      ((after (.swapComplete 0) s).array 0x18).shadow.tag = ((swapped 0).array 0x18).active.tag := by decide +kernel

/-- Data on its way to die W's store is there when it lands, its second byte too, and nowhere else. -/
theorem test_data_lands :
    let p : Packet := { unit := 0x40, ctx := 0, cls := 0, frame := 0, cycle := 0, die := 0, own := true, at_ := 0, to_ := 0
                        data := [0x5A, 0x5B], poison := false, deed := .store 0 0x200 }
    (train.perform p).opRead 0 0x1FF 4 = [0, 0x5A, 0x5B, 0] ∧ (train.perform p).opRead 1 0x200 1 = [0] := by decide +kernel

theorem test_illegal_command_is_reported :
    (after (.halt (cmd 0 1)) train).faults.inFlight.map (·.2.code) = [0x303] ∧
      (after (.halt (cmd 0 1)) train).program.stopping = none := by decide +kernel

theorem test_busy_unit_makes_wait :
    ((after (.read (use 0x40 2)) (working 0x40 1 (withDesc 2 (xferD 0 (op 0) 1 0) train))).unit 0x40).waiting.length = 1 := by
  decide +kernel

theorem test_quarantined_command_is_counted :
    after (.nop (cmd 0 0)) (train.put 0x3050 3 1) = (train.put 0x3050 3 1).count 0x3050 4 1 := by decide +kernel

/-- The POST of the Thallus chapter's example is readable in the cycle after, with PLIC source 1 pending. -/
theorem test_post_is_readable_next_cycle :
    let s := after (.post (cmd 0x71 0x60000021)) train
    ((s.box 1).ring, (s.box 1).landing.map fun e => bits e 31 0) = ([], [0x60000021]) ∧
      ((s.mailCycle 1).box 1).ring.map (fun e => bits e 31 28) = [6] ∧ bit (kget 0 (s.mailCycle 1).thallus.plic 1) 1 = true := by
  decide +kernel

theorem test_idcode : (after (.idcode 2) State.reset).security.shift = [0xB0E60C51, 0xB0E61C51, 0xB0E62C51] := by decide +kernel

theorem test_queue_runs_front_first :
    step { State.reset with pending := [.inputRange 66000, .powerUp] } =
      exec (.inputRange 66000) { State.reset with pending := [.powerUp] } := rfl

/-! ### Decoding, and terms that are not well formed -/

/-- No row of the opcode table gives bits. -/
theorem test_no_word_decodes : decodeTableWord 64 0x2901020001000140 = none ∧ State.reset.withFetchWord 8 1 = State.reset := ⟨rfl, rfl⟩

theorem test_well_formed :
    (Instr.matmul (use 0x1A 1)).wf = true ∧ (Instr.read (use 0x4B 2)).wf = true ∧ (Instr.idleReceive 16 (wire 0 0 [])).wf = true ∧
      (Instr.thermalSample 35 (-32768)).wf = true ∧ (Instr.seal (cmd 0x78 0)).wf = true := by decide +kernel

/-- Fields of a command word and of a bundle, and the units of each class. -/
theorem test_ill_formed_commands :
    ([.nop (cmd 256 0), .nop (cmd 0 0 65536), .nop { cmd 0 0 with ctx := 16 }, .nop { cmd 0 0 with seq := 65536 },
      .nop { cmd 0 0 with slot := 0 }, .nop { cmd 0 0 with slot := 8 },
      .nop { cmd 0 0 with tbl := some { table := 256, slotB := false, callSeq := 0 } },
      .nop { cmd 0 0 with tbl := some { table := 0, slotB := false, callSeq := 65536 } }, .nop (cmd 1 0), .matmul (cmd 0x13 0),
      .matmul (cmd 0x1B 0), .spmm (cmd 0x23 0), .loadw (cmd 0x2B 0), .kernel (cmd 0x33 0), .read (cmd 0x4C 0), .portSend (cmd 0x60 0),
      .stavlinkSend (cmd 0x61 0), .post (cmd 0x73 0), .seal (cmd 0x79 0), .phase (cmd 0x7D 0), .fence (cmd 0x7E 0)] : List Instr).all
      (fun c => !c.wf) = true := by decide +kernel

/-- Units, dies, contexts, ports and flits of the events. -/
theorem test_ill_formed_events :
    ([.pendingCommandStart 128, .swapComplete 3, .fenceComplete 16, .bridgeFail true true (2 ^ 32) 0, .creditReceive 17 (loose 12 1 []),
      .creditReceive 0 [1], .linkDegraded 17, .boardLoadTimeout 65536, .faultReport { report 4096 0 0 with die := 1 },
      .faultReport (report 1 256 0), .faultReport { report 1 0 0 with die := 3 }, .faultReport { report 1 0 0 with ctx := 16 },
      .faultReport { report 1 0 0 with frame := 2 ^ 48 }, .faultReport (report 1 0 (2 ^ 20)),
      .faultReport { report 1 0 0 with detail := 2 ^ 384 }, .yield 24, .boardSpaceAccess 24 0 (.load 1), .boardSpaceAccess 0 (2 ^ 46) (.load 1),
      .boardSpaceAccess 0 0 (.load 0), .boardSpaceAccess 0 0 (.load 237), .boardSpaceAccess 0 0 (.store []),
      .boardSpaceAccess 0 0 (.amo 9 true 0), .droop 9, .overcurrent 18 0, .overcurrent 0 (2 ^ 24), .thermalSample 36 0,
      .thermalSample 0 32768, .thermalSample 0 (-32769), .coefficientRecalibration [1], .ageingCheck [], .inputRange (2 ^ 24),
      .powerSample (2 ^ 24) 0 [], .powerSample 0 0 (List.replicate 19 (0, 0)),
      .stitchComplete [{ plainJob with tensor := 2 ^ 32 }]] : List Instr).all (fun c => !c.wf) = true := by decide +kernel

/-- Calls of user contexts, writes of objects, and Nagauk messages. -/
theorem test_ill_formed_requests :
    ([.map 24 0 0, .map 0 255 0, .map 0 0 (2 ^ 48), .unmap 0 (2 ^ 48), .mboxRecv 0 (2 ^ 48) 0, .mboxSend 0 3 0, .slotSubmit 0 256 0 1 1,
      .slotSubmit 0 0 (2 ^ 48) 1 1, .slotStatus 0 256, .log 0 0 257, .log 0 (2 ^ 48) 1, .resume .host 256, .storeSettings .host (2 ^ 32),
      .holdStep .host (2 ^ 64), .attestationNonce .host [], .repairRequest .host [], .registerWrite .host 65536 1 3 [],
      .registerWrite .host 1 256 3 [], .registerWrite .host 1 1 256 [], .nagaukRead (.can (2 ^ 29) []),
      .nagaukRead (.can 0 (List.replicate 65 0)), .sessionTimeout true 65536] : List Instr).all (fun c => !c.wf) = true := by decide +kernel

end Sys2Proof.Tests
end

section
/-! The local address map (R245). -/

namespace Sys2Proof.Machine

/-- R245, R252: a range is populated when its stack is one of the twelve and its end lies within the stack's bytes. -/
theorem populated_iff (a len : Nat) :
    populated a len = true ↔ stackOf a < 12 ∧ stackOffset a + len ≤ stackBytes := by
  simp only [populated, Bool.and_eq_true, decide_eq_true_eq]

/-- A range of one byte ends within the stack exactly when its offset lies below the stack's size. -/
theorem populated_byte_iff (a : Nat) :
    populated a 1 = true ↔ stackOf a < 12 ∧ stackOffset a < stackBytes := by
  rw [populated_iff, Nat.add_one_le_iff]

/-- Settles O46: the stack and the offset are quotient and remainder by 2^37, and the populated byte addresses are those
of `populated_byte_iff`. -/
theorem localAddressMap : Obligations.LocalAddressMap := by
  unfold Obligations.LocalAddressMap
  intro a _
  have hstack : stackOf a = a / 2 ^ 37 := rfl
  have hoffset : stackOffset a = a % 2 ^ 37 := rfl
  have hpopulated : populated a 1 = true ↔ a / 2 ^ 37 < 12 ∧ a % 2 ^ 37 < 96000000000 := populated_byte_iff a
  have hdie : addressDie a = a / 2 ^ 37 / 4 := rfl
  exact ⟨hstack, hoffset, hpopulated, fun _ => hdie⟩

end Sys2Proof.Machine
end

section
/-! Subindex 0 of the dictionary's indices (R386). -/

namespace Sys2Proof.Machine

/-- The subindices at which a row of the object tables, or a fault code's action or occurrence object, ends at an index. -/
def objEnds (index : Nat) : List Nat :=
  (objRows.filter fun (r : ObjRow) => r.index == index).map ObjRow.last ++
  (faultRows.filter fun (f : FaultRow) => f.code / 256 + 0x3010 == index || f.code / 256 + 0x3020 == index).map
    fun (f : FaultRow) => f.code % 256

theorem mem_objEnds {index sub : Nat} : sub ∈ objEnds index ↔
    (∃ r ∈ objRows, r.index = index ∧ r.last = sub) ∨
    ∃ f ∈ faultRows, (f.code / 256 + 0x3010 = index ∨ f.code / 256 + 0x3020 = index) ∧ f.code % 256 = sub := by
  simp [objEnds, and_assoc]

/-- The highest subindex is the maximum of 0 and the ends. -/
theorem max?_objEnds (index : Nat) : (0 :: objEnds index).max? = some (objHighest index) := List.max?_cons'

/-- An index in use has an end at its highest subindex. -/
theorem objHighest_mem_objEnds {index : Nat} (h : objHighest index ≠ 0) : objHighest index ∈ objEnds index := by
  obtain ⟨hmem, -⟩ := List.max?_eq_some_iff.1 (max?_objEnds index)
  exact (List.mem_cons.1 hmem).resolve_left h

/-- No end lies above the highest subindex. -/
theorem le_objHighest_of_mem_objEnds {index sub : Nat} (h : sub ∈ objEnds index) : sub ≤ objHighest index := by
  obtain ⟨-, hle⟩ := List.max?_eq_some_iff.1 (max?_objEnds index)
  exact hle sub (List.mem_cons_of_mem _ h)

/-- No row of the object tables is empty. -/
theorem objRows_first_le_last : ∀ r ∈ objRows, r.first ≤ r.last := by decide +kernel

/-- The codes of Table 13.2 are of the classes 1 to 4. -/
theorem faultRows_class : ∀ f ∈ faultRows, 1 ≤ f.code / 256 ∧ f.code / 256 ≤ 4 := by decide +kernel

/-- The code of an action or occurrence object is that of its row. -/
theorem faultOfObject_code {base index sub : Nat} {f : FaultRow} (hsub : sub < 2 ^ 8)
    (h : faultOfObject base index sub = some f) :
    f ∈ faultRows ∧ f.code / 256 + base = index ∧ f.code % 256 = sub := by
  unfold faultOfObject at h
  split at h
  · have hcode : f.code = (index - base) * 256 + sub := by simpa using List.find?_some h
    exact ⟨List.mem_of_find?_eq_some h, by omega, by omega⟩
  · cases h

/-- Every fault code has an object on each of the two bases. -/
theorem faultOfObject_isSome {base : Nat} {f : FaultRow} (hf : f ∈ faultRows) :
    (faultOfObject base (f.code / 256 + base) (f.code % 256)).isSome = true := by
  obtain ⟨hlow, hhigh⟩ := faultRows_class f hf
  have hcode : (f.code / 256 + base - base) * 256 + f.code % 256 = f.code := by omega
  rw [faultOfObject, if_pos (by omega), hcode, faultRow, List.find?_isSome]
  exact ⟨f, hf, beq_self_eq_true _⟩

/-- An object has a row as one of the fault codes, or as part of a row of the object tables. -/
theorem objRow_isSome_iff (index sub : Nat) :
    (objRow index sub).isSome = true ↔
      (faultOfObject 0x3010 index sub).isSome = true ∨ (faultOfObject 0x3020 index sub).isSome = true ∨
      ∃ r ∈ objRows, r.index = index ∧ r.first ≤ sub ∧ sub ≤ r.last := by
  unfold objRow
  cases faultOfObject 0x3010 index sub with
  | some f => simp
  | none =>
    cases faultOfObject 0x3020 index sub with
    | some f => simp
    | none => simp [and_assoc]

/-- An end is an object's subindex. -/
theorem objRow_isSome_of_mem_objEnds {index sub : Nat} (h : sub ∈ objEnds index) : (objRow index sub).isSome = true := by
  rw [objRow_isSome_iff]
  obtain ⟨r, hr, rfl, rfl⟩ | ⟨f, hf, rfl | rfl, rfl⟩ := mem_objEnds.1 h
  · exact .inr (.inr ⟨r, hr, rfl, objRows_first_le_last r hr, le_rfl⟩)
  · exact .inl (faultOfObject_isSome hf)
  · exact .inr (.inl (faultOfObject_isSome hf))

/-- An object lies at or under an end. -/
theorem exists_mem_objEnds_of_objRow {index sub : Nat} (hsub : sub < 2 ^ 8) (h : (objRow index sub).isSome = true) :
    ∃ last ∈ objEnds index, sub ≤ last := by
  rw [objRow_isSome_iff] at h
  simp only [Option.isSome_iff_exists] at h
  obtain ⟨f, hf⟩ | ⟨f, hf⟩ | ⟨r, hr, hindex, -, hlast⟩ := h
  · obtain ⟨hmem, hindex, hcode⟩ := faultOfObject_code hsub hf
    exact ⟨sub, mem_objEnds.2 (.inr ⟨f, hmem, .inl hindex, hcode⟩), le_rfl⟩
  · obtain ⟨hmem, hindex, hcode⟩ := faultOfObject_code hsub hf
    exact ⟨sub, mem_objEnds.2 (.inr ⟨f, hmem, .inr hindex, hcode⟩), le_rfl⟩
  · exact ⟨r.last, mem_objEnds.2 (.inl ⟨r, hr, hindex, rfl⟩), hlast⟩

/-- No object lies above the highest subindex. -/
theorem objRow_above_highest {index sub : Nat} (habove : objHighest index < sub) (hsub : sub < 2 ^ 8) :
    objRow index sub = none := by
  by_contra hrow
  obtain ⟨last, hend, hle⟩ := exists_mem_objEnds_of_objRow hsub (Option.isSome_iff_ne_none.2 hrow)
  exact absurd (hle.trans (le_objHighest_of_mem_objEnds hend)) (by omega)

/-- Outside recovery both roles may read subindex 0 of an index in use. -/
theorem State.readStatus_zero {s : State} {index : Nat} (role : Role) (huse : objHighest index ≠ 0)
    (hrec : s.security.recovery = false) : s.readStatus role index 0 = 0 := by
  simp [State.readStatus, huse, hrec]

/-- Outside recovery a write of subindex 0 of an index in use is refused with READ_ONLY. -/
theorem State.writeStatus_zero {s : State} {index : Nat} (role : Role) (huse : objHighest index ≠ 0)
    (hrec : s.security.recovery = false) : s.writeStatus role index 0 = 5 := by
  simp [State.writeStatus, huse, hrec]

/-- Settles O45: the highest subindex is the greatest end, so it has an object and none lies above it. -/
theorem subindexZeroGivesTheHighest : Obligations.SubindexZeroGivesTheHighest := by
  unfold Obligations.SubindexZeroGivesTheHighest
  intro role index s _ huse hrec
  have htype : objType index 0 = 2 := rfl
  have hvalue : s.readValue index 0 = leBytes 1 (objHighest index) := rfl
  exact ⟨htype, s.readStatus_zero role huse hrec, hvalue, s.writeStatus_zero role huse hrec,
    objRow_isSome_of_mem_objEnds (objHighest_mem_objEnds huse), fun _ habove hsub => objRow_above_highest habove hsub⟩

end Sys2Proof.Machine
end

section
/-! Maintenance mode (R409): how it is entered and left, and what it refuses and accepts. -/

namespace Sys2Proof.Machine

open Sys2Proof.Safety

/-! ### Object 0x9001.01 -/

/-- Maintenance mode is read from the dictionary alone. -/
theorem State.maintenance_of_dict {s t : State} (h : t.dict = s.dict) : t.maintenance = s.maintenance := by
  rw [State.maintenance, State.maintenance, State.get, State.get, h]

theorem State.put_maintenance_same (s : State) (v : Nat) : (s.put 0x9001 1 v).maintenance = (v == 1) := by
  rw [State.maintenance, State.put_get_same]

theorem State.put_maintenance_other (s : State) {index sub : Nat} (v : Nat) (h : objKey index sub ≠ objKey 0x9001 1) :
    (s.put index sub v).maintenance = s.maintenance := by
  rw [State.maintenance, State.maintenance, State.put_get_other _ _ _ _ h.symm]

theorem State.count_maintenance_other (s : State) {index sub : Nat} (n : Nat) (h : objKey index sub ≠ objKey 0x9001 1) :
    (s.count index sub n).maintenance = s.maintenance := s.put_maintenance_other _ h

/-! ### Entry and leaving -/

/-- What a write of a value of the object's type does (R409). -/
theorem exec_maintenanceMode {role : Role} {v : Nat} {s : State} (h : MayWrite s role 0x9001 1) (hv : v < 256) :
    exec (.maintenanceMode role v) s = .next ((maintenanceMode v s).1.counted (maintenanceMode v s).2) :=
  congrArg Host.Outcome.next (State.command_may maintenanceMode h (hv.trans_eq (by decide +kernel)))

theorem maintenanceMode_zero (s : State) : maintenanceMode 0 s = (s.put 0x9001 1 0, 0) := rfl

theorem maintenanceMode_one_idle {s : State} (h : s.running = false) : maintenanceMode 1 s = (s.put 0x9001 1 1, 0) := by
  simp [maintenanceMode, h]

theorem maintenanceMode_one_running {s : State} (h : s.running = true) : maintenanceMode 1 s = (s, 0x0D) := by
  simp [maintenanceMode, h]

theorem maintenanceMode_other {v : Nat} (s : State) (h : 2 ≤ v) : maintenanceMode v s = (s, 0x07) := by
  rw [maintenanceMode, if_neg (by omega), if_pos (by omega)]

/-! ### What it refuses and accepts -/

/-- The first check of START fails in maintenance mode. -/
theorem State.startReason_maintenance {s : State} (h : s.maintenance = true) (header : Nat) :
    s.startReason header = 0x50D := if_pos h

/-- START in maintenance mode is refused, with its reason in object 0x6010.04. -/
theorem startProgram_maintenance {s : State} (hmode : s.maintenance = true) (hidle : s.running = false) :
    startProgram s = ((s.put 0x6010 3 0x80).put 0x6010 4 0x50D, 0x07) := by
  have hreason : ({ s with program := { programOf (s.hbmLE (s.get 0x6010 1) 64) with clearing := s.program.clearing } } :
      State).startReason (s.hbmLE (s.get 0x6010 1) 64) = 0x50D := by
    apply State.startReason_maintenance
    exact hmode
  simp only [startProgram, hidle, Bool.false_eq_true, if_false, hreason]

/-- In maintenance mode a legal repair that is not live begins, where none is under way (R267). -/
theorem requestRepair_maintenance {s : State} {request : List Byte} (hmode : s.maintenance = true)
    (hidle : s.running = false) (hfree : s.mem.repair = none) (hlen : request.length = 16)
    (hlegal : repairLegal (leNat request) = true) (hlive : (repairOf (leNat request)).live = false) :
    requestRepair request s =
      ({ s with mem := { s.mem with repair := some (repairOf (leNat request)) } }.put 0x4041 1 2, 0) := by
  simp [requestRepair, hmode, hidle, hfree, hlen, hlegal, hlive]

/-- A request without the bit of a live repair is not live. -/
theorem repairOf_live_false {w : Nat} (h : bit w 65 = false) : (repairOf w).live = false := by
  simp [repairOf, h]

/-! ### A module reset -/

/-- Writes of listed keys leave every other key, whatever defaults the keys have. -/
theorem kget_foldl_kset_other {l : KMap Nat} {key : Nat} (h : ∀ p ∈ l, p.1 ≠ key) (e : Nat) (d : Nat → Nat) (m : KMap Nat) :
    kget e (l.foldl (fun m p => kset (d p.1) m p.1 p.2) m) key = kget e m key := by
  induction l generalizing m with
  | nil => rfl
  | cons p t ih =>
    rw [List.foldl_cons, ih fun q hq => h q (List.mem_cons_of_mem _ hq)]
    exact kget_kset_other_at e _ m p.2 (h p List.mem_cons_self).symm

/-- A walk whose every step leaves maintenance mode as it is leaves it so. -/
theorem foldl_maintenance {α : Type} {l : List α} {f : State → α → State}
    (h : ∀ x ∈ l, ∀ s, (f s x).maintenance = s.maintenance) (s : State) : (l.foldl f s).maintenance = s.maintenance := by
  induction l generalizing s with
  | nil => rfl
  | cons x t ih => rw [List.foldl_cons, ih fun y hy => h y (List.mem_cons_of_mem _ hy), h x List.mem_cons_self]

/-- One such step: an entry of another object goes into the dictionary. -/
theorem State.kset_maintenance_other (s : State) {p : Nat × Nat} (d : Nat) (h : p.1 ≠ objKey 0x9001 1) :
    ({ s with dict := kset d s.dict p.1 p.2 } : State).maintenance = s.maintenance := by
  have hget : kget (objDefault (objKey 0x9001 1)) (kset d s.dict p.1 p.2) (objKey 0x9001 1) = s.get 0x9001 1 :=
    kget_kset_other_at _ d s.dict p.2 h.symm
  exact congrArg (· == 1) hget

/-- Where no setting of it is stored, the dictionary after a reset gives object 0x9001.01 its default (R354, R409). -/
theorem State.dictAfter_maintenance {s : State} (h : ∀ p ∈ s.server.stored.getD [], p.1 ≠ objKey 0x9001 1) :
    kget (objDefault (objKey 0x9001 1)) s.dictAfter (objKey 0x9001 1) = 0 := by
  have hkept : ∀ p ∈ s.dict.filter fun p => keptObject p.1, p.1 ≠ objKey 0x9001 1 := by
    intro p hp hkey
    have hnot : keptObject (objKey 0x9001 1) = false := by decide
    simp [hkey, hnot] at hp
  have hdefault : objDefault (objKey 0x9001 1) = 0 := by decide +kernel
  rw [State.dictAfter, kget_foldl_kset_other h, kget_absent _ hkept, hdefault]

theorem State.cleared_maintenance {s : State} (h : ∀ p ∈ s.server.stored.getD [], p.1 ≠ objKey 0x9001 1) :
    s.cleared.maintenance = false :=
  congrArg (· == 1) (s.dictAfter_maintenance h)

theorem State.takeMaxima_maintenance {s : State} (h : ∀ p ∈ s.power.maxima, p.1 ≠ objKey 0x9001 1) :
    s.takeMaxima.maintenance = s.maintenance :=
  foldl_maintenance (fun _ hp t => t.kset_maintenance_other _ (h _ hp)) _

theorem State.trainPorts_maintenance (s was : State) : (s.trainPorts was).maintenance = s.maintenance := by
  refine foldl_maintenance (fun p hp t => ?_) s
  have hport : p < 17 := List.mem_range.1 hp
  split
  · rfl
  · exact t.put_maintenance_other _ (by simp only [objKey]; omega)

theorem State.keepSensors_maintenance (s was : State) : (s.keepSensors was).maintenance = s.maintenance := by
  refine foldl_maintenance (fun p hp t => t.kset_maintenance_other _ fun hkey => ?_) s
  have hsensor := (List.mem_filter.1 hp).2
  rw [hkey] at hsensor
  exact absurd hsensor (by decide)

theorem State.measure_dict (s : State) (type : Nat) (d : List Byte) : (s.measure type d).dict = s.dict := rfl

theorem State.measureSet_maintenance (s : State) (x : ImageSet) : (s.measureSet x).maintenance = s.maintenance := by
  unfold State.measureSet
  exact foldl_maintenance (fun (p : Nat × List Byte) _ t => State.maintenance_of_dict (t.measure_dict p.1 p.2)) s

theorem State.bootFrom_maintenance (s : State) (k : Nat) : (s.bootFrom k).maintenance = s.maintenance := by
  unfold State.bootFrom
  split
  · rw [State.measureSet_maintenance, State.put_maintenance_other _ _ (by decide)]
    rfl
  · rfl

theorem State.sampleStraps_maintenance (s : State) : s.sampleStraps.maintenance = s.maintenance := by
  rw [State.sampleStraps, State.put_maintenance_other _ _ (by decide), State.put_maintenance_other _ _ (by decide)]

theorem State.boot_maintenance (s : State) : s.boot.maintenance = s.maintenance := by
  have hstraps : ({ s.sampleStraps with security :=
      { s.sampleStraps.security with mreg := List.replicate 32 0, mlog := [], mcount := 0 } } : State).maintenance =
      s.maintenance := s.sampleStraps_maintenance
  simp only [State.boot]
  split
  · exact (State.bootFrom_maintenance _ _).trans hstraps
  · split
    · exact (State.bootFrom_maintenance _ _).trans ((State.count_maintenance_other _ _ (by decide)).trans hstraps)
    · exact hstraps

theorem State.trainStacks_maintenance (s : State) (corrupt : List (Nat × Nat)) :
    (s.trainStacks corrupt).maintenance = s.maintenance := by
  unfold State.trainStacks
  split
  · rfl
  · exact Eq.trans (State.maintenance_of_dict rfl)
      (foldl_maintenance (f := fun t (x : Nat × Nat) => t.raise 0x206 x.2 (unitDie x.2) 0 0)
        (fun _ _ t => State.maintenance_of_dict (t.raise_dict ..)) s)

theorem State.dump_server (s : State) (full : Bool) (trigger : Nat) (sources : List Nat) :
    (s.dump full trigger sources).server = s.server := by
  simp only [State.dump]
  split <;> rfl

theorem State.dump_power (s : State) (full : Bool) (trigger : Nat) (sources : List Nat) :
    (s.dump full trigger sources).power = s.power := by
  simp only [State.dump]
  split <;> rfl

/-- A write of another object that is made or not. -/
theorem State.put_if_maintenance_other {c : Prop} [Decidable c] (s : State) {index sub : Nat} (v : Nat)
    (h : objKey index sub ≠ objKey 0x9001 1) : (if c then s.put index sub v else s).maintenance = s.maintenance := by
  split
  · exact s.put_maintenance_other v h
  · rfl

theorem State.takeSettings_maintenance (s : State) : s.takeSettings.maintenance = s.maintenance :=
  State.maintenance_of_dict rfl

theorem State.draw_maintenance (s : State) : s.draw.2.maintenance = s.maintenance :=
  State.maintenance_of_dict s.draw_dict

/-- Once the state is cleared and the ageing maximums stand, the rest of a reset leaves the mode as it is (R353, R354). -/
theorem moduleReset_maintenance_eq {s : State} {code : Nat} (h : s.faults.moduleReset = some code) :
    (moduleReset s).maintenance = (s.dump true code allSources).cleared.takeMaxima.maintenance := by
  simp only [moduleReset, h]
  rw [State.trainStacks_maintenance, State.boot_maintenance, State.put_maintenance_other _ _ (by decide),
    State.count_maintenance_other _ _ (by decide), State.draw_maintenance, State.put_if_maintenance_other _ _ (by decide),
    State.put_if_maintenance_other _ _ (by decide), State.put_if_maintenance_other _ _ (by decide),
    State.takeSettings_maintenance, State.keepSensors_maintenance, State.trainPorts_maintenance]

/-- A module reset leaves maintenance mode, where neither a stored setting nor an ageing maximum is the mode's object. -/
theorem moduleReset_maintenance {s : State} {code : Nat} (h : s.faults.moduleReset = some code)
    (hmaxima : ∀ p ∈ s.power.maxima, p.1 ≠ objKey 0x9001 1)
    (hstored : ∀ p ∈ s.server.stored.getD [], p.1 ≠ objKey 0x9001 1) : (moduleReset s).maintenance = false := by
  rw [← s.dump_power true code allSources] at hmaxima
  rw [← s.dump_server true code allSources] at hstored
  calc (moduleReset s).maintenance
      = (s.dump true code allSources).cleared.takeMaxima.maintenance := moduleReset_maintenance_eq h
    _ = (s.dump true code allSources).cleared.maintenance := State.takeMaxima_maintenance hmaxima
    _ = false := State.cleared_maintenance hstored

/-! ### The obligation -/

theorem exec_programStart_maintenance {role : Role} {s : State} (h : MayWrite s role 0x6010 2)
    (hmode : s.maintenance = true) (hidle : s.running = false) :
    exec (.programStart role) s = .next (((s.put 0x6010 3 0x80).put 0x6010 4 0x50D).counted 7) := by
  have hexec : exec (.programStart role) s = .next (s.byRole role 0x6010 2 startProgram) := rfl
  rw [hexec, State.byRole_may _ h, startProgram_maintenance hmode hidle]

theorem exec_repairRequest_maintenance {role : Role} {request : List Byte} {s : State} (h : MayWrite s role 0x4040 1)
    (hmode : s.maintenance = true) (hidle : s.running = false) (hfree : s.mem.repair = none) (hlen : request.length = 16)
    (hlegal : repairLegal (leNat request) = true) (hlive : bit (leNat request) 65 = false) :
    ∃ t, exec (.repairRequest role request) s = .next t ∧ t.mem.repair = some (repairOf (leNat request)) ∧
      t.get 0x4041 1 = 2 := by
  have hexec : exec (.repairRequest role request) s = .next (s.byRole role 0x4040 1 (requestRepair request)) := rfl
  rw [hexec, State.byRole_may _ h,
    requestRepair_maintenance hmode hidle hfree hlen hlegal (repairOf_live_false hlive), State.counted_ok]
  refine ⟨_, rfl, by rw [State.count_mem, State.put_mem], ?_⟩
  rw [State.count, State.put_get_other _ _ _ _ (by decide), State.put_get_same]

/-- Settles O48: the writes by value, START and a repair in the mode, and the module reset. (The model's own
`maintenanceMode`, the write of the object, takes the plain name.) -/
theorem maintenanceMode_holds : Obligations.MaintenanceMode := by
  unfold Obligations.MaintenanceMode
  refine ⟨fun role s h => ⟨fun hidle => ⟨?enter, s.put_maintenance_same 1⟩, fun hrun => ?refused,
      ⟨?leave, s.put_maintenance_same 0⟩, fun v hlow hv => ?other⟩,
    fun _ _ h hmode hidle => exec_programStart_maintenance h hmode hidle,
    fun _ _ _ h hmode hidle hfree hlen hlegal hlive => exec_repairRequest_maintenance h hmode hidle hfree hlen hlegal hlive,
    fun _ s h hmaxima hstored => ⟨moduleReset s, rfl, moduleReset_maintenance h hmaxima hstored⟩⟩
  case enter => rw [exec_maintenanceMode h (by decide), maintenanceMode_one_idle hidle]
  case refused => rw [exec_maintenanceMode h (by decide), maintenanceMode_one_running hrun]
  case leave => rw [exec_maintenanceMode h (by decide), maintenanceMode_zero]
  case other => rw [exec_maintenanceMode h hv, maintenanceMode_other s hlow]

end Sys2Proof.Machine
end

section
/-! The step, the state after reset, and what every command keeps (R19, R31, R390). -/

namespace Sys2Proof.Machine

open Sys2Proof.Safety

/-- Settles O1: the step is defined by the front of the queue, and a module without power idles without effect. -/
theorem stepRunsTheFrontOrIdles : Obligations.StepRunsTheFrontOrIdles := by
  unfold Obligations.StepRunsTheFrontOrIdles
  refine ⟨fun _ _ _ => rfl, fun s hempty => ?_⟩
  have hstep : step s = .next s.idle := by simp only [step, hempty]
  refine ⟨hstep, fun hoff => ?_⟩
  rw [hstep, State.idle, hoff]
  rfl

/-- Settles O2: every value is read off the state of reset and the defaults of the object tables. -/
theorem resetLeaves : Obligations.ResetLeaves := by
  unfold Obligations.ResetLeaves
  have hcanonical : MemoryCanonical State.reset := rfl
  refine ⟨⟨hcanonical, rfl, rfl, rfl, ?_, ?_, rfl, rfl, rfl, fun _ => ⟨rfl, rfl, rfl⟩, ?_, ?_, ?_, ?_, ?_, ?_⟩,
    hcanonical, rfl⟩ <;> decide +kernel

/-- Settles O3: a command keeps the canonical form by `exec_keeps`, the reference cycle by `State.idle_wf`. -/
theorem stepKeepsMemoryCanonical : Obligations.StepKeepsMemoryCanonical := by
  unfold Obligations.StepKeepsMemoryCanonical
  intro s t hs hstep
  unfold step at hstep
  split at hstep
  · cases hstep
    exact State.idle_wf hs
  · rename_i c rest _
    obtain ⟨u, hexec, hkeeps⟩ := (exec_keeps (i := c) (Keeps.refl { s with pending := rest })).keep
    rw [hstep] at hexec
    cases hexec
    exact hkeeps.wf hs

/-- Settles O4: both halves are what `exec_keeps` says of a command. -/
theorem everyCommandGoesOnAndKeepsTheQueue : Obligations.EveryCommandGoesOnAndKeepsTheQueue := by
  unfold Obligations.EveryCommandGoesOnAndKeepsTheQueue
  intro c s
  obtain ⟨t, hexec, hkeeps⟩ := (exec_keeps (i := c) (Keeps.refl s)).keep
  exact ⟨t, hexec, hkeeps.queue⟩

end Sys2Proof.Machine
end

section
/-! The JTAG instructions (R427). -/

namespace Sys2Proof.Machine

/-- A die within the chain takes its instruction and its data register. -/
theorem State.jtagTakes_same {s : State} {die : Nat} (op data : Nat) (hjtag : die < s.security.jtag.length)
    (hshift : die < s.security.shift.length) :
    (s.jtagTakes die op data).security.jtag[die]? = some op ∧ (s.jtagTakes die op data).security.shift[die]? = some data := by
  simp [State.jtagTakes, hjtag, hshift]

/-- The other dies keep theirs. -/
theorem State.jtagTakes_other (s : State) {die k : Nat} (op data : Nat) (h : k ≠ die) :
    (s.jtagTakes die op data).security.jtag[k]? = s.security.jtag[k]? ∧
      (s.jtagTakes die op data).security.shift[k]? = s.security.shift[k]? := by
  simp [State.jtagTakes, h.symm]

/-- Outside a running program the die takes the instruction of the pins, within one it bypasses. -/
theorem State.jtagPins_of_ne {s : State} (die op data : Nat) (h : s.moduleState ≠ 3) :
    s.jtagPins die op data = s.jtagTakes die op data := if_neg h

theorem State.jtagPins_of_eq {s : State} (die op data : Nat) (h : s.moduleState = 3) :
    s.jtagPins die op data = s.jtagBypass die := if_pos h

/-- Instructions of the pins change neither memory nor the boundary register. -/
theorem State.jtagPins_frame (s : State) (die op data : Nat) :
    (s.jtagPins die op data).security.boundary = s.security.boundary ∧ (s.jtagPins die op data).mem = s.mem := by
  unfold State.jtagPins
  split <;> exact ⟨rfl, rfl⟩

/-- Die C samples a free level and loads its boundary register; the other dies have no cells. -/
theorem samplePreload_spec {s : State} {die : Nat} (data : BitVec 32) (hdie : die < s.security.jtag.length) :
    (samplePreload die data s).security.jtag[die]? = some 2 ∧
      (samplePreload die data s).security.boundary = (if die = 1 then data else s.security.boundary) ∧
      (samplePreload die data s).mem = s.mem ∧ (samplePreload die data s).dict = s.dict := by
  unfold samplePreload
  split
  case isTrue h =>
    subst h
    refine ⟨?_, rfl, rfl, rfl⟩
    simp [State.jtagTakes, hdie]
  case isFalse h =>
    refine ⟨?_, rfl, rfl, rfl⟩
    simp [State.jtagTakes, hdie]

/-- Settles O60: IDCODE and BYPASS are `jtagTakes`, the instructions of the pins `jtagPins`, and SAMPLE/PRELOAD its own. -/
theorem jtagInstructions : Obligations.JtagInstructions := by
  unfold Obligations.JtagInstructions
  intro die s hdie hjtag hshift
  have hj : die < s.security.jtag.length := by omega
  have hs : die < s.security.shift.length := by omega
  refine ⟨fun c op data hmem => ?idBypass, fun c op data hmem => ?pins, fun data => ⟨_, rfl, samplePreload_spec data hj⟩⟩
  case idBypass =>
    have hexec : exec c s = .next (s.jtagTakes die op data) := by
      simp only [List.mem_cons, Prod.mk.injEq, List.not_mem_nil, or_false] at hmem
      obtain ⟨rfl, rfl, rfl⟩ | ⟨rfl, rfl, rfl⟩ := hmem
      · have hid : dieIdentity die = 0xB0E60C51 + 0x1000 * die := by rw [dieIdentity, Nat.mod_eq_of_lt hdie]
        exact congrArg (fun n => Host.Outcome.next (s.jtagTakes die 1 n)) hid
      · rfl
    obtain ⟨hop, hdata⟩ := State.jtagTakes_same op data hj hs
    exact ⟨_, hexec, hop, hdata, fun k hk => s.jtagTakes_other op data hk, rfl⟩
  case pins =>
    have hexec : exec c s = .next (s.jtagPins die op data) := by
      simp only [List.mem_cons, Prod.mk.injEq, List.not_mem_nil, or_false] at hmem
      obtain ⟨rfl, rfl, rfl⟩ | ⟨rfl, rfl, rfl⟩ | ⟨rfl, rfl, rfl⟩ := hmem <;> rfl
    obtain ⟨hboundary, hmemory⟩ := s.jtagPins_frame die op data
    refine ⟨_, hexec, fun hidle => ?_, fun hrun => ?_, hboundary, hmemory⟩
    · rw [State.jtagPins_of_ne die op data hidle]
      exact State.jtagTakes_same op data hj hs
    · rw [hexec, State.jtagPins_of_eq die op data hrun]
      rfl

end Sys2Proof.Machine
end

section
/-! What HBM and the operand stores read after a write, and the marks of poison (R257). -/

namespace Sys2Proof.Machine

/-! ### Rising lists -/

theorem mem_insertNat {n x : Nat} {l : List Nat} : x ∈ insertNat n l ↔ x = n ∨ x ∈ l := by
  induction l with
  | nil => simp [insertNat]
  | cons a t ih =>
    unfold insertNat
    split
    · simp
    · split
      · rename_i h
        simp [h]
      · rw [List.mem_cons, ih, List.mem_cons]
        exact or_left_comm

theorem mem_foldl_insertNat {x : Nat} {l m : List Nat} : x ∈ l.foldl (fun m b => insertNat b m) m ↔ x ∈ m ∨ x ∈ l := by
  induction l generalizing m with
  | nil => simp
  | cons b t ih =>
    rw [List.foldl_cons, ih, mem_insertNat, List.mem_cons, or_comm (a := x = b), or_assoc]

theorem mem_insertPair {p x : Nat × Nat} {l : List (Nat × Nat)} : x ∈ insertPair p l ↔ x = p ∨ x ∈ l := by
  induction l with
  | nil => simp [insertPair]
  | cons a t ih =>
    unfold insertPair
    split
    · simp
    · split
      · rename_i h
        simp [h]
      · rw [List.mem_cons, ih, List.mem_cons]
        exact or_left_comm

theorem mem_foldl_insertPair {x : Nat × Nat} {l m : List (Nat × Nat)} :
    x ∈ l.foldl (fun m b => insertPair b m) m ↔ x ∈ m ∨ x ∈ l := by
  induction l generalizing m with
  | nil => simp
  | cons b t ih =>
    rw [List.foldl_cons, ih, mem_insertPair, List.mem_cons, or_comm (a := x = b), or_assoc]

/-! ### Byte memories -/

/-- Ranges that agree byte by byte read alike. -/
theorem Mem.readN_congr {m k : Mem} {a n : Nat} (h : ∀ c, a ≤ c → c < a + n → m.read c = k.read c) :
    m.readN a n = k.readN a n := by
  induction n generalizing a with
  | zero => rfl
  | succ n ih => rw [Mem.readN, Mem.readN, h a (by omega) (by omega), ih fun c h1 h2 => h c (by omega) (by omega)]

theorem Mem.getElem_readN (m : Mem) (a n j : Nat) (h : j < (m.readN a n).length) : (m.readN a n)[j] = m.read (a + j) := by
  induction n generalizing a j with
  | zero => simp [Mem.readN] at h
  | succ n ih =>
    cases j with
    | zero => rfl
    | succ j => simp only [Mem.readN, List.getElem_cons_succ, ih, show a + 1 + j = a + (j + 1) by omega]

/-- What was stored is read back. -/
theorem Mem.readN_writeN_same (m : Mem) (a : Nat) (l : List Byte) : (m.writeN a l).readN a l.length = l := by
  refine List.ext_getElem (Mem.readN_length _ _ _) fun j h1 h2 => ?_
  rw [Mem.getElem_readN, Mem.read_writeN_inside m a l j h2]

/-- A range apart from what was stored reads as before. -/
theorem Mem.readN_writeN_apart (m : Mem) {a b n : Nat} (l : List Byte) (h : b + n ≤ a ∨ a + l.length ≤ b) :
    (m.writeN a l).readN b n = m.readN b n :=
  Mem.readN_congr fun c h1 h2 => Mem.read_writeN_outside m a l (by omega)

/-! ### HBM -/

@[simp] theorem State.poisonHbm_hbm (s : State) (a n : Nat) : (s.poisonHbm a n).mem.hbm = s.mem.hbm := rfl
@[simp] theorem State.poisonHbm_ops (s : State) (a n : Nat) : (s.poisonHbm a n).mem.ops = s.mem.ops := rfl
@[simp] theorem State.poisonOp_hbm (s : State) (d a n : Nat) : (s.poisonOp d a n).mem.hbm = s.mem.hbm := rfl
@[simp] theorem State.poisonOp_ops (s : State) (d a n : Nat) : (s.poisonOp d a n).mem.ops = s.mem.ops := rfl

@[simp] theorem State.hbmWrite_hbm (s : State) (a : Nat) (bytes : List Byte) (p : Bool) :
    (s.hbmWrite a bytes p).mem.hbm = s.mem.hbm.writeN a bytes := by
  cases p <;> rfl

@[simp] theorem State.hbmWrite_ops (s : State) (a : Nat) (bytes : List Byte) (p : Bool) :
    (s.hbmWrite a bytes p).mem.ops = s.mem.ops := by
  cases p <;> rfl

theorem State.hbmRead_hbmWrite_same (s : State) (a : Nat) (bytes : List Byte) (p : Bool) :
    (s.hbmWrite a bytes p).hbmRead a bytes.length = bytes := by
  rw [State.hbmRead, State.hbmWrite_hbm, Mem.readN_writeN_same]

theorem State.hbmRead_hbmWrite_apart (s : State) {a b n : Nat} (bytes : List Byte) (p : Bool)
    (h : b + n ≤ a ∨ a + bytes.length ≤ b) : (s.hbmWrite a bytes p).hbmRead b n = s.hbmRead b n := by
  rw [State.hbmRead, State.hbmWrite_hbm, Mem.readN_writeN_apart _ _ h, State.hbmRead]

theorem State.read_hbmWrite_outside (s : State) {a c : Nat} (bytes : List Byte) (p : Bool)
    (h : c < a ∨ a + bytes.length ≤ c) : (s.hbmWrite a bytes p).mem.hbm.read c = s.mem.hbm.read c := by
  rw [State.hbmWrite_hbm, Mem.read_writeN_outside _ _ _ h]

/-- Poisoned data marks what it touches, other data clears what it covers whole. -/
theorem State.mem_poison_hbmWrite (s : State) (a b : Nat) (bytes : List Byte) (p : Bool) :
    b ∈ (s.hbmWrite a bytes p).mem.poison ↔
      if p then b ∈ s.mem.poison ∨ b ∈ blocks a bytes.length
      else b ∈ s.mem.poison ∧ ¬(a ≤ b * 512 ∧ b * 512 + 512 ≤ a + bytes.length) := by
  cases p with
  | true => exact mem_foldl_insertNat
  | false =>
    simp only [State.hbmWrite, Bool.false_eq_true, if_false, List.mem_filter]
    refine and_congr_right fun _ => ?_
    simp only [Bool.not_eq_true', Bool.and_eq_false_iff, decide_eq_false_iff_not]
    omega

/-! ### Operand stores -/

@[simp] theorem State.opWrite_hbm (s : State) (d off : Nat) (bytes : List Byte) (p : Bool) :
    (s.opWrite d off bytes p).mem.hbm = s.mem.hbm := by
  cases p <;> rfl

@[simp] theorem State.opWrite_ops (s : State) (d off : Nat) (bytes : List Byte) (p : Bool) :
    (s.opWrite d off bytes p).mem.ops = s.mem.ops.set d ((s.opStore d).writeN off bytes) := by
  cases p <;> rfl

theorem State.opStore_opWrite_same {s : State} {d : Nat} (off : Nat) (bytes : List Byte) (p : Bool)
    (h : d < s.mem.ops.length) : (s.opWrite d off bytes p).opStore d = (s.opStore d).writeN off bytes := by
  rw [State.opStore, State.opWrite_ops, List.getD_eq_getElem?_getD, List.getElem?_set_self h, Option.getD_some]

theorem State.opStore_opWrite_other (s : State) {d e : Nat} (off : Nat) (bytes : List Byte) (p : Bool) (h : e ≠ d) :
    (s.opWrite d off bytes p).opStore e = s.opStore e := by
  rw [State.opStore, State.opWrite_ops, List.getD_eq_getElem?_getD, List.getElem?_set_ne h.symm,
    ← List.getD_eq_getElem?_getD, State.opStore]

theorem State.opRead_opWrite_same {s : State} {d : Nat} (off : Nat) (bytes : List Byte) (p : Bool)
    (h : d < s.mem.ops.length) : (s.opWrite d off bytes p).opRead d off bytes.length = bytes := by
  rw [State.opRead, State.opStore_opWrite_same off bytes p h, Mem.readN_writeN_same]

theorem State.read_opWrite_outside {s : State} {d e off c : Nat} (bytes : List Byte) (p : Bool)
    (h : d < s.mem.ops.length) (hc : e ≠ d ∨ c < off ∨ off + bytes.length ≤ c) :
    ((s.opWrite d off bytes p).opStore e).read c = (s.opStore e).read c := by
  by_cases hed : e = d
  · subst hed
    rw [State.opStore_opWrite_same off bytes p h, Mem.read_writeN_outside _ _ _ (hc.resolve_left (by simp))]
  · rw [State.opStore_opWrite_other s off bytes p hed]

/-- Settles O5: the rules above, for HBM and for an operand store. -/
theorem memoriesReadWhatWasWritten : Obligations.MemoriesReadWhatWasWritten := by
  unfold Obligations.MemoriesReadWhatWasWritten
  exact ⟨fun s a bytes p => ⟨s.hbmRead_hbmWrite_same a bytes p, fun _ h => s.read_hbmWrite_outside bytes p h,
      fun b => s.mem_poison_hbmWrite a b bytes p⟩,
    fun _ _ off bytes p h => ⟨State.opRead_opWrite_same off bytes p h, fun _ _ hc => State.read_opWrite_outside bytes p h hc⟩⟩

end Sys2Proof.Machine
end

section
/-! Frame control, the marker, the fence and the standing modes (R22, R44–R46, R53, R57). -/

namespace Sys2Proof.Machine

open Sys2Proof.Safety

/-- A command of the stream that nothing holds back is taken up on the state in which it is its unit's current one. -/
theorem exec_takes {c : Instr} {op : Nat} {i : Issue} {s : State} {f : Issue → State → State}
    (hexec : exec c s = .next (s.gate op i f)) (h : TakesEffect op i s) : exec c s = .next (f i (s.current op i)) := by
  rw [hexec, State.gate_takes f h]

/-! ### The unit's record when a command takes effect -/

theorem State.current_unit_same (s : State) (op : Nat) (i : Issue) :
    (s.current op i).unit i.unit = { s.unit i.unit with
      mode := 0, modeLeft := none, last := some { op, issue := i, at_ := s.clock.cycle }, progress := 0, ticks := 0,
      hung := false } := s.onUnit_unit_same _ _

theorem State.current_unit_other (s : State) (op : Nat) (i : Issue) {v : Nat} (h : v ≠ i.unit) :
    (s.current op i).unit v = s.unit v := s.onUnit_unit_other _ _ h

/-! ### Calls of tables -/

theorem mem_insertBundle {b x : Bundle} {l : List Bundle} : x ∈ insertBundle b l ↔ x = b ∨ x ∈ l := by
  induction l with
  | nil => simp [insertBundle]
  | cons a t ih =>
    unfold insertBundle
    split
    · simp
    · rw [List.mem_cons, ih, List.mem_cons]
      exact or_left_comm

theorem mem_foldl_insertBundle {x : Bundle} {l m : List Bundle} :
    x ∈ l.foldl (fun m b => insertBundle b m) m ↔ x ∈ m ∨ x ∈ l := by
  induction l generalizing m with
  | nil => simp
  | cons b t ih =>
    rw [List.foldl_cons, ih, mem_insertBundle, List.mem_cons, or_comm (a := x = b), or_assoc]

/-- A call of a table whose bundles the frame does not hold yet (R53). -/
theorem State.callTable_new {s : State} {t ctx seq : Nat} (h : s.program.calls.contains (t, seq) = false) :
    s.callTable t ctx seq = { s with program := { s.program with
      bundles := ((s.tableBundles t s.clock.cycle ctx seq).map s.withDescs).foldl (fun l b => insertBundle b l) s.program.bundles
      calls := s.program.calls ++ [(t, seq)] } } := by
  rw [State.callTable, h]
  rfl

/-- Settles O6: each command's taking up is its whole effect, and a call adds the table's bundles. -/
theorem frameControlCommands : Obligations.FrameControlCommands := by
  unfold Obligations.FrameControlCommands
  refine ⟨fun i s => ⟨exec_takes (f := startNop) rfl, exec_takes (f := startCommitPoint) rfl, exec_takes (f := startHalt) rfl,
    fun h => exec_takes (f := startMark) rfl h⟩, fun i s h hcalls => ?_⟩
  have hnew : startCall i (s.current 1 i) = _ := State.callTable_new (s := s.current 1 i) hcalls
  refine ⟨_, exec_takes (f := startCall) rfl h, ?_⟩
  rw [hnew]
  exact ⟨fun b => mem_foldl_insertBundle, rfl, rfl⟩

/-! ### Fences and modes -/

/-- The fence is one of the context that is over: past its planned completion, or ended at a tick. -/
def Fence.overFor (c : Nat) (f : Fence) : Bool := f.ctx == c && (f.ended || (f.left == 0 && !f.late))

theorem Fence.overFor_iff {c : Nat} {f : Fence} :
    f.overFor c = true ↔ f.ctx = c ∧ (f.ended = true ∨ (f.left = 0 ∧ f.late = false)) := by
  simp [Fence.overFor]

/-- The fence that FENCE_COMPLETE takes away is the first of its context that is over (R22). -/
theorem fenceComplete_first {c : Nat} {before after_ : List Fence} {f : Fence} {s : State}
    (hfences : s.program.fences = before ++ f :: after_) (hctx : f.ctx = c)
    (hover : f.ended = true ∨ (f.left = 0 ∧ f.late = false))
    (hbefore : ∀ e ∈ before, ¬(e.ctx = c ∧ (e.ended = true ∨ (e.left = 0 ∧ e.late = false)))) :
    fenceComplete c s = { s with program := { s.program with fences := before ++ after_ } } := by
  have hpast : f.overFor c = true := Fence.overFor_iff.2 ⟨hctx, hover⟩
  have herase : s.program.fences.eraseP (Fence.overFor c) = before ++ after_ := by
    rw [hfences, List.eraseP_append_right _ fun e he hover => hbefore e he (Fence.overFor_iff.1 hover),
      List.eraseP_cons_of_pos hpast]
  have hany : s.program.fences.any (Fence.overFor c) = true := by
    rw [hfences]
    exact List.any_eq_true.2 ⟨f, by simp, hpast⟩
  have hcomplete : fenceComplete c s = { s with program := { s.program with
      fences := if s.program.fences.any (Fence.overFor c) = true then s.program.fences.eraseP (Fence.overFor c)
        else s.program.fences.eraseP fun f => f.ctx == c } } := rfl
  rw [hcomplete, if_pos hany, herase]

/-- A standing mode changes the record of its unit alone (R44). -/
theorem startMode_onlyUnit (op : Nat) (i : Issue) (s : State) : OnlyUnit s (startMode op i (s.current op i)) i.unit :=
  ⟨rfl, fun _ hv => (State.onUnit_unit_other _ _ _ hv).trans (s.current_unit_other op i hv)⟩

theorem startMode_unit (op : Nat) (i : Issue) (s : State) :
    (startMode op i (s.current op i)).unit i.unit = { (s.current op i).unit i.unit with
      mode := op, modeLeft := if i.dur = 0 then none else some i.dur } := State.onUnit_unit_same _ _ _

/-- Settles O7: the marker and the fence as they are taken up, the end of a fence, and the modes. -/
theorem markersFencesAndStandingModes : Obligations.MarkersFencesAndStandingModes := by
  unfold Obligations.MarkersFencesAndStandingModes
  refine ⟨⟨fun _ _ => exec_takes (f := startPhase) rfl, fun _ _ => exec_takes (f := startFloor) rfl,
    fun _ _ h => exec_takes (f := startFence) rfl h,
    fun _ _ _ _ _ hfences hctx hover hbefore => congrArg _ (fenceComplete_first hfences hctx hover hbefore)⟩,
    fun i s op c hmem h => ?_⟩
  have hexec : exec c s = .next (startMode op i (s.current op i)) := by
    simp only [List.mem_cons, Prod.mk.injEq, List.not_mem_nil, or_false] at hmem
    obtain ⟨rfl, rfl⟩ | ⟨rfl, rfl⟩ | ⟨rfl, rfl⟩ | ⟨rfl, rfl⟩ | ⟨rfl, rfl⟩ | ⟨rfl, rfl⟩ | ⟨rfl, rfl⟩ | ⟨rfl, rfl⟩ | ⟨rfl, rfl⟩ :=
      hmem <;> exact exec_takes rfl h
  refine ⟨_, hexec, startMode_onlyUnit op i s, ?_⟩
  rw [startMode_unit, State.current_unit_same]
  exact ⟨rfl, rfl, rfl, rfl⟩

end Sys2Proof.Machine
end

section
/-! Pending commands (R44, R48). -/

namespace Sys2Proof.Machine

open Sys2Proof.Safety

/-! ### What a unit takes up, by its class (R56) -/

theorem unitClass_le_four_iff (u : Nat) : unitClass u ≤ 4 ↔ u < 0x38 := by
  unfold unitClass
  split_ifs <;> omega

theorem unitClass_pos {u : Nat} (h : unitClass u ≠ 0) : u ≠ 0 := by
  rintro rfl
  exact h rfl

/-- The valid units of the classes 1 to 4 are the Frond units. -/
theorem frondUnit_of_class {u : Nat} (hvalid : validUnit u = true) (h0 : unitClass u ≠ 0) (h4 : unitClass u ≤ 4) :
    frondUnit u = true := by
  rw [unitClass_le_four_iff] at h4
  have hu := unitClass_pos h0
  simp only [validUnit, List.contains_eq_mem, List.mem_cons, List.not_mem_nil, or_false, Bool.or_eq_true, beq_iff_eq,
    decide_eq_true_eq] at hvalid
  simp only [frondUnit, decide_eq_true_eq]
  omega

theorem not_frondUnit_of_class {u : Nat} (h5 : 5 ≤ unitClass u) : frondUnit u = false := by
  have h := (unitClass_le_four_iff u).not
  simp only [frondUnit, decide_eq_false_iff_not]
  omega

theorem takeUp_frame {op : Nat} {i : Issue} (h : unitClass i.unit = 0) (s : State) :
    takeUp op i s = takeUpFrame op i s := if_pos h

theorem takeUp_frond {op : Nat} {i : Issue} (hvalid : validUnit i.unit = true) (h0 : unitClass i.unit ≠ 0)
    (h4 : unitClass i.unit ≤ 4) (s : State) : takeUp op i s = takeUpFrond op i s := by
  rw [takeUp, if_neg h0, frondUnit_of_class hvalid h0 h4]
  rfl

theorem takeUp_other {op : Nat} {i : Issue} (h5 : 5 ≤ unitClass i.unit) (s : State) :
    takeUp op i s = takeUpOther op i s := by
  rw [takeUp, if_neg (by omega), not_frondUnit_of_class h5]
  rfl

/-! ### The commands of the stream, with class and opcode (Table 2.5) -/

def frameTable (i : Issue) : List (Instr × Nat × Nat) :=
  [(.nop i, 0, 0), (.call i, 0, 1), (.commitPoint i, 0, 2), (.halt i, 0, 3), (.mark i, 0, 4)]

def frondTable (i : Issue) : List (Instr × Nat × Nat) :=
  [(.arrayIdle i, 1, 0), (.matmul i, 1, 1), (.arrayHold i, 1, 2), (.sorusIdle i, 2, 0), (.spmm i, 2, 1),
    (.score i, 2, 2), (.sorusHold i, 2, 3), (.feederIdle i, 3, 0), (.loadw i, 3, 1), (.loadwT i, 3, 2), (.swap i, 3, 3),
    (.filigreeIdle i, 4, 0), (.kernel i, 4, 1), (.update i, 4, 2), (.prune i, 4, 3), (.regrow i, 4, 4), (.route i, 4, 5)]

def otherTable (i : Issue) : List (Instr × Nat × Nat) :=
  [(.mcIdle i, 5, 0), (.read i, 5, 1), (.write i, 5, 2), (.copy i, 5, 3), (.reduce i, 5, 4), (.portIdle i, 6, 0),
    (.portSend i, 6, 1), (.portRecv i, 6, 2), (.bcast i, 6, 3), (.stavlinkIdle i, 7, 0), (.stavlinkSend i, 7, 1),
    (.stavlinkRecv i, 7, 2), (.post i, 8, 1), (.seal i, 9, 1), (.phase i, 10, 1), (.floor i, 10, 2), (.fence i, 11, 1)]

/-- A command passes the gate, and what then takes effect is what its class and opcode spell. -/
theorem exec_takes_eq {c : Instr} {op : Nat} {i : Issue} {s : State} {f g : Issue → State → State}
    (hexec : exec c s = .next (s.gate op i f)) (hg : ∀ t, g i t = f i t) (h : TakesEffect op i s) :
    exec c s = .next (g i (s.current op i)) := by
  rw [exec_takes hexec h, hg]

theorem exec_frameCommand {c : Instr} {cls op : Nat} {i : Issue} {s : State} (hmem : (c, cls, op) ∈ frameTable i)
    (h : TakesEffect op i s) : exec c s = .next (takeUpFrame op i (s.current op i)) := by
  simp only [frameTable, List.mem_cons, Prod.mk.injEq, List.not_mem_nil, or_false] at hmem
  obtain ⟨rfl, rfl, rfl⟩ | ⟨rfl, rfl, rfl⟩ | ⟨rfl, rfl, rfl⟩ | ⟨rfl, rfl, rfl⟩ | ⟨rfl, rfl, rfl⟩ := hmem <;>
    exact exec_takes_eq (g := takeUpFrame _) rfl (fun _ => rfl) h

theorem exec_frondCommand {c : Instr} {cls op : Nat} {i : Issue} {s : State} (hmem : (c, cls, op) ∈ frondTable i)
    (hcls : unitClass i.unit = cls) (h : TakesEffect op i s) : exec c s = .next (takeUpFrond op i (s.current op i)) := by
  simp only [frondTable, List.mem_cons, Prod.mk.injEq, List.not_mem_nil, or_false] at hmem
  obtain ⟨rfl, rfl, rfl⟩ | ⟨rfl, rfl, rfl⟩ | ⟨rfl, rfl, rfl⟩ | ⟨rfl, rfl, rfl⟩ | ⟨rfl, rfl, rfl⟩ | ⟨rfl, rfl, rfl⟩ |
    ⟨rfl, rfl, rfl⟩ | ⟨rfl, rfl, rfl⟩ | ⟨rfl, rfl, rfl⟩ | ⟨rfl, rfl, rfl⟩ | ⟨rfl, rfl, rfl⟩ | ⟨rfl, rfl, rfl⟩ |
    ⟨rfl, rfl, rfl⟩ | ⟨rfl, rfl, rfl⟩ | ⟨rfl, rfl, rfl⟩ | ⟨rfl, rfl, rfl⟩ | ⟨rfl, rfl, rfl⟩ := hmem <;>
    exact exec_takes_eq (g := takeUpFrond _) rfl (fun _ => by unfold takeUpFrond; generalize unitClass i.unit = k at hcls; subst hcls; rfl) h

theorem exec_otherCommand {c : Instr} {cls op : Nat} {i : Issue} {s : State} (hmem : (c, cls, op) ∈ otherTable i)
    (hcls : unitClass i.unit = cls) (h : TakesEffect op i s) : exec c s = .next (takeUpOther op i (s.current op i)) := by
  simp only [otherTable, List.mem_cons, Prod.mk.injEq, List.not_mem_nil, or_false] at hmem
  obtain ⟨rfl, rfl, rfl⟩ | ⟨rfl, rfl, rfl⟩ | ⟨rfl, rfl, rfl⟩ | ⟨rfl, rfl, rfl⟩ | ⟨rfl, rfl, rfl⟩ | ⟨rfl, rfl, rfl⟩ |
    ⟨rfl, rfl, rfl⟩ | ⟨rfl, rfl, rfl⟩ | ⟨rfl, rfl, rfl⟩ | ⟨rfl, rfl, rfl⟩ | ⟨rfl, rfl, rfl⟩ | ⟨rfl, rfl, rfl⟩ |
    ⟨rfl, rfl, rfl⟩ | ⟨rfl, rfl, rfl⟩ | ⟨rfl, rfl, rfl⟩ | ⟨rfl, rfl, rfl⟩ | ⟨rfl, rfl, rfl⟩ := hmem <;>
    exact exec_takes_eq (g := takeUpOther _) rfl (fun _ => by unfold takeUpOther; generalize unitClass i.unit = k at hcls; subst hcls; rfl) h

theorem frameTable_class {c : Instr} {cls op : Nat} {i : Issue} (hmem : (c, cls, op) ∈ frameTable i) : cls = 0 := by
  simp only [frameTable, List.mem_cons, Prod.mk.injEq, List.not_mem_nil, or_false] at hmem
  omega

theorem frondTable_class {c : Instr} {cls op : Nat} {i : Issue} (hmem : (c, cls, op) ∈ frondTable i) :
    cls ≠ 0 ∧ cls ≤ 4 := by
  simp only [frondTable, List.mem_cons, Prod.mk.injEq, List.not_mem_nil, or_false] at hmem
  omega

theorem otherTable_class {c : Instr} {cls op : Nat} {i : Issue} (hmem : (c, cls, op) ∈ otherTable i) : 5 ≤ cls := by
  simp only [otherTable, List.mem_cons, Prod.mk.injEq, List.not_mem_nil, or_false] at hmem
  omega

/-- A command of the stream has the effect that its class and opcode spell. -/
theorem exec_eq_takeUp {c : Instr} {cls op : Nat} {i : Issue} {s : State}
    (hmem : (c, cls, op) ∈ frameTable i ++ frondTable i ++ otherTable i) (hvalid : validUnit i.unit = true)
    (hcls : unitClass i.unit = cls) (h : TakesEffect op i s) : exec c s = .next (takeUp op i (s.current op i)) := by
  rw [List.mem_append, List.mem_append] at hmem
  obtain (hmem | hmem) | hmem := hmem
  · rw [exec_frameCommand hmem h, takeUp_frame (hcls.trans (frameTable_class hmem))]
  · obtain ⟨h0, h4⟩ := frondTable_class hmem
    rw [exec_frondCommand hmem hcls h, takeUp_frond hvalid (hcls ▸ h0) (hcls ▸ h4)]
  · rw [exec_otherCommand hmem hcls h, takeUp_other (hcls ▸ otherTable_class hmem)]

/-! ### PENDING_COMMAND_START -/

/-- The oldest waiting command leaves its queue and takes effect, or is reported. -/
theorem pendingStart_takesUp {u : Nat} {s : State} {c : Cmd} {rest : List Cmd} (hwait : (s.unit u).waiting = c :: rest)
    (htakes : s.takesUp u = true) : pendingStart u s =
      if ((s.onUnit u fun x => { x with waiting := rest }).shadowOk c.op c.issue) = true then
        takeUp c.op c.issue ((s.onUnit u fun x => { x with waiting := rest }).current c.op c.issue)
      else (s.onUnit u fun x => { x with waiting := rest }).invalid c.issue := by
  simp only [pendingStart, hwait, htakes, if_true]

theorem pendingStart_stays {u : Nat} {s : State} (htakes : s.takesUp u = false) : pendingStart u s = s := by
  unfold pendingStart
  split
  · rw [htakes]
    rfl
  · rfl

/-- A unit without work takes up what nothing else holds. -/
theorem State.takesUp_of_free {u : Nat} {s : State} {c : Cmd} {rest : List Cmd} (hwait : (s.unit u).waiting = c :: rest)
    (hfree : (s.unit u).work = none) (hmay : s.mayTakeUp c = true) : s.takesUp u = true := by
  simp [State.takesUp, State.busy, hwait, hfree, hmay]

/-- Settles O22: `exec_eq_takeUp` for the commands, and the three rules of a unit's queue. -/
theorem pendingCommands : Obligations.PendingCommands := by
  unfold Obligations.PendingCommands
  refine ⟨fun i s c cls op hmem hvalid hcls h => exec_eq_takeUp ?_ hvalid hcls h, fun u s c rest hwait =>
    ⟨fun htakes => congrArg _ (pendingStart_takesUp hwait htakes), fun htakes => congrArg _ (pendingStart_stays htakes),
      fun hfree hmay => State.takesUp_of_free hwait hfree hmay⟩⟩
  exact hmem

end Sys2Proof.Machine
end

section
/-! What leaves only counters, reports and marks on memory, and the rules of a unit's record (R44, R257). -/

namespace Sys2Proof.Machine

open Sys2Proof.Safety

/-! ### Counters, reports and marks -/

/-- From `s` to `t` nothing changes but dictionary, fault collector, and in memory the marks of poison and of errors met and the
lines of the slices: no byte is written. -/
structure Notes (s t : State) : Prop where
  state : t = { s with dict := t.dict, faults := t.faults, mem := t.mem }
  memory : t.mem = { s.mem with
    poison := t.mem.poison, opPoison := t.mem.opPoison, consumed := t.mem.consumed, chances := t.mem.chances
    flawed := t.mem.flawed, lines := t.mem.lines, age := t.mem.age }

namespace Notes

variable {s t u : State}

theorem refl (s : State) : Notes s s := ⟨rfl, rfl⟩

theorem trans (h : Notes s t) (k : Notes t u) : Notes s u :=
  ⟨by rw [k.state, h.state], by rw [k.memory, h.memory]⟩

theorem units (h : Notes s t) : t.units = s.units := by rw [h.state]
theorem arrays (h : Notes s t) : t.arrays = s.arrays := by rw [h.state]
theorem sorus (h : Notes s t) : t.sorus = s.sorus := by rw [h.state]
theorem filigrees (h : Notes s t) : t.filigrees = s.filigrees := by rw [h.state]
theorem clock (h : Notes s t) : t.clock = s.clock := by rw [h.state]
theorem program (h : Notes s t) : t.program = s.program := by rw [h.state]
theorem traffic (h : Notes s t) : t.traffic = s.traffic := by rw [h.state]
theorem fabric (h : Notes s t) : t.fabric = s.fabric := by rw [h.state]
theorem commit (h : Notes s t) : t.commit = s.commit := by rw [h.state]
theorem locket (h : Notes s t) : t.locket = s.locket := by rw [h.state]
theorem hbm (h : Notes s t) : t.mem.hbm = s.mem.hbm := by rw [h.memory]
theorem ops (h : Notes s t) : t.mem.ops = s.mem.ops := by rw [h.memory]
theorem windows (h : Notes s t) : t.mem.windows = s.mem.windows := by rw [h.memory]
theorem unit (h : Notes s t) (u : Nat) : t.unit u = s.unit u := by rw [State.unit, h.units, State.unit]
theorem array (h : Notes s t) (u : Nat) : t.array u = s.array u := by rw [State.array, h.arrays, State.array]

theorem count (s : State) (index sub n : Nat) : Notes s (s.count index sub n) := ⟨rfl, rfl⟩
theorem raise (s : State) (code source die ctx detail : Nat) : Notes s (s.raise code source die ctx detail) := ⟨rfl, rfl⟩
theorem chance (s : State) (index sub : Nat) : Notes s (s.chance index sub) := ⟨rfl, rfl⟩
theorem poisonOp (s : State) (d off len : Nat) : Notes s (s.poisonOp d off len) := ⟨rfl, rfl⟩
theorem poisonHbm (s : State) (a len : Nat) : Notes s (s.poisonHbm a len) := ⟨rfl, rfl⟩

/-- A branch that notes or does nothing. -/
theorem ite {c : Prop} [Decidable c] (h : Notes s t) (k : Notes s u) : Notes s (if c then t else u) := by
  split <;> assumption

theorem foldl {α : Type} {f : State → α → State} (hf : ∀ x a, Notes x (f x a)) (l : List α) (s : State) :
    Notes s (l.foldl f s) := by
  induction l generalizing s with
  | nil => exact refl s
  | cons a t ih => exact (hf s a).trans (ih (f s a))

theorem setFaults (s : State) (f : Faults) : Notes s { s with faults := f } := ⟨rfl, rfl⟩
theorem setConsumed (s : State) (l : List Nat) : Notes s { s with mem := { s.mem with consumed := l } } := ⟨rfl, rfl⟩

theorem countIf (s : State) (c : Bool) (index sub : Nat) : Notes s (s.countIf c index sub) :=
  ite (count s index sub 1) (refl s)

theorem consume (s : State) (u ctx address : Nat) : Notes s (s.consume u ctx address) := by
  unfold State.consume
  have h (detail : Nat) := (setConsumed s (insertNat u s.mem.consumed)).trans (raise _ 0x203 u (unitDie u) ctx detail)
  exact ite (refl s) (ite ((h _).trans (count _ _ _ _)) (h _))

theorem strike (s : State) (u ctx address : Nat) : Notes s (s.strike u ctx address) :=
  (setFaults s _).trans (raise _ _ _ _ _ _)

theorem strikeOp (s : State) (u ctx address : Nat) : Notes s (s.strikeOp u ctx address) := by
  unfold State.strikeOp
  have h := chance s 0x4015 (unitDie u + 1)
  exact ite ((h.trans (strike _ _ _ _)).trans (poisonOp _ _ _ _)) h

theorem poisonTile (s : State) (d : Nat) (t : Tile) : Notes s (s.poisonTile d t) := by
  unfold State.poisonTile
  exact ite (refl s) (foldl (fun x (r : Nat × Nat) => poisonOp x d r.1 r.2) _ s)

end Notes

theorem State.poisonTile_faults (s : State) (d : Nat) (t : Tile) : (s.poisonTile d t).faults = s.faults := by
  unfold State.poisonTile
  split
  · rfl
  · exact List.foldlRecOn (motive := fun x : State => x.faults = s.faults) (s.outRanges t) _ rfl fun _ h _ _ => h

/-! ### Units -/

/-- A command that takes effect finds its unit without work. -/
theorem work_none_of_takesEffect {op : Nat} {i : Issue} {s : State} (h : TakesEffect op i s) : (s.unit i.unit).work = none := by
  obtain ⟨-, -, -, -, -, -, hbusy, -⟩ := h
  simpa [State.busy] using hbusy

theorem State.current_stalled (s : State) (op : Nat) (i : Issue) :
    ((s.current op i).unit i.unit).stalled = (s.unit i.unit).stalled := by rw [State.current_unit_same]

theorem State.current_work (s : State) (op : Nat) (i : Issue) :
    ((s.current op i).unit i.unit).work = (s.unit i.unit).work := by rw [State.current_unit_same]

theorem State.current_tails (s : State) (op : Nat) (i : Issue) :
    ((s.current op i).unit i.unit).tails = (s.unit i.unit).tails := by rw [State.current_unit_same]

/-- A command that takes up work from its current state: the unit runs it, and the other units are as they were. -/
theorem State.startWork_current_works (s : State) (op : Nat) (i : Issue) (left : Option Nat) (load : Load) :
    Works ((s.current op i).startWork op i left load) i.unit op i (if (s.unit i.unit).stalled then none else left) load := by
  have h := (s.current op i).startWork_works op i left load
  rwa [State.current_stalled] at h

theorem State.startWork_unit_other (s : State) (op : Nat) (i : Issue) (left : Option Nat) (load : Load) {v : Nat}
    (h : v ≠ i.unit) : (s.startWork op i left load).unit v = s.unit v := State.onUnit_unit_other _ _ _ h

theorem State.startWork_current_unit_other (s : State) (op : Nat) (i : Issue) (left : Option Nat) (load : Load) {v : Nat}
    (h : v ≠ i.unit) : ((s.current op i).startWork op i left load).unit v = s.unit v := by
  rw [State.startWork_unit_other _ _ _ _ _ h, State.current_unit_other _ _ _ h]

theorem State.endWork_work (s : State) (u : Nat) : ((s.endWork u).unit u).work = none := by
  rw [State.endWork, State.onUnit_unit_same]

theorem State.endWork_unit_other (s : State) {u v : Nat} (h : v ≠ u) : (s.endWork u).unit v = s.unit v :=
  State.onUnit_unit_other _ _ _ h

/-- While no program clears, the end of a work settles nothing else (R45). -/
theorem State.settle_of_not_clearing {s : State} (h : s.program.clearing = false) : s.settle = s := by
  simp [State.settle, h]

end Sys2Proof.Machine
end

section
/-! The weight feeders (R69, R70, R83, R89). -/

namespace Sys2Proof.Machine

open Sys2Proof.Safety

theorem unitDie_feeder {d : Nat} (h : d < 3) : unitDie (0x28 + d) = d := by
  unfold unitDie
  rw [if_pos (by omega)]
  omega

theorem unitDie_array {d u : Nat} (hd : d < 3) (hu : u = 0x10 + d ∨ u = 0x18 + d) : unitDie u = d := by
  unfold unitDie
  rw [if_pos (by omega)]
  omega

/-- A feeder of Table 1.2 is that of its die. -/
theorem feeder_eq {u : Nat} (h1 : 0x28 ≤ u) (h2 : u ≤ 0x2A) : unitDie u < 3 ∧ u = 0x28 + unitDie u := by
  have hdie : unitDie u = u % 8 := if_pos (by omega)
  omega

/-! ### The two arrays of a die -/

/-- The same change in both arrays of a die. -/
def State.onArrays (s : State) (d : Nat) (f : ArrayRegs → ArrayRegs) : State :=
  (s.setArray (0x10 + d) (f (s.array (0x10 + d)))).setArray (0x18 + d) (f (s.array (0x18 + d)))

theorem State.onArrays_array (s : State) {d u : Nat} (f : ArrayRegs → ArrayRegs) (hu : u = 0x10 + d ∨ u = 0x18 + d) :
    (s.onArrays d f).array u = f (s.array u) := by
  obtain rfl | rfl := hu
  · rw [State.onArrays, State.setArray_array_other _ _ _ (by omega), State.setArray_array_same]
  · rw [State.onArrays, State.setArray_array_same]

theorem State.onArrays_array_other (s : State) {d u : Nat} (f : ArrayRegs → ArrayRegs) (h1 : u ≠ 0x10 + d) (h2 : u ≠ 0x18 + d) :
    (s.onArrays d f).array u = s.array u := by
  rw [State.onArrays, State.setArray_array_other _ _ _ h2, State.setArray_array_other _ _ _ h1]

/-- Two changes one after the other, each reading the array as it is then, are one change. -/
theorem State.setArray_setArray_eq_onArrays (s : State) (d : Nat) (f : ArrayRegs → ArrayRegs) :
    (s.setArray (0x10 + d) (f (s.array (0x10 + d)))).setArray (0x18 + d)
      (f ((s.setArray (0x10 + d) (f (s.array (0x10 + d)))).array (0x18 + d))) = s.onArrays d f := by
  rw [State.setArray_array_other _ _ _ (by omega), State.onArrays]

/-! ### Loads -/

/-- A load sets the shadow tags of both arrays and takes the feeder up for 512 cycles (R69). -/
theorem startLoad_eq (op : Nat) (i : Issue) (s : State) : startLoad op i s =
    (s.onArrays (unitDie i.unit) fun a => { a with shadow := { tag := some (s.tile i).tag } }).startWork op i (some 512) .none :=
  congrArg (fun x : State => x.startWork op i (some 512) .none)
    (s.setArray_setArray_eq_onArrays (unitDie i.unit) fun a => { a with shadow := { tag := some (s.tile i).tag } })

/-- A weight row within K enters the shadow registers of both arrays; what it read poisoned or struck is noted. -/
theorem State.loadRow_within {s : State} {i : Issue} {k : Nat} (hk : k < (s.tile i).k) : ∃ x dirty, Notes s x ∧
    s.loadRow i k = x.onArrays (unitDie i.unit) fun a => { a with
      shadow := a.shadow.addRow ((List.range (s.tile i).n).map (s.weight (unitDie i.unit) (s.tile i) k)) dirty } := by
  have hnotes (b : Bool) : Notes s ((if b then s.consume i.unit i.ctx (s.tile i).wsrc else s).strikeOp i.unit i.ctx (s.tile i).wsrc) :=
    (Notes.ite (Notes.consume s _ _ _) (Notes.refl s)).trans (Notes.strikeOp _ _ _ _)
  simp only [State.loadRow, if_neg (Nat.not_le.2 hk), List.foldl_cons, List.foldl_nil]
  generalize s.opPoisoned _ _ _ = bad
  refine ⟨_, bad || s.struckAt i.unit, hnotes bad, ?_⟩
  generalize State.strikeOp _ _ _ _ = x
  rw [← State.setArray_setArray_eq_onArrays]

/-- A weight row that enters leaves the rest of the registers, the units and every byte as they are (R69). -/
theorem State.loadRow_spec (s : State) (i : Issue) (k : Nat) :
    (∀ u, u = 0x10 + unitDie i.unit ∨ u = 0x18 + unitDie i.unit →
      ((s.loadRow i k).array u).shadow.rows = (s.array u).shadow.rows ++
        (if k < (s.tile i).k then
          [(List.range (s.tile i).n).map (s.weight (unitDie i.unit) (s.tile i) k)] else []) ∧
      ((s.loadRow i k).array u).shadow.tag = (s.array u).shadow.tag ∧
      ((s.loadRow i k).array u).active = (s.array u).active) ∧
    (s.loadRow i k).mem.hbm = s.mem.hbm ∧ (s.loadRow i k).mem.ops = s.mem.ops := by
  by_cases hk : k < (s.tile i).k
  · obtain ⟨x, dirty, hnotes, hrow⟩ := State.loadRow_within hk
    rw [hrow, if_pos hk]
    refine ⟨fun u hu => ?_, hnotes.hbm, hnotes.ops⟩
    rw [State.onArrays_array _ _ hu, hnotes.array]
    exact ⟨rfl, rfl, rfl⟩
  · have hnone : s.loadRow i k = s := if_pos (by omega)
    rw [hnone, if_neg hk]
    simp

/-- In a cycle of a load that has its banks the next row enters, and one cycle less is left. -/
theorem State.feederCycle_load {s : State} {u n : Nat} {w : Work} (hwork : (s.unit u).work = some w)
    (hleft : w.left = some (n + 1)) (hop : w.cmd.op ≠ 3) :
    s.feederCycle u true = (s.loadRow w.cmd.issue (511 - n)).onUnit u fun x => { x with work := some { w with left := some n } } := by
  simp only [State.feederCycle, hwork, hleft, if_neg hop]
  rfl

/-! ### SWAP -/

/-- A SWAP in its freeze cycles freezes both arrays of its die (R70, R83). -/
theorem State.freezeCause_of_swap {s : State} {d u : Nat} {w : Work} (lost : Bool) (hd : d < 3) (hu : u = 0x10 + d ∨ u = 0x18 + d)
    (hwork : (s.unit (0x28 + d)).work = some w) (hop : w.cmd.op = 3) (hleft : w.left ≠ some 0) : s.freezeCause u lost = 1 := by
  have hfreezing : s.swapFreezing (unitDie u) = true := by simp [State.swapFreezing, unitDie_array hd hu, hwork, hop]
  have hover : s.swapOver (unitDie u) = false := by simp [State.swapOver, unitDie_array hd hu, hwork, hleft]
  simp [State.freezeCause, hfreezing, hover]

/-- The shadow registers of an array become active, and a swap is counted (R70). -/
theorem State.swapArray_array (s : State) (u : Nat) : (s.swapArray u).array u = { s.array u with active := (s.array u).shadow, shadow := {} } := by
  simp [State.swapArray]

theorem State.swapArray_array_other (s : State) {u v : Nat} (h : v ≠ u) : (s.swapArray u).array v = s.array v := by
  simp [State.swapArray, State.setArray_array_other _ _ _ h]

@[simp] theorem State.swapArray_mem (s : State) (u : Nat) : (s.swapArray u).mem = s.mem := by simp [State.swapArray]

@[simp] theorem State.swapArray_unit (s : State) (u v : Nat) : (s.swapArray u).unit v = s.unit v := by simp [State.swapArray]

@[simp] theorem State.swapArray_program (s : State) (u : Nat) : (s.swapArray u).program = s.program := by
  simp [State.swapArray]

/-- Both arrays of the die swap. -/
theorem State.swapArray_swapArray_array (s : State) {d u : Nat} (hu : u = 0x10 + d ∨ u = 0x18 + d) :
    ((s.swapArray (0x10 + d)).swapArray (0x18 + d)).array u = { s.array u with active := (s.array u).shadow, shadow := {} } := by
  obtain rfl | rfl := hu
  · rw [State.swapArray_array_other _ (by omega), State.swapArray_array]
  · rw [State.swapArray_array, State.swapArray_array_other _ (by omega)]

/-- The end of a SWAP (R70). -/
theorem swapComplete_over {d : Nat} {s : State} (hover : s.swapOver d = true) (hclear : s.program.clearing = false) :
    swapComplete d s = ((s.swapArray (0x10 + d)).swapArray (0x18 + d)).endWork (0x28 + d) := by
  rw [swapComplete, hover, if_pos rfl]
  exact State.settle_of_not_clearing (by simpa using hclear)

/-! ### The end of a load -/

/-- The corner check counts, reports and marks a bad load, and leaves weights and tags (R89). -/
theorem State.cornerCheck_spec (s : State) (i : Issue) (u : Nat) :
    (∀ v, ((s.cornerCheck i u).array v).active = (s.array v).active ∧
      ((s.cornerCheck i u).array v).shadow.tag = (s.array v).shadow.tag ∧
      ((s.cornerCheck i u).array v).shadow.rows = (s.array v).shadow.rows) ∧
    (s.cornerCheck i u).mem = s.mem ∧ (s.cornerCheck i u).program = s.program ∧ (s.cornerCheck i u).units = s.units := by
  unfold State.cornerCheck
  simp only
  split_ifs
  · simp
  · refine ⟨fun v => ?_, by simp, by simp, by simp⟩
    by_cases hv : v = u
    · subst hv
      simp
    · simp [State.setArray_array_other _ _ _ hv]
  · simp

/-- The end of a load: both corner checks, and the feeder is free (R69, R89). -/
theorem loadwComplete_loaded {d : Nat} {s : State} {w : Work} (hwork : (s.unit (0x28 + d)).work = some w)
    (hop : w.cmd.op = 1 ∨ w.cmd.op = 2) (hleft : w.left = some 0) (hclear : s.program.clearing = false) :
    loadwComplete d s = ((s.cornerCheck w.cmd.issue (0x10 + d)).cornerCheck w.cmd.issue (0x18 + d)).endWork (0x28 + d) := by
  have hloaded : s.loaded d = some w := by simp [State.loaded, hwork, hleft, Option.filter, hop]
  obtain ⟨-, -, hprogram1, -⟩ := s.cornerCheck_spec w.cmd.issue (0x10 + d)
  obtain ⟨-, -, hprogram2, -⟩ := (s.cornerCheck w.cmd.issue (0x10 + d)).cornerCheck_spec w.cmd.issue (0x18 + d)
  simp only [loadwComplete, hloaded]
  apply State.settle_of_not_clearing
  rw [State.endWork_program, hprogram2, hprogram1, hclear]

/-- Settles O8: a load as it begins, in each of its cycles and at its end, and a SWAP. -/
theorem feederLoadsAndSwaps : Obligations.FeederLoadsAndSwaps := by
  unfold Obligations.FeederLoadsAndSwaps
  refine ⟨fun i s op c hmem h1 h2 h => ?load, fun d n s w hd hwork hleft hop hunit => ?cycle,
    ⟨fun i s h1 h2 h => ?swap, fun d s hd hover hclear => ?swapEnd⟩, fun d s w hd hwork hop hleft hclear => ?loadEnd⟩
  case load =>
    have hexec : exec c s = .next (startLoad op i (s.current op i)) := by
      simp only [List.mem_cons, Prod.mk.injEq, List.not_mem_nil, or_false] at hmem
      obtain ⟨rfl, rfl⟩ | ⟨rfl, rfl⟩ := hmem
      · exact exec_takes (f := startLoad 1) rfl h
      · exact exec_takes (f := startLoad 2) rfl h
    rw [startLoad_eq] at hexec
    refine ⟨_, hexec, fun u hu => ?_, fun u hu1 hu2 => ?_, s.startWork_current_works op i (some 512) .none,
      fun v hv => s.startWork_current_unit_other op i (some 512) .none hv, rfl⟩
    · rw [State.startWork_array, State.onArrays_array _ _ hu]
      exact ⟨rfl, rfl⟩
    · rw [State.startWork_array, State.onArrays_array_other _ _ hu1 hu2, State.current_array]
  case cycle =>
    have hdie : unitDie w.cmd.issue.unit = d := by rw [hunit, unitDie_feeder hd]
    obtain ⟨harrays, hhbm, hops⟩ := s.loadRow_spec w.cmd.issue (511 - n)
    rw [hdie] at harrays
    rw [State.feederCycle_load hwork hleft (by omega)]
    refine ⟨by rw [State.onUnit_unit_same], fun u hu => ?_, hhbm, hops⟩
    rw [State.onUnit_array]
    exact harrays u hu
  case swap =>
    obtain ⟨hd, hu⟩ := feeder_eq h1 h2
    refine ⟨_, exec_takes (f := startSwap) rfl h, ⟨rfl, fun v hv => s.startWork_current_unit_other 3 i (some 4) .none hv⟩,
      s.startWork_current_works 3 i (some 4) .none, fun u lost harray => ?_⟩
    obtain ⟨w, hwork, hop, -, hleft, -⟩ := s.startWork_current_works 3 i (some 4) .none
    rw [hu] at hwork
    refine State.freezeCause_of_swap lost hd harray hwork hop ?_
    rw [hleft]
    split <;> simp
  case swapEnd =>
    refine ⟨_, congrArg Host.Outcome.next (swapComplete_over hover hclear), fun u hu => ?_, ?_, ?_, fun v hv => ?_⟩
    · rw [State.endWork_array, State.swapArray_swapArray_array s hu]
      exact ⟨rfl, rfl, rfl⟩
    · rw [State.endWork_work]
    · simp
    · simp [State.endWork_unit_other _ hv]
  case loadEnd =>
    obtain ⟨harray1, hmem1, hprogram1, hunits1⟩ := s.cornerCheck_spec w.cmd.issue (0x10 + d)
    obtain ⟨harray2, hmem2, hprogram2, hunits2⟩ := (s.cornerCheck w.cmd.issue (0x10 + d)).cornerCheck_spec w.cmd.issue (0x18 + d)
    refine ⟨_, congrArg Host.Outcome.next (loadwComplete_loaded hwork hop hleft hclear), ?_, fun u => ?_, ?_, ?_, fun v hv => ?_⟩
    · rw [State.endWork_work]
    · obtain ⟨hactive1, htag1, hrows1⟩ := harray1 u
      obtain ⟨hactive2, htag2, hrows2⟩ := harray2 u
      rw [State.endWork_array, hactive2, htag2, hrows2]
      exact ⟨hactive1, htag1, hrows1⟩
    · rw [State.endWork_mem, hmem2, hmem1]
    · rw [State.endWork_program, hprogram2, hprogram1]
    · rw [State.endWork_unit_other _ hv, State.unit, hunits2, hunits1, State.unit]

end Sys2Proof.Machine
end

section
/-! The dense arrays: row groups, the stream of a MATMUL and its end (R63, R71, R73, R75). -/

namespace Sys2Proof.Machine

open Sys2Proof.Safety

/-! ### Row groups -/

/-- The rows that are not skipped. -/
def streamed (l : List (Nat × Bool)) : Nat := (l.filter fun p => !p.2).length

theorem intoGroups_flatten (q : Nat) (l cur : List (Nat × Bool)) (n : Nat) : (intoGroups q l cur n).flatten = cur ++ l := by
  induction l generalizing cur n with
  | nil =>
    rw [intoGroups]
    split <;> simp_all
  | cons p t ih =>
    rw [intoGroups]
    split_ifs
    · simp [ih]
    · simp [ih]
    · simp [ih]

/-- What is gathered counts with what follows: `n` of the gathered rows are streamed. -/
theorem intoGroups_length {q : Nat} (hq : 0 < q) (l cur : List (Nat × Bool)) {n : Nat} (hn : n ≤ q) (hcur : cur = [] → n = 0)
    (h : cur ≠ [] ∨ l ≠ []) : (intoGroups q l cur n).length = max 1 (cdiv (n + streamed l) q) := by
  induction l generalizing cur n with
  | nil =>
    have hone : cdiv n q ≤ 1 := by
      rw [cdiv, ← Nat.lt_succ_iff, Nat.div_lt_iff_lt_mul hq]
      omega
    have hcur : cur ≠ [] := by simpa using h
    rw [intoGroups, if_neg (by simpa using hcur)]
    exact (Nat.max_eq_left hone).symm
  | cons p t ih =>
    rw [intoGroups]
    split_ifs with hskip hfull
    · rw [ih _ hn (by simp) (by simp)]
      simp [streamed, hskip]
    · subst hfull
      rw [List.length_cons, ih _ (by omega) (by simp) (by simp)]
      have hcount : n + streamed (p :: t) = (1 + streamed t) + n := by simp [streamed, hskip]; omega
      rw [hcount, cdiv, cdiv]
      have hdiv : (1 + streamed t + n + n - 1) / n = (1 + streamed t + n - 1) / n + 1 := by
        rw [← Nat.add_div_right _ hq]
        congr 1
        omega
      have hpos : 1 ≤ (1 + streamed t + n - 1) / n := Nat.div_pos (by omega) hq
      omega
    · rw [ih _ (by omega) (by simp) (by simp)]
      congr 2
      simp [streamed, hskip]
      omega

/-! ### The start of a MATMUL -/

/-- A report is on its way as it was raised. -/
theorem State.raise_reports (s : State) (code source die ctx detail : Nat) :
    ∃ r, (s.raise code source die ctx detail).faults.inFlight = s.faults.inFlight ++ [r] ∧ r.2.code = code ∧
      r.2.source = source ∧ r.2.ctx = ctx ∧ r.2.detail = detail := ⟨_, rfl, rfl, rfl, rfl, rfl⟩

/-- The poison of a tile is noted, and so is the report on it. -/
theorem Notes.poisonTile_raise (s : State) (d : Nat) (t : Tile) (code source ctx detail : Nat) :
    Notes s ((s.poisonTile d t).raise code source d ctx detail) := (Notes.poisonTile s d t).trans (Notes.raise _ _ _ _ _ _)

theorem State.current_swapFreezing (s : State) (op : Nat) (i : Issue) (d : Nat) :
    (s.current op i).swapFreezing d = s.swapFreezing d := by
  have hwork : ((s.current op i).unit (0x28 + d)).work = (s.unit (0x28 + d)).work := by
    by_cases h : 0x28 + d = i.unit
    · rw [h, State.current_work]
    · rw [State.current_unit_other _ _ _ h]
  rw [State.swapFreezing, hwork, State.swapFreezing]

/-- A phase begins: the unit runs it, and the other units are as they were. -/
theorem State.startPhase_work (s : State) (op : Nat) (i : Issue) (left tail jobs : Nat) (load : Load) :
    ((s.startPhase op i left tail jobs load).unit i.unit).work = some
      { cmd := { op, issue := i }, left := if (s.unit i.unit).stalled then none else some left, load, tail, jobs } := by
  rw [State.startPhase, State.onUnit_unit_same]

theorem State.startPhase_tails (s : State) (op : Nat) (i : Issue) (left tail jobs : Nat) (load : Load) :
    ((s.startPhase op i left tail jobs load).unit i.unit).tails = (s.unit i.unit).tails := by
  rw [State.startPhase, State.onUnit_unit_same]

theorem State.startPhase_unit_other (s : State) (op : Nat) (i : Issue) (left tail jobs : Nat) (load : Load) {v : Nat}
    (h : v ≠ i.unit) : (s.startPhase op i left tail jobs load).unit v = s.unit v := State.onUnit_unit_other _ _ _ h

/-- The phase of a unit ends: its work is a tail. -/
theorem State.endPhase_unit {s : State} {u : Nat} {w : Work} (h : (s.unit u).work = some w) :
    (s.endPhase u).unit u =
      { s.unit u with work := none, tails := (s.unit u).tails ++ [{ w with left := some w.tail, tail := 0 }] } := by
  rw [State.endPhase, State.onUnit_unit_same]
  simp only [h]

theorem State.endPhase_unit_other (s : State) {u v : Nat} (h : v ≠ u) : (s.endPhase u).unit v = s.unit v :=
  State.onUnit_unit_other _ _ _ h

/-- A MATMUL with a row that streams takes up its row groups (R73). -/
theorem State.stream_rows (s : State) (i : Issue) (t : Tile) (h : ∃ m < t.m, s.skipped (unitDie i.unit) t m = false) :
    ∃ x poison, Notes s x ∧
      s.stream i t = x.startPhase 1 i
        (intoGroups (rowRate t.wfmt t.afmt) ((List.range t.m).map fun m => (m, s.skipped (unitDie i.unit) t m)) [] 0).length 1048 0
        (.stream (intoGroups (rowRate t.wfmt t.afmt) ((List.range t.m).map fun m => (m, s.skipped (unitDie i.unit) t m)) [] 0)
          [] [] poison) := by
  obtain ⟨m, hm, hstream⟩ := h
  have hall : ¬ ((List.range t.m).map fun m => (m, s.skipped (unitDie i.unit) t m)).all (fun p => p.2) = true := by
    intro hall
    have := List.all_eq_true.1 hall _ (List.mem_map_of_mem (List.mem_range.2 hm))
    simp [hstream] at this
  simp only [State.stream, if_neg hall]
  exact ⟨_, _, (Notes.countIf s _ _ _).trans (Notes.ite (Notes.consume _ _ _ _) (Notes.refl _)), rfl⟩

/-- A MATMUL whose rows are all skipped leaves only its tail (R78). -/
theorem State.stream_skipped (s : State) (i : Issue) (t : Tile) (h : ∀ m < t.m, s.skipped (unitDie i.unit) t m = true) :
    ∃ x load, Notes s x ∧ s.stream i t = (x.startPhase 1 i 0 1048 0 load).endPhase i.unit := by
  have hall : ((List.range t.m).map fun m => (m, s.skipped (unitDie i.unit) t m)).all (fun p => p.2) = true := by
    simpa using h
  simp only [State.stream, if_pos hall]
  exact ⟨_, _, (Notes.countIf s _ _ _).trans (Notes.ite (Notes.consume _ _ _ _) (Notes.refl _)), rfl⟩

/-- On the active tag, no SWAP in its freeze cycles, with the route it needs: the array streams (R71). -/
theorem startMatmul_active {i : Issue} {s : State} (htag : (s.array i.unit).active.tag = some (s.tile i).tag)
    (hswap : s.swapFreezing (unitDie i.unit) = false)
    (hroute : ((s.tile i).gather || (s.tile i).scatter) = false ∨ s.routeFresh (unitDie i.unit) (s.tileRoute (s.tile i)) = true) :
    startMatmul i s = s.stream i (s.tile i) := by
  have hstale : ¬ (((s.tile i).gather || (s.tile i).scatter) && !s.routeFresh (unitDie i.unit) (s.tileRoute (s.tile i))) = true := by
    obtain h | h := hroute <;> simp [h]
  simp only [startMatmul, htag, hswap, beq_self_eq_true, Bool.not_false, Bool.and_self, if_true, if_neg hstale]

/-- With a stale route the outputs are poisoned and ROUTE_STALE is raised (R148). -/
theorem startMatmul_stale {i : Issue} {s : State} (htag : (s.array i.unit).active.tag = some (s.tile i).tag)
    (hswap : s.swapFreezing (unitDie i.unit) = false) (huse : ((s.tile i).gather || (s.tile i).scatter) = true)
    (hroute : s.routeFresh (unitDie i.unit) (s.tileRoute (s.tile i)) = false) :
    startMatmul i s = (s.poisonTile (unitDie i.unit) (s.tile i)).raise 0x30B i.unit (unitDie i.unit) i.ctx 0 := by
  simp only [startMatmul, htag, hswap, huse, hroute, beq_self_eq_true, Bool.not_false, Bool.and_self, if_true]

/-- On another tag the outputs are poisoned and WEIGHT_TAG_MISMATCH is raised (R71). -/
theorem startMatmul_mismatch {i : Issue} {s : State} (htag : (s.array i.unit).active.tag ≠ some (s.tile i).tag)
    (hreplay : s.faults.replay.isSome = false) : ∃ detail, startMatmul i s =
      (s.poisonTile (unitDie i.unit) (s.tile i)).raise 0x103 i.unit (unitDie i.unit) i.ctx detail := by
  have htag : ((s.array i.unit).active.tag == some (s.tile i).tag) = false := by simpa using htag
  simp only [startMatmul, htag, hreplay, Bool.false_and, Bool.false_eq_true, if_false]
  exact ⟨_, rfl⟩

/-- A report on a tile whose outputs are poisoned follows those on their way. -/
theorem State.poisonTile_raise_reports (s : State) (d : Nat) (t : Tile) (code source ctx detail : Nat) :
    ∃ r, ((s.poisonTile d t).raise code source d ctx detail).faults.inFlight = s.faults.inFlight ++ [r] ∧ r.2.code = code ∧
      r.2.source = source ∧ r.2.ctx = ctx ∧ r.2.detail = detail := by
  have h := (s.poisonTile d t).raise_reports code source d ctx detail
  rwa [State.poisonTile_faults] at h

/-! ### A row group, and the end of a MATMUL -/

/-- A row group enters: the group that follows those in the array, and the poison it found (R73). -/
theorem State.enterGroup_stream {s : State} {u : Nat} {w : Work} {g : List (Nat × Bool)} {todo : List (List (Nat × Bool))}
    {flight fifo : List Group} {poison : Bool} (h : w.load = .stream (g :: todo) flight fifo poison) :
    ∃ x bad, Notes s (s.enterGroup u w).1 ∧
      (s.enterGroup u w).2 = { w with left := w.left.map (· - 1), load := .stream todo (flight ++ [x]) fifo (poison || bad) } ∧
      x.left = 1048 ∧ x.rows = g.map (fun r => (r.1, if r.2 then { skip := true, y := [], z := 0, u := 0 }
        else productRow (s.array u).active (s.tile w.cmd.issue).n (s.activationRow (unitDie u) (s.tile w.cmd.issue) r.1))) := by
  simp only [State.enterGroup, h, Bool.or_assoc]
  exact ⟨_, _, (Notes.ite (Notes.consume _ _ _ _) (Notes.refl _)).trans (Notes.strikeOp _ _ _ _), rfl, rfl, rfl⟩

/-- A write to an operand store changes memory alone. -/
theorem State.opWrite_state (s : State) (d off : Nat) (bytes : List Byte) (poisoned : Bool) :
    s.opWrite d off bytes poisoned = { s with mem := (s.opWrite d off bytes poisoned).mem } := by
  cases poisoned <;> rfl

@[simp] theorem State.opWrite_units (s : State) (d off : Nat) (bytes : List Byte) (poisoned : Bool) :
    (s.opWrite d off bytes poisoned).units = s.units := by rw [State.opWrite_state]

@[simp] theorem State.opWrite_program (s : State) (d off : Nat) (bytes : List Byte) (poisoned : Bool) :
    (s.opWrite d off bytes poisoned).program = s.program := by rw [State.opWrite_state]

/-- The mask plane of a tile is written to the operand store (R143). -/
theorem State.putMask_writes (s : State) (d : Nat) (t : Tile) (poisoned : Bool) :
    ∃ bytes, s.putMask d t poisoned = if t.maskOut then s.opWrite d (s.maskOutPlane t) bytes poisoned else s := by
  simp only [State.putMask]
  cases t.maskOut
  · exact ⟨[], rfl⟩
  · exact ⟨_, rfl⟩

/-- The mask plane changes no byte of HBM, no unit and not the program. -/
theorem State.putMask_keeps_others (s : State) (d : Nat) (t : Tile) (poisoned : Bool) :
    (s.putMask d t poisoned).units = s.units ∧ (s.putMask d t poisoned).program = s.program ∧
      (s.putMask d t poisoned).mem.hbm = s.mem.hbm := by
  obtain ⟨bytes, h⟩ := s.putMask_writes d t poisoned
  rw [h]
  split <;> simp

@[simp] theorem State.putMask_units (s : State) (d : Nat) (t : Tile) (poisoned : Bool) :
    (s.putMask d t poisoned).units = s.units := (s.putMask_keeps_others d t poisoned).1

@[simp] theorem State.putMask_program (s : State) (d : Nat) (t : Tile) (poisoned : Bool) :
    (s.putMask d t poisoned).program = s.program := (s.putMask_keeps_others d t poisoned).2.1

@[simp] theorem State.putMask_hbm (s : State) (d : Nat) (t : Tile) (poisoned : Bool) :
    (s.putMask d t poisoned).mem.hbm = s.mem.hbm := (s.putMask_keeps_others d t poisoned).2.2

theorem State.putMask_none (s : State) (d : Nat) {t : Tile} (poisoned : Bool) (h : t.maskOut = false) :
    s.putMask d t poisoned = s := by simp [State.putMask, h]

/-- The end of a MATMUL: what its mask plane and its poison leave, without the product (R75, R143). -/
theorem matmulComplete_drained {u : Nat} {s : State} {w : Work} {rest : List Work} (hclass : unitClass u = 1)
    (htails : (s.unit u).tails = w :: rest) (hleft : w.left = some 0) (hdrained : w.drained = true)
    (hclear : s.program.clearing = false) : ∃ x poison, Notes s x ∧
      matmulComplete u s = (x.putMask (unitDie u) (s.tile w.cmd.issue) poison).onUnit u fun y => { y with tails := rest } := by
  simp only [matmulComplete, htails, hclass, hleft, hdrained, and_self, if_true]
  have hnotes (c : Bool) : Notes s (if c = true then s.poisonTile (unitDie u) (s.tile w.cmd.issue) else s) :=
    Notes.ite (Notes.poisonTile _ _ _) (Notes.refl s)
  refine ⟨_, _, hnotes _, State.settle_of_not_clearing ?_⟩
  rw [State.onUnit_program, State.putMask_program, (hnotes _).program, hclear]

/-- Settles O9: the row groups, the start of a MATMUL, the entry of a group and the completion. -/
theorem matmulStreamsAndDrains : Obligations.MatmulStreamsAndDrains := by
  unfold Obligations.MatmulStreamsAndDrains
  refine ⟨fun q l hq hl => ⟨by rw [intoGroups_flatten, List.nil_append], ?groups⟩,
    ⟨fun i s h _ _ htag hswap hroute => ⟨fun hrow => ?stream, fun hrows => ?skipped⟩, fun i s h _ _ htag hreplay => ?mismatch,
      fun i s h _ _ htag hswap huse hroute => ?stale⟩,
    fun u s w g todo flight fifo poison hload => ?enter, fun u s w rest hclass htails hleft hdrained hclear => ?complete⟩
  case groups =>
    rw [intoGroups_length hq l [] (Nat.zero_le q) (fun _ => rfl) (.inr hl), Nat.zero_add, streamed]
  case stream =>
    have hexec : exec (.matmul i) s = .next (startMatmul i (s.current 1 i)) := exec_takes (f := startMatmul) rfl h
    rw [startMatmul_active (s := s.current 1 i) htag ((s.current_swapFreezing _ _ _).trans hswap) hroute] at hexec
    obtain ⟨x, poison, hnotes, hstream⟩ := (s.current 1 i).stream_rows i (s.tile i) hrow
    refine ⟨_, _, _, poison, hexec.trans (congrArg Host.Outcome.next hstream), State.startPhase_work _ _ _ _ _ _ _, rfl,
      rfl, rfl, rfl, ?_, ?_, ?_, ?_, fun v hv => ?_⟩
    · simp only [hnotes.unit, State.current_stalled]
      rfl
    · rw [State.startPhase_mem, hnotes.hbm, State.current_mem]
    · rw [State.startPhase_mem, hnotes.ops, State.current_mem]
    · rw [State.startPhase_arrays, hnotes.arrays, State.current_arrays]
    · rw [State.startPhase_unit_other _ _ _ _ _ _ _ hv, hnotes.unit, State.current_unit_other _ _ _ hv]
  case skipped =>
    have hexec : exec (.matmul i) s = .next (startMatmul i (s.current 1 i)) := exec_takes (f := startMatmul) rfl h
    rw [startMatmul_active (s := s.current 1 i) htag ((s.current_swapFreezing _ _ _).trans hswap) hroute] at hexec
    obtain ⟨x, load, hnotes, hstream⟩ := (s.current 1 i).stream_skipped i (s.tile i) hrows
    have hunit := State.endPhase_unit (x.startPhase_work 1 i 0 1048 0 load)
    refine ⟨_, { cmd := { op := 1, issue := i }, left := some 1048, load := load, tail := 0, jobs := 0 },
      hexec.trans (congrArg Host.Outcome.next hstream), ?_, ?_, rfl, rfl, ?_, ?_, ?_, fun v hv => ?_⟩
    · rw [hunit]
    · rw [hunit, State.startPhase_tails, hnotes.unit, State.current_tails]
    · rw [State.endPhase_mem, State.startPhase_mem, hnotes.hbm, State.current_mem]
    · rw [State.endPhase_mem, State.startPhase_mem, hnotes.ops, State.current_mem]
    · rw [State.endPhase_arrays, State.startPhase_arrays, hnotes.arrays, State.current_arrays]
    · rw [State.endPhase_unit_other _ hv, State.startPhase_unit_other _ _ _ _ _ _ _ hv, hnotes.unit,
        State.current_unit_other _ _ _ hv]
  case mismatch =>
    have hexec : exec (.matmul i) s = .next (startMatmul i (s.current 1 i)) := exec_takes (f := startMatmul) rfl h
    obtain ⟨detail, hstart⟩ := startMatmul_mismatch (s := s.current 1 i) htag hreplay
    rw [hstart] at hexec
    have hnotes := Notes.poisonTile_raise (s.current 1 i) (unitDie i.unit) ((s.current 1 i).tile i) 0x103 i.unit i.ctx detail
    obtain ⟨r, hr, hcode, hsource, hctx, -⟩ := (s.current 1 i).poisonTile_raise_reports (unitDie i.unit) ((s.current 1 i).tile i)
      0x103 i.unit i.ctx detail
    refine ⟨_, r, hexec, hr, hcode, hsource, hctx, ?_, ?_, ?_⟩
    · rw [hnotes.unit, State.current_work, work_none_of_takesEffect h]
    · rw [hnotes.arrays, State.current_arrays]
    · rw [hnotes.ops, State.current_mem]
  case stale =>
    have hexec : exec (.matmul i) s = .next (startMatmul i (s.current 1 i)) := exec_takes (f := startMatmul) rfl h
    rw [startMatmul_stale (s := s.current 1 i) htag ((s.current_swapFreezing _ _ _).trans hswap) huse hroute] at hexec
    have hnotes := Notes.poisonTile_raise (s.current 1 i) (unitDie i.unit) ((s.current 1 i).tile i) 0x30B i.unit i.ctx 0
    obtain ⟨r, hr, hcode, hsource, -, -⟩ := (s.current 1 i).poisonTile_raise_reports (unitDie i.unit) ((s.current 1 i).tile i)
      0x30B i.unit i.ctx 0
    refine ⟨_, r, hexec, hr, hcode, hsource, ?_, ?_⟩
    · rw [hnotes.unit, State.current_work, work_none_of_takesEffect h]
    · rw [hnotes.ops, State.current_mem]
  case enter =>
    obtain ⟨x, bad, hnotes, hwork, hleft, hrows⟩ := State.enterGroup_stream (s := s) (u := u) hload
    refine ⟨x, poison || bad, ?_, fun hp => ?_, hleft, ?_, hrows, hnotes.hbm, hnotes.ops⟩
    · rw [hwork]
    · rw [hp, Bool.true_or]
    · rw [hwork]
  case complete =>
    obtain ⟨x, poison, hnotes, hend⟩ := matmulComplete_drained hclass htails hleft hdrained hclear
    have hunit (v : Nat) : (x.putMask (unitDie u) (s.tile w.cmd.issue) poison).unit v = s.unit v := by
      rw [State.unit, State.putMask_units, hnotes.units, State.unit]
    refine ⟨_, congrArg Host.Outcome.next hend, ?_, ?_, fun v hv => ?_, ?_, fun hmask => ?_⟩
    · rw [State.onUnit_unit_same]
    · rw [State.onUnit_unit_same, hunit]
    · rw [State.onUnit_unit_other _ _ _ hv, hunit]
    · rw [State.onUnit_mem, State.putMask_hbm, hnotes.hbm]
    · rw [State.onUnit_mem, State.putMask_none _ _ _ hmask, hnotes.ops]

end Sys2Proof.Machine
end

section
/-! What a read through the slices leaves, and what storing leaves unchanged (R155–R165, R255–R261, R310, R311). -/

namespace Sys2Proof.Machine

open Sys2Proof.Safety

/-! ### Slices -/

namespace Notes

theorem setSlice (s : State) (k : Nat) (l : List Line) : Notes s (s.setSlice k l) := ⟨rfl, rfl⟩
theorem putLine (s : State) (k : Nat) (l : Line) : Notes s (s.putLine k l) := ⟨rfl, rfl⟩
theorem mend (s : State) (b : Nat) : Notes s (s.mend b) := ⟨rfl, rfl⟩
theorem raiseIn (s : State) (delay code source die ctx detail : Nat) : Notes s (s.raiseIn delay code source die ctx detail) :=
  ⟨rfl, rfl⟩

theorem addLine (s : State) (k : Nat) (l : Line) : Notes s (s.addLine k l) := by
  simp only [State.addLine]
  split
  · exact (setSlice s _ _).trans (ite (mend _ _) (refl _))
  · exact setSlice s _ _

theorem strikeLine (s : State) (b ctx : Nat) : Notes s (s.strikeLine b ctx) := by
  simp only [State.strikeLine]
  exact ite (((chance s _ _).trans (strike _ _ _ _)).trans (poisonHbm _ _ _)) (chance s _ _)

/-- A hit notes its line, but for the last read of a DROP-AFTER-LAST line, which drops its data. -/
theorem claspHit {hint : Nat} {wr : Bool} (h : hint ≠ 3 ∨ wr = true) (s : State) (k uses : Nat) (full : Bool) (l : Line) :
    Notes s (s.claspHit k hint uses wr full l) := by
  simp only [State.claspHit]
  refine ite (ite (putLine s _ _) (ite ((putLine s _ _).trans (count _ _ _ _)) (putLine s _ _))) ?_
  by_cases hdrop : hint = 3
  · obtain rfl := h.resolve_left (not_not_intro hdrop)
    rw [if_pos hdrop, if_pos rfl]
    exact putLine s _ _
  · rw [if_neg hdrop]
    split <;> exact putLine s _ _

theorem claspMiss (s : State) (k hint uses : Nat) (wr full : Bool) (l : Line) : Notes s (s.claspMiss k hint uses wr full l) := by
  unfold State.claspMiss
  extract_lets x
  have hmend : Notes s x := ite (mend s l.block) (refl s)
  refine hmend.trans ?_
  split_ifs
  · exact refl _
  · exact (addLine _ _ _).trans (count _ _ _ _)
  · exact addLine _ _ _
  · exact addLine _ _ _
  · exact refl _
  · exact addLine _ _ _

theorem clasp {hint : Nat} {wr : Bool} (h : hint ≠ 3 ∨ wr = true) (s : State) (b uses : Nat) : Notes s (s.clasp b hint uses wr) := by
  simp only [State.clasp]
  have hage : Notes s { s with mem := { s.mem with age := s.mem.age + 1 } } := ⟨rfl, rfl⟩
  split
  · exact (hage.trans (count _ _ _ _)).trans ((ite (mend _ _) (refl _)).trans (claspHit h _ _ _ _ _))
  · exact (hage.trans (count _ _ _ _)).trans (claspMiss _ _ _ _ _ _ _)

theorem checkBlock (s : State) (b ctx delay : Nat) : Notes s (s.checkBlock b ctx delay) := by
  have hcorrupt : Notes s (s.corruptBlock b) := by
    unfold State.corruptBlock
    exact ite ⟨rfl, rfl⟩ (refl s)
  have hseverity : Notes (s.corruptBlock b) ((s.corruptBlock b).countSeverity b) := by
    simp only [State.countSeverity]
    exact (chance _ _ _).trans (ite (count _ _ _ _) (chance _ _ _))
  simp only [State.checkBlock]
  refine (hcorrupt.trans hseverity).trans ?_
  split
  · exact refl _
  · exact (count _ _ _ _).trans (mend _ _)
  · exact ((count _ _ _ _).trans (raiseIn _ _ _ _ _ _ _)).trans (ite (refl _) (poisonHbm _ _ _))

theorem readBlock {hint : Nat} (h : hint ≠ 3) (s : State) (u ctx b uses : Nat) : Notes s (s.readBlock u ctx b hint uses).1 := by
  simp only [State.readBlock]
  exact ((ite (strikeLine s _ _) (checkBlock s _ _ _)).trans (ite (consume _ _ _ _) (refl _))).trans (clasp (.inl h) _ _ _)

theorem foldl_fst {α β : Type} {f : State × β → α → State × β} (hf : ∀ x a, Notes x.1 (f x a).1) (l : List α) (x : State × β) :
    Notes x.1 (l.foldl f x).1 := by
  induction l generalizing x with
  | nil => exact refl _
  | cons a t ih => exact (hf x a).trans (ih (f x a))

theorem readThrough (s : State) (u ctx a n : Nat) : Notes s (s.readThrough u ctx a n).1 := by
  simp only [State.readThrough]
  refine foldl_fst (fun (x : State × Bool) b => ?_) _ (s, false)
  exact readBlock (hint := 0) (by decide) x.1 u ctx b 0

theorem anyTouch (s : State) (u ctx a n : Nat) : Notes s (s.anyTouch u ctx a n).1 := by
  simp only [State.anyTouch]
  split_ifs
  · exact refl s
  · exact (consume s _ _ _).trans (strikeOp _ _ _ _)
  · exact strikeOp s _ _ _
  · exact readThrough s _ _ _ _

theorem touchWrite (s : State) (ctx b hint uses : Nat) (whole : Bool) : Notes s (s.touchWrite ctx b hint uses whole) := by
  simp only [State.touchWrite]
  split_ifs
  · exact clasp (.inr rfl) _ _ _
  · exact (strikeLine s _ _).trans (clasp (.inr rfl) _ _ _)
  · exact clasp (.inr rfl) _ _ _
  · exact (checkBlock s _ _ _).trans (clasp (.inr rfl) _ _ _)
  · exact (checkBlock s _ _ _).trans (clasp (.inr rfl) _ _ _)

theorem stored (s : State) (d : Nat) (l : List Stored) : Notes s (s.stored d l) := by
  simp only [State.stored]
  exact (ite (refl s) (count _ _ _ _)).trans (ite (refl _) (count _ _ _ _))

theorem countNonFinite (s : State) (d : Nat) (vs : List Num) : Notes s (s.countNonFinite d vs) := by
  simp only [State.countNonFinite]
  exact ite (refl s) (count _ _ _ _)

variable {s t : State}

/-- A state that only notes, written out. -/
theorem exists_eq (h : Notes s t) : ∃ dict faults poison opPoison consumed chances flawed lines age,
    t = { s with dict, faults, mem := { s.mem with poison, opPoison, consumed, chances, flawed, lines, age } } :=
  ⟨_, _, _, _, _, _, _, _, _, by rw [← h.memory]; exact h.state⟩

end Notes

/-! ### Storing -/

/-- From `s` to `t` nothing changes but what storing values may change: dictionary, fault collector, memory, the Locket unit's notes of
them, and the registers of the Sorus engines and Filigrees. -/
def Stores (s t : State) : Prop :=
  t = { s with dict := t.dict, faults := t.faults, mem := t.mem, locket := t.locket, sorus := t.sorus, filigrees := t.filigrees }

theorem Notes.stores {s t : State} (h : Notes s t) : Stores s t := by
  rw [Stores, h.state]

namespace Stores

variable {s t u : State}

theorem refl (s : State) : Stores s s := rfl

theorem trans (h : Stores s t) (k : Stores t u) : Stores s u := by
  unfold Stores at *
  rw [k, h]

theorem units (h : Stores s t) : t.units = s.units := by rw [h]
theorem arrays (h : Stores s t) : t.arrays = s.arrays := by rw [h]
theorem clock (h : Stores s t) : t.clock = s.clock := by rw [h]
theorem program (h : Stores s t) : t.program = s.program := by rw [h]
theorem commit (h : Stores s t) : t.commit = s.commit := by rw [h]
theorem fabric (h : Stores s t) : t.fabric = s.fabric := by rw [h]
theorem traffic (h : Stores s t) : t.traffic = s.traffic := by rw [h]
theorem unit (h : Stores s t) (u : Nat) : t.unit u = s.unit u := by rw [State.unit, h.units, State.unit]

theorem ite {c : Prop} [Decidable c] (h : Stores s t) (k : Stores s u) : Stores s (if c then t else u) := by
  split <;> assumption

theorem foldl {α : Type} {f : State → α → State} (hf : ∀ x a, Stores x (f x a)) (l : List α) (s : State) :
    Stores s (l.foldl f s) := by
  induction l generalizing s with
  | nil => exact refl s
  | cons a t ih => exact (hf s a).trans (ih (f s a))

theorem setSorus (s : State) (d : Nat) (x : Sorus) : Stores s (s.setSorus d x) := rfl
theorem setFiligree (s : State) (d : Nat) (x : Filigree) : Stores s (s.setFiligree d x) := rfl
theorem setMem (s : State) (m : Memory) : Stores s { s with mem := m } := rfl
theorem setLocket (s : State) (l : Locket) : Stores s { s with locket := l } := rfl

theorem opWrite (s : State) (d off : Nat) (bytes : List Byte) (p : Bool) : Stores s (s.opWrite d off bytes p) := by
  rw [Stores, State.opWrite_state]

theorem hbmWrite (s : State) (a : Nat) (bytes : List Byte) (p : Bool) : Stores s (s.hbmWrite a bytes p) := by
  cases p <;> rfl

end Stores

/-! ### Storing into an operand store -/

/-- Values are stored, and no byte of HBM changes. -/
def StoresOps (s t : State) : Prop := Stores s t ∧ t.mem.hbm = s.mem.hbm

theorem Notes.storesOps {s t : State} (h : Notes s t) : StoresOps s t := ⟨h.stores, h.hbm⟩

namespace StoresOps

variable {s t u : State}

theorem stores (h : StoresOps s t) : Stores s t := h.1
theorem hbm (h : StoresOps s t) : t.mem.hbm = s.mem.hbm := h.2

theorem refl (s : State) : StoresOps s s := ⟨.refl s, rfl⟩

theorem trans (h : StoresOps s t) (k : StoresOps t u) : StoresOps s u := ⟨h.stores.trans k.stores, k.hbm.trans h.hbm⟩

theorem ite {c : Prop} [Decidable c] (h : StoresOps s t) (k : StoresOps s u) : StoresOps s (if c then t else u) := by
  split <;> assumption

theorem foldl {α : Type} {f : State → α → State} (hf : ∀ x a, StoresOps x (f x a)) (l : List α) (s : State) :
    StoresOps s (l.foldl f s) := by
  induction l generalizing s with
  | nil => exact refl s
  | cons a t ih => exact (hf s a).trans (ih (f s a))

theorem setSorus (s : State) (d : Nat) (x : Sorus) : StoresOps s (s.setSorus d x) := ⟨.setSorus s d x, rfl⟩
theorem setFiligree (s : State) (d : Nat) (x : Filigree) : StoresOps s (s.setFiligree d x) := ⟨.setFiligree s d x, rfl⟩
theorem setLocket (s : State) (l : Locket) : StoresOps s { s with locket := l } := ⟨.setLocket s l, rfl⟩

theorem opWrite (s : State) (d off : Nat) (bytes : List Byte) (p : Bool) : StoresOps s (s.opWrite d off bytes p) :=
  ⟨.opWrite s d off bytes p, s.opWrite_hbm d off bytes p⟩

theorem noteWritten (s : State) (tensor : Nat) : StoresOps s (s.noteWritten tensor) := by
  unfold State.noteWritten
  split
  · exact ite (refl s) (setLocket s _)
  · exact refl s

theorem reportMax (s : State) (tensor : Nat) (vs : List Num) : StoresOps s (s.reportMax tensor vs) := by
  unfold State.reportMax
  split
  · exact refl s
  · extract_lets x fin bad y
    have hnote : StoresOps s x := ite (refl s) (noteWritten s tensor)
    have hcount : StoresOps s y := ite hnote (hnote.trans (Notes.count _ _ _ _).storesOps)
    exact ite (refl s) (hcount.trans (ite (Notes.count _ _ _ _).storesOps (ite (refl _) (setLocket _ _))))

theorem putVals (s : State) (x : Site) (j e : Nat) (vs : List Num) : StoresOps s (s.putVals x j e vs) :=
  (opWrite s _ _ _ _).trans (Notes.stored _ _ _).storesOps

theorem putPairs (s : State) (x : Site) (lo j e : Nat) (vs : List Num) : StoresOps s (s.putPairs x lo j e vs) :=
  ((opWrite s _ _ _ _).trans (opWrite _ _ _ _ _)).trans (Notes.stored _ _ _).storesOps

theorem setCode (s : State) (d fmt off j c : Nat) (p : Bool) : StoresOps s (s.setCode d fmt off j c p) := by
  unfold State.setCode
  split <;> exact opWrite s _ _ _ _

theorem putRowE2 (s : State) (x : Site) (total j b e : Nat) (vs : List Num) : StoresOps s (s.putRowE2 x total j b e vs) := by
  unfold State.putRowE2
  refine (foldl (fun y p => ?_) _ s).trans (Notes.countNonFinite _ _ _).storesOps
  exact (foldl (fun z q => setCode z _ _ _ _ _ _) _ y).trans (opWrite _ _ _ _ _)

theorem putOut (s : State) (d : Nat) (x : Tile) (m c0 : Nat) (vs : List Num) (p : Bool) : StoresOps s (s.putOut d x m c0 vs p) := by
  simp only [State.putOut]
  exact (ite (putPairs s _ _ _ _ _) (ite (putRowE2 s _ _ _ _ _ _) (putVals s _ _ _ _))).trans (reportMax _ _ _)

theorem drainCols (s : State) (d : Nat) (x : Tile) (m c0 : Nat) (ys : List Num) (p : Bool) :
    StoresOps s (s.drainCols d x m c0 ys p) := ite (refl s) (putOut s _ _ _ _ _ _)

theorem putMask (s : State) (d : Nat) (x : Tile) (p : Bool) : StoresOps s (s.putMask d x p) := by
  obtain ⟨bytes, h⟩ := s.putMask_writes d x p
  rw [h]
  exact ite (opWrite s _ _ _ _) (refl s)

theorem putSampled (s : State) (d : Nat) (x : Tile) (ix : Index) (e : Entry) (vs : List Num) (p : Bool) :
    StoresOps s (s.putSampled d x ix e vs p) := by
  simp only [State.putSampled]
  refine (ite ?_ ?_).trans (reportMax _ _ _)
  · refine (foldl (fun y i => ?_) _ s).trans (Notes.countNonFinite _ _ _).storesOps
    exact (foldl (fun z v => setCode z _ _ _ _ _ _) _ y).trans (opWrite _ _ _ _ _)
  · exact foldl (fun y v => putVals y _ _ _ _) _ s

end StoresOps

/-! ### Storing through the slices -/

/-- Values are stored, and no byte of an operand store changes. -/
def StoresHbm (s t : State) : Prop := Stores s t ∧ t.mem.ops = s.mem.ops

theorem Notes.storesHbm {s t : State} (h : Notes s t) : StoresHbm s t := ⟨h.stores, h.ops⟩

namespace StoresHbm

variable {s t u : State}

theorem stores (h : StoresHbm s t) : Stores s t := h.1
theorem ops (h : StoresHbm s t) : t.mem.ops = s.mem.ops := h.2

theorem refl (s : State) : StoresHbm s s := ⟨.refl s, rfl⟩

theorem trans (h : StoresHbm s t) (k : StoresHbm t u) : StoresHbm s u := ⟨h.stores.trans k.stores, k.ops.trans h.ops⟩

theorem ite {c : Prop} [Decidable c] (h : StoresHbm s t) (k : StoresHbm s u) : StoresHbm s (if c then t else u) := by
  split <;> assumption

theorem foldl {α : Type} {f : State → α → State} (hf : ∀ x a, StoresHbm x (f x a)) (l : List α) (s : State) :
    StoresHbm s (l.foldl f s) := by
  induction l generalizing s with
  | nil => exact refl s
  | cons a t ih => exact (hf s a).trans (ih (f s a))

theorem hbmWrite (s : State) (a : Nat) (bytes : List Byte) (p : Bool) : StoresHbm s (s.hbmWrite a bytes p) :=
  ⟨.hbmWrite s a bytes p, s.hbmWrite_ops a bytes p⟩

theorem noteWritten (s : State) (tensor : Nat) : StoresHbm s (s.noteWritten tensor) := by
  unfold State.noteWritten
  split
  · exact ite (refl s) ⟨.setLocket s _, rfl⟩
  · exact refl s

theorem reportMax (s : State) (tensor : Nat) (vs : List Num) : StoresHbm s (s.reportMax tensor vs) := by
  unfold State.reportMax
  split
  · exact refl s
  · extract_lets x fin bad y
    have hnote : StoresHbm s x := ite (refl s) (noteWritten s tensor)
    have hcount : StoresHbm s y := ite hnote (hnote.trans (Notes.count _ _ _ _).storesHbm)
    exact ite (refl s) (hcount.trans (ite (Notes.count _ _ _ _).storesHbm (ite (refl _) ⟨.setLocket _ _, rfl⟩)))

theorem writeThrough (s : State) (ctx a : Nat) (bytes : List Byte) (p : Bool) : StoresHbm s (s.writeThrough ctx a bytes p) := by
  unfold State.writeThrough
  exact (foldl (fun x b => (Notes.touchWrite x ctx b 0 0 _).storesHbm) _ s).trans (hbmWrite _ _ _ _)

theorem firstUndo (s : State) (mc ctx : Nat) (x : Undo) : StoresHbm s (s.firstUndo mc ctx x) := by
  unfold State.firstUndo State.addUndo
  exact ite (refl s) (ite (Notes.raise _ _ _ _ _ _).storesHbm ⟨.setMem s _, rfl⟩)

theorem recordWrite (s : State) (ctx tensor addr : Nat) (bytes : List Byte) :
    StoresHbm s (s.recordWrite ctx tensor addr bytes) := by
  simp only [State.recordWrite]
  split
  · exact refl s
  · refine ite (refl s) ?_
    split
    · exact (firstUndo s _ _ _).trans (writeThrough _ _ _ _ _)
    · exact (firstUndo s _ _ _).trans (writeThrough _ _ _ _ _)
    · exact (firstUndo s _ _ _).trans (writeThrough _ _ _ _ _)
    · exact firstUndo s _ _ _
    · exact refl s

theorem stepThrough (s : State) (ctx tensor addr : Nat) (bytes : List Byte) (p : Bool) :
    StoresHbm s (s.stepThrough ctx tensor addr bytes p) :=
  ((noteWritten s tensor).trans (recordWrite _ _ _ _ _)).trans (writeThrough _ _ _ _ _)

end StoresHbm

theorem Stores.anyWrite (s : State) (d ctx tensor a : Nat) (bytes : List Byte) (p : Bool) :
    Stores s (s.anyWrite d ctx tensor a bytes p) := .ite (.opWrite s _ _ _ _) (StoresHbm.stepThrough s _ _ _ _ _).stores

/-- A write at an address field leaves the number of operand stores. -/
theorem State.anyWrite_ops_length (s : State) (d ctx tensor a : Nat) (bytes : List Byte) (p : Bool) :
    (s.anyWrite d ctx tensor a bytes p).mem.ops.length = s.mem.ops.length := by
  unfold State.anyWrite
  split
  · rw [State.opWrite_ops, List.length_set]
  · rw [(StoresHbm.stepThrough s _ _ _ _ _).ops]

/-- Bytes written through the slices are read back. -/
theorem State.hbmRead_writeThrough_same (s : State) (ctx a : Nat) (bytes : List Byte) (p : Bool) :
    (s.writeThrough ctx a bytes p).hbmRead a bytes.length = bytes := State.hbmRead_hbmWrite_same _ _ _ _

/-- Bytes written at an address field are read back. -/
theorem State.anyRead_anyWrite_same {s : State} {d : Nat} (hd : d < s.mem.ops.length) (ctx tensor a : Nat) (bytes : List Byte)
    (p : Bool) : (s.anyWrite d ctx tensor a bytes p).anyRead d a bytes.length = bytes := by
  unfold State.anyWrite State.anyRead
  split
  · exact State.opRead_opWrite_same _ _ _ hd
  · exact State.hbmRead_writeThrough_same _ _ _ _ _

end Sys2Proof.Machine
end

section
/-! The Sorus engine: a tile that it takes up, one that fails its checks, and the end of a tile (R106–R134). -/

namespace Sys2Proof.Machine

open Sys2Proof.Safety

/-- A Sorus of Table 1.2 is that of its die. -/
theorem unitDie_sorus {d : Nat} (h : d < 3) : unitDie (0x20 + d) = d := by
  unfold unitDie
  rw [if_pos (by omega)]
  omega

/-! ### A tile that the engine takes up -/

/-- The unit runs the command on a tile in the engine, as `x` gives it but for the lanes that it uses. -/
def RunsTile (t : State) (u : Nat) (c : Cmd) (x : Sparse) : Prop :=
  ∃ w used, (t.unit u).work = some w ∧ w.cmd = c ∧ w.left = none ∧ w.load = .sparse { x with used }

/-- Nothing changes but the record of a unit and the engines. -/
def OnEngine (s t : State) (u : Nat) : Prop :=
  t = { s with units := t.units, sorus := t.sorus } ∧ ∀ v, v ≠ u → t.unit v = s.unit v

theorem OnEngine.onUnit {s t : State} {u : Nat} (h : OnEngine s t u) (f : UnitState → UnitState) : OnEngine s (t.onUnit u f) u := by
  obtain ⟨hstate, hunits⟩ := h
  refine ⟨?_, fun v hv => ?_⟩
  · rw [State.onUnit, State.setUnit, hstate]
  · rw [State.onUnit_unit_other _ _ _ hv, hunits v hv]

theorem OnEngine.onTile {s t : State} {u : Nat} (h : OnEngine s t u) (n : Nat) (f : Sparse → Sparse) :
    OnEngine s (t.onTile u n f) u := by
  unfold State.onTile
  exact h.onUnit _

/-- The lanes that the running tile uses are set. -/
theorem RunsTile.onTile {s : State} {u n : Nat} {c : Cmd} {x : Sparse} (h : RunsTile s u c x) (hn : x.serial = n) (l : List Nat) :
    RunsTile (s.onTile u n fun y => { y with used := l }) u c x := by
  obtain ⟨w, used, hwork, hcmd, hleft, hload⟩ := h
  refine ⟨{ w with load := .sparse { x with used := l } }, l, ?_, hcmd, hleft, rfl⟩
  simp only [State.onTile, State.onUnit_unit_same, hwork, Option.map_some, hload, hn, if_true]

/-- The tail of the running tile is set. -/
theorem RunsTile.setTail {s : State} {u : Nat} {c : Cmd} {x : Sparse} (h : RunsTile s u c x) (n : Nat) :
    RunsTile (s.onUnit u fun y => { y with work := y.work.map fun w => { w with tail := n } }) u c x := by
  obtain ⟨w, used, hwork, hcmd, hleft, hload⟩ := h
  refine ⟨{ w with tail := n }, used, ?_, hcmd, hleft, hload⟩
  simp only [State.onUnit_unit_same, hwork, Option.map_some]

/-- The Sorus takes up a tile under its next number (R106–R111). -/
theorem State.takeTile_runs (s : State) (op : Nat) (i : Issue) (x : Sparse) :
    RunsTile (s.takeTile op i x) i.unit { op, issue := i } { x with serial := (s.engine (unitDie i.unit)).serial } ∧
      OnEngine s (s.takeTile op i x) i.unit := by
  unfold State.takeTile
  extract_lets d g y s1
  have hframe1 : OnEngine s s1 i.unit := OnEngine.onUnit ⟨rfl, fun _ _ => rfl⟩ _
  have hwork1 : (s1.unit i.unit).work = some
      { cmd := { op, issue := i }, left := none, load := .sparse y, jobs := y.todo.length, stuck := (s.unit i.unit).stalled } := by
    rw [State.onUnit_unit_same]
    rfl
  have hruns1 : RunsTile s1 i.unit { op, issue := i } y := ⟨_, y.used, hwork1, rfl, rfl, rfl⟩
  clear_value s1
  split
  next e _ =>
    extract_lets used s2
    have hruns2 : RunsTile s2 i.unit { op, issue := i } y := hruns1.onTile rfl _
    have hframe2 : OnEngine s s2 i.unit := hframe1.onTile _ _
    split
    · exact ⟨hruns2.setTail _, hframe2.onUnit _⟩
    · exact ⟨hruns2, hframe2⟩
  next => exact ⟨hruns1, hframe1⟩

/-! ### The start of an SPMM -/

/-- The shares of the output lines do not depend on what is noted. -/
theorem Notes.shares {s t : State} (h : Notes s t) (ix : Index) (x : Tile) (columns : Bool) (lines : Nat) :
    t.shares ix x columns lines = s.shares ix x columns lines := by
  obtain ⟨dict, faults, poison, opPoison, consumed, chances, flawed, cached, age, rfl⟩ := h.exists_eq
  rfl

/-- The output lines of a tile that is not sampled. -/
theorem mem_lines (m n b l : Nat) :
    (b, l) ∈ (List.range m).flatMap (fun b => (List.range n).map fun x => (b, x)) ↔ b < m ∧ l < n := by
  simp [List.mem_flatMap]

/-- A checked tile: its jobs and lines are before the Sorus (R106, R107, R111). -/
theorem State.runSpmm_takes (s : State) (i : Issue) (t : Tile) (ix : Index) : ∃ x y, Notes s x ∧ s.runSpmm i t ix = x.takeTile 1 i y ∧
    y.head = ix.word ∧ y.next = 0 ∧ y.todo = jobList t.m (s.shares ix t t.wt (t.n / 32)) ∧
    (t.sampled = false → ∀ b l, (b, l) ∈ y.lines ↔ b < cdiv t.m 64 ∧ l < t.n / 32) := by
  unfold State.runSpmm
  extract_lets d lines spilled bad s1 s2 s3
  have hnotes1 : Notes s s1 := Notes.countIf s _ _ _
  have hnotes2 : Notes s s2 := Notes.ite hnotes1 (hnotes1.trans (Notes.count _ _ _ _))
  have hnotes3 : Notes s s3 := Notes.ite (hnotes2.trans (Notes.consume _ _ _ _)) hnotes2
  refine ⟨s3, _, hnotes3, rfl, rfl, rfl, ?_, fun hplain b l => ?_⟩
  · rw [hnotes3.shares]
  · rw [hplain]
    exact mem_lines _ _ b l

/-- A tile that fails a check of header or directories: it is reported and complete 64 cycles on (R122). -/
theorem State.rejectSpmm_spec (s : State) (i : Issue) (t : Tile) (ix : Index) (check : Nat) :
    (∃ r, (s.rejectSpmm i t ix check).faults.inFlight = s.faults.inFlight ++ [r] ∧ r.2.code = 0x102 ∧ r.2.source = i.unit) ∧
    ((s.rejectSpmm i t ix check).unit i.unit).work = (s.unit i.unit).work ∧
    (∃ w, ((s.rejectSpmm i t ix check).unit i.unit).tails = (s.unit i.unit).tails ++ [w] ∧
      w.left = if (s.unit i.unit).stalled then none else some 64) ∧
    (s.rejectSpmm i t ix check).mem.ops = s.mem.ops := by
  unfold State.rejectSpmm
  extract_lets d a s1 s2
  have hnotes1 : Notes s s1 := (Notes.count s _ _ _).trans (Notes.raise _ _ _ _ _ _)
  have hnotes2 : Notes s s2 := Notes.ite (hnotes1.trans (Notes.poisonOp _ _ _ _)) (hnotes1.trans (Notes.poisonTile _ _ _))
  have hfaults : s2.faults = s1.faults := by
    show (if _ then _ else _ : State).faults = _
    split
    · rfl
    · rw [State.poisonTile_faults]
  have hreport : ∃ r, s1.faults.inFlight = s.faults.inFlight ++ [r] ∧ r.2.code = 0x102 ∧ r.2.source = i.unit := ⟨_, rfl, rfl, rfl⟩
  rw [← hfaults] at hreport
  clear_value s2
  refine ⟨?_, ?_, ?_, ?_⟩
  · rwa [State.onUnit_faults]
  · rw [State.onUnit_unit_same, hnotes2.unit]
  · rw [State.onUnit_unit_same, hnotes2.unit]
    exact ⟨_, rfl, rfl⟩
  · rw [State.onUnit_mem, hnotes2.ops]

/-! ### The end of a tile -/

/-- A line that the drain writes is stored. -/
theorem Stores.writeLine (s : State) (u : Nat) (e : InEngine) (l : Nat × Nat) : Stores s (s.writeLine u e l) := by
  unfold State.writeLine
  extract_lets d g mine sums s1 ix b
  have hstores : Stores s s1 := Stores.setSorus s d _
  refine hstores.trans (Stores.ite ?_ (Stores.ite ?_ ?_))
  · unfold State.putScore
    exact ((Stores.anyWrite _ _ _ _ _ _ _).trans (Notes.stored _ _ _).stores).trans (StoresOps.reportMax _ _ _).stores
  · exact (StoresOps.putSampled _ _ _ _ _ _ _).stores
  · exact Stores.foldl (fun x m => (StoresOps.drainCols x _ _ _ _ _ _).stores) _ _

theorem Notes.poisonOutputs (s : State) (d : Nat) (e : InEngine) : Notes s (s.poisonOutputs d e) :=
  ite (refl s) (ite (poisonOp s _ _ _) (poisonTile s _ _))

/-- A tile leaves the engine: what it still held is stored, and its accumulators and lines are gone. -/
theorem State.leaveEngine_spec (s : State) (u : Nat) (e : InEngine) : Stores s (s.leaveEngine u e) ∧
    (∀ a ∈ ((s.leaveEngine u e).engine (unitDie u)).accs, a.serial ≠ e.x.serial) ∧
    ∀ h ∈ ((s.leaveEngine u e).engine (unitDie u)).drain, h.serial ≠ e.x.serial := by
  unfold State.leaveEngine
  extract_lets d n rest s1 s2 s3 g
  have hstores1 : Stores s s1 := Stores.ite (.refl s) (Stores.foldl (fun x l => .writeLine x u e l) _ s)
  have hstores2 : Stores s s2 := Stores.ite (hstores1.trans (Notes.poisonOutputs _ _ _).stores) hstores1
  have hstores3 : Stores s s3 := Stores.ite hstores2 (hstores2.trans (StoresOps.putMask _ _ _ _).stores)
  refine ⟨hstores3.trans (.setSorus _ _ _), ?_, ?_⟩
  · rw [State.setSorus_engine_same]
    simp [n]
  · rw [State.setSorus_engine_same]
    simp [n]

/-- The end of the oldest tile of an opcode that is through: it leaves the unit, and where it was in the engine, the engine too
(R111, R112). -/
theorem State.completeTile_spec {s : State} {d op : Nat} {w : Work} (hd : d < 3) (hdone : s.sparseDone d op = some w)
    (hclear : s.program.clearing = false) :
    ((s.completeTile d op).unit (0x20 + d)).tails = (s.unit (0x20 + d)).tails.erase w ∧
    ((s.completeTile d op).unit (0x20 + d)).work = (s.unit (0x20 + d)).work ∧
    (∀ e, s.inEngine w = some e →
      (∀ a ∈ ((s.completeTile d op).engine d).accs, a.serial ≠ e.x.serial) ∧
      ∀ h ∈ ((s.completeTile d op).engine d).drain, h.serial ≠ e.x.serial) ∧
    (s.inEngine w = none → (s.completeTile d op).mem = s.mem) := by
  have hend (x : State) (hx : Stores s x) : (x.onUnit (0x20 + d) fun y => { y with tails := y.tails.erase w }).settle =
      x.onUnit (0x20 + d) fun y => { y with tails := y.tails.erase w } :=
    State.settle_of_not_clearing (by rw [State.onUnit_program, hx.program, hclear])
  simp only [State.completeTile, hdone]
  split
  next e he =>
    obtain ⟨hstores, haccs, hdrain⟩ := s.leaveEngine_spec (0x20 + d) e
    rw [unitDie_sorus hd] at haccs hdrain
    rw [hend _ hstores, State.onUnit_unit_same, hstores.unit, State.onUnit_engine]
    refine ⟨rfl, rfl, fun e' he' => ?_, fun hnone => absurd hnone (by simp [he])⟩
    obtain rfl : e = e' := by simpa [he] using he'
    exact ⟨haccs, hdrain⟩
  next he =>
    rw [hend _ (.refl s), State.onUnit_unit_same, State.onUnit_mem]
    exact ⟨rfl, rfl, fun e he' => absurd he' (by simp [he]), fun _ => rfl⟩

/-! ### SPMM -/

theorem startSpmm_stale {i : Issue} {s : State} (huse : ((s.tile i).gather || (s.tile i).scatter) = true)
    (hroute : s.routeFresh (unitDie i.unit) (s.tileRoute (s.tile i)) = false) :
    startSpmm i s = (s.poisonTile (unitDie i.unit) (s.tile i)).raise 0x30B i.unit (unitDie i.unit) i.ctx 0 := by
  simp only [startSpmm, huse, hroute, Bool.not_false, Bool.and_self, if_true]

/-- The check that the index of an SPMM fails, if any (R121, R122). -/
def State.spmmCheck (s : State) (i : Issue) : Option Nat :=
  s.headChecks (s.index (unitDie i.unit) (s.tile i).sidx) (s.tile i)
    (opOffset (if (s.tile i).sampled then (s.tile i).dst else (s.tile i).wsrc)) (s.tile i).wfmt
    (if (s.tile i).wt then ((s.tile i).k / 32, (s.tile i).n / 32) else ((s.tile i).n / 32, (s.tile i).k / 32))

theorem State.current_spmmCheck (s : State) (op : Nat) (i j : Issue) : (s.current op i).spmmCheck j = s.spmmCheck j := rfl

/-- An SPMM with the route that it needs, whose index passes its checks. -/
theorem startSpmm_passes {i : Issue} {s : State}
    (hroute : ((s.tile i).gather || (s.tile i).scatter) = false ∨ s.routeFresh (unitDie i.unit) (s.tileRoute (s.tile i)) = true)
    (hpass : s.spmmCheck i = none) : startSpmm i s = s.runSpmm i (s.tile i) (s.index (unitDie i.unit) (s.tile i).sidx) := by
  have hstale : ¬ (((s.tile i).gather || (s.tile i).scatter) && !s.routeFresh (unitDie i.unit) (s.tileRoute (s.tile i))) = true := by
    obtain h | h := hroute <;> simp [h]
  unfold State.spmmCheck at hpass
  simp only [startSpmm, if_neg hstale, hpass]

/-- An SPMM with the route that it needs, whose index fails a check. -/
theorem startSpmm_fails {i : Issue} {s : State} {check : Nat}
    (hroute : ((s.tile i).gather || (s.tile i).scatter) = false ∨ s.routeFresh (unitDie i.unit) (s.tileRoute (s.tile i)) = true)
    (hfail : s.spmmCheck i = some check) :
    startSpmm i s = s.rejectSpmm i (s.tile i) (s.index (unitDie i.unit) (s.tile i).sidx) check := by
  have hstale : ¬ (((s.tile i).gather || (s.tile i).scatter) && !s.routeFresh (unitDie i.unit) (s.tileRoute (s.tile i))) = true := by
    obtain h | h := hroute <;> simp [h]
  unfold State.spmmCheck at hfail
  simp only [startSpmm, if_neg hstale, hfail]

/-- Settles O10: an SPMM that passes its checks, one that fails them, one with a stale route, and the completion. -/
theorem spmmRunsAndDrains : Obligations.SpmmRunsAndDrains := by
  unfold Obligations.SpmmRunsAndDrains
  refine ⟨⟨fun i s h _ _ hroute hpass _ => ?runs, fun i s check h _ _ hroute hfail => ?fails,
    fun i s h _ _ huse hroute => ?stale⟩, fun d s w hd hdone hclear => ?ends⟩
  case runs =>
    have hexec : exec (.spmm i) s = .next (startSpmm i (s.current 1 i)) := exec_takes (f := startSpmm) rfl h
    rw [startSpmm_passes (s := s.current 1 i) hroute ((s.current_spmmCheck 1 i i).trans hpass)] at hexec
    obtain ⟨x, y, hnotes, htakes, hhead, hnext, htodo, hlines⟩ := (s.current 1 i).runSpmm_takes i ((s.current 1 i).tile i)
      ((s.current 1 i).index (unitDie i.unit) ((s.current 1 i).tile i).sidx)
    obtain ⟨⟨w, used, hwork, hcmd, hleft, hload⟩, hstate, hunits⟩ := x.takeTile_runs 1 i y
    refine ⟨_, w, _, hexec.trans (congrArg Host.Outcome.next htakes), hwork, hcmd, hleft, hload, hnext, ?_, ?_, ?_, ?_,
      ?_, ?_, ?_, fun v hv => ?_⟩
    · show (x.engine (unitDie i.unit)).serial = _
      rw [State.engine, hnotes.sorus]
      rfl
    · exact hhead
    · exact htodo
    · exact hlines
    · rw [hstate, hnotes.hbm, State.current_mem]
    · rw [hstate, hnotes.ops, State.current_mem]
    · rw [hstate, hnotes.arrays, State.current_arrays]
    · rw [hunits v hv, hnotes.unit, State.current_unit_other _ _ _ hv]
  case fails =>
    have hexec : exec (.spmm i) s = .next (startSpmm i (s.current 1 i)) := exec_takes (f := startSpmm) rfl h
    rw [startSpmm_fails (s := s.current 1 i) hroute ((s.current_spmmCheck 1 i i).trans hfail)] at hexec
    obtain ⟨⟨r, hr, hcode, hsource⟩, hwork, ⟨w, htails, hleft⟩, hops⟩ := (s.current 1 i).rejectSpmm_spec i ((s.current 1 i).tile i)
      ((s.current 1 i).index (unitDie i.unit) ((s.current 1 i).tile i).sidx) check
    refine ⟨_, r, w, hexec, hr, hcode, hsource, ?_, ?_, ?_, ?_⟩
    · rw [hwork, State.current_work, work_none_of_takesEffect h]
    · rw [htails, State.current_tails]
    · rw [hleft, State.current_stalled]
    · rw [hops, State.current_mem]
  case stale =>
    have hexec : exec (.spmm i) s = .next (startSpmm i (s.current 1 i)) := exec_takes (f := startSpmm) rfl h
    rw [startSpmm_stale (s := s.current 1 i) huse hroute] at hexec
    have hnotes := Notes.poisonTile_raise (s.current 1 i) (unitDie i.unit) ((s.current 1 i).tile i) 0x30B i.unit i.ctx 0
    obtain ⟨r, hr, hcode, hsource, -, -⟩ := (s.current 1 i).poisonTile_raise_reports (unitDie i.unit) ((s.current 1 i).tile i)
      0x30B i.unit i.ctx 0
    refine ⟨_, r, hexec, hr, hcode, hsource, ?_, ?_⟩
    · rw [hnotes.unit, State.current_work, work_none_of_takesEffect h]
    · rw [hnotes.ops, State.current_mem]
  case ends =>
    obtain ⟨htails, hwork, hengine, hnone⟩ := State.completeTile_spec hd hdone hclear
    exact ⟨_, rfl, htails, hwork, hengine, hnone⟩

end Sys2Proof.Machine
end

section
/-! The kernels of the Filigree (R184–R192, R213, R215). -/

namespace Sys2Proof.Machine

open Sys2Proof.Safety

theorem unitDie_filigree {d : Nat} (h : d < 3) : unitDie (0x30 + d) = d := by
  unfold unitDie
  rw [if_pos (by omega)]
  omega

/-! ### What settling leaves -/

/-- The end of a program's last work clears the arrays: memory, dictionary and units are as before (R45). -/
theorem State.settle_keeps_others (s : State) : s.settle.mem = s.mem ∧ s.settle.dict = s.dict ∧ s.settle.units = s.units := by
  unfold State.settle
  split <;> simp

@[simp] theorem State.settle_mem (s : State) : s.settle.mem = s.mem := s.settle_keeps_others.1
@[simp] theorem State.settle_dict (s : State) : s.settle.dict = s.dict := s.settle_keeps_others.2.1
@[simp] theorem State.settle_unit (s : State) (u : Nat) : s.settle.unit u = s.unit u := by
  rw [State.unit, s.settle_keeps_others.2.2, State.unit]

theorem State.get_congr {s t : State} (h : t.dict = s.dict) (index sub : Nat) : t.get index sub = s.get index sub := by
  rw [State.get, h, State.get]

/-! ### Kernels from the table -/

namespace StoresOps

theorem putRow (s : State) (d : Nat) (k : Kernel) (r : Nat) (vs : List Num) (p : Bool) : StoresOps s (s.putRow d k r vs p) :=
  (putVals s _ _ _ _).trans (reportMax _ _ _)

theorem kernelClear (s : State) (d : Nat) (k : Kernel) : StoresOps s (s.kernelClear d k) := ite (setFiligree s _ _) (refl s)

theorem kernelStep (s : State) (d : Nat) (k : Kernel) (p : Bool) (r : Nat) : StoresOps s (s.kernelStep d k p r) := by
  unfold State.kernelStep
  extract_lets f rs cols width at0
  split
  · exact (putRow s _ _ _ _ _).trans (ite (refl _) ((putVals _ _ _ _ _).trans (reportMax _ _ _)))
  · exact putRow s _ _ _ _ _
  · exact (putRow s _ _ _ _ _).trans (ite (refl _) ((putPairs _ _ _ _ _ _).trans (reportMax _ _ _)))
  · exact setFiligree s _ _
  · exact (putPairs s _ _ _ _ _).trans (reportMax _ _ _)
  · exact putRow s _ _ _ _ _
  · exact putRow s _ _ _ _ _
  · exact ((putRow s _ _ _ _ _).trans (putVals _ _ _ _ _)).trans (reportMax _ _ _)

theorem kernelColumns (s : State) (d : Nat) (k : Kernel) (p : Bool) : StoresOps s (s.kernelColumns d k p) := by
  unfold State.kernelColumns
  exact ite ((putVals s _ _ _ _).trans (reportMax _ _ _)) (refl s)

end StoresOps

/-- A kernel of the table notes what its operands hold and clears its memories where it is to; then it waits for its rows or runs
over them (R187, R188). -/
theorem startTableKernel_eq (i : Issue) (s : State) : ∃ x poisoned, StoresOps s x ∧ x.mem.ops = s.mem.ops ∧
    startTableKernel i s =
      if kernelFed (s.kernel i).code then x.startWork 1 i none (.kernel 0 0 0 [])
      else (((List.range (s.kernel i).rows).foldl (fun y r => y.kernelStep (unitDie i.unit) (s.kernel i) poisoned r) x).kernelColumns
        (unitDie i.unit) (s.kernel i) poisoned).startWork 1 i (some (s.kernel i).cycles) .none := by
  unfold startTableKernel
  extract_lets d k s1 s2 poisoned s3
  have hnotes1 : Notes s s1 := by
    show Notes s (match s.kernelPoisonAt d k with | some a => _ | none => s)
    split
    · exact Notes.consume s _ _ _
    · exact Notes.refl s
  have hnotes2 : Notes s1 s2 := by
    show Notes s1 (match k.reads.find? _ with | some p => _ | none => s1)
    split
    · exact Notes.strikeOp _ _ _ _
    · exact Notes.refl _
  have hops : s3.mem.ops = s2.mem.ops := by
    show (if _ then _ else _ : State).mem.ops = _
    split <;> rfl
  have hnotes : Notes s s2 := hnotes1.trans hnotes2
  exact ⟨s3, poisoned, hnotes.storesOps.trans (StoresOps.kernelClear _ _ _), hops.trans hnotes.ops, rfl⟩

/-- A drain-fed kernel waits for its rows; no operand byte changes (R188). -/
theorem startTableKernel_fed {i : Issue} {s : State} (hfed : kernelFed (s.kernel i).code = true) :
    ∃ x, StoresOps s x ∧ x.mem.ops = s.mem.ops ∧ startTableKernel i s = x.startWork 1 i none (.kernel 0 0 0 []) := by
  obtain ⟨x, poisoned, hstores, hops, h⟩ := startTableKernel_eq i s
  exact ⟨x, hstores, hops, h.trans (if_pos hfed)⟩

/-- A standalone kernel works for its cycles (R188). -/
theorem startTableKernel_standalone {i : Issue} {s : State} (hfed : kernelFed (s.kernel i).code = false) :
    ∃ x, StoresOps s x ∧ startTableKernel i s = x.startWork 1 i (some (s.kernel i).cycles) .none := by
  obtain ⟨x, poisoned, hstores, -, h⟩ := startTableKernel_eq i s
  have hrows : StoresOps s ((List.range (s.kernel i).rows).foldl
      (fun y r => y.kernelStep (unitDie i.unit) (s.kernel i) poisoned r) x) :=
    hstores.trans (StoresOps.foldl (fun y r => StoresOps.kernelStep y _ _ _ r) _ _)
  exact ⟨_, hrows.trans (StoresOps.kernelColumns _ _ _ _), h.trans (if_neg (by simp [hfed]))⟩

/-! ### Exchange kernels -/

/-- PACK and PACKP whose output fits leave their bytes in the operand store (R213, R215). -/
theorem startPack_fits {i : Issue} {s : State} {bytes : List Byte}
    (hbytes : bytes = if (s.kernel i).code = 0x40 then (s.pack (unitDie i.unit) (s.kernel i)).1
      else (s.packPrivileged (unitDie i.unit) (s.kernel i)).1)
    (hfits : inStore (s.kernel i).dst bytes.length = true) :
    ∃ x y poisoned, Notes s x ∧ StoresHbm (x.opWrite (unitDie i.unit) (s.kernel i).dst bytes poisoned) y ∧
      y.mem.hbm = s.mem.hbm ∧ startPack i s = y.startWork 1 i
        (some (64 + max (cdiv ((s.kernel i).rows * (s.kernel i).cols * (kernelOps (s.kernel i).code).getD 1) 16384)
          (cdiv (2 * ((s.kernel i).rows * (s.kernel i).cols) + bytes.length) 8192))) .none := by
  unfold startPack
  extract_lets d k n p out read s1 dirty s2 s3 s4 cycles
  have hout : out.1 = bytes := by
    rw [hbytes]
    show (if _ then _ else _ : List Byte × List Stored × Nat).1 = _
    split <;> rfl
  have hnotes1 : Notes s s1 := Notes.anyTouch s _ _ _ _
  have hnotes3 : Notes (s1.opWrite d k.dst out.1 dirty) s3 :=
    (Notes.stored _ _ _).trans (Notes.ite (Notes.refl _) (Notes.count _ _ _ _))
  have hstores4 : StoresHbm (s1.opWrite d k.dst out.1 dirty) s4 := StoresHbm.ite
    (hnotes3.storesHbm.trans (StoresHbm.reportMax _ _ _)) hnotes3.storesHbm
  have hhbm4 : s4.mem.hbm = s3.mem.hbm := by
    show (if _ then _ else _ : State).mem.hbm = _
    split
    · exact (StoresOps.reportMax _ _ _).hbm
    · rfl
  rw [hout] at hstores4 hnotes3
  refine ⟨s1, s4, dirty, hnotes1, hstores4, ?_, ?_⟩
  · rw [hhbm4, hnotes3.hbm, State.opWrite_hbm, hnotes1.hbm]
  · rw [hout, if_neg (by simpa [k] using hfits)]
    simp only [cycles, hout, n, k]

/-! ### The end of a kernel -/

theorem kernelDone_work {s : State} {d : Nat} (h : s.kernelDone d = true) : ∃ w, (s.unit (0x30 + d)).work = some w := by
  unfold State.kernelDone at h
  split at h
  next w hw => exact ⟨w, hw⟩
  next => exact absurd h (by simp)

theorem kernelComplete_done {d : Nat} {s : State} (h : s.kernelDone d = true) :
    ∃ c, kernelComplete d s = (((s.count 0x6058 (d + 1) 1).countIf c 0x7044 (d + 1)).endWork (0x30 + d)).settle := by
  obtain ⟨w, hw⟩ := kernelDone_work h
  simp only [kernelComplete, hw, h, if_true]
  exact ⟨_, rfl⟩

/-- A counter below its end counts. -/
theorem State.count_get {s : State} {index sub : Nat} (n : Nat) (h : s.get index sub + n < objLimit index sub) :
    (s.count index sub n).get index sub = s.get index sub + n := by
  rw [State.count, State.put_get_same, Machine.counted, if_pos h]

@[simp] theorem State.countIf_mem (s : State) (c : Bool) (index sub : Nat) : (s.countIf c index sub).mem = s.mem := by
  unfold State.countIf
  split
  · rw [State.count_mem]
  · rfl

theorem State.countIf_get_other (s : State) (c : Bool) {index sub i j : Nat} (h : objKey i j ≠ objKey index sub) :
    (s.countIf c index sub).get i j = s.get i j := by
  unfold State.countIf
  split
  · exact State.put_get_other _ _ _ _ h
  · rfl

/-- Settles O11: the three kinds of kernel as they take effect, and the completion. -/
theorem kernelsRunAndAreCounted : Obligations.KernelsRunAndAreCounted := by
  unfold Obligations.KernelsRunAndAreCounted
  refine ⟨fun i s h _ _ => ⟨fun hcode hfed => ?fed, fun hcode hfed => ?standalone, fun bytes hcode hbytes hfits => ?pack⟩,
    fun d s hd hdone hcount => ?complete⟩
  case fed =>
    have hexec : exec (.kernel i) s = .next (startKernel i (s.current 1 i)) := exec_takes (f := startKernel) rfl h
    rw [startKernel, if_pos (show ((s.current 1 i).kernel i).code < 0x40 from hcode)] at hexec
    obtain ⟨x, hstores, hops, hstart⟩ := startTableKernel_fed (s := s.current 1 i) hfed
    refine ⟨_, hexec.trans (congrArg Host.Outcome.next hstart), ?_, ?_, ?_⟩
    · simpa using x.startWork_works 1 i none (.kernel 0 0 0 [])
    · rw [State.startWork_mem, hstores.hbm, State.current_mem]
    · rw [State.startWork_mem, hops, State.current_mem]
  case standalone =>
    have hexec : exec (.kernel i) s = .next (startKernel i (s.current 1 i)) := exec_takes (f := startKernel) rfl h
    rw [startKernel, if_pos (show ((s.current 1 i).kernel i).code < 0x40 from hcode)] at hexec
    obtain ⟨x, hstores, hstart⟩ := startTableKernel_standalone (s := s.current 1 i) hfed
    refine ⟨_, hexec.trans (congrArg Host.Outcome.next hstart), ?_, ?_⟩
    · rw [State.startWork_mem, hstores.hbm, State.current_mem]
    · have hworks := x.startWork_works 1 i (some ((s.current 1 i).kernel i).cycles) .none
      rwa [hstores.stores.unit, State.current_stalled] at hworks
  case pack =>
    have hexec : exec (.kernel i) s = .next (startKernel i (s.current 1 i)) := exec_takes (f := startKernel) rfl h
    rw [startKernel, if_neg (show ¬ ((s.current 1 i).kernel i).code < 0x40 from Nat.not_lt.2 hcode)] at hexec
    obtain ⟨x, y, poisoned, hnotes, hstores, hhbm, hstart⟩ := startPack_fits (s := s.current 1 i) hbytes hfits
    refine ⟨_, hexec.trans (congrArg Host.Outcome.next hstart), ?_, ?_, fun hd => ?_⟩
    · rw [State.startWork_mem, hhbm, State.current_mem]
    · have hworks := y.startWork_works 1 i (some (64 + max (cdiv ((s.kernel i).rows * (s.kernel i).cols *
        (kernelOps (s.kernel i).code).getD 1) 16384) (cdiv (2 * ((s.kernel i).rows * (s.kernel i).cols) + bytes.length) 8192))) .none
      rw [hstores.stores.unit, State.unit, State.opWrite_units, hnotes.units] at hworks
      rwa [← State.unit, State.current_stalled] at hworks
    · have hread := x.opRead_opWrite_same (s.kernel i).dst bytes poisoned (d := unitDie i.unit)
        (by rwa [hnotes.ops, State.current_mem])
      rw [State.startWork_opRead, State.opRead, State.opStore, hstores.ops]
      exact hread
  case complete =>
    obtain ⟨c, hend⟩ := kernelComplete_done hdone
    refine ⟨_, congrArg Host.Outcome.next hend, ?_, ?_, ?_, fun v hv => ?_⟩
    · rw [State.settle_unit, State.endWork_work]
    · rw [State.get_congr (State.settle_dict _), State.endWork_get,
        State.countIf_get_other _ _ (by simp only [objKey]; omega), State.count_get 1 hcount]
    · rw [State.settle_mem, State.endWork_mem, State.countIf_mem, State.count_mem]
    · rw [State.settle_unit, State.endWork_unit_other _ hv, (Notes.countIf _ _ _ _).unit, (Notes.count _ _ _ _).unit]

end Sys2Proof.Machine
end

section
/-! Mask evolution and routing: PRUNE, REGROW, SCORE, ROUTE and their ends (R125–R134, R145–R149). -/

namespace Sys2Proof.Machine

open Sys2Proof.Safety

/-! ### What mask operations read does not depend on counters, reports and units -/

/-- The bytes and registers that operations read are the same in both states: they differ in units, counters, reports and marks. -/
def SameBytes (s t : State) : Prop :=
  ∃ units dict faults poison opPoison consumed chances flawed lines age,
    t = { s with units, dict, faults, mem := { s.mem with poison, opPoison, consumed, chances, flawed, lines, age } }

theorem Notes.sameBytes {s t : State} (h : Notes s t) : SameBytes s t := by
  obtain ⟨dict, faults, poison, opPoison, consumed, chances, flawed, cached, age, h⟩ := h.exists_eq
  exact ⟨s.units, dict, faults, poison, opPoison, consumed, chances, flawed, cached, age, h⟩

theorem State.current_sameBytes (s : State) (op : Nat) (i : Issue) : SameBytes s (s.current op i) :=
  ⟨_, _, _, _, _, _, _, _, _, _, rfl⟩

namespace SameBytes

variable {s t : State}

theorem maskOp (h : SameBytes s t) (i : Issue) : t.maskOp i = s.maskOp i := by
  obtain ⟨units, dict, faults, poison, opPoison, consumed, chances, flawed, cached, age, rfl⟩ := h
  rfl

theorem maskTile (h : SameBytes s t) (p : MaskOp) : t.maskTile p = s.maskTile p := by
  obtain ⟨units, dict, faults, poison, opPoison, consumed, chances, flawed, cached, age, rfl⟩ := h
  rfl

theorem index (h : SameBytes s t) (d sidx : Nat) : t.index d sidx = s.index d sidx := by
  obtain ⟨units, dict, faults, poison, opPoison, consumed, chances, flawed, cached, age, rfl⟩ := h
  rfl

theorem sparseTile (h : SameBytes s t) (c : Cmd) : t.sparseTile c = s.sparseTile c := by
  obtain ⟨units, dict, faults, poison, opPoison, consumed, chances, flawed, cached, age, rfl⟩ := h
  rfl

theorem maskStep (h : SameBytes s t) (p : MaskOp) : t.maskStep p = s.maskStep p := by
  obtain ⟨units, dict, faults, poison, opPoison, consumed, chances, flawed, cached, age, rfl⟩ := h
  rfl

theorem maskChecks (h : SameBytes s t) (x : Tile) (ix : Index) : t.maskChecks x ix = s.maskChecks x ix := by
  obtain ⟨units, dict, faults, poison, opPoison, consumed, chances, flawed, cached, age, rfl⟩ := h
  rfl

theorem maskBounds (h : SameBytes s t) (d : Nat) (p : MaskOp) (ix : Index) (n : Nat) : t.maskBounds d p ix n = s.maskBounds d p ix n := by
  obtain ⟨units, dict, faults, poison, opPoison, consumed, chances, flawed, cached, age, rfl⟩ := h
  rfl

theorem entriesOf (h : SameBytes s t) (ix : Index) : t.entriesOf ix = s.entriesOf ix := by
  obtain ⟨units, dict, faults, poison, opPoison, consumed, chances, flawed, cached, age, rfl⟩ := h
  rfl

theorem groupZeros (h : SameBytes s t) (p : MaskOp) (ix : Index) (plane : Nat) (e : Entry) : t.groupZeros p ix plane e = s.groupZeros p ix plane e := by
  obtain ⟨units, dict, faults, poison, opPoison, consumed, chances, flawed, cached, age, rfl⟩ := h
  rfl

theorem pruneSet (h : SameBytes s t) (p : MaskOp) (ix : Index) (plane : Nat) : t.pruneSet p ix plane = s.pruneSet p ix plane := by
  obtain ⟨units, dict, faults, poison, opPoison, consumed, chances, flawed, cached, age, rfl⟩ := h
  rfl

theorem stepCount (h : SameBytes s t) : t.stepCount = s.stepCount := by
  obtain ⟨units, dict, faults, poison, opPoison, consumed, chances, flawed, cached, age, rfl⟩ := h
  rfl

theorem anyLE (h : SameBytes s t) (d a n : Nat) : t.anyLE d a n = s.anyLE d a n := by
  obtain ⟨units, dict, faults, poison, opPoison, consumed, chances, flawed, cached, age, rfl⟩ := h
  rfl

theorem regrowSet (h : SameBytes s t) (d : Nat) (p : MaskOp) (ix : Index) (l : List (Nat × Nat)) : t.regrowSet d p ix l = s.regrowSet d p ix l := by
  obtain ⟨units, dict, faults, poison, opPoison, consumed, chances, flawed, cached, age, rfl⟩ := h
  rfl

end SameBytes

section

variable {s t : State}

theorem SameBytes.pruneBytes_eq (h : SameBytes s t) (i : Issue) : pruneBytes t i = pruneBytes s i := by
  simp only [pruneBytes, h.maskOp, h.maskTile, h.index, h.entriesOf, h.groupZeros, h.pruneSet, h.stepCount]

theorem SameBytes.regrowList_eq (h : SameBytes s t) (i : Issue) : regrowList t i = regrowList s i := by
  simp only [regrowList, regrowPruned, h.maskOp, h.maskTile, h.index, h.anyLE, h.regrowSet]

theorem SameBytes.regrowFits_eq (h : SameBytes s t) (i : Issue) : regrowFits t i = regrowFits s i := by
  simp only [regrowFits, h.regrowList_eq, h.maskOp, h.maskTile, h.index, h.anyLE, h.maskChecks, h.maskBounds,
    h.stepCount]

end

theorem Notes.maskConsume (s : State) (i : Issue) (x : Tile) (ix : Index) : Notes s (s.maskConsume i x ix) :=
  .ite (.consume s _ _ _) (.refl s)

theorem Notes.maskReads (s : State) (u ctx : Nat) (p : MaskOp) (n m : Nat) : Notes s (s.maskReads u ctx p n m) :=
  ((Notes.anyTouch s _ _ _ _).trans (.anyTouch _ _ _ _ _)).trans (.anyTouch _ _ _ _ _)

/-! ### PRUNE and REGROW -/

/-- A PRUNE whose index and bounds pass the checks leaves its bytes at its output (R128, R129, R132). -/
theorem State.runPrune_passes {s : State} {i : Issue}
    (hchecks : s.maskChecks (s.maskTile (s.maskOp i)) (s.index (unitDie i.unit) (s.maskTile (s.maskOp i)).sidx) = none)
    (hbounds : s.maskBounds (unitDie i.unit) (s.maskOp i) (s.index (unitDie i.unit) (s.maskTile (s.maskOp i)).sidx)
      (pruneBytes s i).length = none) :
    ∃ x cycles, Notes s x ∧ s.runPrune i (s.maskOp i) =
      (x.anyWrite (unitDie i.unit) i.ctx (s.maskOp i).tensor (s.maskOp i).out (pruneBytes s i) false).startWork 3 i (some cycles)
        .none := by
  unfold State.runPrune
  extract_lets d t ix plane s1 es bytes cycles
  have hnotes : Notes s s1 := Notes.maskConsume s i t ix
  have hsame := hnotes.sameBytes
  have hbytes : bytes = pruneBytes s i := by
    simp only [bytes, es, hsame.entriesOf, hsame.groupZeros, hsame.pruneSet, hsame.stepCount]
    rfl
  refine ⟨_, cycles, hnotes.trans (Notes.maskReads s1 i.unit i.ctx (s.maskOp i) 0 0), ?_⟩
  simp only [hsame.maskChecks, hsame.maskBounds, hbytes]
  rw [show s.maskChecks t ix = none from hchecks]
  simp only
  rw [show s.maskBounds d (s.maskOp i) ix (pruneBytes s i).length = none from hbounds]

/-! In a step that the descriptor does not select one cycle passes; in one that it selects, with mask evolution on, the
operation runs (R125, R126). -/

theorem startPrune_other {i : Issue} {s : State} (h : s.maskStep (s.maskOp i) = false) :
    startPrune i s = s.startWork 3 i (some 1) .none := by simp [startPrune, State.epochGate, h]

theorem startPrune_selected {i : Issue} {s : State} (h : s.maskStep (s.maskOp i) = true) (hon : s.get 0x6050 3 ≠ 1) :
    startPrune i s = s.runPrune i (s.maskOp i) := by simp [startPrune, State.epochGate, h, hon]

theorem startRegrow_other {i : Issue} {s : State} (h : s.maskStep (s.maskOp i) = false) :
    startRegrow i s = s.startWork 4 i (some 1) .none := by simp [startRegrow, State.epochGate, h]

theorem startRegrow_selected {i : Issue} {s : State} (h : s.maskStep (s.maskOp i) = true) (hon : s.get 0x6050 3 ≠ 1) :
    startRegrow i s = s.runRegrow i (s.maskOp i) := by simp [startRegrow, State.epochGate, h, hon]

/-- The step is marked as one that has regrown (R130). -/
def State.markRegrew (s : State) : State := { s with program := { s.program with regrew := true } }

/-- A REGROW that nothing stops: its last write clears the score plane (R130, R132). -/
theorem State.runRegrow_fits {s : State} {i : Issue} (hfits : regrowFits s i = true) (hd : unitDie i.unit < s.mem.ops.length) :
    ∃ x, Stores s x ∧ unitDie i.unit < x.mem.ops.length ∧ s.runRegrow i (s.maskOp i) =
      (x.anyWrite (unitDie i.unit) i.ctx (x.scoreTensor (s.maskOp i)) (s.maskOp i).scores
        (List.replicate (2 * (s.maskOp i).ccount) 0) false).markRegrew.startWork 4 i
          (some (256 + 2 * (s.maskOp i).ccount + 16 * (regrowList s i).length)) .none := by
  unfold State.runRegrow
  extract_lets d t ix s1 head n pruned grown entries s2 s3 s4
  have hnotes : Notes s s1 := Notes.maskConsume s i t ix
  have hsame := hnotes.sameBytes
  have hhead : head = s.anyLE d (s.maskOp i).out 16 := hsame.anyLE _ _ _
  have hgrown : grown = regrowList s i := by
    simp only [grown, pruned, n, hhead, hsame.regrowSet, hsame.anyLE]
    rfl
  simp only [regrowFits, Bool.and_eq_true, beq_iff_eq, decide_eq_true_eq, Option.isNone_iff_eq_none] at hfits
  obtain ⟨⟨⟨⟨hchecks, hbounds⟩, htensor⟩, hstep⟩, hroom⟩ := hfits
  rw [← hhead] at htensor hstep hroom hbounds
  rw [← hgrown] at hroom hbounds ⊢
  have hreads : Notes s s2 := hnotes.trans (Notes.maskReads _ _ _ _ _ _)
  have hstores3 : Stores s s3 := hreads.stores.trans (Stores.anyWrite _ _ _ _ _ _ _)
  have hstores4 : Stores s s4 := hstores3.trans (Stores.anyWrite _ _ _ _ _ _ _)
  refine ⟨s4, hstores4, ?_, ?_⟩
  · rwa [State.anyWrite_ops_length, State.anyWrite_ops_length, hreads.ops]
  · have hlist : ¬ (bits head 31 0 != (s.maskOp i).tensor || bits head 63 32 != s1.stepCount % 2 ^ 32 ||
        decide (ix.present + (s.maskOp i).ccount < n + grown.length)) = true := by
      simp only [hsame.stepCount, htensor, hstep, bne_self_eq_false, Bool.false_or, decide_eq_true_eq, not_lt]
      exact hroom
    simp only [hsame.maskChecks, hsame.maskBounds]
    rw [show s.maskChecks t ix = none from hchecks]
    simp only
    rw [show s.maskBounds d (s.maskOp i) ix (16 + 4 * (n + grown.length)) = none from hbounds]
    exact if_neg hlist

/-- Settles O13: a PRUNE and a REGROW in the mask step, and both in another step. -/
theorem pruneAndRegrowKeepTheEpoch : Obligations.PruneAndRegrowKeepTheEpoch := by
  unfold Obligations.PruneAndRegrowKeepTheEpoch
  refine ⟨fun i s h _ _ hstep hon hchecks hbounds hd => ?prune, fun i s op c hmem h _ _ hstep => ?other,
    fun i s h _ _ hstep hon hfits hd => ?regrow⟩
  case prune =>
    have hsame := s.current_sameBytes 3 i
    have hexec : exec (.prune i) s = .next (startPrune i (s.current 3 i)) := exec_takes (f := startPrune) rfl h
    rw [startPrune_selected (s := s.current 3 i) hstep hon] at hexec
    obtain ⟨x, cycles, hnotes, hrun⟩ := State.runPrune_passes (s := s.current 3 i) (i := i)
      (by rw [hsame.maskOp, hsame.maskTile, hsame.index, hsame.maskChecks]; exact hchecks)
      (by rw [hsame.maskOp, hsame.maskTile, hsame.index, hsame.pruneBytes_eq, hsame.maskBounds]; exact hbounds)
    rw [hsame.maskOp, hsame.pruneBytes_eq] at hrun
    refine ⟨_, _, hexec.trans (congrArg Host.Outcome.next hrun), State.startWork_works _ _ _ _ _, ?_⟩
    exact State.anyRead_anyWrite_same (by rwa [hnotes.ops, State.current_mem]) _ _ _ _ _
  case other =>
    have hexec : exec c s = .next ((s.current op i).startWork op i (some 1) .none) := by
      simp only [List.mem_cons, Prod.mk.injEq, List.not_mem_nil, or_false] at hmem
      obtain ⟨rfl, rfl⟩ | ⟨rfl, rfl⟩ := hmem
      · exact (exec_takes (f := startPrune) rfl h).trans (congrArg Host.Outcome.next (startPrune_other (s := s.current 3 i) hstep))
      · exact (exec_takes (f := startRegrow) rfl h).trans (congrArg Host.Outcome.next (startRegrow_other (s := s.current 4 i) hstep))
    exact ⟨_, hexec, ⟨rfl, fun v hv => s.startWork_current_unit_other op i (some 1) .none hv⟩,
      s.startWork_current_works op i (some 1) .none⟩
  case regrow =>
    have hsame := s.current_sameBytes 4 i
    have hexec : exec (.regrow i) s = .next (startRegrow i (s.current 4 i)) := exec_takes (f := startRegrow) rfl h
    rw [startRegrow_selected (s := s.current 4 i) hstep hon] at hexec
    obtain ⟨x, hstores, hlength, hrun⟩ := State.runRegrow_fits (s := s.current 4 i) (i := i) (by rw [hsame.regrowFits_eq]; exact hfits) hd
    rw [hsame.maskOp, hsame.regrowList_eq] at hrun
    have hwrite := hstores.trans (Stores.anyWrite x (unitDie i.unit) i.ctx (x.scoreTensor (s.maskOp i)) (s.maskOp i).scores
      (List.replicate (2 * (s.maskOp i).ccount) 0) false)
    have hread := State.anyRead_anyWrite_same hlength i.ctx (x.scoreTensor (s.maskOp i)) (s.maskOp i).scores
      (List.replicate (2 * (s.maskOp i).ccount) 0) false
    rw [List.length_replicate] at hread
    refine ⟨_, hexec.trans (congrArg Host.Outcome.next hrun), ?_, hread, ?_⟩
    · rw [State.startWork_program]
      show { (State.anyWrite _ _ _ _ _ _ _).program with regrew := true } = _
      rw [hwrite.program, State.current_program]
    · have hstalled := congrArg UnitState.stalled (hwrite.unit i.unit)
      rw [State.current_stalled] at hstalled
      rw [← hstalled]
      exact State.startWork_works _ _ _ _ _

/-! ### SCORE -/

theorem State.candidates_length (s : State) (d : Nat) (p : MaskOp) : (s.candidates d p).length = p.ccount := by
  simp [State.candidates]

theorem State.candidates_ordinals (s : State) (d : Nat) (p : MaskOp) :
    (s.candidates d p).map (fun c => (0, c.1)) = (List.range p.ccount).map fun j => (0, j) := by
  simp [State.candidates, Function.comp_def]

/-- A SCORE that passes its checks: one job for every slab and candidate is before the Sorus (R131). -/
theorem startScore_passes {i : Issue} {s : State}
    (hchecks : s.maskChecks (s.sparseTile { op := 2, issue := i })
      (s.index (unitDie i.unit) (s.sparseTile { op := 2, issue := i }).sidx) = none)
    (hbounds : s.maskBounds (unitDie i.unit) (s.maskOp i)
      (s.index (unitDie i.unit) (s.sparseTile { op := 2, issue := i }).sidx) 16 = none) :
    ∃ x y, Notes s x ∧ startScore i s = x.takeTile 2 i y ∧ y.next = 0 ∧
      y.lines = (List.range (s.maskOp i).ccount).map (fun j => (0, j)) ∧
      y.todo.length = cdiv (s.sparseTile { op := 2, issue := i }).m 64 * (s.maskOp i).ccount := by
  unfold startScore
  extract_lets d p t ix cs jobs
  rw [show s.maskChecks t ix = none from hchecks]
  simp only [Option.orElse]
  rw [show s.maskBounds d p ix 16 = none from hbounds]
  refine ⟨_, _, Notes.maskReads s i.unit i.ctx p 0 0, rfl, rfl, s.candidates_ordinals d p, ?_⟩
  simp [jobs, List.length_flatMap, cs, State.candidates_length, t, p]

/-- A SCORE whose index fails a check: it is reported and complete 64 cycles on (R134). -/
theorem startScore_fails {i : Issue} {s : State} (hclass : unitClass i.unit = 2)
    (hchecks : s.maskChecks (s.sparseTile { op := 2, issue := i })
      (s.index (unitDie i.unit) (s.sparseTile { op := 2, issue := i }).sidx) ≠ none) :
    (∃ r, (startScore i s).faults.inFlight = s.faults.inFlight ++ [r] ∧ r.2.code = 0x102 ∧ r.2.source = i.unit) ∧
    (∃ w, ((startScore i s).unit i.unit).tails = (s.unit i.unit).tails ++ [w] ∧
      w.left = if (s.unit i.unit).stalled then none else some 64) ∧ (startScore i s).mem = s.mem := by
  obtain ⟨c, hc⟩ := Option.ne_none_iff_exists'.1 hchecks
  unfold startScore
  extract_lets d p t ix cs jobs
  rw [show s.maskChecks t ix = some c from hc]
  simp only [Option.orElse, State.rejectMask, if_pos hclass]
  have hnotes : Notes s ((s.count 0x7013 (unitDie i.unit + 1) 1).sparseFormat i 1 p.tile c.1 c.2.1 c.2.2) :=
    (Notes.count s _ _ _).trans (Notes.raise _ _ _ _ _ _)
  refine ⟨⟨_, rfl, rfl, rfl⟩, ?_, ?_⟩
  · rw [State.onUnit_unit_same, hnotes.unit]
    exact ⟨_, rfl, rfl⟩
  · simp [State.sparseFormat]

theorem unitClass_sorus {u : Nat} (h1 : 0x20 ≤ u) (h2 : u ≤ 0x22) : unitClass u = 2 := by
  unfold unitClass
  rw [if_neg (by omega), if_neg (by omega), if_pos (by omega)]

theorem unitClass_filigree {u : Nat} (h1 : 0x30 ≤ u) (h2 : u ≤ 0x32) : unitClass u = 4 := by
  unfold unitClass
  rw [if_neg (by omega), if_neg (by omega), if_neg (by omega), if_neg (by omega), if_pos (by omega)]

/-- Settles O14: a SCORE that passes its checks, one that fails, and the completions of mask operations. -/
theorem scoreAndMaskOpComplete : Obligations.ScoreAndMaskOpComplete := by
  unfold Obligations.ScoreAndMaskOpComplete
  refine ⟨fun i s h _ _ _ hchecks hbounds => ?passes, fun i s h h1 h2 hchecks => ?fails,
    fun u s w h1 h2 hwork hop hleft => ?filigree, fun d s w hd hdone hclear => ?sorus⟩
  case passes =>
    have hsame := s.current_sameBytes 2 i
    have hexec : exec (.score i) s = .next (startScore i (s.current 2 i)) := exec_takes (f := startScore) rfl h
    obtain ⟨x, y, hnotes, htakes, hnext, hlines, htodo⟩ := startScore_passes (s := s.current 2 i) (i := i)
      (by rw [hsame.sparseTile, hsame.index, hsame.maskChecks]; exact hchecks)
      (by rw [hsame.sparseTile, hsame.index, hsame.maskOp, hsame.maskBounds]; exact hbounds)
    obtain ⟨⟨w, used, hwork, hcmd, hleft, hload⟩, hstate, hunits⟩ := x.takeTile_runs 2 i y
    rw [hsame.maskOp] at hlines
    rw [hsame.maskOp, hsame.sparseTile] at htodo
    refine ⟨_, w, _, hexec.trans (congrArg Host.Outcome.next htakes), hwork, hcmd, hleft, hload, hnext, hlines, htodo,
      ?_, ?_, ?_, ?_, fun v hv => ?_⟩
    · rw [hstate, hnotes.hbm, State.current_mem]
    · rw [hstate, hnotes.ops, State.current_mem]
    · rw [hstate, hnotes.arrays, State.current_arrays]
    · rw [hstate, hnotes.program, State.current_program]
    · rw [hunits v hv, hnotes.unit, State.current_unit_other _ _ _ hv]
  case fails =>
    have hsame := s.current_sameBytes 2 i
    have hexec : exec (.score i) s = .next (startScore i (s.current 2 i)) := exec_takes (f := startScore) rfl h
    obtain ⟨⟨r, hr, hcode, hsource⟩, ⟨w, htails, hleft⟩, hmem⟩ := startScore_fails (s := s.current 2 i) (i := i)
      (unitClass_sorus h1 h2) (by rw [hsame.sparseTile, hsame.index, hsame.maskChecks]; exact hchecks)
    rw [State.current_tails] at htails
    rw [State.current_stalled] at hleft
    exact ⟨_, r, w, hexec, hr, hcode, hsource, htails, hleft, hmem⟩
  case filigree =>
    have hclass := unitClass_filigree h1 h2
    have hover : s.workOver u [3, 4] = true := by simp [State.workOver, hwork, hleft, hop]
    have hend : maskOpComplete u s = (s.endWork u).settle := by simp [maskOpComplete, hclass, hover]
    refine ⟨_, congrArg Host.Outcome.next hend, ?_, ?_, fun v hv => ?_⟩
    · rw [State.settle_unit, State.endWork_work]
    · rw [State.settle_mem, State.endWork_mem]
    · rw [State.settle_unit, State.endWork_unit_other _ hv]
  case sorus =>
    have hend : maskOpComplete (0x20 + d) s = s.completeTile d 2 := by
      simp [maskOpComplete, unitClass_sorus (u := 0x20 + d) (by omega) (by omega), unitDie_sorus hd]
    obtain ⟨htails, -, hengine, hnone⟩ := State.completeTile_spec hd hdone hclear
    refine ⟨_, congrArg Host.Outcome.next hend, htails, fun e he => ?_, hnone⟩
    obtain ⟨haccs, -⟩ := hengine e he
    exact haccs

/-! ### ROUTE -/

namespace SameBytes

variable {s t : State}

theorem allChoices (h : SameBytes s t) (d : Nat) (r : Route) : t.allChoices d r = s.allChoices d r := by
  obtain ⟨units, dict, faults, poison, opPoison, consumed, chances, flawed, cached, age, rfl⟩ := h
  rfl

theorem buildRoute (h : SameBytes s t) (d : Nat) (r : Route) (l : List Choice) : t.buildRoute d r l = s.buildRoute d r l := by
  obtain ⟨units, dict, faults, poison, opPoison, consumed, chances, flawed, cached, age, rfl⟩ := h
  rfl

theorem descOf (h : SameBytes s t) (i : Issue) : t.descOf i = s.descOf i := by
  obtain ⟨units, dict, faults, poison, opPoison, consumed, chances, flawed, cached, age, rfl⟩ := h
  rfl

theorem clock (h : SameBytes s t) : t.clock = s.clock := by
  obtain ⟨units, dict, faults, poison, opPoison, consumed, chances, flawed, cached, age, rfl⟩ := h
  rfl

end SameBytes

/-- The bytes of the route that a ROUTE builds, for the buffer of the frame's parity (R146, R147). -/
def State.routeBytes (s : State) (i : Issue) : List Byte :=
  (s.buildRoute (unitDie i.unit) (routeOf (s.descOf i)) (s.allChoices (unitDie i.unit) (routeOf (s.descOf i)))).bytes
    (routeOf (s.descOf i)) (s.clock.frame % 2 ^ 48)

theorem SameBytes.routeBytes {s t : State} (h : SameBytes s t) (i : Issue) : t.routeBytes i = s.routeBytes i := by
  simp only [State.routeBytes, h.allChoices, h.buildRoute, h.descOf, h.clock]

/-- The cycles of a ROUTE (R149). -/
def Route.cycles (r : Route) : Nat := 256 + cdiv (r.tok * r.experts) 8192 + cdiv (r.tok * r.k) 64

/-- What a unit runs that takes up work. -/
theorem State.startWork_work (s : State) (op : Nat) (i : Issue) (left : Option Nat) (load : Load) :
    ((s.startWork op i left load).unit i.unit).work = some
      { cmd := { op, issue := i }, left := if (s.unit i.unit).stalled then none else left, load } := by
  rw [State.startWork, State.onUnit_unit_same]

/-- A ROUTE works for its cycles with the bytes of its route to deliver; no byte of memory changes yet. -/
theorem startRoute_eq (i : Issue) (s : State) : ∃ x poison, StoresOps s x ∧ x.mem.ops = s.mem.ops ∧
    startRoute i s = x.startWork 5 i (some (routeOf (s.descOf i)).cycles)
      (.bytes ((routeOf (s.descOf i)).buffer (s.clock.frame % 2)) (s.routeBytes i) poison) := by
  unfold startRoute
  extract_lets d r n logits other s1 all b s2 s3 s4 s5
  have hnotes1 : Notes s s1 := (Notes.anyTouch s _ _ _ _).trans (Notes.anyTouch logits.1 _ _ _ _)
  have hbytes : b.bytes r (s1.clock.frame % 2 ^ 48) = s.routeBytes i := by
    rw [← hnotes1.sameBytes.routeBytes i, State.routeBytes, hnotes1.sameBytes.descOf]
  have hstored := hnotes1.trans (Notes.stored s1 d (all.map Choice.gate))
  have hcounts : Notes s2 s5 := ((Notes.count _ _ _ _).trans (Notes.count _ _ _ _)).trans (Notes.count _ _ _ _)
  have hstores : StoresOps s s5 := (hstored.storesOps.trans (StoresOps.reportMax _ _ _)).trans hcounts.storesOps
  refine ⟨s5, logits.2 || other.2, hstores, ?_, ?_⟩
  · rw [hcounts.ops, (StoresHbm.reportMax _ _ _).ops, hstored.ops]
  · rw [hnotes1.clock] at hbytes
    rw [hstores.stores.clock, hbytes]
    rfl

/-- The end of a ROUTE writes its bytes (R149). -/
theorem routeComplete_over {d a : Nat} {data : List Byte} {poison : Bool} {s : State} {w : Work}
    (hwork : (s.unit (0x30 + d)).work = some w) (hop : w.cmd.op = 5) (hload : w.load = .bytes a data poison)
    (hleft : w.left = some 0) : routeComplete d s = ((s.opWrite d a data poison).endWork (0x30 + d)).settle := by
  simp only [routeComplete, hwork, hop, hload, hleft]

/-- Settles O15: a ROUTE as it takes effect, and as it completes. -/
theorem routeDeliversOnCompletion : Obligations.RouteDeliversOnCompletion := by
  unfold Obligations.RouteDeliversOnCompletion
  refine ⟨fun i s h _ _ => ?starts, fun d a data poison s w hd hlength hwork hop hload hleft => ?completes⟩
  case starts =>
    have hsame := s.current_sameBytes 5 i
    have hexec : exec (.route i) s = .next (startRoute i (s.current 5 i)) := exec_takes (f := startRoute) rfl h
    obtain ⟨x, poison, hstores, hops, hstart⟩ := startRoute_eq i (s.current 5 i)
    rw [hsame.descOf, hsame.clock, hsame.routeBytes] at hstart
    refine ⟨_, _, poison, hexec.trans (congrArg Host.Outcome.next hstart), State.startWork_work _ _ _ _ _, rfl, ?_, rfl, ?_, ?_⟩
    · rw [hstores.stores.unit, State.current_stalled]
      rfl
    · rw [State.startWork_mem, hops, State.current_mem]
    · rw [State.startWork_mem, hstores.hbm, State.current_mem]
  case completes =>
    refine ⟨_, congrArg Host.Outcome.next (routeComplete_over hwork hop hload hleft), ?_, ?_, ?_, fun v hv => ?_⟩
    · rw [State.settle_unit, State.endWork_work]
    · rw [State.opRead, State.opStore, State.settle_mem, State.endWork_mem]
      exact State.opRead_opWrite_same _ _ _ (by omega)
    · rw [State.settle_mem, State.endWork_mem, State.opWrite_hbm]
    · rw [State.settle_unit, State.endWork_unit_other _ hv, State.unit, State.opWrite_units, State.unit]

end Sys2Proof.Machine
end

section
/-! Memory controllers: transfers that are taken up, blocks that move, and reduction windows (R246–R264, R310). -/

namespace Sys2Proof.Machine

open Sys2Proof.Safety

theorem unitClass_controller {u : Nat} (h1 : 0x40 ≤ u) (h2 : u ≤ 0x4B) : unitClass u = 5 := by
  unfold unitClass
  rw [if_neg (by omega), if_neg (by omega), if_neg (by omega), if_neg (by omega), if_neg (by omega), if_pos (by omega)]

/-! ### A transfer is taken up -/

/-- What a transfer that starts clears lies in the bridges alone. -/
theorem State.clearDelays_state (s : State) (u : Nat) : s.clearDelays u = { s with traffic := (s.clearDelays u).traffic } := by
  unfold State.clearDelays
  refine List.foldlRecOn (motive := fun x : State => x = { s with traffic := x.traffic }) _ _ rfl fun x hx l _ => ?_
  dsimp only
  split
  · exact hx
  · rw [hx]
    rfl

@[simp] theorem State.clearDelays_unit (s : State) (u v : Nat) : (s.clearDelays u).unit v = s.unit v := by
  have hunits : (s.clearDelays u).units = s.units := by rw [State.clearDelays_state]
  rw [State.unit, hunits, State.unit]

@[simp] theorem State.clearDelays_mem (s : State) (u : Nat) : (s.clearDelays u).mem = s.mem := by rw [State.clearDelays_state]

/-- A unit takes up the transfer; nothing but units and bridges changes. -/
theorem State.startMoving_moves {s x : State} {i : Issue} (op latency n : Nat) (h : ∀ v, (x.unit v).stalled = (s.unit v).stalled)
    (hother : ∀ v, v ≠ i.unit → x.unit v = s.unit v) : MovesBlocks s (x.startMoving op i latency n freshMove) op i n latency := by
  refine ⟨⟨_, by rw [State.startMoving, State.onUnit_unit_same], rfl, rfl, rfl, rfl, rfl, ?_⟩, fun v hv => ?_⟩
  · rw [State.clearDelays_unit, h]
  · rw [State.startMoving, State.onUnit_unit_other _ _ _ hv, State.clearDelays_unit, hother v hv]

@[simp] theorem State.startMoving_mem (s : State) (op : Nat) (i : Issue) (latency n : Nat) (load : Load) :
    (s.startMoving op i latency n load).mem = s.mem := by
  rw [State.startMoving, State.onUnit_mem, State.clearDelays_mem]

/-- A command takes up its transfer from the state in which it is current, with what it noted first. -/
theorem Notes.moves {s x : State} {i : Issue} {op : Nat} (h : Notes (s.current op i) x) (latency n : Nat) :
    MovesBlocks s (x.startMoving op i latency n freshMove) op i n latency := by
  refine State.startMoving_moves op latency n (fun v => ?_) fun v hv => ?_
  · rw [h.unit]
    by_cases hv : v = i.unit
    · rw [hv, State.current_stalled]
    · rw [State.current_unit_other _ _ _ hv]
  · rw [h.unit, State.current_unit_other _ _ _ hv]

/-- A range that touches a reserved region is refused (R246). -/
theorem State.refuseAccess_spec (s : State) (i : Issue) (a len : Nat) :
    (∃ r, (s.refuseAccess i a len).faults.inFlight = s.faults.inFlight ++ [r] ∧ r.2.code = 0x204 ∧ r.2.source = i.unit) ∧
      Notes s (s.refuseAccess i a len) ∧ (s.refuseAccess i a len).mem = s.mem :=
  ⟨⟨_, rfl, rfl, rfl⟩, Notes.raise s _ _ _ _ _, rfl⟩

theorem Notes.touchTable (s : State) (u ctx redop gfcoef coefTab source : Nat) :
    Notes s (s.touchTable u ctx redop gfcoef coefTab source) := .ite (.readThrough s _ _ _ _) (.refl s)

/-! ### What controllers read of a state -/

theorem State.current_transfer (s : State) (op : Nat) (i j : Issue) : (s.current op i).transfer j = s.transfer j := rfl

theorem State.current_readLatency (s : State) (op : Nat) (i : Issue) (b : Nat) : (s.current op i).readLatency b = s.readLatency b := rfl

theorem State.current_writeLatency (s : State) (op : Nat) (i : Issue) (x : Transfer) (b : Nat) :
    (s.current op i).writeLatency x b = s.writeLatency x b := rfl

theorem State.current_copyRemote (s : State) (op : Nat) (i : Issue) (x : Transfer) : (s.current op i).copyRemote x = s.copyRemote x := rfl

theorem State.current_boardModule (s : State) (op : Nat) (i : Issue) (n : Nat) : (s.current op i).boardModule n = s.boardModule n := rfl

/-! ### Blocks that are read -/

/-- The last read of a DROP-AFTER-LAST line drops its data; nothing on its way changes (R255). -/
theorem State.claspHit_traffic (s : State) (k hint uses : Nat) (wr full : Bool) (l : Line) :
    (s.claspHit k hint uses wr full l).traffic = s.traffic := by
  by_cases h : hint ≠ 3 ∨ wr = true
  · exact (Notes.claspHit h s k uses full l).traffic
  · obtain ⟨rfl, rfl⟩ : hint = 3 ∧ wr = false := by simpa using h
    unfold State.claspHit
    rw [if_neg (by decide), if_pos rfl, if_neg (by decide)]
    split
    next n _ =>
      split
      · extract_lets b s1
        have hnotes : Notes s s1 := (Notes.setSlice s _ _).trans (Notes.count _ _ _ _)
        exact hnotes.traffic
      · exact (Notes.putLine s _ _).traffic
    next => exact (Notes.putLine s _ _).traffic

theorem State.clasp_traffic (s : State) (b hint uses : Nat) (wr : Bool) : (s.clasp b hint uses wr).traffic = s.traffic := by
  unfold State.clasp
  extract_lets k lines age crc back full m s1
  have hage : Notes s s1 := ⟨rfl, rfl⟩
  split
  next l _ =>
    rw [State.claspHit_traffic]
    have hcount : Notes s (s1.count 0x4018 (k + 1) 1) := hage.trans (Notes.count _ _ _ _)
    exact (Notes.ite (hcount.trans (Notes.mend _ _)) hcount).traffic
  next => exact ((hage.trans (Notes.count _ _ _ _)).trans (Notes.claspMiss _ _ _ _ _ _ _)).traffic

theorem State.readBlock_traffic (s : State) (u ctx b hint uses : Nat) :
    (s.readBlock u ctx b hint uses).1.traffic = s.traffic := by
  unfold State.readBlock
  extract_lets before s1 dirty s2 data
  have hnotes1 : Notes s s1 := Notes.ite (Notes.strikeLine s _ _) (Notes.checkBlock s _ _ _)
  have hnotes2 : Notes s s2 := Notes.ite (hnotes1.trans (Notes.consume _ _ _ _)) hnotes1
  rw [State.clasp_traffic, hnotes2.traffic]

/-- A read goes on with the bytes that HBM held as it took effect (R250, R255). -/
theorem State.readEffect_carries (s : State) (p : Packet) (a n hint uses : Nat) : ∃ delay poison,
    (s.readEffect p a n hint uses).traffic.transit = s.traffic.transit ++ [(delay, { p with data := s.hbmRead a n, poison })] := by
  unfold State.readEffect
  extract_lets delay data r
  have htraffic : r.1.traffic = s.traffic :=
    List.foldlRecOn (motive := fun x : State × Bool => x.1.traffic = s.traffic) _ _ rfl fun x hx b _ => by
      rw [State.readBlock_traffic, hx]
  refine ⟨delay, p.poison || r.2, ?_⟩
  rw [State.arriveIn, State.setTraffic, htraffic]

/-! ### Blocks that arrive -/

/-- A block of a controller's transfer that lands counts at its unit alone. -/
theorem State.credit_mem {s : State} {p : Packet} (h : unitClass p.unit = 5) : (s.credit p).mem = s.mem := by
  unfold State.credit
  rw [if_pos h]
  split <;> rfl

theorem State.creditIn_mem {s : State} {p : Packet} (n : Nat) (h : unitClass p.unit = 5) : (s.creditIn n p).mem = s.mem := by
  unfold State.creditIn
  split
  · exact State.credit_mem h
  · split <;> rfl

/-- A block that arrives for an operand store is written there (R250). -/
theorem State.perform_store {s : State} {p : Packet} {d off : Nat} (hdeed : p.deed = .store d off) (h : unitClass p.unit = 5) :
    (s.perform p).mem = (s.opWrite d off p.data p.poison).mem := by
  simp only [State.perform, hdeed]
  exact State.credit_mem h

/-- Settles O16: a READ that is taken up, one that is refused, a block that is read and one that arrives. -/
theorem readsAndCopiesMoveBlocks : Obligations.ReadsAndCopiesMoveBlocks := by
  unfold Obligations.ReadsAndCopiesMoveBlocks
  refine ⟨fun i s h _ _ => ⟨fun hfree => ?read, fun hreserved => ?refused⟩, fun s p a n hint uses => ?block,
    fun s p d off hdeed hd hclass => ?store⟩
  case read =>
    have hexec : exec (.read i) s = .next (startRead i (s.current 1 i)) := exec_takes (f := startRead) rfl h
    simp only [startRead, State.current_transfer, hfree, Bool.false_eq_true, if_false, State.current_readLatency] at hexec
    refine ⟨_, hexec, ?_, Notes.moves (Notes.refl _) _ _⟩
    rw [State.startMoving_mem, State.current_mem]
  case refused =>
    have hexec : exec (.read i) s = .next (startRead i (s.current 1 i)) := exec_takes (f := startRead) rfl h
    simp only [startRead, State.current_transfer, hreserved, if_true] at hexec
    obtain ⟨⟨r, hr, hcode, hsource⟩, hnotes, hmem⟩ := (s.current 1 i).refuseAccess_spec i (s.transfer i).src
      (512 * (s.transfer i).blocks)
    refine ⟨_, r, hexec, hr, hcode, hsource, hmem, ?_⟩
    rw [hnotes.unit, State.current_work, work_none_of_takesEffect h]
  case block =>
    obtain ⟨delay, poison, htransit⟩ := s.readEffect_carries p a n hint uses
    exact ⟨_, delay, htransit, rfl, rfl, rfl, rfl⟩
  case store =>
    have hmem := State.perform_store (s := s) hdeed hclass
    refine ⟨?_, fun e c hc => ?_, ?_⟩
    · rw [State.opRead, State.opStore, hmem]
      exact State.opRead_opWrite_same _ _ _ hd
    · rw [State.opStore, hmem]
      exact State.read_opWrite_outside _ _ hd hc
    · rw [hmem, State.opWrite_hbm]

end Sys2Proof.Machine
end

section
/-! Writes of a step to HBM and their record planes (R250, R251, R310). -/

namespace Sys2Proof.Machine

open Sys2Proof.Safety

/-! ### Record planes -/

/-- The tensor descriptors are read from HBM, at the program's directory. -/
theorem State.tensorDesc_congr {s t : State} (hhbm : t.mem.hbm = s.mem.hbm) (hprogram : t.program = s.program) (tensor : Nat) :
    t.tensorDesc tensor = s.tensorDesc tensor := by
  simp only [State.tensorDesc, State.dirCount, State.desc, State.dirBase, State.hbmLE, State.hbmRead, hhbm, hprogram]

theorem State.hbmRead_congr {s t : State} (h : t.mem.hbm = s.mem.hbm) (a n : Nat) : t.hbmRead a n = s.hbmRead a n := by
  rw [State.hbmRead, h, State.hbmRead]

theorem State.noteWritten_hbm (s : State) (tensor : Nat) : (s.noteWritten tensor).mem.hbm = s.mem.hbm :=
  (StoresOps.noteWritten s tensor).hbm

theorem State.noteWritten_tensorDesc (s : State) (tensor n : Nat) : (s.noteWritten tensor).tensorDesc n = s.tensorDesc n :=
  State.tensorDesc_congr (s.noteWritten_hbm tensor) (StoresOps.noteWritten s tensor).stores.program n

theorem State.firstUndo_hbm (s : State) (mc ctx : Nat) (x : Undo) : (s.firstUndo mc ctx x).mem.hbm = s.mem.hbm := by
  unfold State.firstUndo State.addUndo
  split
  · rfl
  · split
    · exact (Notes.raise _ _ _ _ _ _).hbm
    · rfl

theorem State.writeThrough_hbm (s : State) (ctx a : Nat) (bytes : List Byte) (p : Bool) :
    (s.writeThrough ctx a bytes p).mem.hbm = s.mem.hbm.writeN a bytes := by
  unfold State.writeThrough
  rw [State.hbmWrite_hbm, (Notes.foldl (fun x b => Notes.touchWrite x ctx b 0 0 _) _ s).hbm]

/-- A tensor of a class without a record plane: no byte changes (R310). -/
theorem State.recordWrite_plain {s : State} (ctx addr : Nat) {tensor : Nat} (bytes : List Byte)
    (h : ∀ d, s.tensorDesc tensor = some d → bits d 207 200 ≠ 2 ∧ bits d 207 200 ≠ 4 ∧ bits d 207 200 ≠ 5) :
    (s.recordWrite ctx tensor addr bytes).mem.hbm = s.mem.hbm := by
  unfold State.recordWrite
  split
  next => rfl
  next d hd =>
    obtain ⟨h2, h4, h5⟩ := h d hd
    extract_lets base mc inside r delta
    split
    · rfl
    · split
      next h => exact absurd h h2
      next h => exact absurd h h4
      next h => exact absurd h h5
      next => exact State.firstUndo_hbm s _ _ _
      next => rfl

/-- A tensor with a record plane: the difference of old and new joins the plane (R310). -/
theorem State.recordWrite_record {s : State} {ctx tensor a d : Nat} {bytes : List Byte} (hd : s.tensorDesc tensor = some d)
    (hclass : bits d 207 200 = 2 ∨ bits d 207 200 = 4 ∨ bits d 207 200 = 5) (hbase : tensorBase d ≤ a)
    (hend : a + bytes.length ≤ tensorBase d + tensorLength d) :
    (s.recordWrite ctx tensor a bytes).mem.hbm = s.mem.hbm.writeN (tensorRecord d + (a - tensorBase d))
      (xorBytes (s.hbmRead (tensorRecord d + (a - tensorBase d)) bytes.length) (xorBytes (s.hbmRead a bytes.length) bytes)) := by
  unfold State.recordWrite
  rw [hd]
  dsimp only
  rw [if_neg (by simp [hbase, hend])]
  split
  next => rw [State.writeThrough_hbm, State.firstUndo_hbm, State.hbmRead_congr (State.firstUndo_hbm _ _ _ _)]
  next => rw [State.writeThrough_hbm, State.firstUndo_hbm, State.hbmRead_congr (State.firstUndo_hbm _ _ _ _)]
  next => rw [State.writeThrough_hbm, State.firstUndo_hbm, State.hbmRead_congr (State.firstUndo_hbm _ _ _ _)]
  next h => omega
  next h2 h4 h5 _ => exact absurd hclass (by rintro (h | h | h) <;> contradiction)

theorem xorBytes_length {a b : List Byte} (h : a.length = b.length) : (xorBytes a b).length = b.length := by
  simp [xorBytes, h]

/-! ### Writes of one block -/

/-- A write of bytes within one block is one write (R250). -/
theorem State.writeBytes_block (s : State) (ctx tensor hint uses : Nat) {a : Nat} {bytes : List Byte} (p : Bool)
    (h : a % 512 + bytes.length ≤ 512) : s.writeBytes ctx tensor a hint uses bytes p =
      if bytes = [] then s else s.writeBlock ctx tensor a hint uses bytes p := by
  unfold State.writeBytes
  cases bytes with
  | nil => rfl
  | cons b rest =>
    have hcut : cutBlocks 1 (b :: rest).length a (b :: rest) = [(a, b :: rest)] := by
      have hfits : (b :: rest).length ≤ max 1 ((512 - a % 512) / 1) := by omega
      rw [List.length_cons, cutBlocks]
      simp only [List.isEmpty_cons, Bool.false_eq_true, if_false, List.take_of_length_le hfits, List.drop_eq_nil_of_le hfits]
      cases rest.length <;> simp [cutBlocks]
    rw [hcut]
    simp only [List.foldl_cons, List.foldl_nil, reduceCtorEq, if_false]

/-- A block that is written: HBM takes its bytes, the record plane goes before them (R310). -/
theorem State.writeBlock_hbm (s : State) (ctx tensor a hint uses : Nat) (bytes : List Byte) (p : Bool) :
    ∃ x, Notes s x ∧ (s.writeBlock ctx tensor a hint uses bytes p).mem.hbm =
      ((x.noteWritten tensor).recordWrite ctx tensor a bytes).mem.hbm.writeN a bytes ∧
      (s.writeBlock ctx tensor a hint uses bytes p).mem.ops = s.mem.ops := by
  have hnotes : Notes s (s.touchWrite ctx (a / 512) hint uses (bytes.length == 512)) := Notes.touchWrite s _ _ _ _ _
  refine ⟨_, hnotes, ?_, ?_⟩
  · rw [State.writeBlock, State.stepWrite, State.hbmWrite_hbm]
  · rw [State.writeBlock, State.stepWrite, State.hbmWrite_ops, (StoresHbm.recordWrite _ _ _ _ _).ops,
      (StoresHbm.noteWritten _ _).ops, hnotes.ops]

/-- A block of a transfer takes effect at its slice (R250). -/
theorem State.putEffect_write {s : State} {p : Packet} {a tensor hint uses : Nat} (hdeed : p.deed = .write a tensor hint uses)
    (hclass : unitClass p.unit = 5) (hblock : a % 512 + p.data.length ≤ 512) :
    (s.putEffect p).mem = if p.data = [] then s.mem else (s.writeBlock p.ctx tensor a hint uses p.data p.poison).mem := by
  simp only [State.putEffect, hdeed]
  rw [State.creditIn_mem _ hclass, State.writeBytes_block _ _ _ _ _ _ hblock]
  split <;> rfl

/-- Settles O17: WRITE and COPY as they are taken up, a block that is written, and a write to a tensor with a record plane. -/
theorem writesReachHbmAndTheRecordPlane : Obligations.WritesReachHbmAndTheRecordPlane := by
  unfold Obligations.WritesReachHbmAndTheRecordPlane
  refine ⟨⟨fun i s h _ _ hfree htable => ?write, fun i s h _ _ hsource => ⟨fun hlocal hfree htable => ?copy,
    fun hremote hmodule => ?remote, fun hremote hmodule => ?missing⟩⟩,
    fun s p a tensor hint uses hdeed hclass hblock => ?block,
    fun s ctx tensor a d bytes poisoned hd hclass hbase hend hapart => ?record⟩
  case write =>
    have hexec : exec (.write i) s = .next (startWrite i (s.current 2 i)) := exec_takes (f := startWrite) rfl h
    simp only [startWrite, State.current_transfer, hfree, htable, Bool.false_eq_true, if_false, State.current_writeLatency] at hexec
    have hnotes := Notes.touchTable (s.current 2 i) i.unit i.ctx (s.transfer i).redop (s.transfer i).gfcoef (s.transfer i).coefTab
      (s.current 2 i).moduleId
    refine ⟨_, hexec, ?_, ?_, Notes.moves hnotes _ _⟩
    · rw [State.startMoving_mem, hnotes.hbm, State.current_mem]
    · rw [State.startMoving_mem, hnotes.ops, State.current_mem]
  case copy =>
    have hexec : exec (.copy i) s = .next (startCopy i (s.current 3 i)) := exec_takes (f := startCopy) rfl h
    simp only [startCopy, State.current_transfer, State.current_copyRemote, State.current_boardModule, hsource, hlocal, hfree, htable,
      Bool.not_false, Bool.and_false, Bool.false_and, Bool.false_eq_true, if_false, State.current_readLatency,
      State.current_writeLatency] at hexec
    have hnotes := Notes.touchTable (s.current 3 i) i.unit i.ctx (s.transfer i).redop (s.transfer i).gfcoef (s.transfer i).coefTab
      (s.current 3 i).moduleId
    refine ⟨_, hexec, ?_, ?_, Notes.moves hnotes _ _⟩
    · rw [State.startMoving_mem, hnotes.hbm, State.current_mem]
    · rw [State.startMoving_mem, hnotes.ops, State.current_mem]
  case remote =>
    have hexec : exec (.copy i) s = .next (startCopy i (s.current 3 i)) := exec_takes (f := startCopy) rfl h
    simp only [startCopy, State.current_transfer, State.current_copyRemote, State.current_boardModule, hsource, hremote, hmodule,
      Bool.not_true, Bool.false_and, Bool.true_and, Bool.false_eq_true, if_false, if_true, beq_iff_eq,
      State.current_readLatency] at hexec
    refine ⟨_, hexec, ?_, Notes.moves (Notes.refl _) _ _⟩
    rw [State.startMoving_mem, State.current_mem]
  case missing =>
    have hexec : exec (.copy i) s = .next (startCopy i (s.current 3 i)) := exec_takes (f := startCopy) rfl h
    simp only [startCopy, State.current_transfer, State.current_copyRemote, State.current_boardModule, hsource, hremote, hmodule,
      Bool.not_true, Bool.false_and, Bool.true_and, Bool.false_eq_true, if_false, if_true, beq_self_eq_true] at hexec
    obtain ⟨r, hr, hcode, hrsource, -⟩ := (s.current 3 i).raise_reports 0x20E i.unit (unitDie i.unit) i.ctx
      (packFields [(64, (s.transfer i).dst % 2 ^ 45), (32, 0xFFFFFFFF)])
    refine ⟨_, r, hexec, hr, hcode, hrsource, ?_, ?_⟩
    · rw [State.raise_mem, State.current_mem]
    · rw [(Notes.raise _ _ _ _ _ _).unit, State.current_work, work_none_of_takesEffect h]
  case block =>
    obtain ⟨x, hnotes, hhbm, hops⟩ := s.writeBlock_hbm p.ctx tensor a hint uses p.data p.poison
    have hmem := State.putEffect_write (s := s) hdeed hclass hblock
    by_cases hempty : p.data = []
    · rw [if_pos hempty] at hmem
      exact ⟨by rw [hempty]; rfl, by rw [hmem], fun _ c _ => by rw [hmem]⟩
    · rw [if_neg hempty] at hmem
      refine ⟨?_, by rw [hmem, hops], fun hplain c hc => ?_⟩
      · rw [State.hbmRead, hmem, hhbm, Mem.readN_writeN_same]
      · have hdesc (d : Nat) (hd : (x.noteWritten tensor).tensorDesc tensor = some d) := hplain d (by
          rwa [State.noteWritten_tensorDesc, State.tensorDesc_congr hnotes.hbm hnotes.program] at hd)
        rw [hmem, hhbm, Mem.read_writeN_outside _ _ _ hc, State.recordWrite_plain _ _ _ hdesc, State.noteWritten_hbm, hnotes.hbm]
  case record =>
    have hdesc : (s.noteWritten tensor).tensorDesc tensor = some d := by rw [State.noteWritten_tensorDesc, hd]
    have hplane := State.recordWrite_record (ctx := ctx) hdesc hclass hbase hend
    rw [State.hbmRead_congr (s.noteWritten_hbm tensor), State.hbmRead_congr (s.noteWritten_hbm tensor)] at hplane
    have hread : (s.hbmRead a bytes.length).length = bytes.length := Mem.readN_length _ _ _
    have hxor := xorBytes_length hread
    have hdelta := xorBytes_length (a := s.hbmRead (tensorRecord d + (a - tensorBase d)) bytes.length)
      (b := xorBytes (s.hbmRead a bytes.length) bytes) (by rw [hxor]; exact Mem.readN_length _ _ _)
    refine ⟨?_, ?_⟩
    · rw [State.stepWrite, State.hbmRead_hbmWrite_same]
    · rw [State.stepWrite, State.hbmRead_hbmWrite_apart _ _ _ (by omega), State.hbmRead, hplane]
      have hsame := Mem.readN_writeN_same (s.noteWritten tensor).mem.hbm (tensorRecord d + (a - tensorBase d))
        (xorBytes (s.hbmRead (tensorRecord d + (a - tensorBase d)) bytes.length) (xorBytes (s.hbmRead a bytes.length) bytes))
      rwa [hdelta, hxor] at hsame

/-! ### Reduction windows -/

theorem State.setWindows_windowsOf_same (s : State) (mc : Nat) (l : List Window) : (s.setWindows mc l).windowsOf mc = l :=
  kget_kset_same _ _ _ _

theorem State.windowsOf_congr {s t : State} (h : t.mem.windows = s.mem.windows) (mc : Nat) : t.windowsOf mc = s.windowsOf mc := by
  rw [State.windowsOf, h, State.windowsOf]

/-- A command that its unit finds illegal is reported while the member dispatches (R60, R343). -/
theorem State.invalid_reports {s : State} (i : Issue) (h4 : s.commitState ≠ 4) (h5 : s.commitState ≠ 5) :
    (∃ r, (s.invalid i).faults.inFlight = s.faults.inFlight ++ [r] ∧ r.2.code = 0x303 ∧ r.2.source = i.unit) ∧
      Notes s (s.invalid i) ∧ (s.invalid i).mem = s.mem := by
  rw [State.invalid, if_neg (by tauto)]
  exact ⟨⟨_, rfl, rfl, rfl⟩, Notes.raise s _ _ _ _ _, State.raise_mem ..⟩

/-- A REDUCE whose window has a place and meets no other arms it (R264). -/
theorem startReduce_arms {i : Issue} {s : State} (hfree : reservedRange (s.transfer i).dst (s.transfer i).storedBytes = false)
    (htable : (s.transfer i).tableReserved = false) (hroom : (s.windowsOf (i.unit - 0x40)).length < 8)
    (hapart : ∀ w ∈ s.windowsOf (i.unit - 0x40), overlaps (s.transfer i).dst (s.transfer i).storedBytes w.base w.bytes = false) :
    startReduce i s = (s.setWindows (i.unit - 0x40) (s.windowsOf (i.unit - 0x40) ++ [windowOf (s.transfer i) i.ctx])).startWork 4 i
      (some i.dur) .none := by
  have hlegal : ¬ (decide (8 ≤ (s.windowsOf (i.unit - 0x40)).length) || (s.windowsOf (i.unit - 0x40)).any fun w =>
      overlaps (s.transfer i).dst (s.transfer i).storedBytes w.base w.bytes) = true := by
    simp only [Bool.or_eq_true, decide_eq_true_eq, List.any_eq_true, not_or, not_exists, not_and]
    exact ⟨by omega, fun w hw => by simp [hapart w hw]⟩
  simp only [startReduce, hfree, htable, Bool.false_eq_true, if_false, if_neg hlegal]

/-- A ninth window, or one that meets another, is illegal (R264). -/
theorem startReduce_illegal {i : Issue} {s : State} (hfree : reservedRange (s.transfer i).dst (s.transfer i).storedBytes = false)
    (htable : (s.transfer i).tableReserved = false)
    (hmeets : 8 ≤ (s.windowsOf (i.unit - 0x40)).length ∨
      ∃ w ∈ s.windowsOf (i.unit - 0x40), overlaps (s.transfer i).dst (s.transfer i).storedBytes w.base w.bytes = true) :
    startReduce i s = s.invalid i := by
  have hillegal : (decide (8 ≤ (s.windowsOf (i.unit - 0x40)).length) || (s.windowsOf (i.unit - 0x40)).any fun w =>
      overlaps (s.transfer i).dst (s.transfer i).storedBytes w.base w.bytes) = true := by
    simpa only [Bool.or_eq_true, decide_eq_true_eq, List.any_eq_true] using hmeets
  simp only [startReduce, hfree, htable, Bool.false_eq_true, if_false, if_pos hillegal]

/-- Settles O18: a window that is armed, one that is not, the expiry, and the end of a transfer. -/
theorem reduceArmsAWindow : Obligations.ReduceArmsAWindow := by
  unfold Obligations.ReduceArmsAWindow
  refine ⟨fun i s h _ _ hfree htable hroom hapart => ?arms, fun i s h _ _ hfree htable hmeets h4 h5 => ?illegal,
    fun u s w h1 h2 hwork hop hleft => ?expiry, fun u s w h1 h2 hwork hop hleft => ?complete⟩
  case arms =>
    have hexec : exec (.reduce i) s = .next (startReduce i (s.current 4 i)) := exec_takes (f := startReduce) rfl h
    rw [startReduce_arms (s := s.current 4 i) hfree htable hroom hapart] at hexec
    have hworks := ((s.current 4 i).setWindows (i.unit - 0x40) (s.windowsOf (i.unit - 0x40) ++
      [windowOf (s.transfer i) i.ctx])).startWork_works 4 i (some i.dur) .none
    refine ⟨_, hexec, ?_, ?_, rfl, rfl, fun v hv => ?_⟩
    · rw [State.windowsOf, State.startWork_mem]
      exact State.setWindows_windowsOf_same _ _ _
    · rw [← State.current_stalled s 4 i]
      exact hworks
    · rw [State.startWork_unit_other _ _ _ _ _ hv]
      exact s.current_unit_other 4 i hv
  case illegal =>
    have hexec : exec (.reduce i) s = .next (startReduce i (s.current 4 i)) := exec_takes (f := startReduce) rfl h
    rw [startReduce_illegal (s := s.current 4 i) hfree htable hmeets] at hexec
    obtain ⟨⟨r, hr, hcode, hsource⟩, hnotes, hmem⟩ := State.invalid_reports (s := s.current 4 i) i h4 h5
    refine ⟨_, r, hexec, hr, hcode, hsource, hmem, ?_⟩
    rw [hnotes.unit, State.current_work, work_none_of_takesEffect h]
  case expiry =>
    have hover : s.workOver u [4] = true := by simp [State.workOver, hwork, hop, hleft]
    have hend : reduceWindowExpiry u s = ((s.setWindows (u - 0x40) ((s.windowsOf (u - 0x40)).drop 1)).endWork u).settle := by
      simp [reduceWindowExpiry, unitClass_controller h1 h2, hover]
    refine ⟨_, congrArg Host.Outcome.next hend, ?_, ?_, ?_, ?_, fun v hv => ?_⟩
    · rw [State.settle_unit, State.endWork_work]
    · rw [State.windowsOf, State.settle_mem, State.endWork_mem]
      exact State.setWindows_windowsOf_same _ _ _
    · rw [State.settle_mem, State.endWork_mem]
      rfl
    · rw [State.settle_mem, State.endWork_mem]
      rfl
    · rw [State.settle_unit, State.endWork_unit_other _ hv]
      rfl
  case complete =>
    have hover : s.workOver u [1, 2, 3] = true := by simp [State.workOver, hwork, hop, hleft]
    have hend : transferComplete u s = (s.endWork u).settle := by
      simp [transferComplete, unitClass_controller h1 h2, hover]
    refine ⟨_, congrArg Host.Outcome.next hend, ?_, ?_, fun v hv => ?_⟩
    · rw [State.settle_unit, State.endWork_work]
    · rw [State.settle_mem, State.endWork_mem]
    · rw [State.settle_unit, State.endWork_unit_other _ hv]

end Sys2Proof.Machine
end

section
/-! The link: what a port sends, replays, acknowledges and retrains (R271–R280). -/

namespace Sys2Proof.Machine

open Sys2Proof.Safety

/-! ### What a port that sends changes -/

/-- From `s` to `t` nothing changes but the record of port `p` and its count of resends. -/
structure OnPort (p : Nat) (s t : State) : Prop where
  state : t = { s with dict := t.dict, fabric := { s.fabric with ports := t.fabric.ports } }
  others : ∀ q, q ≠ p → t.port q = s.port q
  get : ∀ i j, objKey i j ≠ objKey 0x5021 (p + 1) → t.get i j = s.get i j

namespace OnPort

variable {p : Nat} {s t u : State}

theorem refl (p : Nat) (s : State) : OnPort p s s := ⟨rfl, fun _ _ => rfl, fun _ _ _ => rfl⟩

theorem trans (h : OnPort p s t) (k : OnPort p t u) : OnPort p s u where
  state := by rw [k.state, h.state]
  others q hq := (k.others q hq).trans (h.others q hq)
  get i j hij := (k.get i j hij).trans (h.get i j hij)

theorem mem (h : OnPort p s t) : t.mem = s.mem := by rw [h.state]
theorem faults (h : OnPort p s t) : t.faults = s.faults := by rw [h.state]
theorem units (h : OnPort p s t) : t.units = s.units := by rw [h.state]
theorem program (h : OnPort p s t) : t.program = s.program := by rw [h.state]

theorem ite {c : Prop} [Decidable c] (h : OnPort p s t) (k : OnPort p s u) : OnPort p s (if c then t else u) := by
  split <;> assumption

theorem setPort (s : State) (p : Nat) (x : Port) : OnPort p s (s.setPort p x) :=
  ⟨rfl, fun _ hq => State.setPort_port_other _ _ _ hq, fun _ _ _ => rfl⟩

theorem countResend (s : State) (p : Nat) : OnPort p s (s.count 0x5021 (p + 1) 1) :=
  ⟨by unfold State.count State.put; rfl, fun q _ => State.count_port .., fun _ _ h => State.put_get_other _ _ _ _ h⟩

theorem sendFlit (s : State) (p : Nat) (r : List Byte) : OnPort p s (s.sendFlit p r) := setPort s p _

theorem sendAgain (s : State) (p : Nat) : OnPort p s (s.sendAgain p) := by
  simp only [State.sendAgain]
  split
  · exact refl p s
  · exact (setPort s p _).trans (countResend _ p)

end OnPort

/-- A port whose link is free sends a flit, new or again; else it does nothing (R271, R277). -/
theorem State.pump_cases (s : State) (p : Nat) :
    s.pump p = s ∨ (∃ r, s.pump p = s.sendFlit p r) ∨ s.pump p = s.sendAgain p := by
  simp only [State.pump]
  split
  · exact .inl rfl
  · split
    · split
      · exact .inr (.inl ⟨_, rfl⟩)
      · exact .inr (.inr rfl)
    · exact .inr (.inr rfl)

namespace OnPort

theorem pump (s : State) (p : Nat) : OnPort p s (s.pump p) := by
  obtain h | ⟨r, h⟩ | h := s.pump_cases p
  · rw [h]
    exact refl p s
  · rw [h]
    exact sendFlit s p r
  · rw [h]
    exact sendAgain s p

theorem enqueue (s : State) (p : Nat) (r : List Byte) : OnPort p s (s.enqueue p r) := (setPort s p _).trans (pump _ p)

theorem sendLink (s : State) (p op : Nat) (payload : List Byte) : OnPort p s (s.sendLink p op payload) := enqueue s p _

theorem resendFrom (s : State) (p seq : Nat) : OnPort p s (s.resendFrom p seq) := by
  simp only [State.resendFrom]
  split
  · exact refl p s
  · exact (setPort s p _).trans (pump _ p)

theorem resume (s : State) (p : Nat) : OnPort p s (s.resume p) := by
  simp only [State.resume]
  split
  · exact (setPort s p _).trans (resendFrom _ p _)
  · exact (setPort s p _).trans (pump _ p)

end OnPort

/-! ### The record of a port that sends -/

/-- The port has sent at most one flit more: what it awaits and whether it retrains are as before. -/
structure Sends (x y : Port) : Prop where
  retraining : y.retraining = x.retraining
  rxSeq : y.rxSeq = x.rxSeq
  replay : ∃ sent, y.replay = x.replay ++ sent ∧ sent.length ≤ 1

theorem State.sendFlit_port (s : State) (p : Nat) (r : List Byte) : Sends (s.port p) ((s.sendFlit p r).port p) := by
  simp only [State.sendFlit, State.setPort_port_same]
  exact ⟨rfl, rfl, _, rfl, Nat.le_refl 1⟩

/-- A resend puts the oldest flit of the resend on the wire (R275). -/
theorem State.sendAgain_port {s : State} {p : Nat} {r : List Byte} {l : List (List Byte)} (h : (s.port p).resend = r :: l) :
    (s.sendAgain p).port p = { s.port p with
      resend := l, wire := (s.port p).wire ++ [stampFlit r (seqOf r) ((s.port p).rxSeq + 4095)]
      resends := (s.port p).resends + 1, pace := (s.port p).pace - 2560 } := by
  simp only [State.sendAgain, h]
  exact State.setPort_port_same _ _ _

theorem State.sendAgain_none {s : State} {p : Nat} (h : (s.port p).resend = []) : s.sendAgain p = s := by
  simp only [State.sendAgain, h]

theorem State.pump_port (s : State) (p : Nat) : Sends (s.port p) ((s.pump p).port p) := by
  have hrefl : Sends (s.port p) (s.port p) := ⟨rfl, rfl, [], by simp, Nat.zero_le 1⟩
  obtain h | ⟨r, h⟩ | h := s.pump_cases p
  · rw [h]
    exact hrefl
  · rw [h]
    exact s.sendFlit_port p r
  · rw [h]
    cases hresend : (s.port p).resend with
    | nil =>
      rw [State.sendAgain_none hresend]
      exact hrefl
    | cons r l =>
      rw [State.sendAgain_port hresend]
      exact ⟨rfl, rfl, [], by simp, Nat.zero_le 1⟩

/-- Without a new flit a free port sends again (R271, R277). -/
theorem State.pump_resend {s : State} {p : Nat} (hup : s.up p = true) (hretraining : (s.port p).retraining = none)
    (hpace : 2560 ≤ (s.port p).pace) (hqueue : (s.port p).queue = []) : s.pump p = s.sendAgain p := by
  have hnone : s.nextFlit (s.port p) = none := by simp [State.nextFlit, hqueue]
  have hfree : ¬ (!s.up p || (s.port p).retraining.isSome || decide ((s.port p).pace < 2560)) = true := by
    simp [hup, hretraining, hpace]
  simp only [State.pump, if_neg hfree, hnone]

/-- With nothing to send a port does nothing. -/
theorem State.pump_idle {s : State} {p : Nat} (hqueue : (s.port p).queue = []) (hresend : (s.port p).resend = []) :
    s.pump p = s := by
  have hnone : s.nextFlit (s.port p) = none := by simp [State.nextFlit, hqueue]
  simp only [State.pump, hnone, State.sendAgain_none hresend, ite_self]

theorem State.pump_slow {s : State} {p : Nat} (hpace : (s.port p).pace < 2560) : s.pump p = s := by
  simp [State.pump, hpace]

theorem State.enqueue_retraining (s : State) (p : Nat) (r : List Byte) :
    ((s.enqueue p r).port p).retraining = (s.port p).retraining := by
  rw [State.enqueue, (State.pump_port _ p).retraining, State.setPort_port_same]

theorem State.resendFrom_retraining (s : State) (p seq : Nat) :
    ((s.resendFrom p seq).port p).retraining = (s.port p).retraining := by
  simp only [State.resendFrom]
  split
  · rfl
  · rw [(State.pump_port _ p).retraining, State.setPort_port_same]

theorem State.resume_retraining (s : State) (p : Nat) : ((s.resume p).port p).retraining = (s.port p).retraining := by
  simp only [State.resume]
  split
  · rw [State.resendFrom_retraining, State.setPort_port_same]
  · rw [(State.pump_port _ p).retraining, State.setPort_port_same]

/-! ### The end of work -/

/-- From `s` to `t` nothing changes but units, and what settling a program that has ended changes. -/
def Settles (s t : State) : Prop := t = { s with units := t.units, arrays := t.arrays, program := t.program }

namespace Settles

variable {s t u : State}

theorem refl (s : State) : Settles s s := rfl

theorem trans (h : Settles s t) (k : Settles t u) : Settles s u := by
  unfold Settles at *
  rw [k, h]

theorem mem (h : Settles s t) : t.mem = s.mem := by rw [h]
theorem dict (h : Settles s t) : t.dict = s.dict := by rw [h]
theorem faults (h : Settles s t) : t.faults = s.faults := by rw [h]
theorem fabric (h : Settles s t) : t.fabric = s.fabric := by rw [h]
theorem commit (h : Settles s t) : t.commit = s.commit := by rw [h]
theorem locket (h : Settles s t) : t.locket = s.locket := by rw [h]
theorem port (h : Settles s t) (p : Nat) : t.port p = s.port p := by rw [State.port, h.fabric, State.port]
theorem get (h : Settles s t) (i j : Nat) : t.get i j = s.get i j := State.get_congr h.dict i j

theorem up (h : Settles s t) (p : Nat) : t.up p = s.up p := by
  rw [State.up, State.portState, h.get, State.up, State.portState]
theorem moduleId (h : Settles s t) : t.moduleId = s.moduleId := h.get _ _

theorem onUnit (s : State) (v : Nat) (f : UnitState → UnitState) : Settles s (s.onUnit v f) := rfl

theorem foldl {α : Type} {f : State → α → State} (hf : ∀ x a, Settles x (f x a)) (l : List α) (s : State) :
    Settles s (l.foldl f s) := by
  induction l generalizing s with
  | nil => exact refl s
  | cons a t ih => exact (hf s a).trans (ih (f s a))

theorem setArray (s : State) (v : Nat) (x : ArrayRegs) : Settles s (s.setArray v x) := rfl

theorem setProgram (s : State) (x : Program) : Settles s { s with program := x } := rfl

theorem settle (s : State) : Settles s s.settle := by
  unfold State.settle
  split
  · extract_lets x
    have hx : Settles s x := foldl (fun y v => setArray y v _) _ s
    exact hx.trans (setProgram x _)
  · exact refl s

theorem settleSends (s : State) : Settles s s.settleSends := by
  unfold State.settleSends
  refine foldl (fun x v => ?_) _ s
  split
  · split
    · split
      · exact refl x
      · exact (onUnit x v _).trans (settle _)
    · exact refl x
  · exact refl x

end Settles

/-! ### The end of a retrain -/

/-- After a retrain the far end is told, and sending goes on (R278). -/
theorem OnPort.goesOn (s : State) (p : Nat) : OnPort p s ((s.sendLink p 3 []).resume p) :=
  (OnPort.sendLink s p 3 []).trans (OnPort.resume _ p)

theorem State.goesOn_retraining (s : State) (p : Nat) :
    (((s.sendLink p 3 []).resume p).port p).retraining = (s.port p).retraining := by
  rw [State.resume_retraining, State.sendLink, State.enqueue_retraining]

/-- A counter goes on from its value. -/
theorem State.count_get_congr {s t : State} {index sub : Nat} (n : Nat) (h : s.get index sub = t.get index sub) :
    (s.count index sub n).get index sub = (t.count index sub n).get index sub := by
  rw [State.count, State.count, State.put_get_same, State.put_get_same, h]

/-- What a retrain that trained leaves: the port sends at full width after a restore, at half width after a degrade. -/
structure Retrained (p : Nat) (restore : Bool) (s t : State) : Prop where
  retraining : (t.port p).retraining = none
  state : t.get 0x5020 (p + 1) = if restore then 1 else 2
  counted : restore = false → t.get 0x5026 (p + 1) = (s.count 0x5026 (p + 1) 1).get 0x5026 (p + 1)
  mem : t.mem = s.mem

theorem State.endRetrain_trained {s : State} {p : Nat} {restore : Bool} (h : (s.port p).retraining = some restore) :
    Retrained p restore s (s.endRetrain p true) := by
  have hstate : objKey 0x5020 (p + 1) ≠ objKey 0x5021 (p + 1) := by simp only [objKey]; omega
  have hcount : objKey 0x5026 (p + 1) ≠ objKey 0x5021 (p + 1) := by simp only [objKey]; omega
  have hapart : objKey 0x5020 (p + 1) ≠ objKey 0x5026 (p + 1) := by simp only [objKey]; omega
  cases restore with
  | true =>
    simp only [State.endRetrain, h]
    have hgoes := OnPort.goesOn ((s.setPort p { s.port p with retraining := none }).put 0x5020 (p + 1) 1) p
    refine ⟨?_, ?_, nofun, ?_⟩
    · rw [State.goesOn_retraining, State.put_port, State.setPort_port_same]
    · rw [hgoes.get _ _ hstate, State.put_get_same]
      rfl
    · rw [hgoes.mem, State.put_mem, State.setPort_mem]
  | false =>
    simp only [State.endRetrain, h]
    have hgoes := OnPort.goesOn (((s.setPort p { s.port p with retraining := none }).put 0x5020 (p + 1) 2).count 0x5026 (p + 1) 1) p
    refine ⟨?_, ?_, fun _ => ?_, ?_⟩
    · rw [State.goesOn_retraining, State.count_port, State.put_port, State.setPort_port_same]
    · rw [hgoes.get _ _ hstate, State.count, State.put_get_other _ _ _ _ hapart, State.put_get_same]
      rfl
    · rw [hgoes.get _ _ hcount]
      exact State.count_get_congr 1 (State.put_get_other _ _ _ _ hapart.symm)
    · rw [hgoes.mem, State.count_mem, State.put_mem, State.setPort_mem]

/-- What the removal of a port leaves: what is on the wire, the state and the report (R280). -/
theorem State.removePort_removes (s : State) (p : Nat) :
    ∃ r, (s.removePort p).port p = { wire := (s.port p).wire } ∧ (s.removePort p).get 0x5020 (p + 1) = 3 ∧
      (s.removePort p).faults.inFlight = s.faults.inFlight ++ [r] ∧ r.2.code = (if p = 16 then 0x20C else 0x20B) ∧
      (s.removePort p).mem = s.mem := by
  unfold State.removePort
  extract_lets x
  have hsettles := Settles.settleSends ((x.put 0x5020 (p + 1) 3).portRaise (if p = 16 then 0x20C else 0x20B) p)
  obtain ⟨r, hr, hcode, -⟩ := (x.put 0x5020 (p + 1) 3).raise_reports (if p = 16 then 0x20C else 0x20B) (portUnit p)
    (unitDie (portUnit p)) 0 p
  have hport : x.port p = { wire := (s.port p).wire } := State.setPort_port_same _ _ _
  refine ⟨r, ?_, ?_, ?_, hcode, ?_⟩
  · rw [hsettles.port, State.portRaise, State.raise_port, State.put_port, hport]
  · rw [hsettles.get, State.portRaise, State.raise_get, State.put_get_same]
  · rw [hsettles.faults, State.portRaise, hr, State.put_faults]
    rfl
  · rw [hsettles.mem, State.portRaise, State.raise_mem, State.put_mem]
    rfl

/-- The end of a retrain changes no memory. -/
theorem State.endRetrain_mem (s : State) (p : Nat) (trained : Bool) : (s.endRetrain p trained).mem = s.mem := by
  cases hretraining : (s.port p).retraining with
  | none =>
    simp only [State.endRetrain, hretraining]
    split
    · rw [State.put_mem]
    · rfl
  | some restore =>
    cases trained with
    | true => exact (State.endRetrain_trained hretraining).mem
    | false =>
      cases restore with
      | true =>
        simp only [State.endRetrain, hretraining]
        rw [(OnPort.resume _ p).mem, State.setPort_mem]
      | false =>
        simp only [State.endRetrain, hretraining]
        obtain ⟨_, -, -, -, -, hmem⟩ := State.removePort_removes (s.setPort p { s.port p with retraining := none }) p
        rw [hmem, State.setPort_mem]

/-! ### IDLE, NAK and CREDIT -/

/-- What an IDLE flit that reaches its port does: its ACK is taken (R275). -/
theorem execIdleReceive_acks {p : Nat} {raw : List Byte} {s : State} (hon : s.power.on = true) (hp : p ≤ 16)
    (hup : s.up p = true) (hintact : flitIntact raw = true) (hok : flitOk p raw = true) (htype : (flitOf raw).type = 0) :
    exec (.idleReceive p raw) s = .next (s.takeAck p (flitOf raw).ack) := by
  have h17 : p ≠ 17 := by omega
  have h16 : ¬16 < p := Nat.not_lt.2 hp
  have hmine : ofType 0 (flitOf raw) = true := by simp [ofType, htype]
  refine congrArg Host.Outcome.next ?_
  simp [receive, hon, hup, h17, h16, hintact, hok, hmine, htype]

theorem State.takeAck_unknown {s : State} {p ack : Nat} (h : ∀ r ∈ (s.port p).replay, seqOf r ≠ ack) : s.takeAck p ack = s := by
  have hnone : (s.port p).replay.findIdx? (fun r => seqOf r == ack) = none := by
    simpa [List.findIdx?_eq_none_iff] using h
  simp only [State.takeAck, hnone]

/-- An ACK frees its flit and those before it, and the port goes on sending (R275). -/
theorem State.takeAck_frees {s : State} {p ack : Nat} {a b : List (List Byte)} {r : List Byte}
    (hreplay : (s.port p).replay = a ++ r :: b) (hr : seqOf r = ack) (ha : ∀ x ∈ a, seqOf x ≠ ack) :
    ∃ x : Port, x.replay = b ∧ x.rxSeq = (s.port p).rxSeq ∧ s.takeAck p ack = ((s.setPort p x).pump p).settleSends := by
  have hindex : (s.port p).replay.findIdx? (fun r => seqOf r == ack) = some a.length := by
    rw [hreplay, List.findIdx?_append]
    have hnone : a.findIdx? (fun r => seqOf r == ack) = none := by simpa [List.findIdx?_eq_none_iff] using ha
    simp [hnone, List.findIdx?_cons, hr]
  simp only [State.takeAck, hindex]
  refine ⟨_, ?_, ?_, rfl⟩
  · rw [hreplay]
    simp
  · rfl

/-- Settles O25: IDLE, NAK, CREDIT and RETRAIN DONE. -/
theorem linkFlitsAct : Obligations.LinkFlitsAct := by
  unfold Obligations.LinkFlitsAct
  refine ⟨fun p raw s hon hp hup hintact hok htype => ⟨fun hunknown => ?unknown, fun a r b hreplay hr ha => ?acked⟩,
    fun p raw s t f h => ⟨fun hnone => ?nakNone, fun r l hresend => ⟨fun hpace => ?nakSlow, fun hpace hup hretraining hqueue => ?nak⟩⟩,
    fun p raw s t f h => ?credit, fun p raw s t f h => ?done⟩
  case unknown => rw [execIdleReceive_acks hon hp hup hintact hok htype, State.takeAck_unknown hunknown]
  case acked =>
    obtain ⟨x, hx, hseq, hack⟩ := State.takeAck_frees hreplay hr ha
    rw [execIdleReceive_acks hon hp hup hintact hok htype, hack]
    have hsettles := Settles.settleSends ((s.setPort p x).pump p)
    have hport := (OnPort.setPort s p x).trans (OnPort.pump _ p)
    have hsends := (s.setPort p x).pump_port p
    rw [State.setPort_port_same] at hsends
    obtain ⟨sent, hsent, hlength⟩ := hsends.replay
    refine ⟨_, sent, rfl, ?_, hlength, ?_, fun q hq => ?_, ?_⟩
    · rw [hsettles.port, hsent, hx]
    · rw [hsettles.port, hsends.rxSeq, hseq]
    · rw [hsettles.port, hport.others q hq]
    · rw [hsettles.mem, hport.mem]
  case nakNone =>
    refine congrArg Host.Outcome.next ((receive_arrives _ h).trans ?_)
    simp only [takeNak, State.resendFrom, hnone]
  case nakSlow =>
    refine congrArg Host.Outcome.next ((receive_arrives _ h).trans ?_)
    simp only [takeNak, State.resendFrom, hresend]
    exact State.pump_slow (by rw [State.setPort_port_same]; exact hpace)
  case nak =>
    have hnak : takeNak p f t = (t.setPort p { t.port p with resend := r :: l }).sendAgain p := by
      simp only [takeNak, State.resendFrom, hresend]
      exact State.pump_resend hup (by rw [State.setPort_port_same]; exact hretraining)
        (by rw [State.setPort_port_same]; exact hpace) (by rw [State.setPort_port_same]; exact hqueue)
    have hport := State.sendAgain_port (s := t.setPort p { t.port p with resend := r :: l }) (p := p) (r := r) (l := l)
      (by rw [State.setPort_port_same])
    rw [State.setPort_port_same] at hport
    refine ⟨_, congrArg Host.Outcome.next ((receive_arrives _ h).trans hnak), ?_, ?_, ?_, ?_, ?_⟩
    · rw [hport]
    · rw [hport]
    · rw [hport]
    · simp only [State.sendAgain, State.setPort_port_same]
      rfl
    · rw [(OnPort.sendAgain _ p).mem, State.setPort_mem]
  case credit =>
    have hport := (OnPort.setPort t p { t.port p with credits := (t.port p).credits + leNat (f.payload.take 1) }).trans (OnPort.pump _ p)
    refine ⟨_, congrArg Host.Outcome.next (receive_arrives _ h), fun hqueue hresend => ?_, hport.mem, hport.others⟩
    exact State.pump_idle (by rw [State.setPort_port_same]; exact hqueue) (by rw [State.setPort_port_same]; exact hresend)
  case done =>
    refine ⟨_, congrArg Host.Outcome.next (receive_arrives _ h), ?_, fun hsome => ?_, fun hnone hused => ?_⟩
    · rw [takeRetrainDone, State.endRetrain_mem]
    · obtain ⟨restore, hrestore⟩ := Option.isSome_iff_exists.1 hsome
      have htrained := State.endRetrain_trained hrestore
      refine ⟨htrained.retraining, htrained.state.trans ?_⟩
      cases restore <;> simp [hrestore]
    · simp [takeRetrainDone, State.endRetrain, hnone, hused]

/-! ### DEGRADE and the ends of a retrain -/

/-- A degrade of a port of full width begins a retrain and is reported (R278). -/
theorem State.degrade_retrains {s : State} {p : Nat} (h : s.portState p = 1) :
    s.degrade p = (s.setPort p { s.port p with retraining := some false }).portRaise 0x20A p := by
  rw [State.degrade, if_pos h]

theorem State.degrade_removes {s : State} {p : Nat} (h : s.portState p = 2) : s.degrade p = s.removePort p := by
  rw [State.degrade, if_neg (by rw [h]; decide), if_pos h]

theorem OnPort.portState {p : Nat} {s t : State} (h : OnPort p s t) : t.portState p = s.portState p :=
  h.get _ _ (by simp only [objKey]; omega)

/-- The far end of a port that comes down is told (R278). -/
theorem linkDegraded_degrades {p : Nat} {s : State} (hp : p ≤ 16) (hup : s.up p = true) (h : (s.port p).retraining = none) :
    linkDegraded p s = (s.sendLink p 2 []).degrade p := by
  simp [linkDegraded, Nat.not_lt.2 hp, hup, h]

/-- Settles O26: LINK_DEGRADED, DEGRADE, PORT_RETRAIN_COMPLETE and PORT_STALL. -/
theorem degradesAndRetrains : Obligations.DegradesAndRetrains := by
  unfold Obligations.DegradesAndRetrains
  refine ⟨⟨fun p s hp hretraining => ⟨fun hone => ?one, fun htwo => ?two, fun hone htwo => ?down⟩,
    fun p raw s t f h => ⟨fun hsome => ?toldTwice, fun hnone hone => ?toldOne, fun hnone htwo => ?toldTwo⟩⟩,
    fun p trained s hp => ⟨fun hdegrade => ?degrade, fun hrestore => ?restore, fun hnone hunused htrained => ?unused,
      fun hnone hused => ?idle⟩, fun p s => ⟨fun r rest hqueue => ?stall, fun hqueue => ?noStall⟩⟩
  case one =>
    have hsent := OnPort.sendLink s p 2 []
    have hexec := (linkDegraded_degrades hp (by simp [State.up, hone]) hretraining).trans
      (State.degrade_retrains (hsent.portState.trans hone))
    obtain ⟨r, hr, hcode, hsource, -⟩ := ((s.sendLink p 2 []).setPort p
      { (s.sendLink p 2 []).port p with retraining := some false }).raise_reports 0x20A (portUnit p) (unitDie (portUnit p)) 0 p
    refine ⟨_, r, congrArg Host.Outcome.next hexec, ?_, ?_, hcode, hsource, ?_⟩
    · rw [State.portRaise, State.raise_port, State.setPort_port_same]
    · rw [State.portRaise, hr, State.setPort_faults, hsent.faults]
    · rw [State.portRaise, State.raise_mem, State.setPort_mem, hsent.mem]
  case two =>
    have hsent := OnPort.sendLink s p 2 []
    have hexec := (linkDegraded_degrades hp (by simp [State.up, htwo]) hretraining).trans
      (State.degrade_removes (hsent.portState.trans htwo))
    obtain ⟨r, hport, hstate, hr, hcode, hmem⟩ := (s.sendLink p 2 []).removePort_removes p
    refine ⟨_, r, congrArg Host.Outcome.next hexec, hstate, ?_, ?_, ?_, hcode, ?_⟩
    · rw [hport]
    · rw [hport]
    · rw [hr, hsent.faults]
    · rw [hmem, hsent.mem]
  case down =>
    refine congrArg Host.Outcome.next ?_
    simp [linkDegraded, State.up, hone, htwo]
  case toldTwice => exact congrArg Host.Outcome.next ((receive_arrives _ h).trans (if_pos hsome))
  case toldOne =>
    have hexec := (receive_arrives takeDegrade h).trans ((if_neg (by simp [hnone])).trans (State.degrade_retrains hone))
    obtain ⟨r, hr, hcode, -⟩ := (t.setPort p { t.port p with retraining := some false }).raise_reports 0x20A (portUnit p)
      (unitDie (portUnit p)) 0 p
    refine ⟨_, r, congrArg Host.Outcome.next hexec, ?_, ?_, hcode⟩
    · rw [State.portRaise, State.raise_port, State.setPort_port_same]
    · rw [State.portRaise, hr, State.setPort_faults]
  case toldTwo =>
    have hexec := (receive_arrives takeDegrade h).trans ((if_neg (by simp [hnone])).trans (State.degrade_removes htwo))
    obtain ⟨_, hport, hstate, -, -, -⟩ := t.removePort_removes p
    exact ⟨_, congrArg Host.Outcome.next hexec, hstate, hport⟩
  case degrade =>
    cases trained with
    | true =>
      have htrained := State.endRetrain_trained hdegrade
      exact ⟨_, rfl, htrained.retraining, htrained.state, htrained.mem, fun _ => htrained.counted rfl, nofun⟩
    | false =>
      obtain ⟨_, hport, hstate, -, -, hmem⟩ := (s.setPort p { s.port p with retraining := none }).removePort_removes p
      have hend : s.endRetrain p false = (s.setPort p { s.port p with retraining := none }).removePort p := by
        simp only [State.endRetrain, hdegrade]
      refine ⟨_, congrArg Host.Outcome.next hend, ?_, hstate, ?_, nofun, fun _ => ⟨?_, ?_⟩⟩
      · rw [hport]
      · rw [hmem, State.setPort_mem]
      · rw [hport]
      · rw [hport]
  case restore =>
    cases trained with
    | true =>
      have htrained := State.endRetrain_trained hrestore
      exact ⟨_, rfl, htrained.retraining, htrained.state, htrained.mem⟩
    | false =>
      have hend : s.endRetrain p false = (s.setPort p { s.port p with retraining := none }).resume p := by
        simp only [State.endRetrain, hrestore]
      have hresume := OnPort.resume (s.setPort p { s.port p with retraining := none }) p
      refine ⟨_, congrArg Host.Outcome.next hend, ?_, ?_, ?_⟩
      · rw [State.resume_retraining, State.setPort_port_same]
      · exact hresume.portState
      · rw [hresume.mem, State.setPort_mem]
  case unused =>
    refine congrArg Host.Outcome.next ?_
    simp [State.endRetrain, hnone, hunused, htrained, hp]
  case idle =>
    refine congrArg Host.Outcome.next ?_
    simp only [State.endRetrain, hnone]
    exact if_neg fun h => hused.elim (· h.1) (fun hfalse => by simp [hfalse] at h)
  case stall =>
    refine congrArg Host.Outcome.next ?_
    simp only [portStall, hqueue]
    rfl
  case noStall =>
    refine congrArg Host.Outcome.next ?_
    simp only [portStall, hqueue]

end Sys2Proof.Machine
end

section
/-! Transfers between modules: what a port sends, and what a receive entry brings (R291–R295, R315, R322). -/

namespace Sys2Proof.Machine

open Sys2Proof.Safety

/-! ### Flits that leave -/

/-- From `s` to `t` flits have been handed to the ports and to the module's local path, or reported; nothing else changes but the
counts of resends. -/
structure Emits (s t : State) : Prop where
  state : t = { s with
    dict := t.dict, faults := t.faults, fabric := { s.fabric with ports := t.fabric.ports, loop := t.fabric.loop } }
  get : ∀ i j, (∀ p ≤ 16, objKey i j ≠ objKey 0x5021 (p + 1)) → t.get i j = s.get i j
  reports : ∃ l, t.faults.inFlight = s.faults.inFlight ++ l

namespace Emits

variable {s t u : State}

theorem refl (s : State) : Emits s s := ⟨rfl, fun _ _ _ => rfl, [], (List.append_nil _).symm⟩

theorem trans (h : Emits s t) (k : Emits t u) : Emits s u where
  state := by rw [k.state, h.state]
  get i j hij := (k.get i j hij).trans (h.get i j hij)
  reports := by
    obtain ⟨l, hl⟩ := h.reports
    obtain ⟨m, hm⟩ := k.reports
    exact ⟨l ++ m, by rw [hm, hl, List.append_assoc]⟩

theorem clock (h : Emits s t) : t.clock = s.clock := by rw [h.state]
theorem units (h : Emits s t) : t.units = s.units := by rw [h.state]
theorem program (h : Emits s t) : t.program = s.program := by rw [h.state]
theorem mem (h : Emits s t) : t.mem = s.mem := by rw [h.state]
theorem commit (h : Emits s t) : t.commit = s.commit := by rw [h.state]
theorem locket (h : Emits s t) : t.locket = s.locket := by rw [h.state]
theorem recvs (h : Emits s t) : t.fabric.recvs = s.fabric.recvs := by rw [h.state]
theorem serials (h : Emits s t) : t.fabric.serials = s.fabric.serials := by rw [h.state]
theorem unit (h : Emits s t) (u : Nat) : t.unit u = s.unit u := by rw [State.unit, h.units, State.unit]

theorem foldl {α : Type} {f : State → α → State} (l : List α) (hf : ∀ x, ∀ a ∈ l, Emits x (f x a)) (s : State) :
    Emits s (l.foldl f s) := by
  induction l generalizing s with
  | nil => exact refl s
  | cons a t ih =>
    exact (hf s a List.mem_cons_self).trans (ih (fun x b hb => hf x b (List.mem_cons_of_mem _ hb)) (f s a))

theorem enqueue {p : Nat} (hp : p ≤ 16) (s : State) (r : List Byte) : Emits s (s.enqueue p r) := by
  have h := OnPort.enqueue s p r
  refine ⟨?_, fun i j hij => h.get i j (hij p hp), [], ?_⟩
  · rw [h.state]
  · rw [h.faults, List.append_nil]

theorem raise (s : State) (code source die ctx detail : Nat) : Emits s (s.raise code source die ctx detail) :=
  ⟨rfl, fun _ _ _ => rfl, _, rfl⟩

theorem toLoop (s : State) (r : List Byte) : Emits s { s with fabric := { s.fabric with loop := s.fabric.loop ++ [r] } } :=
  ⟨rfl, fun _ _ _ => rfl, [], (List.append_nil _).symm⟩

theorem originate (s : State) (u : Nat) (f : Flit) : Emits s (s.originate u f) := by
  unfold State.originate
  extract_lets g out
  split
  · exact refl s
  · split
    · exact toLoop s _
    · split
      · exact raise s _ _ _ _ _
      next hout => exact enqueue (by omega) s _

theorem toHost (s : State) (f : Flit) : Emits s (s.toHost f) := enqueue (Nat.le_refl 16) s _

theorem flood (s : State) (f : Flit) (except : Option Nat) : Emits s (s.flood f except) := by
  refine foldl _ (fun x p hp => enqueue ?_ x _) s
  have hport := List.mem_range.1 (List.mem_filter.1 (List.mem_filter.1 hp).1).1
  omega

end Emits

/-! ### A transfer leaves -/

/-- What sending keeps, whatever the flits: the flits leave, and work that has ended is settled. -/
theorem State.startSending_sends (s : State) (u : Nat) (fs : List Flit) (host : Bool) : ∃ x y, Settles s x ∧ Emits x y ∧
    y = fs.foldl (fun (s : State) f => if host then s.toHost f else s.originate u f) x ∧
    s.startSending u fs host = y.settleSends := by
  unfold State.startSending
  extract_lets copies x
  have hemits := Emits.foldl (f := fun (s : State) f => if host then s.toHost f else s.originate u f)
    fs (fun y f _ => by split; exacts [Emits.toHost y f, Emits.originate y u f]) x
  exact ⟨x, _, Settles.onUnit s u _, hemits, rfl, rfl⟩

theorem State.startSending_mem (s : State) (u : Nat) (fs : List Flit) (host : Bool) : (s.startSending u fs host).mem = s.mem := by
  obtain ⟨x, y, hx, hy, -, heq⟩ := s.startSending_sends u fs host
  rw [heq, (Settles.settleSends y).mem, hy.mem, hx.mem]

theorem State.startSending_commit (s : State) (u : Nat) (fs : List Flit) (host : Bool) :
    (s.startSending u fs host).commit = s.commit := by
  obtain ⟨x, y, hx, hy, -, heq⟩ := s.startSending_sends u fs host
  rw [heq, (Settles.settleSends y).commit, hy.commit, hx.commit]

theorem State.startSending_recvs (s : State) (u : Nat) (fs : List Flit) (host : Bool) :
    (s.startSending u fs host).fabric.recvs = s.fabric.recvs := by
  obtain ⟨x, y, hx, hy, -, heq⟩ := s.startSending_sends u fs host
  rw [heq, (Settles.settleSends y).fabric, hy.recvs, hx.fabric]

theorem State.startSending_serials (s : State) (u : Nat) (fs : List Flit) (host : Bool) :
    (s.startSending u fs host).fabric.serials = s.fabric.serials := by
  obtain ⟨x, y, hx, hy, -, heq⟩ := s.startSending_sends u fs host
  rw [heq, (Settles.settleSends y).fabric, hy.serials, hx.fabric]

/-- A flit to the host, as it leaves on Stavlink (R295). -/
def State.hostFlit (s : State) (f : Flit) : Flit := { f with src := s.moduleId, dst := 0xFFF, slice := 0 }

/-- On a Stavlink that is not up a flit waits in its queue (R271). -/
theorem State.toHost_down {s : State} (f : Flit) (h : s.up 16 = false) :
    s.toHost f = s.setPort 16 { s.port 16 with queue := (s.port 16).queue ++ [(s.hostFlit f).encode] } := by
  have hdown : (s.setPort 16 { s.port 16 with queue := (s.port 16).queue ++ [(s.hostFlit f).encode] }).up 16 = false := h
  rw [State.toHost, State.enqueue, State.pump, if_pos (by rw [← State.hostFlit, hdown]; rfl)]
  rfl

theorem State.toHost_foldl_down {s : State} (fs : List Flit) (h : s.up 16 = false) :
    ((fs.foldl State.toHost s).port 16).queue = (s.port 16).queue ++ fs.map fun f => (s.hostFlit f).encode := by
  induction fs generalizing s with
  | nil => simp
  | cons f fs ih =>
    have hnext := s.toHost_down f h
    have hfs : fs.map (fun g => ((s.toHost f).hostFlit g).encode) = fs.map fun g => (s.hostFlit g).encode := by
      rw [hnext]
      rfl
    rw [List.foldl_cons, ih (by rw [hnext]; exact h), hfs, hnext, State.setPort_port_same, List.map_cons, List.append_assoc]
    rfl

/-! ### A BCAST leaves -/

/-- The copies for a member: its delta copy, if it takes one, is awaited (R315, R322). -/
theorem State.memberCopies_awaits (s : State) (x : Transfer) (member role : Nat) (w d : List Byte × List Nat) :
    ∃ added, (s.memberCopies x member role w d).1.commit = { s.commit with deltas := s.commit.deltas ++ added } ∧
      (s.memberCopies x member role w d).1.mem = s.mem ∧
      added.map Prod.fst = if x.dsrc ≠ 0 ∧ role ≠ 0 then [member] else [] := by
  unfold State.memberCopies
  extract_lets n r tag n1 s1
  have hr : r.1.commit = s.commit ∧ r.1.mem = s.mem := by
    unfold r
    split <;> exact ⟨rfl, rfl⟩
  obtain ⟨hcommit, hmem⟩ := hr
  split
  · have hcommit1 : n1.1.commit = s.commit := hcommit
    refine ⟨[(member, tag + 65536 * n1.2)], ?_, hmem, rfl⟩
    exact congrArg (fun c : Commit => { c with deltas := c.deltas ++ [(member, tag + 65536 * n1.2)] }) hcommit1
  · exact ⟨[], by rw [hcommit, List.append_nil], hmem, rfl⟩

/-- The copies for the members of a group, in their order. -/
theorem memberCopies_foldl_awaits (x : Transfer) (w d : List Byte × List Nat) (l : List (Nat × Nat)) (r : State × List (List Flit)) :
    ∃ added, (l.foldl (fun (r : State × List (List Flit)) m =>
        let c := r.1.memberCopies x m.1 m.2 w d
        (c.1, r.2 ++ [c.2])) r).1.commit = { r.1.commit with deltas := r.1.commit.deltas ++ added } ∧
      (l.foldl (fun (r : State × List (List Flit)) m =>
        let c := r.1.memberCopies x m.1 m.2 w d
        (c.1, r.2 ++ [c.2])) r).1.mem = r.1.mem ∧
      added.map Prod.fst = if x.dsrc = 0 then [] else (l.filter fun m => m.2 != 0).map Prod.fst := by
  induction l generalizing r with
  | nil => exact ⟨[], by simp, rfl, by simp⟩
  | cons m l ih =>
    obtain ⟨a, ha, hmem, hfst⟩ := r.1.memberCopies_awaits x m.1 m.2 w d
    obtain ⟨b, hb, hmem', hfst'⟩ := ih ((r.1.memberCopies x m.1 m.2 w d).1, r.2 ++ [(r.1.memberCopies x m.1 m.2 w d).2])
    refine ⟨a ++ b, ?_, ?_, ?_⟩
    · rw [List.foldl_cons, hb, ha]
      simp
    · rw [List.foldl_cons, hmem', hmem]
    · rw [List.map_append, hfst, hfst']
      by_cases hdelta : x.dsrc = 0
      · simp [hdelta]
      · by_cases hrole : m.2 = 0 <;> simp [hdelta, hrole]

/-! ### Landing -/

/-- Bytes of a flit are on their way to where their entry says, 64 cycles on; what a coefficient's table brings with it is noted. -/
theorem State.sendLanding_sends (s : State) (r : Recv) (x : Transfer) (f : Flit) (serial off : Nat) :
    ∃ y q, Notes s y ∧ s.sendLanding r x f serial off = y.arriveIn 64 q ∧ q.own = true ∧ q.unit = r.cmd.issue.unit ∧
      q.data = f.payload ∧
      (bit x.dst 63 = true → q.to_ = unitDie r.cmd.issue.unit ∧ q.poison = f.poison ∧
        q.deed = .store (unitDie r.cmd.issue.unit) (opOffset x.dst + off)) ∧
      (bit x.dst 63 = false → q.to_ = addressDie x.dst ∧
        (x.hdr = true → q.deed = .piece x.dst f.src serial off) ∧
        (x.hdr = false → x.redop = 0 → q.deed = .write (x.dst + off) x.tensor x.hint x.uses ∧ q.poison = f.poison) ∧
        (x.hdr = false → x.redop ≠ 0 → ∃ red, red.op = x.redop ∧ q.deed = .reduce red x.dst off)) := by
  unfold State.sendLanding
  extract_lets i u d cls go y
  have hy : Notes s y := Notes.touchTable s _ _ _ _ _ _
  by_cases hstore : bit x.dst 63 = true
  · rw [if_pos hstore]
    exact ⟨s, _, .refl s, rfl, rfl, rfl, rfl, fun _ => ⟨rfl, rfl, rfl⟩, fun h => absurd hstore (by simp [h])⟩
  · rw [if_neg hstore]
    by_cases hhdr : x.hdr = true
    · rw [if_pos hhdr]
      exact ⟨s, _, .refl s, rfl, rfl, rfl, rfl, fun h => absurd h hstore, fun _ => ⟨rfl, fun _ => rfl,
        fun h => absurd hhdr (by simp [h]), fun h => absurd hhdr (by simp [h])⟩⟩
    · rw [if_neg hhdr]
      by_cases hredop : x.redop = 0
      · rw [if_pos hredop]
        exact ⟨s, _, .refl s, rfl, rfl, rfl, rfl, fun h => absurd h hstore, fun _ => ⟨rfl, fun h => absurd h hhdr,
          fun _ _ => ⟨rfl, rfl⟩, fun _ h => absurd hredop h⟩⟩
      · rw [if_neg hredop]
        exact ⟨y, _, hy, rfl, rfl, rfl, rfl, fun h => absurd h hstore, fun _ => ⟨rfl, fun h => absurd h hhdr,
          fun _ h => absurd h hredop, fun _ _ => ⟨_, rfl, rfl⟩⟩⟩

/-- An entry that is replaced and then disarmed leaves the entries of the other commands. -/
theorem State.setRecv_disarmed (s : State) (r : Recv) :
    (s.setRecv r).fabric.recvs.filter (fun q => q.cmd != r.cmd) = s.fabric.recvs.filter fun q => q.cmd != r.cmd := by
  simp only [State.setRecv]
  induction s.fabric.recvs with
  | nil => rfl
  | cons q l ih =>
    by_cases hq : q.cmd = r.cmd
    · simp [hq] at ih ⊢
      exact ih
    · simp [hq] at ih ⊢
      exact ih

/-- The end of a receive: the unit is free, its entry is disarmed, and no byte changes (R293, R316). -/
theorem State.endRecv_ends (s : State) (r : Recv) (x : Transfer) (source : Nat) :
    (s.endRecv r x source).mem = s.mem ∧ ((s.endRecv r x source).unit r.cmd.issue.unit).work = none ∧
      (s.endRecv r x source).fabric.recvs = s.fabric.recvs.filter fun q => q.cmd != r.cmd := by
  unfold State.endRecv
  extract_lets _ s1 s2 s3
  have hsettle : Settles (s2.endWork r.cmd.issue.unit) s3 := Settles.settle (s2.endWork r.cmd.issue.unit)
  have hmem : s3.mem = s.mem := by rw [hsettle.mem]; rfl
  have hrecvs : s3.fabric.recvs = s.fabric.recvs.filter fun q => q.cmd != r.cmd := by rw [hsettle.fabric]; rfl
  have hwork : (s3.unit r.cmd.issue.unit).work = none := by
    rw [State.settle_unit, State.endWork, State.onUnit_unit_same]
  split
  · have hemits := Emits.originate s3 r.cmd.issue.unit
      (resilFlit source 2 s3.moduleId (s3.stepCount % 2 ^ 32) (leBytes 4 (x.tag + 65536 * r.serial)))
    exact ⟨by rw [hemits.mem, hmem], by rw [hemits.unit, hwork], by rw [hemits.recvs, hrecvs]⟩
  · exact ⟨hmem, hwork, hrecvs⟩

theorem State.recvLanded_mem (s : State) (u n : Nat) : (s.recvLanded u n).mem = s.mem := by
  unfold State.recvLanded
  split
  next => rfl
  next r _ =>
    extract_lets x r1 s1
    split
    · rw [(s1.endRecv_ends r1 x r1.source).1]
      rfl
    · rfl

/-- Whatever lands counts at its unit alone. -/
theorem State.credit_mem_any (s : State) (p : Packet) : (s.credit p).mem = s.mem := by
  by_cases h : unitClass p.unit = 5
  · exact State.credit_mem h
  · unfold State.credit
    rw [if_neg h]
    split
    · rfl
    · exact State.recvLanded_mem _ _ _

/-- A report of a tick is on its way, stamped at the last cycle of the frame. -/
theorem State.raiseTick_reports (s : State) (code source die ctx detail : Nat) :
    ∃ r, (s.raiseTick code source die ctx detail).faults.inFlight = s.faults.inFlight ++ [r] ∧ r.2.code = code ∧
      r.2.cycle = s.flen - 1 := ⟨_, rfl, rfl, rfl⟩

theorem State.count_dict_congr {s t : State} (h : t.dict = s.dict) (index sub n : Nat) :
    (t.count index sub n).dict = (s.count index sub n).dict := by
  rw [State.count, State.count, State.get_congr h]
  simp only [State.put, h]

/-! ### SEND, BCAST and RECV -/

/-- A port asks for the blocks of a transfer; nothing but units and bridges changes. -/
theorem State.startMoving_gathers {s : State} {i : Issue} {op : Nat} (latency n : Nat) :
    ∃ w, (((s.current op i).startMoving op i latency n (.gathering 0 [])).unit i.unit).work = some w ∧
      w.cmd = { op, issue := i } ∧ w.left = none ∧ w.load = .gathering 0 [] ∧ w.jobs = n ∧ w.stuck = (s.unit i.unit).stalled := by
  refine ⟨_, by rw [State.startMoving, State.onUnit_unit_same], rfl, rfl, rfl, rfl, ?_⟩
  rw [State.clearDelays_unit, State.current_stalled]

theorem State.startMoving_fabric (s : State) (op : Nat) (i : Issue) (latency n : Nat) (load : Load) :
    (s.startMoving op i latency n load).fabric = s.fabric := by
  rw [State.startMoving, State.onUnit_fabric, State.clearDelays_state]

theorem State.startMoving_commit (s : State) (op : Nat) (i : Issue) (latency n : Nat) (load : Load) :
    (s.startMoving op i latency n load).commit = s.commit := by
  rw [State.startMoving, State.onUnit_commit, State.clearDelays_state]

/-- The sources of a SEND or BCAST lie clear of the reserved regions: the port asks for their blocks (R291, R292, R315). -/
theorem exec_sends {i : Issue} {s : State} {c : Instr} {op n : Nat}
    (hc : (c = .portSend i ∧ op = 1 ∧ n = (s.transfer i).blocks) ∨ (c = .stavlinkSend i ∧ op = 1 ∧ n = (s.transfer i).blocks) ∨
      (c = .bcast i ∧ op = 3 ∧ n = (s.transfer i).blocks + (s.transfer i).deltaBlocks ∧
        reservedRange (s.transfer i).dsrc (512 * (s.transfer i).dblocks) = false))
    (h : TakesEffect op i s)
    (hfree : bit (s.transfer i).src 63 = true ∨ reservedRange (s.transfer i).src (512 * (s.transfer i).blocks) = false) :
    ∃ latency, exec c s = .next ((s.current op i).startMoving op i latency n (.gathering 0 [])) := by
  have hsrc : (!bit (s.transfer i).src 63 && reservedRange (s.transfer i).src (512 * (s.transfer i).blocks)) = false := by
    rcases hfree with hstore | hclear
    · rw [hstore]
      rfl
    · rw [hclear, Bool.and_false]
  have hsend : ∃ latency, startSend i (s.current 1 i) = (s.current 1 i).startMoving 1 i latency (s.transfer i).blocks (.gathering 0 []) := by
    simp only [startSend, State.current_transfer, hsrc, Bool.false_eq_true, if_false]
    exact ⟨_, rfl⟩
  obtain ⟨rfl, rfl, rfl⟩ | ⟨rfl, rfl, rfl⟩ | ⟨rfl, rfl, rfl, hdsrc⟩ := hc
  · obtain ⟨latency, hlatency⟩ := hsend
    exact ⟨latency, (exec_takes (f := startSend) rfl h).trans (congrArg Host.Outcome.next hlatency)⟩
  · obtain ⟨latency, hlatency⟩ := hsend
    exact ⟨latency, (exec_takes (f := startSend) rfl h).trans (congrArg Host.Outcome.next hlatency)⟩
  · have hcast : ∃ latency, startBcast i (s.current 3 i) = (s.current 3 i).startMoving 3 i latency
        ((s.transfer i).blocks + (s.transfer i).deltaBlocks) (.gathering 0 []) := by
      simp only [startBcast, State.current_transfer, hsrc, hdsrc, Bool.and_false, Bool.false_eq_true, and_false, if_false]
      exact ⟨_, rfl⟩
    obtain ⟨latency, hlatency⟩ := hcast
    exact ⟨latency, (exec_takes (f := startBcast) rfl h).trans (congrArg Host.Outcome.next hlatency)⟩

/-- A SEND from a reserved region is refused (R246). -/
theorem exec_send_reserved {i : Issue} {s : State} {c : Instr} (hc : c = .portSend i ∨ c = .stavlinkSend i) (h : TakesEffect 1 i s)
    (hlocal : bit (s.transfer i).src 63 = false) (hreserved : reservedRange (s.transfer i).src (512 * (s.transfer i).blocks) = true) :
    exec c s = .next ((s.current 1 i).refuseAccess i (s.transfer i).src (512 * (s.transfer i).blocks)) := by
  have hsend : startSend i (s.current 1 i) = (s.current 1 i).refuseAccess i (s.transfer i).src (512 * (s.transfer i).blocks) := by
    simp [startSend, State.current_transfer, hlocal, hreserved]
  obtain rfl | rfl := hc <;> exact (exec_takes (f := startSend) rfl h).trans (congrArg Host.Outcome.next hsend)

/-- Nothing waits: the arming of an entry is the whole effect (R293). -/
theorem State.landWaiting_none {s : State} (h : s.fabric.unmatched = []) : s.landWaiting = s := by
  have hsame : ({ s with fabric := { s.fabric with unmatched := [] } } : State) = s := by rw [← h]
  simp only [State.landWaiting, h, List.foldl_nil, hsame]

/-- The entry that a RECV arms. -/
def armedRecv (i : Issue) : Recv := { cmd := { op := 2, issue := i }, landed := 0, serial := 0, source := 0, parts := [] }

/-- The state in which a RECV has armed its entry. -/
def State.armRecv (s : State) (i : Issue) : State :=
  let s := s.startWork 2 i none .none
  { s with fabric := { s.fabric with recvs := s.fabric.recvs ++ [armedRecv i] } }

theorem State.armRecv_unit_other {i : Issue} {v : Nat} (s : State) (hv : v ≠ i.unit) :
    ((s.current 2 i).armRecv i).unit v = s.unit v :=
  calc ((s.current 2 i).armRecv i).unit v = ((s.current 2 i).startWork 2 i none .none).unit v := rfl
    _ = (s.current 2 i).unit v := by rw [State.startWork, State.onUnit_unit_other _ _ _ hv]
    _ = s.unit v := State.current_unit_other s 2 i hv

theorem State.armRecv_onlyUnit (s : State) (i : Issue) : OnlyUnit s { (s.current 2 i).armRecv i with fabric := s.fabric } i.unit :=
  ⟨rfl, fun _ hv => s.armRecv_unit_other hv⟩

theorem State.armRecv_fabric (s : State) (i : Issue) :
    ((s.current 2 i).armRecv i).fabric = { s.fabric with recvs := s.fabric.recvs ++ [armedRecv i] } := rfl

/-- The unit works until its transfer ends (R293). -/
theorem State.armRecv_works (s : State) (i : Issue) : Works ((s.current 2 i).armRecv i) i.unit 2 i none .none := by
  have hwork := (s.current 2 i).startWork_work 2 i none .none
  rw [ite_self] at hwork
  exact ⟨_, hwork, rfl, rfl, rfl, rfl⟩

theorem startRecv_arms {i : Issue} {s : State} (hroom : s.fabric.recvs.length < 64)
    (hfree : bit (s.transfer i).dst 63 = true ∨ reservedRange (s.transfer i).dst
      (if (s.transfer i).hdr then max 512 (s.landingBytes (s.transfer i)) else (s.transfer i).storedBytes) = false)
    (htable : (s.transfer i).tableReserved = false) : startRecv i s = (s.armRecv i).landWaiting := by
  have hdst : (!bit (s.transfer i).dst 63 && reservedRange (s.transfer i).dst
      (if (s.transfer i).hdr then max 512 (s.landingBytes (s.transfer i)) else (s.transfer i).storedBytes)) = false := by
    rcases hfree with hstore | hclear
    · rw [hstore]
      rfl
    · rw [hclear, Bool.and_false]
  simp only [startRecv, if_neg (Nat.not_le.2 hroom), hdst, htable, Bool.false_eq_true, if_false]
  rfl

theorem startRecv_full {i : Issue} {s : State} (h : 64 ≤ s.fabric.recvs.length) : startRecv i s = s.invalid i := by
  simp only [startRecv, if_pos h]

/-- Settles O19: SEND, BCAST and RECV as they are taken up, and the flits of a SEND and of a BCAST. -/
theorem sendsBroadcastsAndReceives : Obligations.SendsBroadcastsAndReceives := by
  unfold Obligations.SendsBroadcastsAndReceives
  refine ⟨⟨fun i s c op n hc h hfree => ?send, fun i s c hc h hlocal hreserved => ?reserved⟩,
    ⟨fun i s x come _ _ => ?sent, fun i s x come hunit hdown => ?down, fun i s x come _ _ => ?cast⟩,
    fun i s c hc h => ⟨fun hroom hfree htable => ?arm, fun hfull => ?full⟩⟩
  case send =>
    have hsends : (c = .portSend i ∧ op = 1 ∧ n = (s.transfer i).blocks) ∨
        (c = .stavlinkSend i ∧ op = 1 ∧ n = (s.transfer i).blocks) ∨
        (c = .bcast i ∧ op = 3 ∧ n = (s.transfer i).blocks + (s.transfer i).deltaBlocks ∧
          reservedRange (s.transfer i).dsrc (512 * (s.transfer i).dblocks) = false) := by
      obtain ⟨hc, hop, -, -, hn⟩ | ⟨hc, hop, -, hn⟩ | ⟨hc, hop, -, -, hn, hdsrc⟩ := hc
      · exact .inl ⟨hc, hop, hn⟩
      · exact .inr (.inl ⟨hc, hop, hn⟩)
      · exact .inr (.inr ⟨hc, hop, hn, hdsrc⟩)
    obtain ⟨latency, hexec⟩ := exec_sends hsends h hfree
    obtain ⟨w, hwork, hcmd, hleft, hload, hjobs, hstuck⟩ := State.startMoving_gathers (s := s) (i := i) (op := op) latency n
    refine ⟨_, w, hexec, hwork, hcmd, hleft, hload, hjobs, hstuck, ?_, ?_, ?_, fun v hv => ?_⟩
    · rw [State.startMoving_mem, State.current_mem]
    · rw [State.startMoving_fabric, State.current_fabric]
    · rw [State.startMoving_commit, State.current_commit]
    · rw [State.startMoving, State.onUnit_unit_other _ _ _ hv, State.clearDelays_unit, State.current_unit_other _ _ _ hv]
  case reserved =>
    have hexec := exec_send_reserved (hc.imp (·.1) (·.1)) h hlocal hreserved
    obtain ⟨⟨r, hr, hcode, hsource⟩, hnotes, hmem⟩ := (s.current 1 i).refuseAccess_spec i (s.transfer i).src
      (512 * (s.transfer i).blocks)
    refine ⟨_, r, hexec, hr, hcode, hsource, hmem, ?_, ?_⟩
    · rw [hnotes.fabric, State.current_fabric]
    · rw [hnotes.unit, State.current_work, work_none_of_takesEffect h]
  case sent =>
    simp only [State.sendAll]
    rw [State.startSending_mem, State.startSending_recvs, State.startSending_commit, State.startSending_serials]
    refine ⟨rfl, rfl, rfl, ?_⟩
    simp only [State.takeSerial, beq_iff_eq]
  case down =>
    simp only [State.sendAll, hunit, beq_self_eq_true, if_true]
    obtain ⟨y, z, hy, -, hz, heq⟩ := (s.takeSerial 0xFFF x.tag).1.startSending_sends 0x60 (streamFlits x.cls 0xFFF x.tag
      (s.takeSerial 0xFFF x.tag).2 (comeBytes come 0 x.blocks).1 (comeBytes come 0 x.blocks).2) true
    rw [heq, (Settles.settleSends z).port, hz]
    simp only [if_true]
    have hup : y.up 16 = false := (hy.up 16).trans hdown
    have hmodule : y.hostFlit = s.hostFlit := by
      funext f
      rw [State.hostFlit, State.hostFlit, hy.moduleId]
      rfl
    have hport : y.port 16 = s.port 16 := hy.port 16
    refine (State.toHost_foldl_down _ hup).trans ?_
    rw [hmodule, hport]
    rfl
  case cast =>
    obtain ⟨added, hcommit, hmem, hfst⟩ := memberCopies_foldl_awaits x (comeBytes come 0 x.blocks)
      (comeBytes come x.blocks x.deltaBlocks) (s.groupMembers (x.peer % 256)) (s, [])
    refine ⟨added, ?_, ?_, hfst⟩
    · simp only [State.castAll]
      rw [State.startSending_commit]
      exact hcommit
    · simp only [State.castAll]
      rw [State.startSending_mem]
      exact congrArg Memory.ops hmem
  case arm =>
    have hlanding : (s.current 2 i).landingBytes (s.transfer i) = s.landingBytes (s.transfer i) := by
      rw [State.landingBytes, State.tensorDesc_congr (by rw [State.current_mem]) (State.current_program s 2 i), State.landingBytes]
    have hstart : startRecv i (s.current 2 i) = ((s.current 2 i).armRecv i).landWaiting := by
      refine startRecv_arms ?_ ?_ ?_
      · rw [State.current_fabric]
        exact hroom
      · rw [State.current_transfer, hlanding]
        exact hfree
      · rw [State.current_transfer]
        exact htable
    have hexec : exec c s = .next (startRecv i (s.current 2 i)) := by
      obtain ⟨rfl, -⟩ | ⟨rfl, -⟩ := hc <;> exact exec_takes (f := startRecv) rfl h
    have hfabric := s.armRecv_fabric i
    refine ⟨(s.current 2 i).armRecv i, hexec.trans (congrArg Host.Outcome.next hstart), s.armRecv_onlyUnit i,
      s.armRecv_works i, hfabric, fun hnone => State.landWaiting_none ?_⟩
    rw [hfabric]
    exact hnone
  case full =>
    have hexec : exec c s = .next (startRecv i (s.current 2 i)) := by
      obtain ⟨rfl, -⟩ | ⟨rfl, -⟩ := hc <;> exact exec_takes (f := startRecv) rfl h
    exact hexec.trans (congrArg Host.Outcome.next (startRecv_full (s := s.current 2 i) hfull))

/-- Settles O27: a STREAM flit, the oldest that waits, bytes that arrive and the last of a transfer. -/
theorem streamFlitsLandOrWait : Obligations.StreamFlitsLandOrWait := by
  unfold Obligations.StreamFlitsLandOrWait
  refine ⟨⟨fun p raw s t f h => ⟨fun hnone hroom => ?waits, fun hnone hfull => ?dropped, fun r hentry => ?landing⟩,
    fun s p frame raw rest hunmatched => ⟨fun hold => ?old, fun hnew => ?new⟩⟩,
    fun s q d off hdeed hd => ?store, fun s u n r hr => ⟨fun hmore => ?more, fun hlast => ?last⟩⟩
  case waits =>
    refine congrArg Host.Outcome.next ((receive_arrives _ h).trans ?_)
    simp only [landStreamFlit, hnone, if_neg (Nat.not_le.2 hroom)]
  case dropped =>
    have hdrop : landStreamFlit p f t = t.dropUnmatched p f := by simp only [landStreamFlit, hnone, if_pos hfull]
    obtain ⟨r, hr, hcode, -⟩ := (t.count 0x5030 1 1).raise_reports 0x210 (arrivalUnit p) (unitDie (arrivalUnit p)) 0 (portDetail p f)
    refine ⟨_, r, congrArg Host.Outcome.next ((receive_arrives _ h).trans hdrop), ?_, hr, hcode, ?_, ?_⟩
    · rw [State.dropUnmatched, State.raise_dict]
    · rw [State.dropUnmatched, State.raise_fabric, State.count_fabric]
    · rw [State.dropUnmatched, State.raise_mem, State.count_mem]
  case landing =>
    have hland : landStreamFlit p f t = t.landStream r f := by simp only [landStreamFlit, hentry]
    obtain ⟨y, q, hnotes, hsend, hown, hunit, hdata, hstore, hhbm⟩ :=
      (t.setRecv { r with serial := bits f.addr 19 16, source := f.src }).sendLanding_sends r (t.transfer r.cmd.issue) f
        (bits f.addr 19 16) (4 * bits f.addr 47 20)
    refine ⟨_, q, congrArg Host.Outcome.next ((receive_arrives _ h).trans (hland.trans hsend)), ?_, ?_, ?_, hown, hunit, hdata,
      hstore, hhbm⟩
    · exact hnotes.hbm
    · exact hnotes.ops
    · rw [State.arriveIn, State.setTraffic, hnotes.traffic]
      rfl
  case old =>
    have hdrop : streamUnmatched s = (({ s with fabric := { s.fabric with unmatched := rest } } : State).count 0x5030 1 1).raiseTick
        0x210 (arrivalUnit p) (unitDie (arrivalUnit p)) 0 (portDetail p (flitOf raw)) := by
      simp only [streamUnmatched, hunmatched, if_pos hold]
    obtain ⟨r, hr, hcode, hcycle⟩ := (({ s with fabric := { s.fabric with unmatched := rest } } : State).count 0x5030 1 1).raiseTick_reports
      0x210 (arrivalUnit p) (unitDie (arrivalUnit p)) 0 (portDetail p (flitOf raw))
    refine ⟨_, r, congrArg Host.Outcome.next hdrop, ?_, ?_, hr, hcode, ?_, ?_⟩
    · rw [State.raiseTick_fabric, State.count_fabric]
    · rw [State.raiseTick_dict]
      exact State.count_dict_congr rfl _ _ _
    · rw [hcycle, State.flen, State.count, State.put_get_other _ _ _ _ (by decide)]
      rfl
    · rw [State.raiseTick_mem, State.count_mem]
  case new =>
    refine congrArg Host.Outcome.next ?_
    simp only [streamUnmatched, hunmatched, if_neg (Nat.not_lt.2 hnew)]
  case store =>
    have hmem : (s.perform q).mem = (s.opWrite d off q.data q.poison).mem := by
      simp only [State.perform, hdeed]
      exact State.credit_mem_any _ _
    refine ⟨?_, ?_, fun e c hc => ?_⟩
    · rw [State.opRead, State.opStore, hmem]
      exact State.opRead_opWrite_same _ _ _ hd
    · rw [hmem, State.opWrite_hbm]
    · rw [State.opStore, hmem]
      exact State.read_opWrite_outside _ _ hd hc
  case more => simp only [State.recvLanded, hr, if_neg (Nat.not_le.2 hmore)]
  case last =>
    have hunit : r.cmd.issue.unit = u := by simpa using List.find?_some hr
    have hlanded : s.recvLanded u n = (s.setRecv { r with landed := r.landed + n }).endRecv { r with landed := r.landed + n }
        (s.transfer r.cmd.issue) r.source := by
      simp only [State.recvLanded, hr, if_pos hlast]
    obtain ⟨-, hwork, hrecvs⟩ := (s.setRecv { r with landed := r.landed + n }).endRecv_ends { r with landed := r.landed + n }
      (s.transfer r.cmd.issue) r.source
    rw [hlanded]
    refine ⟨?_, ?_⟩
    · rw [← hunit]
      exact hwork
    · rw [hrecvs]
      exact s.setRecv_disarmed { r with landed := r.landed + n }

end Sys2Proof.Machine
end

section
/-! The mailboxes and the Locket unit's seal (R235, R236, R319). -/

namespace Sys2Proof.Machine

open Sys2Proof.Safety

/-! ### Mailbox entries -/

theorem mem_insertEntry {x e : Nat} {l : List Nat} : x ∈ insertEntry e l ↔ x = e ∨ x ∈ l := by
  induction l with
  | nil => simp [insertEntry]
  | cons a t ih =>
    unfold insertEntry
    split
    · simp
    · simp [ih, or_left_comm]

theorem mem_foldl_insertEntry {x : Nat} {l r : List Nat} : x ∈ l.foldl (fun r e => insertEntry e r) r ↔ x ∈ l ∨ x ∈ r := by
  induction l generalizing r with
  | nil => simp
  | cons a t ih =>
    rw [List.foldl_cons, ih, mem_insertEntry, List.mem_cons]
    tauto

/-- The fields of a mailbox entry (Table 9.7). -/
theorem State.mailEntry_fields (s : State) (msg ctx : Nat) (core : Option Nat) (die : Nat) :
    bits (s.mailEntry msg ctx core die) 31 0 = msg % 2 ^ 32 ∧ bits (s.mailEntry msg ctx core die) 35 32 = ctx % 2 ^ 4 ∧
      bit (s.mailEntry msg ctx core die) 36 = core.isSome ∧
      bits (s.mailEntry msg ctx core die) 95 48 = s.clock.frame % 2 ^ 48 ∧
      bits (s.mailEntry msg ctx core die) 115 96 = s.clock.cycle % 2 ^ 20 ∧
      bits (s.mailEntry msg ctx core die) 117 116 = die % 2 ^ 2 := by
  have hcore : b2n core.isSome % 2 = 1 ↔ core.isSome = true := by cases core <;> simp [b2n]
  generalize hb : b2n core.isSome = b at hcore
  simp only [State.mailEntry, packFields, bits, bit, Nat.shiftRight_eq_div_pow, Nat.testBit_eq_decide_div_mod_eq, hb]
  refine ⟨by omega, by omega, ?_, by omega, by omega, by omega⟩
  rw [Bool.eq_iff_iff, decide_eq_true_iff, ← hcore]
  omega

theorem State.plic_box (s : State) (d source u : Nat) : (s.plic d source).box u = s.box u := by
  simp only [State.plic, State.box]
  split <;> rfl

/-- A source that is not in service is raised (R230). -/
theorem State.plic_raised {s : State} {d source : Nat} (h : bit (kget 0 s.thallus.plicServing d) source = false) :
    bit (kget 0 (s.plic d source).thallus.plic d) source = true := by
  simp only [State.plic, h, Bool.false_eq_true, if_false, kget_kset_same]
  simp only [bit, Nat.testBit_or, Nat.testBit_two_pow_self, Bool.or_true]

/-- What has landed stands in the ring in the next cycle, and raises PLIC source 1 unless it is in service (R230, R235). -/
theorem State.mailCycle_shows {s : State} {d e : Nat} (h : e ∈ (s.box d).landing) : e ∈ ((s.mailCycle d).box d).ring ∧
    (bit (kget 0 s.thallus.plicServing d) 1 = false → bit (kget 0 (s.mailCycle d).thallus.plic d) 1 = true) := by
  have hlands : s.mailCycle d = (s.setBox d { s.box d with
      ring := (s.box d).landing.foldl (fun l e => insertEntry e l) (s.box d).ring, landing := [] }).plic d 1 := by
    simp only [State.mailCycle]
    rw [if_neg]
    simpa using List.ne_nil_of_mem h
  refine ⟨?_, fun hfree => ?_⟩
  · rw [hlands, State.plic_box, State.setBox_box_same]
    exact mem_foldl_insertEntry.2 (.inl h)
  · rw [hlands]
    exact State.plic_raised hfree

/-- A message joins a ring with room; it lands there. -/
theorem startPost_joins {i : Issue} {s : State} (h : s.boxFull (i.unit - 0x70) = false) :
    startPost i s = s.mail (i.unit - 0x70) (s.mailEntry i.arg.toNat i.ctx none (i.unit - 0x70)) := by
  simp [startPost, h]

theorem startPost_overflows {i : Issue} {s : State} (h : s.boxFull (i.unit - 0x70) = true) :
    startPost i s = ((s.setBox (i.unit - 0x70) { s.box (i.unit - 0x70) with overflow := true }).count 0x6068 (i.unit - 0x70 + 1) 1).raise
      0x307 i.unit (i.unit - 0x70) i.ctx 0 := by
  simp only [startPost, h, if_true]

theorem State.mail_box (s : State) (d e : Nat) :
    (s.mail d e).box d = { s.box d with landing := insertEntry e (s.box d).landing } := State.setBox_box_same _ _ _

/-- Settles O20: a message that joins the ring, and one that overflows it. -/
theorem postJoinsTheRing : Obligations.PostJoinsTheRing := by
  unfold Obligations.PostJoinsTheRing
  refine fun i s h hlow hhigh => ⟨fun hroom => ?joins, fun hfull => ?overflows⟩
  case joins =>
    have hexec := (exec_takes (c := .post i) (f := startPost) rfl h).trans
      (congrArg Host.Outcome.next (startPost_joins (s := s.current 1 i) hroom))
    obtain ⟨hmsg, hctx, hcore, hframe, hcycle, hdie⟩ := (s.current 1 i).mailEntry_fields i.arg.toNat i.ctx none (i.unit - 0x70)
    generalize (s.current 1 i).mailEntry i.arg.toNat i.ctx none (i.unit - 0x70) = e at *
    have hbox := (s.current 1 i).mail_box (i.unit - 0x70) e
    have hlanded : e ∈ (((s.current 1 i).mail (i.unit - 0x70) e).box (i.unit - 0x70)).landing := by
      rw [hbox]
      exact mem_insertEntry.2 (.inl rfl)
    obtain ⟨hring, hplic⟩ := State.mailCycle_shows hlanded
    refine ⟨_, e, hexec, ?_, ?_, ?_, ?_, hcore, hframe, hcycle, ?_, hring, hplic, ?_, ?_⟩
    · rw [hbox]
      rfl
    · rw [hbox]
      rfl
    · rw [hmsg, Nat.mod_eq_of_lt i.arg.isLt]
    · exact hctx
    · rw [hdie, Nat.mod_eq_of_lt (by omega)]
    · rw [State.mail, State.setBox_mem, State.current_mem]
    · rw [State.mail, State.setBox_dict, State.current_dict]
  case overflows =>
    exact (exec_takes (c := .post i) (f := startPost) rfl h).trans
      (congrArg Host.Outcome.next (startPost_overflows (s := s.current 1 i) hfull))

/-! ### SEAL -/

/-- The record that SEAL builds does not depend on units or on reports. -/
theorem State.sealRecord_congr (s : State) (units : KMap UnitState) (faults : Faults) :
    ({ s with units, faults } : State).sealRecord = s.sealRecord := rfl

/-- The first SEAL of a step, with LOCKET_SKEW reported where the cursor block is another step's (R319). -/
theorem startSeal_builds {i : Issue} {s : State} (h : s.commit.sealed = false) : ∃ faults,
    startSeal i s = (({ s with
      faults
      locket := { s.locket with ownSealed := s.sealRecord, lengths := s.locket.lengths.set 1 (recordLength s.sealRecord) }
      commit := { s.commit with sealed := true } } : State).startWork 1 i
        (some (1024 + cdiv (recordLength s.sealRecord) 256)) .none) := by
  unfold startSeal
  rw [if_neg (by simp [h])]
  extract_lets n found x m y
  have hx : ∃ faults, x = { s with faults } := by
    unfold x
    split
    · exact ⟨_, rfl⟩
    · exact ⟨_, rfl⟩
  obtain ⟨faults, hx⟩ := hx
  have hm : m = s.sealRecord := by
    unfold m
    rw [hx]
    exact s.sealRecord_congr _ _
  refine ⟨faults, ?_⟩
  rw [← hm]
  clear_value x m
  subst hx
  rfl

theorem Emits.sendRecord (s : State) (m : Mem) (len dst owner : Nat) : Emits s (s.sendRecord m len dst owner) :=
  Emits.foldl _ (fun x _ _ => Emits.originate x _ _) s

/-- With its cycles over the Locket unit is free, and the record goes to the successors (R319). -/
theorem sealComplete_sends {s : State} {w : Work} (hwork : (s.unit 0x78).work = some w) (hop : w.cmd.op = 1)
    (hleft : w.left = some 0) : ∃ x, Settles (s.endWork 0x78) x ∧ (x.unit 0x78).work = none ∧
      Emits { x with commit := { x.commit with sealSent := true } } (sealComplete s) := by
  have hover : s.workOver 0x78 [1] = true := by simp [State.workOver, hwork, hop, hleft]
  unfold sealComplete
  rw [if_pos hover]
  extract_lets x _ y
  have hfree : (x.unit 0x78).work = none := by rw [State.settle_unit, State.endWork_work]
  exact ⟨x, Settles.settle (s.endWork 0x78), hfree, Emits.foldl _ (fun z m _ => Emits.sendRecord z _ _ _ _) y⟩

/-- Settles O21: the first SEAL of a step, a second one, and the completion. -/
theorem sealBuildsAndSendsTheRecord : Obligations.SealBuildsAndSendsTheRecord := by
  unfold Obligations.SealBuildsAndSendsTheRecord
  refine ⟨fun i s h hunit => ⟨fun hfirst => ?first, fun hagain => ?again⟩, fun s w hwork hop hleft => ?complete⟩
  case first =>
    obtain ⟨faults, hstart⟩ := startSeal_builds (s := s.current 1 i) (i := i) hfirst
    have hrecord : (s.current 1 i).sealRecord = s.sealRecord := s.sealRecord_congr _ _
    rw [hrecord] at hstart
    have hexec := (exec_takes (c := .seal i) (f := startSeal) rfl h).trans (congrArg Host.Outcome.next hstart)
    refine ⟨_, hexec, ?_, ?_, ?_, ?_, ?_, ?_⟩
    · rw [State.startWork, State.onUnit_commit, State.current_commit]
    · rw [State.startWork, State.onUnit_locket, State.current_locket]
    · rw [← hunit]
      refine ⟨_, State.startWork_work _ _ _ _ _, rfl, rfl, ?_, rfl⟩
      exact congrArg (fun c : Bool => if c then none else some (1024 + cdiv (recordLength s.sealRecord) 256)) (s.current_stalled 1 i)
    · rw [State.startWork, State.onUnit_mem, State.current_mem]
    · rw [State.startWork, State.onUnit_program, State.current_program]
    · rw [State.startWork, State.onUnit_dict, State.current_dict]
  case again =>
    refine (exec_takes (c := .seal i) (f := startSeal) rfl h).trans (congrArg Host.Outcome.next ?_)
    exact if_pos hagain
  case complete =>
    obtain ⟨x, hsettles, hfree, hemits⟩ := sealComplete_sends hwork hop hleft
    refine ⟨_, rfl, ?_, ?_, ?_, ?_⟩
    · rw [hemits.unit]
      exact hfree
    · rw [hemits.commit]
      rw [hsettles.commit]
      rfl
    · rw [hemits.locket, hsettles.locket]
      rfl
    · rw [hemits.mem, hsettles.mem]
      rfl

end Sys2Proof.Machine
end

section
/-! The slice as a member sees it, and the commit protocol (R296, R316–R329). -/

namespace Sys2Proof.Machine

open Sys2Proof.Safety

/-! ### What a member is does not depend on the commit unit -/

/-- Both states are of the same member: its id, the active bank, the program's state and kind, and the step. -/
structure SameMember (s t : State) : Prop where
  moduleId : t.moduleId = s.moduleId
  bank : t.bank = s.bank
  training : t.training = s.training
  stepCount : t.stepCount = s.stepCount

/-- The objects that say which member the module is: its id, the active bank and the program's status. -/
def memberObjects : List (Nat × Nat) := [(0x5001, 1), (0x5012, 2), (0x6010, 3)]

namespace SameMember

variable {s t u : State}

theorem refl (s : State) : SameMember s s := ⟨rfl, rfl, rfl, rfl⟩

theorem trans (h : SameMember s t) (k : SameMember t u) : SameMember s u :=
  ⟨k.moduleId.trans h.moduleId, k.bank.trans h.bank, k.training.trans h.training, k.stepCount.trans h.stepCount⟩

/-- The objects, registers and banks that make a member. -/
theorem of_eq (hget : ∀ o ∈ memberObjects, t.get o.1 o.2 = s.get o.1 o.2) (hprogram : t.program.kind = s.program.kind)
    (hbank0 : t.fabric.bank0 = s.fabric.bank0) (hbank1 : t.fabric.bank1 = s.fabric.bank1)
    (hlocket : t.locket.ownCommitted = s.locket.ownCommitted) : SameMember s t := by
  have h1 : t.get 0x5001 1 = s.get 0x5001 1 := hget (0x5001, 1) (by decide)
  have h2 : t.get 0x5012 2 = s.get 0x5012 2 := hget (0x5012, 2) (by decide)
  have h3 : t.get 0x6010 3 = s.get 0x6010 3 := hget (0x6010, 3) (by decide)
  refine ⟨h1, ?_, ?_, ?_⟩
  · rw [State.bank, h2, hbank0, hbank1, State.bank]
  · rw [State.training, State.running, State.status, h3, hprogram, State.training, State.running, State.status]
  · rw [State.stepCount, hlocket, State.stepCount]

theorem put (s : State) {index sub : Nat} (v : Nat) (h : ∀ o ∈ memberObjects, objKey o.1 o.2 ≠ objKey index sub) :
    SameMember s (s.put index sub v) := of_eq (fun o ho => State.put_get_other _ _ _ _ (h o ho)) rfl rfl rfl rfl

theorem count (s : State) {index sub : Nat} (n : Nat) (h : ∀ o ∈ memberObjects, objKey o.1 o.2 ≠ objKey index sub) :
    SameMember s (s.count index sub n) := put s _ h

theorem ofEmits (h : Emits s t) : SameMember s t := by
  refine of_eq (fun o ho => h.get _ _ fun p hp => ?_) ?_ ?_ ?_ ?_
  · simp only [memberObjects, List.mem_cons, List.not_mem_nil, or_false] at ho
    rcases ho with rfl | rfl | rfl <;> simp only [objKey] <;> omega
  · rw [h.program]
  · rw [h.state]
  · rw [h.state]
  · rw [h.locket]

theorem members (h : SameMember s t) : t.members = s.members := by rw [State.members, h.bank, State.members]
theorem memberIndex (h : SameMember s t) : t.memberIndex = s.memberIndex := by
  rw [State.memberIndex, h.members, h.moduleId, State.memberIndex]
theorem live (h : SameMember s t) : t.live = s.live := by rw [State.live, h.memberIndex, h.members, h.moduleId, State.live]
theorem coordinator (h : SameMember s t) : t.coordinator = s.coordinator := by
  rw [State.coordinator, h.live, h.moduleId, State.coordinator]
theorem isCoordinator (h : SameMember s t) : t.isCoordinator = s.isCoordinator := by
  rw [State.isCoordinator, h.coordinator, h.moduleId, State.isCoordinator]

end SameMember

theorem Emits.commitState {s t : State} (h : Emits s t) : t.commitState = s.commitState :=
  h.get _ _ fun p hp => by simp only [objKey]; omega

theorem Emits.tell (s : State) (unit : Nat) (ids : List Nat) (kind subject : Nat) (payload : List Byte) :
    Emits s (s.tell unit ids kind subject payload) := Emits.foldl _ (fun x _ _ => Emits.originate x _ _) s

theorem State.setCommit_commitState (s : State) (n : Nat) : (s.setCommit n).commitState = n := State.put_get_same _ _ _ _

/-! ### Records and their acknowledgements -/

/-- Bytes of a record join the sealed copy of its owner; whole, it is acknowledged (R319). -/
theorem State.takeSealed_joins (s : State) (k owner offset : Nat) (bytes : List Byte) :
    Emits ((s.setPredSealed k (takeRecord (s.predSealed k) (s.filled (2 * k + 3)) offset bytes).1).setFilled (2 * k + 3)
      (takeRecord (s.predSealed k) (s.filled (2 * k + 3)) offset bytes).2) (s.takeSealed k owner offset bytes) := by
  unfold State.takeSealed
  extract_lets r x
  split
  · exact Emits.originate x _ _
  · exact Emits.refl x

/-- The sealed copy of a predecessor is replaced; the other records stay. -/
theorem State.setPredSealed_records (s : State) (k : Nat) (m : Mem) : (s.setPredSealed k m).predSealed k = m ∧
    (s.setPredSealed k m).locket.ownCommitted = s.locket.ownCommitted ∧ (s.setPredSealed k m).locket.ownSealed = s.locket.ownSealed ∧
    (s.setPredSealed k m).locket.pred1Committed = s.locket.pred1Committed ∧
    (s.setPredSealed k m).locket.pred2Committed = s.locket.pred2Committed := by
  unfold State.setPredSealed State.predSealed
  by_cases hk : k = 0
  · simp [hk]
  · simp [hk]

/-- A record that begins afresh holds its first bytes; later bytes join those before (R319). -/
theorem takeRecord_fst (m : Mem) (have_ offset : Nat) (bytes : List Byte) :
    (takeRecord m have_ offset bytes).1 = Mem.writeN (if offset = 0 then {} else m) offset bytes := rfl

/-- LOCKET_DATA of a predecessor in a running step (R319). -/
theorem takeLocketData_joins {p k : Nat} {f : Flit} {s : State}
    (hroom : leNat (f.payload.take 4) + (f.payload.drop 4).length ≤ 2 ^ 20) (hfill : s.commitState ≠ 6)
    (hconcerns : s.concerns f = true) (hk : s.predecessorIndex f.subject = some k) :
    takeLocketData p f s = s.takeSealed k f.subject (leNat (f.payload.take 4)) (f.payload.drop 4) := by
  simp only [takeLocketData, if_neg (Nat.not_lt.2 hroom), if_neg hfill, hconcerns, if_true, hk]

/-- Settles O33: LOCKET_DATA, LOCKET_ACK and DELTA_ACK. -/
theorem recordCopiesAreAcknowledged : Obligations.RecordCopiesAreAcknowledged := by
  unfold Obligations.RecordCopiesAreAcknowledged
  refine ⟨fun p raw s t f k h hroom hfill hconcerns hk => ?data, fun p raw s t f h => ?ack, fun p raw s t f h => ?delta⟩
  case data =>
    have hexec := (receive_arrives takeLocketData h).trans (takeLocketData_joins hroom hfill hconcerns hk)
    have hemits := t.takeSealed_joins k f.subject (leNat (f.payload.take 4)) (f.payload.drop 4)
    have hfst := takeRecord_fst (t.predSealed k) (t.filled (2 * k + 3)) (leNat (f.payload.take 4)) (f.payload.drop 4)
    generalize takeRecord (t.predSealed k) (t.filled (2 * k + 3)) (leNat (f.payload.take 4)) (f.payload.drop 4) = r at hemits hfst
    obtain ⟨hsealed, hcommitted, hown, hpred1, hpred2⟩ := t.setPredSealed_records k r.1
    have hcopy : (t.takeSealed k f.subject (leNat (f.payload.take 4)) (f.payload.drop 4)).predSealed k = r.1 := by
      rw [State.predSealed, hemits.locket]
      exact hsealed
    refine ⟨_, congrArg Host.Outcome.next hexec, fun hlater => ?_, fun hfirst => ?_, ?_, ?_, ?_, ?_, ?_, ?_⟩
    · rw [hcopy, hfst, if_neg hlater]
    · rw [hcopy, hfst, if_pos hfirst, hfirst]
    · rw [hemits.locket]
      exact hcommitted
    · rw [hemits.locket]
      exact hown
    · rw [hemits.locket]
      exact hpred1
    · rw [hemits.locket]
      exact hpred2
    · rw [hemits.commit]
      rfl
    · rw [hemits.mem]
      rfl
  case ack =>
    refine congrArg Host.Outcome.next ((receive_arrives takeLocketAck h).trans ?_)
    simp only [takeLocketAck, Bool.and_eq_true, beq_iff_eq, List.contains_iff_mem, and_assoc]
  case delta => exact congrArg Host.Outcome.next (receive_arrives takeDeltaAck h)

/-! ### Comparison -/

theorem bits_packFields_owner (owner : Nat) (l : List (Nat × Nat)) : bits (packFields ((12, owner) :: l)) 11 0 = owner % 2 ^ 12 := by
  rw [bits, Nat.shiftRight_zero, packFields, Nat.add_mul_mod_self_left, Nat.mod_mod]

/-- LOCKET_SKEW names the owner of the record (Table 13.7). -/
theorem State.skew_reports (s : State) (owner check expected found : Nat) (halt : Bool) :
    ∃ r, (s.skew owner check expected found halt).faults.inFlight = s.faults.inFlight ++ [r] ∧ r.2.code = 0x312 ∧
      r.2.halt = halt ∧ bits r.2.detail 11 0 = owner % 2 ^ 12 := ⟨_, rfl, rfl, rfl, bits_packFields_owner _ _⟩

/-- The comparison is over, with its result. -/
def State.endCompare (s : State) (ok : Bool) : State := { s with commit := { s.commit with compareDone := true, compared := ok } }

/-- What the comparison of the records at hand does (Table 12.7). -/
theorem locketCompare_ends {s : State} (hopen : s.commit.compareDone = false) (hheld : s.recordsHeld = true) :
    locketCompare s = match s.predecessors with
      | [] => s.endCompare true
      | [m1] =>
        if commonFields s.locket.ownSealed = commonFields s.locket.pred1Sealed then s.endCompare true
        else (s.skew m1 3 (recordStep s.locket.ownSealed) (recordStep s.locket.pred1Sealed) true).endCompare false
      | m1 :: m2 :: _ =>
        if commonFields s.locket.ownSealed = commonFields s.locket.pred1Sealed ∧
            commonFields s.locket.pred1Sealed = commonFields s.locket.pred2Sealed then s.endCompare true
        else if commonFields s.locket.ownSealed = commonFields s.locket.pred1Sealed then
          (s.outvoted m2 (recordStep s.locket.ownSealed) (recordStep s.locket.pred2Sealed)).endCompare false
        else if commonFields s.locket.ownSealed = commonFields s.locket.pred2Sealed then
          (s.outvoted m1 (recordStep s.locket.ownSealed) (recordStep s.locket.pred1Sealed)).endCompare false
        else if commonFields s.locket.pred1Sealed = commonFields s.locket.pred2Sealed then
          (s.outvoted s.moduleId (recordStep s.locket.pred1Sealed) (recordStep s.locket.ownSealed)).endCompare false
        else (s.skew m1 3 (recordStep s.locket.ownSealed) (recordStep s.locket.pred1Sealed) true).endCompare false := by
  have hrun : ¬(s.commit.compareDone || !s.recordsHeld) = true := by simp [hopen, hheld]
  unfold locketCompare
  rw [if_neg hrun]
  rfl

/-- A record that is outvoted, or three that differ: what is reported and what stays. -/
structure Skewed (s t : State) (owner : Nat) (halt : Bool) : Prop where
  compared : t.commit.compared = false
  reports : ∃ r, t.faults.inFlight = s.faults.inFlight ++ [r] ∧ r.2.code = 0x312 ∧ r.2.halt = halt ∧
    bits r.2.detail 11 0 = owner % 2 ^ 12

theorem State.skewed_skew (s : State) (owner expected found : Nat) :
    Skewed s ((s.skew owner 3 expected found true).endCompare false) owner true := ⟨rfl, s.skew_reports owner 3 expected found true⟩

theorem State.skewed_outvoted (s : State) (owner expected found : Nat) :
    Skewed s ((s.outvoted owner expected found).endCompare false) owner false :=
  ⟨rfl, (s.count 0x8021 4 1).skew_reports owner 2 expected found false⟩

/-- Every outcome ends the comparison and leaves the records and the memory. -/
theorem locketCompare_leaves {s : State} (hopen : s.commit.compareDone = false) (hheld : s.recordsHeld = true) :
    (locketCompare s).commit.compareDone = true ∧ (locketCompare s).locket = s.locket ∧ (locketCompare s).mem = s.mem := by
  rw [locketCompare_ends hopen hheld]
  split
  · exact ⟨rfl, rfl, rfl⟩
  · split <;> exact ⟨rfl, rfl, rfl⟩
  · split_ifs <;> exact ⟨rfl, rfl, rfl⟩

/-! ### READY -/

theorem State.readyNow_iff (s : State) : s.readyNow = true ↔ s.training = true ∧ s.commitState = 1 ∧ s.commit.deltas = [] ∧
    s.commit.sealSent = true ∧ (∀ m ∈ s.successors, m ∈ s.commit.acks) ∧ s.commit.compareDone = true ∧ s.commit.compared = true := by
  simp [State.readyNow, and_assoc]

/-- READY of the coordinator itself (R322). -/
theorem readySend_coordinator {s : State} (hready : s.readyNow = true) (hcoord : s.isCoordinator = true) :
    readySend s = (s.setCommit 2).noteReady s.moduleId s.commit.vote s.commit.armed := by
  have hsame := SameMember.put s (index := 0x8020) (sub := 2) 2 (by decide)
  have hcoord' : (s.setCommit 2).isCoordinator = true := hsame.isCoordinator.trans hcoord
  have hmodule : (s.setCommit 2).moduleId = s.moduleId := hsame.moduleId
  simp only [readySend, hready, hcoord', hmodule, if_true]
  rfl

/-- Another member tells the coordinator (R322). -/
theorem readySend_member {s : State} (hready : s.readyNow = true) (hcoord : s.isCoordinator = false) :
    Emits (s.setCommit 2) (readySend s) := by
  have hsame := SameMember.put s (index := 0x8020) (sub := 2) 2 (by decide)
  have hcoord' : (s.setCommit 2).isCoordinator = false := hsame.isCoordinator.trans hcoord
  simp only [readySend, hready, hcoord', if_true, Bool.false_eq_true, if_false]
  exact Emits.originate _ _ _

/-- Settles O34: LOCKET_COMPARE, READY_SEND and READY. -/
theorem comparedThenReady : Obligations.ComparedThenReady := by
  unfold Obligations.ComparedThenReady
  refine ⟨fun s hopen hheld => ?compare, fun s => ⟨fun hready => ?ready, fun hnot => ?notReady⟩, fun s hready => ?conditions,
    fun p raw s t f h => ?received⟩
  case compare =>
    obtain ⟨hdone, hlocket, hmem⟩ := locketCompare_leaves hopen hheld
    have hends := locketCompare_ends hopen hheld
    refine ⟨locketCompare s, rfl, hdone, hlocket, hmem, fun hnone => ?_, fun m1 hone => ?_, fun m1 m2 rest htwo => ?_⟩
    · simp only [hnone] at hends
      rw [hends]
      exact ⟨rfl, rfl⟩
    · simp only [hone] at hends
      refine ⟨fun heq => ?_, fun hne => ?_⟩
      · rw [hends, if_pos heq]
        exact ⟨rfl, rfl⟩
      · rw [hends, if_neg hne]
        exact ⟨(s.skewed_skew _ _ _).compared, (s.skewed_skew _ _ _).reports⟩
    · simp only [htwo] at hends
      refine ⟨fun h1 h2 => ?_, fun h1 h2 => ?_, fun h1 h2 => ?_, fun h1 h2 => ?_, fun h1 h2 h3 => ?_⟩
      · rw [hends, if_pos ⟨h1, h2⟩]
        exact ⟨rfl, rfl⟩
      · rw [hends, if_neg fun h => h2 h.2, if_pos h1]
        exact ⟨(s.skewed_outvoted _ _ _).compared, (s.skewed_outvoted _ _ _).reports⟩
      · rw [hends, if_neg fun h => h2 h.1, if_neg h2, if_pos h1]
        exact ⟨(s.skewed_outvoted _ _ _).compared, (s.skewed_outvoted _ _ _).reports⟩
      · rw [hends, if_neg fun h => h1 h.1, if_neg h1, if_neg fun h => h1 (h.trans h2.symm), if_pos h2]
        exact ⟨(s.skewed_outvoted _ _ _).compared, (s.skewed_outvoted _ _ _).reports⟩
      · rw [hends, if_neg fun h => h1 h.1, if_neg h1, if_neg h2, if_neg h3]
        exact ⟨(s.skewed_skew _ _ _).compared, (s.skewed_skew _ _ _).reports⟩
  case ready =>
    refine ⟨readySend s, rfl, ?_⟩
    cases hcoord : s.isCoordinator with
    | true =>
      rw [readySend_coordinator hready hcoord]
      exact ⟨s.setCommit_commitState 2, rfl, rfl, fun _ => rfl, nofun⟩
    | false =>
      have hemits := readySend_member hready hcoord
      refine ⟨?_, ?_, ?_, nofun, fun _ => ?_⟩
      · rw [hemits.commitState, State.setCommit_commitState]
      · rw [hemits.mem, State.setCommit, State.put_mem]
      · rw [hemits.locket, State.setCommit, State.put_locket]
      · rw [hemits.commit, State.setCommit, State.put_commit]
  case notReady =>
    refine congrArg Host.Outcome.next ?_
    simp [readySend, hnot]
  case conditions =>
    obtain ⟨htraining, hstate, hdeltas, hsent, hacks, -, hcompared⟩ := s.readyNow_iff.1 hready
    exact ⟨htraining, hstate, hdeltas, hsent, hacks, hcompared⟩
  case received =>
    refine congrArg Host.Outcome.next ((receive_arrives takeReady h).trans ?_)
    simp only [takeReady, Bool.and_eq_true, List.contains_iff_mem, and_assoc]
    rfl

end Sys2Proof.Machine
end

section
/-! The decision about a step: commits, timeouts, aborts and outcomes (R301, R323–R329). -/

namespace Sys2Proof.Machine

open Sys2Proof.Safety

/-! ### What the commit of a member leaves alone -/

/-- From `s` to `t` the records of the Locket and the marks of the program stay. -/
def SameRecords (s t : State) : Prop := t.locket = s.locket ∧ t.program = s.program

namespace SameRecords

variable {s t u : State}

theorem refl (s : State) : SameRecords s s := ⟨rfl, rfl⟩

theorem trans (h : SameRecords s t) (k : SameRecords t u) : SameRecords s u :=
  ⟨k.1.trans h.1, k.2.trans h.2⟩

theorem ite {c : Prop} [Decidable c] (h : SameRecords s t) (k : SameRecords s u) : SameRecords s (if c then t else u) := by
  split <;> assumption

theorem foldl {α : Type} {f : State → α → State} (hf : ∀ x a, SameRecords x (f x a)) (l : List α) (s : State) :
    SameRecords s (l.foldl f s) := by
  induction l generalizing s with
  | nil => exact refl s
  | cons a t ih => exact (hf s a).trans (ih (f s a))

theorem ofNotes (h : Notes s t) : SameRecords s t := ⟨h.locket, h.program⟩

theorem put (s : State) (index sub v : Nat) : SameRecords s (s.put index sub v) := ⟨rfl, rfl⟩
theorem count (s : State) (index sub n : Nat) : SameRecords s (s.count index sub n) := ⟨rfl, rfl⟩
theorem countIf (s : State) (c : Bool) (index sub : Nat) : SameRecords s (s.countIf c index sub) := ite (count s _ _ _) (refl s)
theorem raise (s : State) (code source die ctx detail : Nat) : SameRecords s (s.raise code source die ctx detail) := ⟨rfl, rfl⟩

theorem hbmWrite (s : State) (a : Nat) (bytes : List Byte) (p : Bool) : SameRecords s (s.hbmWrite a bytes p) := by
  cases p <;> exact ⟨rfl, rfl⟩

theorem writeThrough (s : State) (ctx a : Nat) (bytes : List Byte) (p : Bool) : SameRecords s (s.writeThrough ctx a bytes p) :=
  (ofNotes (Notes.foldl (fun x _ => Notes.touchWrite x _ _ _ _ _) _ s)).trans (hbmWrite _ _ _ _)

theorem flipTable (s : State) (t : Nat) : SameRecords s (s.flipTable t) :=
  ((writeThrough s _ _ _ _).trans (writeThrough _ _ _ _ _)).trans (writeThrough _ _ _ _ _)

theorem setThallus (s : State) (x : Thallus) : SameRecords s { s with thallus := x } := ⟨rfl, rfl⟩

theorem setUctx (s : State) (c : Nat) (x : UserCtx) : SameRecords s (s.setUctx c x) := ⟨State.setUctx_locket .., State.setUctx_program ..⟩

theorem slotsFlipped (s : State) (tables : List Nat) : SameRecords s (s.slotsFlipped tables) := by
  unfold State.slotsFlipped
  refine foldl (fun x c => ?_) _ s
  extract_lets u slots
  exact ite (refl x) (setUctx x c _)

theorem openStitch (s : State) : SameRecords s s.openStitch := (put s _ _ _).trans (setThallus _ _)

theorem stitchAfter (s : State) (regrew : Bool) : SameRecords s (s.stitchAfter regrew) :=
  ite ((put s _ _ _).trans (openStitch _)) (refl s)

theorem setCommitUnit (s : State) (c : Commit) : SameRecords s { s with commit := c } := ⟨rfl, rfl⟩

theorem plicAll (s : State) (source : Nat) : SameRecords s (s.plicAll source) := ⟨rfl, rfl⟩

theorem draw (s : State) : SameRecords s s.draw.2 := ⟨rfl, rfl⟩

theorem countNotReady (s : State) : SameRecords s s.countNotReady := by
  unfold State.countNotReady
  split_ifs
  · exact refl s
  · exact countIf s _ _ _
  · exact count s _ _ _
  · exact (draw s).trans (countIf _ _ _ _)

theorem countWatch (s : State) : SameRecords s s.countWatch := by
  unfold State.countWatch
  refine (put s _ _ _).trans (foldl (fun x p => ?_) _ _)
  split
  · exact refl x
  · exact (countIf x p.2.watch 0x7042 1).trans (ite ((count _ _ _ _).trans (put _ _ _ _)) (refl _))

end SameRecords

/-- The mask flip of a commit leaves the records and the marks of the program. -/
theorem SameRecords.flipStep (s : State) (flip : Bool) : SameRecords s (s.flipStep flip) := by
  unfold State.flipStep
  extract_lets regrew x armed y z _ v
  have hx : SameRecords s x := put s _ _ _
  split
  · split
    · have hy : SameRecords x y := (foldl (fun u t => flipTable u t) armed x).trans (slotsFlipped _ armed)
      have hz : SameRecords y z := ((count y _ _ _).trans (put _ _ _ _)).trans ((put _ _ _ _).trans (put _ _ _ _))
      exact hx.trans ((hy.trans hz).trans (((setThallus z _).trans (ite (openStitch v) (refl v))).trans (plicAll _ _)))
    · exact hx.trans (((raise x _ _ _ _ _).trans (stitchAfter _ _)).trans (setCommitUnit _ _))
  · exact hx.trans ((countNotReady x).trans (stitchAfter _ _))

/-- What the commit of a member leaves (R324). -/
structure Commits (s t : State) (flip : Bool) : Prop where
  commitState : t.commitState = 3
  revert : t.mem.revert = []
  ownSealed : t.locket.ownSealed = {}
  ownCommitted : t.locket.ownCommitted =
    if flip && s.commit.flipAsked then flipRecord s.locket.ownSealed s.program.regrew else s.locket.ownSealed
  censusFrame : t.commit.censusFrame = none

/-- The holds that a commit begins leave memory, records and the census alone. -/
theorem State.beginHolds_leaves (s : State) (n : Nat) : (s.beginHolds n).mem = s.mem ∧ (s.beginHolds n).locket = s.locket ∧
    (s.beginHolds n).commit.censusFrame = s.commit.censusFrame := by
  unfold State.beginHolds
  extract_lets x
  have hx : x.mem = s.mem ∧ x.locket = s.locket ∧ x.commit.censusFrame = s.commit.censusFrame := by
    unfold x
    split <;> exact ⟨rfl, rfl, rfl⟩
  split
  · exact hx
  · exact hx

theorem State.plicAll_get (s : State) (source i j : Nat) : (s.plicAll source).get i j = s.get i j := rfl
theorem State.plicAll_mem (s : State) (source : Nat) : (s.plicAll source).mem = s.mem := rfl
theorem State.plicAll_commit (s : State) (source : Nat) : (s.plicAll source).commit = s.commit := rfl
theorem State.plicAll_locket (s : State) (source : Nat) : (s.plicAll source).locket = s.locket := rfl

theorem State.commitStep_commits (s : State) (flip : Bool) : Commits s (s.commitStep flip) flip := by
  unfold State.commitStep
  extract_lets n flips x _ _ y z
  have hwatch := SameRecords.countWatch s
  have hflip := SameRecords.flipStep (s.countWatch.commitRecords flips) flips
  have hlocket : y.locket = (s.countWatch.commitRecords flips).locket := hflip.1
  obtain ⟨hmem, hlock, hcensus⟩ := ((y.put 0x8020 1 y.stepCount).count 0x8021 1 1).beginHolds_leaves n
  have hz : z.mem = y.mem ∧ z.locket = y.locket ∧ z.commit.censusFrame = y.commit.censusFrame := by
    refine ⟨hmem.trans ?_, hlock.trans ?_, hcensus.trans ?_⟩
    · rw [State.count_mem, State.put_mem]
    · rw [State.count_locket, State.put_locket]
    · rw [State.count_commit, State.put_commit]
  refine ⟨(State.plicAll_get _ _ _ _).trans (State.setCommit_commitState z 3), ?_, ?_, ?_, ?_⟩
  · rw [State.plicAll_mem, State.setCommit, State.put_mem, hz.1]
  · rw [State.plicAll_locket, State.setCommit, State.put_locket, hz.2.1, hlocket]
    rfl
  · rw [State.plicAll_locket, State.setCommit, State.put_locket, hz.2.1, hlocket]
    simp only [State.commitRecords, hwatch.1, hwatch.2]
    rfl
  · rw [State.plicAll_commit, State.setCommit, State.put_commit, hz.2.2]
    rfl

/-! ### The coordinator's decision, and COMMIT -/

/-- With every READY the coordinator tells the members and commits (R323). -/
theorem coordinatorDecision_commits {s : State}
    (h : (s.isCoordinator && s.training && s.commitState == 2 && !s.commit.decided && s.decisionFrame && s.allReady) = true) :
    Commits s (coordinatorDecision s) s.flipBit := by
  unfold coordinatorDecision
  rw [if_pos h]
  extract_lets flip x
  have htell : Emits s x := Emits.tell s _ _ _ _ _
  have hcommits := x.commitStep_commits flip
  refine ⟨hcommits.commitState, hcommits.revert, hcommits.ownSealed, ?_, hcommits.censusFrame⟩
  rw [hcommits.ownCommitted, htell.commit, htell.locket, htell.program]

/-- Settles O35: the coordinator's decision and the COMMIT of another member. -/
theorem commitMakesTheSealedRecordCommitted : Obligations.CommitMakesTheSealedRecordCommitted := by
  unfold Obligations.CommitMakesTheSealedRecordCommitted
  refine ⟨fun s => ⟨fun h => ?decides, fun h => ?undecided⟩, fun p raw s t f harrives => ⟨fun h => ?commits, fun h => ?ignored⟩⟩
  case decides =>
    have hcommits := coordinatorDecision_commits h
    exact ⟨_, rfl, hcommits.commitState, hcommits.revert, hcommits.ownSealed, hcommits.ownCommitted⟩
  case undecided =>
    refine congrArg Host.Outcome.next ?_
    exact if_neg (by rw [h]; decide)
  case commits =>
    have hcommits := t.commitStep_commits (bit (leNat f.payload) 0)
    exact ⟨_, congrArg Host.Outcome.next ((receive_arrives takeCommit harrives).trans (if_pos h)), hcommits.commitState,
      hcommits.revert, hcommits.ownSealed, hcommits.ownCommitted⟩
  case ignored =>
    exact congrArg Host.Outcome.next ((receive_arrives takeCommit harrives).trans (if_neg (by rw [h]; decide)))

/-! ### Aborting -/

/-- Pending commands of the units are discarded; no other register changes. -/
theorem discard_waiting (l : List Nat) (s : State) : ∃ units,
    l.foldl (fun (s : State) u => if (s.unit u).waiting.isEmpty then s else s.onUnit u fun x => { x with waiting := [] }) s =
        { s with units } ∧
      (∀ v ∈ l, (({ s with units } : State).unit v).waiting = []) ∧
      ∀ v, (s.unit v).waiting = [] → (({ s with units } : State).unit v).waiting = [] := by
  induction l generalizing s with
  | nil => exact ⟨s.units, rfl, nofun, fun _ h => h⟩
  | cons u l ih =>
    by_cases hempty : (s.unit u).waiting.isEmpty = true
    · obtain ⟨units, heq, hclear, hkeep⟩ := ih s
      refine ⟨units, by rw [List.foldl_cons, if_pos hempty, heq], fun v hv => ?_, hkeep⟩
      rcases List.mem_cons.1 hv with rfl | hv
      · exact hkeep v (List.isEmpty_iff.1 hempty)
      · exact hclear v hv
    · obtain ⟨units, heq, hclear, hkeep⟩ := ih (s.onUnit u fun x => { x with waiting := [] })
      have hdiscarded : ((s.onUnit u fun x => { x with waiting := [] }).unit u).waiting = [] := by
        rw [State.onUnit_unit_same]
      refine ⟨units, by rw [List.foldl_cons, if_neg hempty, heq]; rfl, fun v hv => ?_, fun v hv => ?_⟩
      · rcases List.mem_cons.1 hv with rfl | hv
        · exact hkeep v hdiscarded
        · exact hclear v hv
      · refine hkeep v ?_
        by_cases hvu : v = u
        · rw [hvu]
          exact hdiscarded
        · rw [State.onUnit_unit_other _ _ _ hvu]
          exact hv

/-- What entering ABORTING leaves: no bundle to dispatch and nothing pending (R326). -/
structure Aborts (s t : State) : Prop where
  commitState : t.commitState = 4
  bundles : t.program.bundles = []
  fetched : t.program.fetched = none
  waiting : ∀ v ∈ unitIds, (t.unit v).waiting = []
  get : ∀ i j, objKey i j ≠ objKey 0x8020 2 → objKey i j ≠ objKey 0x8021 2 → t.get i j = s.get i j
  faults : t.faults = s.faults
  mem : t.mem = s.mem
  commit : t.commit = s.commit
  fabric : t.fabric = s.fabric

theorem State.enterAborting_aborts (s : State) : Aborts s s.enterAborting := by
  unfold State.enterAborting
  extract_lets x y _
  obtain ⟨units, heq, hclear, -⟩ := discard_waiting unitIds x
  have hy : y = { x with units } := heq
  have hx : x.commitState = 4 := by
    refine (State.put_get_other _ _ _ _ (by decide)).trans ?_
    exact s.setCommit_commitState 4
  clear_value y
  subst hy
  refine ⟨hx, rfl, rfl, hclear, fun i j h1 h2 => ?_, rfl, rfl, rfl, rfl⟩
  exact (State.put_get_other _ _ _ _ h2).trans (State.put_get_other _ _ _ _ h1)

/-- An undecided coordinator of a training step that has not committed decides abort, tells the members and aborts (R326). -/
theorem State.coordinatorAborts_aborts {s : State} (origin code : Nat) (hcoord : s.isCoordinator = true)
    (hopen : s.commit.decided = false) (htraining : s.training = true) (hstate : s.commitState ≤ 2) :
    ∃ x, Emits { s with commit := { s.commit with decided := true } } x ∧ Aborts x (s.coordinatorAborts origin code) := by
  have hdecides : (s.isCoordinator && !s.commit.decided && s.training) = true := by simp [hcoord, hopen, htraining]
  unfold State.coordinatorAborts
  rw [if_pos hdecides]
  extract_lets _ x y
  have htell : Emits x y := Emits.tell x _ _ _ _ _
  refine ⟨y, htell, ?_⟩
  rw [if_pos]
  · exact y.enterAborting_aborts
  · rw [htell.commitState]
    exact hstate

/-- Whatever a coordinator does about an abort that others have decided, a member that has aborted stays so. -/
theorem State.coordinatorAborts_aborting {s : State} (origin code : Nat) (hstate : 2 < s.commitState) :
    (s.coordinatorAborts origin code).commitState = s.commitState ∧ (s.coordinatorAborts origin code).program = s.program := by
  unfold State.coordinatorAborts
  split
  · extract_lets _ x y
    have htell : Emits x y := Emits.tell x _ _ _ _ _
    have hy : y.commitState = s.commitState := htell.commitState
    rw [if_neg (by omega)]
    exact ⟨hy, htell.program⟩
  · exact ⟨rfl, rfl⟩

/-- What the coordinator's abort leaves alone. -/
theorem State.coordinatorAborts_leaves (s : State) (origin code : Nat) :
    (s.coordinatorAborts origin code).fabric.poisonSeen = s.fabric.poisonSeen ∧ (s.coordinatorAborts origin code).mem = s.mem ∧
      ∃ l, (s.coordinatorAborts origin code).faults.inFlight = s.faults.inFlight ++ l := by
  unfold State.coordinatorAborts
  split
  · extract_lets _ x y
    have htell : Emits x y := Emits.tell x _ _ _ _ _
    have hy : y.fabric.poisonSeen = s.fabric.poisonSeen ∧ y.mem = s.mem ∧ ∃ l, y.faults.inFlight = s.faults.inFlight ++ l := by
      refine ⟨?_, ?_, htell.reports⟩
      · rw [htell.state]
      · rw [htell.mem]
    have haborts := y.enterAborting_aborts
    split
    · rw [haborts.fabric, haborts.mem, haborts.faults]
      exact hy
    · exact hy
  · exact ⟨rfl, rfl, [], (List.append_nil _).symm⟩

/-! ### COMMIT_TIMEOUT -/

theorem Emits.sendCensus (s : State) : Emits s s.sendCensus := Emits.foldl _ (fun x _ _ => Emits.flood x _ _) s

/-- The bitmap with which a member joins a census: its own member index and those received (R298). -/
def State.joinedBitmap (s : State) (received : List Nat) : List Nat :=
  received.foldl (fun l m => insertNat m l) (match s.memberIndex with | some j => [j] | none => [])

theorem State.mem_joinedBitmap (s : State) (received : List Nat) :
    (∀ m ∈ received, m ∈ s.joinedBitmap received) ∧ ∀ j, s.memberIndex = some j → j ∈ s.joinedBitmap received := by
  refine ⟨fun m hm => mem_foldl_insertNat.2 (.inr hm), fun j hj => mem_foldl_insertNat.2 (.inl ?_)⟩
  simp [hj]

/-- The registers of a census that has been joined, before its flits leave. -/
def State.noteCensus (s : State) (number : Nat) (bitmap : List Nat) : State :=
  let s := s.put 0x5040 1 (number % 65536)
  { s with fabric := { s.fabric with census := some s.clock.frame, bitmap := bitmap } }

theorem State.joinCensus_eq (s : State) (number : Nat) (received : List Nat) :
    s.joinCensus number received = (s.noteCensus number (s.joinedBitmap received)).sendCensus := rfl

theorem State.noteCensus_get_other {i j : Nat} (s : State) (number : Nat) (bitmap : List Nat) (h : objKey i j ≠ objKey 0x5040 1) :
    (s.noteCensus number bitmap).get i j = s.get i j := State.put_get_other _ _ _ _ h

/-- A census opens in this frame: it is noted, and its flits leave (R298). -/
theorem State.startCensus_opens (s : State) : ∃ bitmap, Emits (s.noteCensus (s.get 0x5040 1 + 1) bitmap) s.startCensus := by
  rw [State.startCensus, State.joinCensus_eq]
  exact ⟨_, Emits.sendCensus _⟩

/-- The count and the report of a timeout (R323). -/
def State.noteTimeout (s : State) : State := (s.count 0x8021 3 1).raiseTick 0x313 0 1 0 s.commitDetail

theorem State.noteTimeout_sameMember (s : State) : SameMember s s.noteTimeout :=
  (SameMember.count s (index := 0x8021) (sub := 3) 1 (by decide)).trans ⟨rfl, rfl, rfl, rfl⟩

theorem State.noteTimeout_get_other {i j : Nat} (s : State) (h : objKey i j ≠ objKey 0x8021 3) : s.noteTimeout.get i j = s.get i j :=
  State.put_get_other _ _ _ _ h

theorem State.noteTimeout_get (s : State) : s.noteTimeout.get 0x8021 3 = (s.count 0x8021 3 1).get 0x8021 3 := by
  rw [State.noteTimeout, State.raiseTick_get]

theorem State.noteTimeout_reports (s : State) : ∃ r ∈ s.noteTimeout.faults.inFlight, r.2.code = 0x313 := by
  obtain ⟨r, hr, hcode, -⟩ := (s.count 0x8021 3 1).raiseTick_reports 0x313 0 1 0 s.commitDetail
  refine ⟨r, ?_, hcode⟩
  rw [State.noteTimeout, hr]
  simp

/-- A report that was on its way is so where others have been added. -/
theorem exists_report_append {p : Nat × Report → Prop} {l m n : List (Nat × Report)} (h : ∃ r ∈ l, p r) (hm : m = l ++ n) : ∃ r ∈ m, p r := by
  obtain ⟨r, hr, hp⟩ := h
  exact ⟨r, hm ▸ List.mem_append_left _ hr, hp⟩

/-- The coordinator lacks a READY at the tick that ends f + 2 (R323). -/
theorem commitTimeout_aborts {s : State} {f : Nat} (hframe : s.commit.frame = some f) (htraining : s.training = true)
    (hcoord : s.isCoordinator = true) (hopen : s.commit.decided = false) (hstate : s.commitState ≤ 2) (hclock : s.clock.frame = f + 2)
    (hready : s.allReady = false) : commitTimeout s = s.noteTimeout.coordinatorAborts s.noteTimeout.moduleId 0x313 := by
  simp only [commitTimeout, hframe, htraining, hcoord, hopen, hstate, hclock, hready, Bool.not_true, Bool.not_false, Bool.false_eq_true,
    if_false, if_true, and_true]
  rfl

/-- A READY member without a decision at the tick that ends f + 3 opens a census (R329). -/
theorem commitTimeout_opensCensus {s : State} {f : Nat} (hframe : s.commit.frame = some f) (htraining : s.training = true)
    (hstate : s.commitState = 2) (hclock : s.clock.frame = f + 3) : commitTimeout s = s.noteTimeout.startCensus := by
  have hlate : ¬f + 3 = f + 2 := by omega
  simp only [commitTimeout, hframe, htraining, hstate, hclock, hlate, Bool.not_true, Bool.false_eq_true, if_false, if_true, false_and,
    and_false, and_self]
  rfl

/-! ### ABORT and POISON_STEP -/

theorem takeAbort_aborts {p : Nat} {f : Flit} {s : State} (hconcerns : s.concerns f = true) (hstate : s.commitState ≤ 2) :
    ∃ detail, takeAbort p f s = (s.raise 0x316 0xC0 (unitDie (arrivalUnit p)) 0 detail).enterAborting := by
  have hopen : ¬(!s.concerns f || decide (s.commitState > 2)) = true := by simp [hconcerns, hstate]
  unfold takeAbort
  rw [if_neg hopen]
  exact ⟨_, rfl⟩

theorem takeAbort_ignores {p : Nat} {f : Flit} {s : State} (h : s.concerns f = false ∨ 2 < s.commitState) : takeAbort p f s = s := by
  refine if_pos ?_
  simpa using h

/-- POISON_STEP of the running step, seen the first time: it is noted, passed on and reported, a member that has not voted to READY
aborts, and the coordinator decides (R301, R326). -/
theorem takePoison_poisons {p : Nat} {f : Flit} {s : State} (htraining : s.training = true) (hstep : f.addr = s.stepCount % 2 ^ 48)
    (hnew : s.fabric.poisonSeen ≠ some s.stepCount) : ∃ x y origin code detail,
      Emits { s with fabric := { s.fabric with poisonSeen := some s.stepCount } } x ∧
      y = x.raise 0x316 0xC0 (unitDie (portUnit p)) 0 detail ∧
      takePoison p f s = (if y.commitState ≤ 1 then y.enterAborting else y).coordinatorAborts origin code := by
  have hopen : ¬(!s.training || f.addr != s.stepCount % 2 ^ 48 || s.fabric.poisonSeen == some s.stepCount) = true := by
    simp [htraining, hstep, hnew]
  unfold takePoison
  extract_lets _ pay origin code x y z w
  rw [if_neg hopen]
  exact ⟨y, z, origin, code, _, Emits.flood x f (some p), rfl, rfl⟩

/-- A POISON_STEP that has been noted: a member that has not voted to READY aborts, and the coordinator decides (R326). -/
theorem takePoison_ends (origin code : Nat) (s : State) :
    let t := (if s.commitState ≤ 1 then s.enterAborting else s).coordinatorAborts origin code
    t.fabric.poisonSeen = s.fabric.poisonSeen ∧ t.mem = s.mem ∧ (∃ l, t.faults.inFlight = s.faults.inFlight ++ l) ∧
      (s.commitState ≤ 1 → t.commitState = 4 ∧ t.program.bundles = []) := by
  intro t
  have haborts := s.enterAborting_aborts
  by_cases hvoted : s.commitState ≤ 1
  · have ht : t = s.enterAborting.coordinatorAborts origin code := by
      unfold t
      rw [if_pos hvoted]
    obtain ⟨hseen, hmem, l, hl⟩ := s.enterAborting.coordinatorAborts_leaves origin code
    obtain ⟨hstate, hprogram⟩ := s.enterAborting.coordinatorAborts_aborting origin code (by rw [haborts.commitState]; decide)
    rw [ht]
    refine ⟨?_, ?_, ⟨l, ?_⟩, fun _ => ⟨?_, ?_⟩⟩
    · rw [hseen, haborts.fabric]
    · rw [hmem, haborts.mem]
    · rw [hl, haborts.faults]
    · rw [hstate, haborts.commitState]
    · rw [hprogram, haborts.bundles]
  · have ht : t = s.coordinatorAborts origin code := by
      unfold t
      rw [if_neg hvoted]
    obtain ⟨hseen, hmem, hl⟩ := s.coordinatorAborts_leaves origin code
    rw [ht]
    exact ⟨hseen, hmem, hl, fun h => absurd h hvoted⟩

theorem takePoison_ignores {p : Nat} {f : Flit} {s : State}
    (h : s.training = false ∨ f.addr ≠ s.stepCount % 2 ^ 48 ∨ s.fabric.poisonSeen = some s.stepCount) : takePoison p f s = s := by
  refine if_pos ?_
  simpa [or_assoc] using h

/-- Settles O36: COMMIT_TIMEOUT, ABORT and POISON_STEP. -/
theorem timeoutsAndAborts : Obligations.TimeoutsAndAborts := by
  unfold Obligations.TimeoutsAndAborts
  refine ⟨fun s f hframe htraining => ⟨fun hcoord hopen hstate hclock hready => ?lacks, fun hstate hclock => ?undecided⟩,
    fun p raw s t f h => ⟨fun hconcerns hstate => ?abort, fun hnot => ?noAbort⟩,
    fun p raw s t f h => ⟨fun htraining hstep hnew => ?poison, fun hnot => ?noPoison⟩⟩
  case lacks =>
    have hsame := s.noteTimeout_sameMember
    have hstate' : s.noteTimeout.commitState ≤ 2 := (s.noteTimeout_get_other (by decide)).trans_le hstate
    obtain ⟨x, htell, haborts⟩ := State.coordinatorAborts_aborts s.noteTimeout.moduleId 0x313 (hsame.isCoordinator.trans hcoord)
      (s := s.noteTimeout) hopen (hsame.training.trans htraining) hstate'
    refine ⟨_, congrArg Host.Outcome.next (commitTimeout_aborts hframe htraining hcoord hopen hstate hclock hready),
      haborts.commitState, ?_, haborts.bundles, ?_, ?_⟩
    · rw [haborts.commit, htell.commit]
    · rw [haborts.get _ _ (by decide) (by decide), htell.get _ _ fun p hp => by simp only [objKey]; omega]
      exact s.noteTimeout_get
    · obtain ⟨l, hl⟩ := htell.reports
      rw [haborts.faults]
      exact exists_report_append s.noteTimeout_reports hl
  case undecided =>
    obtain ⟨bitmap, hsend⟩ := s.noteTimeout.startCensus_opens
    refine ⟨_, congrArg Host.Outcome.next (commitTimeout_opensCensus hframe htraining hstate hclock), ?_, ?_, ?_, ?_⟩
    · rw [hsend.commitState]
      exact (State.noteCensus_get_other _ _ _ (by decide)).trans ((s.noteTimeout_get_other (by decide)).trans hstate)
    · rw [hsend.state]
      exact congrArg some hclock
    · rw [hsend.get _ _ fun p hp => by simp only [objKey]; omega, State.noteCensus_get_other _ _ _ (by decide)]
      exact s.noteTimeout_get
    · obtain ⟨l, hl⟩ := hsend.reports
      exact exists_report_append s.noteTimeout_reports hl
  case abort =>
    obtain ⟨detail, htake⟩ := takeAbort_aborts (p := p) hconcerns hstate
    have haborts := (t.raise 0x316 0xC0 (unitDie (arrivalUnit p)) 0 detail).enterAborting_aborts
    obtain ⟨r, hr, hcode, -⟩ := t.raise_reports 0x316 0xC0 (unitDie (arrivalUnit p)) 0 detail
    refine ⟨_, r, congrArg Host.Outcome.next ((receive_arrives takeAbort h).trans htake), haborts.commitState, haborts.bundles,
      haborts.fetched, ?_, hcode, ?_, haborts.waiting⟩
    · rw [haborts.faults, hr]
    · rw [haborts.mem, State.raise_mem]
  case noAbort => exact congrArg Host.Outcome.next ((receive_arrives takeAbort h).trans (takeAbort_ignores hnot))
  case poison =>
    obtain ⟨x, y, origin, code, detail, hflood, hy, htake⟩ := takePoison_poisons (p := p) htraining hstep hnew
    obtain ⟨r, hr, hcode, -⟩ := x.raise_reports 0x316 0xC0 (unitDie (portUnit p)) 0 detail
    have hyr : ∃ r ∈ y.faults.inFlight, r.2.code = 0x316 := ⟨r, by rw [hy, hr]; simp, hcode⟩
    have hyseen : y.fabric.poisonSeen = some t.stepCount := by
      rw [hy, State.raise_fabric, hflood.state]
    have hymem : y.mem = t.mem := by rw [hy, State.raise_mem, hflood.mem]
    have hystate : y.commitState = t.commitState := by
      rw [hy]
      exact hflood.commitState
    have hend := takePoison_ends origin code y
    refine ⟨_, congrArg Host.Outcome.next ((receive_arrives takePoison h).trans htake), ?_, ?_, ?_, fun hvoted => ?_⟩
    · rw [hend.1, hyseen]
    · rw [hend.2.1, hymem]
    · obtain ⟨l, hl⟩ := hend.2.2.1
      exact exists_report_append hyr hl
    · refine hend.2.2.2 ?_
      rw [hystate]
      exact hvoted
  case noPoison => exact congrArg Host.Outcome.next ((receive_arrives takePoison h).trans (takePoison_ignores hnot))

/-! ### Outcomes -/

/-- The member ids of the reached members, as OUTCOME_DECISION takes them (R329). -/
def State.reachedIds (s : State) : List Nat := s.reached.filterMap fun j => (s.members[j]?).map memberId

theorem State.mem_reachedIds {s : State} {m : Nat} :
    m ∈ s.reachedIds ↔ ∃ j ∈ s.reached, ∃ e, s.members[j]? = some e ∧ memberId e = m := by
  simp [State.reachedIds]

/-- The outcomes are over (R329). -/
def State.closeOutcomes (s : State) : State := { s with commit := { s.commit with censusFrame := none, outcomes := [] } }

/-- No member can say what became of the step: COMMIT_UNKNOWN (R329). -/
def State.haltUnknown (s : State) : State :=
  let s := (s.raiseAt (s.clock.frame - 1) (s.flen - 1) 0x314 0 1 0 s.commitDetail).setCommit 7
  { s with commit := { s.commit with unknown := true } }

theorem State.haltUnknown_reports (s : State) : s.haltUnknown.commitState = 7 ∧ s.haltUnknown.commit.unknown = true ∧
    s.haltUnknown.commit.censusFrame = s.commit.censusFrame ∧
    ∃ r, s.haltUnknown.faults.inFlight = s.faults.inFlight ++ [r] ∧ r.2.code = 0x314 :=
  ⟨State.setCommit_commitState (s.raiseAt _ _ _ _ _ _ _) 7, rfl, rfl, _, rfl, rfl⟩

/-- What a READY member does with the outcomes (Table 12.11). -/
theorem outcomeDecision_ready {s : State} (hdue : s.commit.censusFrame.isSome = true) (hstate : s.commitState = 2) :
    outcomeDecision s =
      if s.commit.outcomes.any (fun o => o.2 == 0) then s.closeOutcomes.commitUnasked
      else if (s.commit.outcomes.any (fun o => o.2 == 1)) || s.reachedIds.contains s.coordinator then s.closeOutcomes.enterAborting
      else s.closeOutcomes.haltUnknown := by
  obtain ⟨f, hf⟩ := Option.isSome_iff_exists.1 hdue
  have hdecides : outcomeDecision s =
      if s.commit.outcomes.any (fun o => o.2 == 0) then
        (if s.closeOutcomes.commitState = 2 then s.closeOutcomes.commitUnasked else s.closeOutcomes)
      else if (s.commit.outcomes.any (fun o => o.2 == 1)) || s.reachedIds.contains s.closeOutcomes.coordinator then
        (if s.closeOutcomes.commitState ≤ 2 then s.closeOutcomes.enterAborting else s.closeOutcomes)
      else if s.closeOutcomes.commitState = 2 then s.closeOutcomes.haltUnknown else s.closeOutcomes := by
    simp only [outcomeDecision, hf]
    rfl
  have hstate' : s.closeOutcomes.commitState = 2 := hstate
  have hcoord : s.closeOutcomes.coordinator = s.coordinator := rfl
  rw [hdecides, hstate', hcoord]
  rfl

theorem State.commitUnasked_commits (s : State) : s.commitUnasked.commitState = 3 ∧ s.commitUnasked.commit.censusFrame = none := by
  have h := s.draw.2.commitStep_commits (s.draw.1.getLsbD 0)
  exact ⟨h.commitState, h.censusFrame⟩

/-- Settles O38: OUTCOME and OUTCOME_DECISION. -/
theorem outcomesDecideAReadyMember : Obligations.OutcomesDecideAReadyMember := by
  unfold Obligations.OutcomesDecideAReadyMember
  refine ⟨fun p raw s t f h => ⟨fun hdue => ?noted, fun hnot => ?ignored⟩, fun s hdue hstate => ?decided⟩
  case noted =>
    refine ⟨_, _, congrArg Host.Outcome.next ((receive_arrives takeOutcome h).trans (if_pos hdue)), rfl, fun hconcerns => ?_⟩
    exact if_pos hconcerns
  case ignored =>
    exact congrArg Host.Outcome.next ((receive_arrives takeOutcome h).trans (if_neg (by rw [hnot]; decide)))
  case decided =>
    have hdecides := outcomeDecision_ready hdue hstate
    have haborts := s.closeOutcomes.enterAborting_aborts
    have hcensus : s.closeOutcomes.enterAborting.commit.censusFrame = none := by rw [haborts.commit]; rfl
    refine ⟨outcomeDecision s, rfl, ?_⟩
    by_cases hcommitted : ∃ o ∈ s.commit.outcomes, o.2 = 0
    · rw [hdecides, if_pos (by simpa using hcommitted)]
      obtain ⟨o, ho, hzero⟩ := hcommitted
      obtain ⟨hstate', hcensus'⟩ := s.closeOutcomes.commitUnasked_commits
      exact ⟨hcensus', fun _ => hstate', fun h => absurd hzero (h o ho), fun h => absurd hzero (h o ho),
        fun h => absurd hzero (h o ho).1⟩
    · rw [hdecides, if_neg (by simpa using hcommitted)]
      by_cases hopen : (∃ o ∈ s.commit.outcomes, o.2 = 1) ∨ s.coordinator ∈ s.reachedIds
      · rw [if_pos (by simpa using hopen)]
        refine ⟨hcensus, fun h => absurd h hcommitted, fun _ _ => haborts.commitState, fun _ _ => haborts.commitState, fun h h' => ?_⟩
        obtain ⟨o, ho, hone⟩ | hreached := hopen
        · exact absurd hone (h o ho).2
        · obtain ⟨j, hj, e, he, hid⟩ := State.mem_reachedIds.1 hreached
          exact absurd hid (h' j hj e he)
      · rw [if_neg (by simpa using hopen)]
        obtain ⟨hhalted, hunknown, hcensus', hreports⟩ := s.closeOutcomes.haltUnknown_reports
        refine ⟨hcensus', fun h => absurd h hcommitted, fun _ h => absurd (.inl h) hopen,
          fun _ ⟨j, hj, e, he, hid⟩ => absurd (.inr (State.mem_reachedIds.2 ⟨j, hj, e, he, hid⟩)) hopen,
          fun _ _ => ⟨hhalted, hunknown, hreports⟩⟩

end Sys2Proof.Machine
end

section
/-! Heartbeats and censuses of the slice (R297–R299, R304, R329). -/

namespace Sys2Proof.Machine

open Sys2Proof.Safety

/-! ### HEARTBEAT -/

/-- What HEARTBEAT of a neighbour does, by which neighbour it is (R304). -/
theorem takeHeartbeat_eq (p : Nat) {f : Flit} {s : State} {next prev : Bool} (hnext : (s.successors.head? == some f.src) = next)
    (hprev : (s.predecessors.head? == some f.src) = prev) : takeHeartbeat p f s =
      if next || prev then
        ({ s with fabric := { s.fabric with
            beatNext := if next then some s.clock.frame else s.fabric.beatNext
            beatPrev := if prev then some s.clock.frame else s.fabric.beatPrev
            lossRaised := false } } : State).put 0x5040 6
          ((if next then twos 16 ((f.addr : Int) - s.program.stepFrame) else bits (s.get 0x5040 6) 15 0) +
            65536 * (if prev then twos 16 ((f.addr : Int) - s.program.stepFrame) else bits (s.get 0x5040 6) 31 16))
      else s := by
  simp only [takeHeartbeat, hnext, hprev]
  cases next <;> cases prev <;> rfl

/-! ### Censuses -/

theorem State.enqueue_faults (s : State) (p : Nat) (r : List Byte) : (s.enqueue p r).faults = s.faults := (OnPort.enqueue s p r).faults

/-- A flood reports nothing: a port that does not send keeps the flit. -/
theorem State.flood_faults (s : State) (f : Flit) (except : Option Nat) : (s.flood f except).faults = s.faults :=
  List.foldlRecOn (motive := fun x : State => x.faults = s.faults) _ _ rfl fun x hx p _ => by rw [State.enqueue_faults, hx]

theorem State.sendCensus_faults (s : State) : s.sendCensus.faults = s.faults :=
  List.foldlRecOn (motive := fun x : State => x.faults = s.faults) _ _ rfl fun x hx part _ => by rw [State.flood_faults, hx]

theorem State.mem_joinedBitmap_iff {s : State} {received : List Nat} {m : Nat} :
    m ∈ s.joinedBitmap received ↔ m ∈ received ∨ s.memberIndex = some m := by
  rw [State.joinedBitmap, mem_foldl_insertNat, or_comm]
  cases s.memberIndex <;> simp [eq_comm]

/-- A census that has been joined: its number, its frame and its bitmap (R298). -/
theorem State.joinCensus_joins (s : State) (number : Nat) (received : List Nat) :
    (s.joinCensus number received).get 0x5040 1 = number % 65536 ∧
      (s.joinCensus number received).fabric.census = some s.clock.frame ∧
      (s.joinCensus number received).fabric.bitmap = s.joinedBitmap received ∧
      (s.joinCensus number received).fabric.lossRaised = s.fabric.lossRaised ∧
      (s.joinCensus number received).faults = s.faults ∧ (s.joinCensus number received).mem = s.mem := by
  rw [State.joinCensus_eq]
  have hsend := Emits.sendCensus (s.noteCensus number (s.joinedBitmap received))
  refine ⟨?_, ?_, ?_, ?_, ?_, ?_⟩
  · rw [hsend.get _ _ fun p hp => by simp only [objKey]; omega]
    exact State.put_get_same _ _ _ _
  · rw [hsend.state]
    rfl
  · rw [hsend.state]
    rfl
  · rw [hsend.state]
    rfl
  · rw [State.sendCensus_faults]
    rfl
  · rw [hsend.mem]
    rfl

/-- The loss is noted and reported (R297). -/
def State.noteLoss (s : State) : State := ({ s with fabric := { s.fabric with lossRaised := true } } : State).raiseTick 0x30F 0 1 0 0

theorem State.noteLoss_reports (s : State) : (∃ r, s.noteLoss.faults.inFlight = s.faults.inFlight ++ [r] ∧ r.2.code = 0x30F) ∧
    s.noteLoss.fabric.lossRaised = true ∧ s.noteLoss.get 0x5040 1 = s.get 0x5040 1 ∧ s.noteLoss.clock = s.clock ∧
    s.noteLoss.mem = s.mem := ⟨⟨_, rfl, rfl⟩, rfl, rfl, rfl, rfl⟩

theorem heartbeatLost_opens {s : State} (h : s.heartbeatGone = true) :
    heartbeatLost s = s.noteLoss.joinCensus (s.noteLoss.get 0x5040 1 + 1) [] := if_pos h

/-- A CENSUS of a higher number is joined (R298). -/
theorem takeCensus_joins {p : Nat} {f : Flit} {s : State} (h : s.get 0x5040 1 < bits f.addr 15 0) :
    takeCensus p f s = s.joinCensus (bits f.addr 15 0) (censusMembers (bits f.addr 17 16) f.payload) := if_pos h

/-- A CENSUS of the open census adds its members (R298). -/
theorem takeCensus_merges {p : Nat} {f : Flit} {s : State} (hnumber : bits f.addr 15 0 = s.get 0x5040 1)
    (hopen : s.fabric.census.isSome = true) : (takeCensus p f s).fabric.census = s.fabric.census ∧ (takeCensus p f s).mem = s.mem ∧
      (takeCensus p f s).fabric.bitmap =
        (censusMembers (bits f.addr 17 16) f.payload).foldl (fun l m => insertNat m l) s.fabric.bitmap := by
  unfold takeCensus
  extract_lets number members bitmap x
  rw [if_neg (by omega), if_pos ⟨hnumber, hopen⟩]
  split
  next hsame => exact ⟨rfl, rfl, hsame.symm⟩
  next =>
    have hsend := Emits.sendCensus { s with fabric := { s.fabric with bitmap := bitmap } }
    refine ⟨?_, ?_, ?_⟩
    · rw [hsend.state]
    · rw [hsend.mem]
    · rw [hsend.state]

theorem takeCensus_ignores {p : Nat} {f : Flit} {s : State}
    (h : bits f.addr 15 0 < s.get 0x5040 1 ∨ (bits f.addr 15 0 = s.get 0x5040 1 ∧ s.fabric.census = none)) : takeCensus p f s = s := by
  unfold takeCensus
  extract_lets number members bitmap x
  have hclosed : ¬(number = s.get 0x5040 1 ∧ s.fabric.census.isSome = true) := by
    rintro ⟨hnumber, hopen⟩
    obtain hlow | ⟨-, hnone⟩ := h
    · exact absurd hnumber hlow.ne
    · rw [hnone] at hopen
      cases hopen
  rw [if_neg (by omega), if_neg hclosed]

/-! ### CENSUS_CLOSE -/

/-- The census is closed, and the members reached are reported (R299). -/
def State.closeCensus (s : State) : State :=
  let s := { s with fabric := { s.fabric with census := none } }
  s.put 0x5040 2 (s.reached.length % 65536)

theorem State.closeCensus_sameMember (s : State) : SameMember s s.closeCensus := by
  unfold State.closeCensus
  extract_lets _ x
  have hx : SameMember s x := SameMember.of_eq (fun _ _ => rfl) rfl rfl rfl rfl
  exact hx.trans (SameMember.put x (index := 0x5040) (sub := 2) _ (by decide))

theorem SameMember.ownState {s t : State} (h : SameMember s t) : t.ownState = s.ownState := by
  rw [State.ownState, h.members, h.moduleId, State.ownState]
theorem SameMember.slotCount {s t : State} (h : SameMember s t) : t.slotCount = s.slotCount := by
  rw [State.slotCount, State.ring, h.memberIndex, h.members, h.moduleId, State.slotCount, State.ring]
theorem SameMember.reached {s t : State} (h : SameMember s t) (hbitmap : t.fabric.bitmap = s.fabric.bitmap) : t.reached = s.reached := by
  rw [State.reached, hbitmap, h.members, State.reached]
theorem SameMember.erased {s t : State} (h : SameMember s t) (hbitmap : t.fabric.bitmap = s.fabric.bitmap) : t.erased = s.erased := by
  rw [State.erased, hbitmap, h.members, State.erased]
theorem SameMember.continues {s t : State} (h : SameMember s t) (hbitmap : t.fabric.bitmap = s.fabric.bitmap)
    (hanchor : t.fabric.anchor = s.fabric.anchor) : t.continues = s.continues := by
  have hanchor' : t.anchor = s.anchor := by rw [State.anchor, hanchor, State.lowestLive, h.members, State.anchor, State.lowestLive]
  rw [State.continues, h.reached hbitmap, h.ownState, h.slotCount, hanchor', hbitmap, State.continues]

/-- What CENSUS_CLOSE does with an open census (R299). -/
theorem censusClose_closes {s : State} (h : s.fabric.census.isSome = true) : censusClose s =
    if s.continues then (if s.training then s.closeCensus.sendOutcomes else s.closeCensus) else s.closeCensus.fence := by
  have hsame := s.closeCensus_sameMember
  have hcontinues : s.closeCensus.continues = s.continues := hsame.continues rfl rfl
  rw [← hcontinues, ← hsame.training]
  exact if_pos h

/-- The outcomes are awaited, the module's own noted (R329). -/
theorem State.sendOutcomes_awaits (s : State) : ∃ x, Emits s x ∧ s.sendOutcomes = { x with commit := { x.commit with
    censusFrame := some s.clock.frame, outcomes := [(s.moduleId, s.outcome)] } } := by
  unfold State.sendOutcomes
  extract_lets step ids x
  have hemits : Emits s x := Emits.foldl _ (fun y _ _ => Emits.originate y _ _) s
  have hmodule : x.moduleId = s.moduleId := (SameMember.ofEmits hemits).moduleId
  have houtcome : x.outcome = s.outcome := by rw [State.outcome, hemits.commitState, State.outcome]
  refine ⟨x, hemits, ?_⟩
  rw [hmodule, houtcome, hemits.clock]

/-- The module fences (R299). -/
theorem State.fence_fences (s : State) : SameMember s s.fence ∧ s.fence.fabric = s.fabric ∧ s.fence.mem = s.mem ∧
    s.fence.get 0x5040 5 = 1 ∧ s.fence.get 0x5040 2 = s.get 0x5040 2 ∧
    (∃ r, s.fence.faults.inFlight = s.faults.inFlight ++ [r] ∧ r.2.code = 0x310) ∧
    (s.running = true → s.fence.program.stopping = some (0x310, true)) := by
  have hsame := SameMember.put s (index := 0x5040) (sub := 5) 1 (by decide)
  have hrun : ((s.put 0x5040 5 1).raiseTick 0x310 0 1 0 0).running = s.running := by
    rw [State.running, State.status, State.raiseTick_get, State.put_get_other _ _ _ _ (by decide), State.running, State.status]
  obtain ⟨r, hr, hcode, -⟩ := (s.put 0x5040 5 1).raiseTick_reports 0x310 0 1 0 0
  have hget : ((s.put 0x5040 5 1).raiseTick 0x310 0 1 0 0).get 0x5040 5 = 1 := by rw [State.raiseTick_get, State.put_get_same]
  have hget2 : ((s.put 0x5040 5 1).raiseTick 0x310 0 1 0 0).get 0x5040 2 = s.get 0x5040 2 := by
    rw [State.raiseTick_get, State.put_get_other _ _ _ _ (by decide)]
  unfold State.fence State.stopProgram
  rw [hrun]
  split
  · exact ⟨hsame.trans ⟨rfl, rfl, rfl, rfl⟩, rfl, rfl, hget, hget2, ⟨r, hr, hcode⟩, fun _ => rfl⟩
  next hidle => exact ⟨hsame.trans ⟨rfl, rfl, rfl, rfl⟩, rfl, rfl, hget, hget2, ⟨r, hr, hcode⟩, fun h => absurd h hidle⟩

/-- Without a new erasure a fill goes on (R331). -/
theorem State.restartFill_same {s : State} {before : List Nat} (h : s.erased = before) : s.restartFill before = s := by
  refine if_neg ?_
  rw [h]
  simp

/-- CENSUS_CLOSE of an open census: what it leaves, whatever the module does next. -/
structure ClosesCensus (s t : State) : Prop where
  sameMember : SameMember s t
  bitmap : t.fabric.bitmap = s.fabric.bitmap
  census : t.fabric.census = none
  reached : t.get 0x5040 2 = s.reached.length % 65536
  mem : t.mem = s.mem

theorem State.closeCensus_closes (s : State) : ClosesCensus s s.closeCensus :=
  ⟨s.closeCensus_sameMember, rfl, rfl, State.put_get_same _ _ _ _, rfl⟩

theorem ClosesCensus.fence {s t : State} (h : ClosesCensus s t) : ClosesCensus s t.fence := by
  obtain ⟨hsame, hfabric, hmem, -, hget, -, -⟩ := t.fence_fences
  refine ⟨h.sameMember.trans hsame, ?_, ?_, ?_, ?_⟩
  · rw [hfabric, h.bitmap]
  · rw [hfabric, h.census]
  · rw [hget, h.reached]
  · rw [hmem, h.mem]

theorem ClosesCensus.sendOutcomes {s t : State} (h : ClosesCensus s t) : ClosesCensus s t.sendOutcomes := by
  obtain ⟨x, hemits, heq⟩ := t.sendOutcomes_awaits
  rw [heq]
  refine ⟨(h.sameMember.trans (SameMember.ofEmits hemits)).trans ⟨rfl, rfl, rfl, rfl⟩, ?_, ?_, ?_, ?_⟩
  · rw [hemits.state]
    exact h.bitmap
  · rw [hemits.state]
    exact h.census
  · refine (hemits.get 0x5040 2 fun p hp => by simp only [objKey]; omega).trans h.reached
  · exact hemits.mem.trans h.mem

theorem censusClose_leaves {s : State} (h : s.fabric.census.isSome = true) : ClosesCensus s (censusClose s) := by
  rw [censusClose_closes h]
  have hcloses := s.closeCensus_closes
  split
  · split
    · exact hcloses.sendOutcomes
    · exact hcloses
  · exact hcloses.fence

/-- Settles O31: HEARTBEAT, HEARTBEAT_LOST, CENSUS and CENSUS_CLOSE. -/
theorem heartbeatsAndCensuses : Obligations.HeartbeatsAndCensuses := by
  unfold Obligations.HeartbeatsAndCensuses
  refine ⟨⟨fun p raw s t f h => ⟨fun hnext hprev => ?stranger, fun hnext hprev => ?next, fun hnext hprev => ?prev,
      fun hnext hprev => ?both⟩, fun s => ⟨fun hgone => ?lost, fun hthere => ?there⟩⟩,
    fun p raw s t f h => ⟨fun hhigher => ?joins, fun hnumber hopen => ?merges, fun hold => ?old⟩,
    fun s => ⟨fun hnone => ?closed, fun hopen => ?closes⟩⟩
  case stranger =>
    have heq := takeHeartbeat_eq p (f := f) (s := t) (beq_false_of_ne hnext) (beq_false_of_ne hprev)
    exact congrArg Host.Outcome.next ((receive_arrives takeHeartbeat h).trans heq)
  case next =>
    have heq := takeHeartbeat_eq p (f := f) (s := t) (beq_iff_eq.2 hnext) (beq_false_of_ne hprev)
    exact ⟨_, congrArg Host.Outcome.next ((receive_arrives takeHeartbeat h).trans heq), rfl, rfl, State.put_get_same _ _ _ _, rfl⟩
  case prev =>
    have heq := takeHeartbeat_eq p (f := f) (s := t) (beq_false_of_ne hnext) (beq_iff_eq.2 hprev)
    exact ⟨_, congrArg Host.Outcome.next ((receive_arrives takeHeartbeat h).trans heq), rfl, rfl, State.put_get_same _ _ _ _, rfl⟩
  case both =>
    have heq := takeHeartbeat_eq p (f := f) (s := t) (beq_iff_eq.2 hnext) (beq_iff_eq.2 hprev)
    exact ⟨_, congrArg Host.Outcome.next ((receive_arrives takeHeartbeat h).trans heq), rfl, rfl, State.put_get_same _ _ _ _⟩
  case lost =>
    obtain ⟨⟨r, hr, hcode⟩, hraised, hget, hclock, hmem⟩ := s.noteLoss_reports
    obtain ⟨hnumber, hcensus, -, hlost, hfaults, hmem'⟩ := s.noteLoss.joinCensus_joins (s.noteLoss.get 0x5040 1 + 1) []
    refine ⟨_, r, congrArg Host.Outcome.next (heartbeatLost_opens hgone), ?_, ?_, ?_, ?_, hcode, ?_⟩
    · rw [hlost, hraised]
    · rw [hcensus, hclock]
    · rw [hnumber, hget]
    · rw [hfaults, hr]
    · rw [hmem', hmem]
  case there =>
    exact congrArg Host.Outcome.next (if_neg (by rw [hthere]; decide))
  case joins =>
    obtain ⟨hnumber, hcensus, hbitmap, -, -, hmem⟩ := t.joinCensus_joins (bits f.addr 15 0)
      (censusMembers (bits f.addr 17 16) f.payload)
    refine ⟨_, congrArg Host.Outcome.next ((receive_arrives takeCensus h).trans (takeCensus_joins hhigher)), ?_, hcensus, hmem,
      fun m => ?_⟩
    · rw [hnumber, bits]
      omega
    · rw [hbitmap, State.mem_joinedBitmap_iff]
  case merges =>
    obtain ⟨hcensus, hmem, hbitmap⟩ := takeCensus_merges (p := p) hnumber hopen
    refine ⟨_, congrArg Host.Outcome.next (receive_arrives takeCensus h), hcensus, hmem, fun m => ?_⟩
    rw [hbitmap, mem_foldl_insertNat]
  case old => exact congrArg Host.Outcome.next ((receive_arrives takeCensus h).trans (takeCensus_ignores hold))
  case closed =>
    refine congrArg Host.Outcome.next ?_
    have hsame : censusClose s = s := if_neg (by rw [hnone]; decide)
    rw [hsame, State.restartFill_same rfl]
  case closes =>
    have hleaves := censusClose_leaves hopen
    have hcloses := censusClose_closes hopen
    have hexec : exec .censusClose s = .next (censusClose s) :=
      congrArg Host.Outcome.next (State.restartFill_same (hleaves.sameMember.erased hleaves.bitmap))
    refine ⟨_, hexec, hleaves.census, hleaves.reached, hleaves.mem, fun hstops => ?_, fun hgoes htraining => ?_, fun hgoes hidle => ?_⟩
    · rw [hcloses, if_neg (by rw [hstops]; decide)]
      obtain ⟨-, -, -, hfenced, -, ⟨r, hr, hcode⟩, hstopping⟩ := s.closeCensus.fence_fences
      refine ⟨r, hfenced, hr, hcode, fun hrun => hstopping ?_⟩
      rw [State.running, State.status, State.closeCensus, State.put_get_other _ _ _ _ (by decide)]
      exact hrun
    · rw [hcloses, if_pos hgoes, if_pos htraining]
      obtain ⟨x, hemits, heq⟩ := s.closeCensus.sendOutcomes_awaits
      rw [heq]
      refine ⟨rfl, ?_⟩
      have hmodule : s.closeCensus.moduleId = s.moduleId := s.closeCensus_sameMember.moduleId
      have houtcome : s.closeCensus.outcome = s.outcome := by
        rw [State.outcome, State.commitState, State.closeCensus, State.put_get_other _ _ _ _ (by decide)]
        rfl
      rw [hmodule, houtcome]
    · rw [hcloses, if_pos hgoes, if_neg (by rw [hidle]; decide)]
      exact ⟨rfl, rfl⟩

end Sys2Proof.Machine
end

section
/-! The fill of a member: what a source serves and where fill data lands (R330). -/

namespace Sys2Proof.Machine

open Sys2Proof.Safety

/-! ### Requests that are served -/

/-- From `s` to `t` requests have joined those that wait at the stacks; nothing else changes. -/
structure Asks (s t : State) : Prop where
  state : t = { s with traffic := t.traffic }
  kept : ∀ k, ∀ r ∈ kget [] s.traffic.requests k, r ∈ kget [] t.traffic.requests k

namespace Asks

variable {s t u : State}

theorem refl (s : State) : Asks s s := ⟨rfl, fun _ _ h => h⟩

theorem trans (h : Asks s t) (k : Asks t u) : Asks s u :=
  ⟨by rw [k.state, h.state], fun n r hr => k.kept n r (h.kept n r hr)⟩

theorem foldl {α : Type} {f : State → α → State} (hf : ∀ x a, Asks x (f x a)) (l : List α) (s : State) : Asks s (l.foldl f s) := by
  induction l generalizing s with
  | nil => exact refl s
  | cons a t ih => exact (hf s a).trans (ih (f s a))

theorem ask (s : State) (r : StackRequest) : Asks s (s.ask r) := by
  refine ⟨rfl, fun k q hq => ?_⟩
  simp only [State.ask, State.setTraffic]
  by_cases hk : k = r.stack * 8 + r.packet.cls
  · subst hk
    rw [kget_kset_same]
    exact List.mem_append_left _ hq
  · rw [kget_kset_other _ _ _ hk]
    exact hq

end Asks

/-- A request that joins stands in the queue of its stack and class. -/
theorem State.ask_asked (s : State) (r : StackRequest) : r ∈ kget [] (s.ask r).traffic.requests (r.stack * 8 + r.packet.cls) := by
  simp only [State.ask, State.setTraffic, kget_kset_same]
  simp

/-- Requests asked one after another all stand in their queues. -/
theorem asked_of_mem {α : Type} {req : State → α → StackRequest} {l : List α} {a : α} (ha : a ∈ l) (s : State) :
    ∃ x k, req x a ∈ kget [] (l.foldl (fun s a => s.ask (req s a)) s).traffic.requests k := by
  induction l generalizing s with
  | nil => cases ha
  | cons b l ih =>
    rcases List.mem_cons.1 ha with rfl | ha
    · exact ⟨s, _, (Asks.foldl (fun x c => Asks.ask x (req x c)) l _).kept _ _ (s.ask_asked (req s a))⟩
    · exact ih ha _

/-- The first byte that a FILL_REQ asks for, in a tensor. -/
def fillBase (d : Nat) (f : Flit) : Nat := tensorBase d + 512 * bits (leNat f.payload) 63 32

/-- Part `j` of the blocks of a FILL_REQ: 228 bytes, read for the source of the flit (R330). -/
def fillRequest (d : Nat) (f : Flit) (s : State) (j : Nat) : StackRequest where
  ask := .read (fillBase d f + 228 * j) (min 228 (512 * bits (leNat f.payload) 95 64 - 228 * j)) 0 0
  packet := { s.packet (0x40 + stackOf (fillBase d f)) 0 2 (addressDie (fillBase d f + 228 * j)) (addressDie (fillBase d f)) [] false
    (.fillData f.src (bits (leNat f.payload) 127 96) (512 * bits (leNat f.payload) 63 32 + 228 * j)) with own := false }

/-- A source asks the stacks for every part (R330). -/
theorem takeFillReq_serves {p d : Nat} {f : Flit} {s : State} (hstate : s.commitState = 5 ∨ s.commitState = 7)
    (hd : s.tensorDesc (bits (leNat f.payload) 31 0) = some d) : takeFillReq p f s =
      (List.range (cdiv (512 * bits (leNat f.payload) 95 64) 228)).foldl (fun s j => s.ask (fillRequest d f s j)) s := by
  have hserves : ¬(!(s.commitState == 5 || s.commitState == 7)) = true := by
    rcases hstate with h | h <;> simp [h]
  simp only [takeFillReq, hd, if_neg hserves]
  rfl

theorem Asks.takeFillReq (p : Nat) (f : Flit) (s : State) : Asks s (takeFillReq p f s) := by
  cases hd : s.tensorDesc (bits (leNat f.payload) 31 0) with
  | none =>
    simp only [Machine.takeFillReq, hd]
    exact refl s
  | some d =>
    by_cases hstate : s.commitState = 5 ∨ s.commitState = 7
    · rw [takeFillReq_serves hstate hd]
      exact foldl (fun x j => ask x _) _ s
    · have hidle : (!(s.commitState == 5 || s.commitState == 7)) = true := by simpa using hstate
      simp only [Machine.takeFillReq, hd, if_pos hidle]
      exact refl s

theorem Emits.takeLocketReq (p : Nat) (f : Flit) (s : State) : Emits s (takeLocketReq p f s) := by
  unfold Machine.takeLocketReq
  extract_lets m
  clear_value m
  cases m with
  | some r => exact Emits.sendRecord s _ _ _ _
  | none => exact Emits.refl s

/-! ### Fill data that lands -/

theorem State.writeThrough_commit (s : State) (ctx a : Nat) (bytes : List Byte) (p : Bool) :
    (s.writeThrough ctx a bytes p).commit = s.commit := by
  unfold State.writeThrough
  rw [(Stores.hbmWrite _ _ _ _).commit, (Notes.foldl (fun x b => Notes.touchWrite x ctx b 0 0 _) _ s).commit]

/-- Where FILL_DATA lands in its tensor. -/
def fillPlace (d : Nat) (f : Flit) : Nat := tensorBase d + 4 * bits (leNat (f.payload.take 8)) 63 32

/-- The bytes that FILL_DATA leaves at its place: its own, or combined with those there by the coefficient of its source (R330). -/
def State.fillBytes (s : State) (x : Fill) (d : Nat) (f : Flit) : List Byte :=
  if x.coef = 0 then f.payload.drop 8
  else combine 7 (BitVec.ofNat 8 x.coef) (s.hbmRead (fillPlace d f) (f.payload.drop 8).length) (f.payload.drop 8)

theorem State.fillBytes_length (s : State) (x : Fill) (d : Nat) (f : Flit) :
    (s.fillBytes x d f).length = (f.payload.drop 8).length := by
  unfold State.fillBytes
  split
  · rfl
  · have hread : (s.hbmRead (fillPlace d f) (f.payload.drop 8).length).length = (f.payload.drop 8).length := Mem.readN_length _ _ _
    simp only [combine, List.length_map, List.length_zip, hread, Nat.min_self]

/-- The write of FILL_DATA: plain, or of the bytes there combined with those that come (R330). -/
def State.fillWrite (s : State) (x : Fill) (a : Nat) (f : Flit) : State :=
  if x.coef = 0 then s.writeThrough 0 a (f.payload.drop 8) f.poison
  else
    let old := s.readThrough (0x40 + stackOf a) 0 a (f.payload.drop 8).length
    old.1.writeThrough 0 a (combine 7 (BitVec.ofNat 8 x.coef) old.2.1 (f.payload.drop 8)) (f.poison || old.2.2)

/-- FILL_DATA of a request that is out is written at its place, and counts as done (R330). -/
theorem takeFillData_eq {p d : Nat} {f : Flit} {x : Fill} {s : State}
    (hx : (s.commit.fills.find? fun x => x.source == f.src && x.dest == bits (leNat (f.payload.take 8)) 31 0) = some x)
    (hd : s.tensorDesc (bits (leNat (f.payload.take 8)) 31 0) = some d) : ∃ c : Commit,
    takeFillData p f s = ({ s.fillWrite x (fillPlace d f) f with commit := c } : State).fillProgress ∧
      c.fillDone = (s.fillWrite x (fillPlace d f) f).commit.fillDone + (f.payload.drop 8).length := by
  unfold takeFillData
  simp only [hx, hd]
  exact ⟨_, rfl, rfl⟩

/-- The write leaves its bytes at the place, and nothing of the commit unit or the records changes. -/
theorem State.fillWrite_writes (s : State) (x : Fill) (d : Nat) (f : Flit) :
    (s.fillWrite x (fillPlace d f) f).mem.hbm = s.mem.hbm.writeN (fillPlace d f) (s.fillBytes x d f) ∧
      (s.fillWrite x (fillPlace d f) f).commit = s.commit ∧ (s.fillWrite x (fillPlace d f) f).locket = s.locket := by
  unfold State.fillWrite State.fillBytes
  split
  · exact ⟨State.writeThrough_hbm _ _ _ _ _, State.writeThrough_commit _ _ _ _ _, (SameRecords.writeThrough _ _ _ _ _).1⟩
  · extract_lets old
    have hread : Notes s old.1 := Notes.readThrough s _ _ _ _
    refine ⟨?_, ?_, ?_⟩
    · rw [State.writeThrough_hbm, hread.hbm]
      rfl
    · rw [State.writeThrough_commit, hread.commit]
    · rw [(SameRecords.writeThrough _ _ _ _ _).1, hread.locket]

theorem takeFillData_lands {p d : Nat} {f : Flit} {x : Fill} {s : State}
    (hx : (s.commit.fills.find? fun x => x.source == f.src && x.dest == bits (leNat (f.payload.take 8)) 31 0) = some x)
    (hd : s.tensorDesc (bits (leNat (f.payload.take 8)) 31 0) = some d) :
    (takeFillData p f s).mem.hbm = s.mem.hbm.writeN (fillPlace d f) (s.fillBytes x d f) ∧
      (takeFillData p f s).commit.fillDone = s.commit.fillDone + (f.payload.drop 8).length ∧
      (takeFillData p f s).locket = s.locket := by
  obtain ⟨c, heq, hdone⟩ := takeFillData_eq (p := p) hx hd
  obtain ⟨hhbm, hcommit, hlocket⟩ := s.fillWrite_writes x d f
  rw [heq]
  refine ⟨?_, ?_, ?_⟩
  · rw [State.fillProgress, State.put_mem]
    exact hhbm
  · rw [State.fillProgress, State.put_commit]
    exact hdone.trans (by rw [hcommit])
  · rw [State.fillProgress, State.put_locket]
    exact hlocket

/-- Settles O39: FILL_REQ, LOCKET_REQ and FILL_DATA. -/
theorem fillServesAndLands : Obligations.FillServesAndLands := by
  unfold Obligations.FillServesAndLands
  refine ⟨fun p raw s t f c k hc h => ?served, fun p raw s t f d h hstate hd => ?asks, fun p raw s t f x d h hx hd => ?lands⟩
  case served =>
    simp only [List.mem_cons, Prod.mk.injEq, List.not_mem_nil, or_false] at hc
    obtain ⟨rfl, rfl⟩ | ⟨rfl, rfl⟩ := hc
    · have hasks := Asks.takeFillReq p f t
      refine ⟨_, congrArg Host.Outcome.next (receive_arrives takeFillReq h), ?_, ?_, ?_, ?_⟩ <;> rw [hasks.state]
    · have hemits := Emits.takeLocketReq p f t
      exact ⟨_, congrArg Host.Outcome.next (receive_arrives takeLocketReq h), hemits.mem, hemits.locket, hemits.commit, hemits.units⟩
  case asks =>
    refine ⟨_, congrArg Host.Outcome.next ((receive_arrives takeFillReq h).trans (takeFillReq_serves hstate hd)), fun j hj => ?_⟩
    obtain ⟨x, k, hasked⟩ := asked_of_mem (req := fillRequest d f) (List.mem_range.2 hj) t
    exact ⟨k, (fillRequest d f x j).packet, rfl, hasked⟩
  case lands =>
    obtain ⟨hhbm, hdone, hlocket⟩ := takeFillData_lands (p := p) hx hd
    refine ⟨_, congrArg Host.Outcome.next (receive_arrives takeFillData h), ?_, fun a ha => ?_, hdone, hlocket⟩
    · have hlength := t.fillBytes_length x d f
      have hsame := Mem.readN_writeN_same t.mem.hbm (fillPlace d f) (t.fillBytes x d f)
      rw [hlength] at hsame
      rw [State.hbmRead, hhbm]
      exact hsame
    · rw [hhbm]
      exact Mem.read_writeN_outside _ _ _ (by rwa [State.fillBytes_length])

end Sys2Proof.Machine
end

section
/-! Two statements that fail at addresses no stack has: the slice counters of such an address are the objects of another chapter
(R261, R283, R327). -/

namespace Sys2Proof.Machine

open Sys2Proof.Safety

/-- A read or write that misses at address `a` counts in object 0x4019 under subindex `a / 2^37 + 1`; an address far beyond the
twelve stacks counts in the object with the given key. -/
def aliasAddress (key : Nat) : Nat := (key - objKey 0x4019 1) * 2 ^ 37

/-! ### The switch of the routing banks -/

/-- A descriptor directory with one tensor descriptor, of one byte at an address whose counter is object 0x5012.02. -/
def strayTensor : Mem :=
  Mem.writeN {} 0 (leBytes 64 (64 + 2 ^ 64) ++ leBytes 64 (aliasAddress (objKey 0x5012 2) * 2 ^ 64 + 2 ^ 128))

/-- A switch is pending to a bank that has the module fill, and the tensor that the fill clears lies at that address. -/
def switchingToFill : State := { State.reset with
  mem := { State.reset.mem with hbm := strayTensor }
  fabric := { State.reset.fabric with switchAt := some 0, bank1 := { members := [0x1FFF] } } }

theorem switchingToFill_switches :
    (switchingToFill.fabric.switchAt.isSome = true ∧ switchingToFill.inactiveBank.ok switchingToFill.moduleId = true) ∧
      switchingToFill.get 0x5012 2 = 0 ∧ (routingBankSwitch switchingToFill).get 0x5012 2 = 2 := by decide +kernel

/-- Refutes O32: the banks exchange, and the member then enters FILL; the clear of a tensor whose base lies beyond every stack counts
the miss in object 0x5012.02, which then reads 2 and not 1. -/
theorem not_bankSwitchIsChecked : ¬ Obligations.BankSwitchIsChecked := by
  unfold Obligations.BankSwitchIsChecked
  intro h
  obtain ⟨⟨hpending, hok⟩, hbefore, hafter⟩ := switchingToFill_switches
  obtain ⟨t, hexec, hbank, -⟩ := (h switchingToFill).2.1 hpending hok
  have ht : routingBankSwitch switchingToFill = t := Host.Outcome.next.inj hexec
  rw [← ht, hafter, hbefore] at hbank
  cases hbank

/-! ### The revert -/

/-- An aborting member whose revert log names one byte at an address whose counter is object 0x8020.02, the commit state. -/
def revertingStray : State := { State.reset with
  dict := [(objKey 0x8020 2, 4)]
  mem := { State.reset.mem with
    revert := [(0, [{ tensor := 0, base := aliasAddress (objKey 0x8020 2), length := 1, record := some 0 }])] } }

theorem revertingStray_reverts :
    (revertingStray.commitState = 4 ∧ revertingStray.commit.reverting = false ∧ revertingStray.stepWork = false) ∧
      (revertStart revertingStray).commitState = 5 := by decide +kernel

/-- Refutes O37: the revert rewrites a range of the log beyond every stack, which counts the miss in object 0x8020.02: the commit
state goes from 4 to 5. -/
theorem not_revertsAndRestarts : ¬ Obligations.RevertsAndRestarts := by
  unfold Obligations.RevertsAndRestarts
  intro h
  obtain ⟨⟨hstate, hidle, hwork⟩, hafter⟩ := revertingStray_reverts
  obtain ⟨t, hexec, -, -, -, -, -, -, hkept, -⟩ := h.1.1 revertingStray (.inl hstate) hidle hwork
  have ht : revertStart revertingStray = t := Host.Outcome.next.inj hexec
  rw [← ht, hafter, hstate] at hkept
  cases hkept

end Sys2Proof.Machine
end

section
/-! Writes of objects: the rights they need, the rules of a register write, and the objects that set one thing (R387, R391, R396). -/

namespace Sys2Proof.Machine

open Sys2Proof.Safety

/-! ### The right to write -/

/-- A command is a write of one object: a server that does not answer leaves it without effect, and one the role may not make is
only counted (R388, R396, R398). -/
def NeedsRight (role : Role) (c : Instr) (index sub : Nat) : Prop :=
  ∀ s : State, (s.serves = false → exec c s = .next s) ∧
    (s.serves = true → s.writeStatus role index sub ≠ 0 → exec c s = .next (s.counted (s.writeStatus role index sub)))

theorem NeedsRight.of_byRole {role : Role} {c : Instr} {index sub : Nat} (f : State → State × Nat)
    (h : ∀ s, exec c s = .next (s.byRole role index sub f)) : NeedsRight role c index sub := by
  intro s
  rw [h s, State.byRole]
  constructor
  · intro hserves
    simp [hserves]
  · intro hserves hstatus
    simp [hserves, hstatus]

/-- A write of a settings key is refused as any other write is; only its answer OK comes later (R390). -/
theorem NeedsRight.of_settings {role : Role} {c : Instr} {sub v : Nat} (f : Nat → State → State × Nat)
    (h : ∀ s, exec c s = .next (s.settingsCommand role sub v f)) : NeedsRight role c 0x1010 sub := by
  intro s
  rw [h s, State.settingsCommand]
  constructor
  · intro hserves
    simp [hserves]
  · intro hserves hstatus
    simp [hserves, hstatus]

theorem registerWrite_needsRight (role : Role) (index sub type : Nat) (bytes : List Byte) :
    NeedsRight role (.registerWrite role index sub type bytes) index sub := by
  by_cases hindex : index = 0x1010
  · subst hindex
    exact .of_settings (v := leNat bytes) (fun _ s => s.register 0x1010 sub type bytes) fun _ => rfl
  · refine .of_byRole (fun s => s.register index sub type bytes) fun s => ?_
    exact congrArg Host.Outcome.next (if_neg hindex)

theorem objectWrites_needRight (role : Role) (v : Nat) (bytes : List Byte) :
    ∀ x ∈ objectWrites role v bytes, NeedsRight role x.1 x.2.1 x.2.2 := by
  simp only [objectWrites, List.forall_mem_cons]
  and_intros
  on_goal 9 => exact .of_settings storeSettings fun _ => rfl
  on_goal 9 => exact .of_settings restoreDefaults fun _ => rfl
  on_goal 34 => exact List.forall_mem_nil _
  all_goals exact .of_byRole _ fun _ => rfl

/-! ### The values -/

/-- A number too long for its object is refused with LENGTH (R387). -/
theorem State.command_long {s : State} {role : Role} {index sub v : Nat} (f : Nat → State → State × Nat)
    (h : MayWrite s role index sub) (hv : objLimit index sub ≤ v) : s.command role index sub v f = s.counted 8 := by
  rw [State.command, State.byRole_may _ h, if_neg (by omega)]

/-- A command that writes the number `v` to an object. -/
def RefusesLong (s : State) (role : Role) (v : Nat) (c : Instr) (index sub : Nat) : Prop :=
  MayWrite s role index sub → objLimit index sub ≤ v → exec c s = .next (s.counted 8)

theorem RefusesLong.of_command {s : State} {role : Role} {v : Nat} {c : Instr} {index sub : Nat}
    (f : Nat → State → State × Nat) (h : exec c s = .next (s.command role index sub v f)) : RefusesLong s role v c index sub :=
  fun hmay hv => h.trans (congrArg Host.Outcome.next (State.command_long f hmay hv))

theorem numberWrites_refuseLong (role : Role) (v : Nat) (s : State) :
    ∀ x ∈ [(Instr.syncTrackingArm role v, 0x6002, 1), (.clearFirstFault role v, 0x3001, 3),
      (.dumpRequest role v, 0x3060, 1), (.maintenanceMode role v, 0x9001, 1), (.holdStep role v, 0x9002, 1),
      (.metadataAddress role v, 0x4044, 1), (.portRestore role v, 0x5025, 1), (.resolve role v, 0x8020, 3),
      (.exportStep role v, 0x8050, 1)], RefusesLong s role v x.1 x.2.1 x.2.2 := by
  simp only [List.forall_mem_cons]
  and_intros
  on_goal 10 => exact List.forall_mem_nil _
  all_goals exact .of_command _ rfl

/-! ### A register write -/

theorem exec_registerWrite {role : Role} {index sub type : Nat} {value : List Byte} {s : State} (hindex : index ≠ 0x1010)
    (h : MayWrite s role index sub) :
    exec (.registerWrite role index sub type value) s =
      .next ((s.register index sub type value).1.counted (s.register index sub type value).2) :=
  congrArg Host.Outcome.next ((if_neg hindex).trans (State.byRole_may _ h))

theorem State.register_type {s : State} {index sub type : Nat} {value : List Byte} (h : type ≠ objType index sub) :
    s.register index sub type value = (s, 8) := if_pos h

theorem State.register_length {s : State} {index sub : Nat} {value : List Byte} (hn : typeLen (objType index sub) ≠ 0)
    (hlen : value.length ≠ typeLen (objType index sub)) : s.register index sub (objType index sub) value = (s, 8) := by
  simp [State.register, State.store, hn, hlen]

/-- A number of its type's length goes to the object's rule, where the object has no behaviour of its own (R391). -/
theorem State.register_number {s : State} {index sub : Nat} {value : List Byte} (hn : typeLen (objType index sub) ≠ 0)
    (hlen : value.length = typeLen (objType index sub)) (hplain : numberBehaviour index sub = none) :
    s.register index sub (objType index sub) value =
      if s.valueOk index sub (leNat value) then (s.putNumber index sub (leNat value), 0) else (s, 7) := by
  simp [State.register, State.store, hn, hlen, hplain]

theorem State.putNumber_plain {s : State} {index sub v : Nat} (hrates : index ≠ 0x1003) (htags : index ≠ 0x5011) :
    s.putNumber index sub v = s.put index sub v := by
  unfold State.putNumber
  split
  · contradiction
  · contradiction
  · rfl

/-- Settles O44: the right to write, the number that is too long, and the rules of a register write. -/
theorem writesKeepTheRules : Obligations.WritesKeepTheRules := by
  unfold Obligations.WritesKeepTheRules
  refine ⟨fun role v type index sub bytes s => ⟨fun c i u hc => ?_, fun c i u hc => numberWrites_refuseLong role v s _ hc⟩,
    fun role index sub type value s hindex hmay => ⟨fun htype => ?type, ?length, ?refused, ?accepted⟩⟩
  · obtain hc | hc := List.mem_cons.1 hc
    · cases hc
      exact registerWrite_needsRight role index sub type bytes s
    · exact objectWrites_needRight role v bytes _ hc s
  all_goals rw [exec_registerWrite hindex hmay]
  case type => rw [State.register_type htype]
  case length =>
    rintro rfl hn hlen
    rw [State.register_length hn hlen]
  case refused =>
    rintro rfl hn hlen hplain hok
    rw [State.register_number hn hlen hplain, if_neg (by rw [hok]; decide)]
  case accepted =>
    rintro rfl hn hlen hplain hok hrates htags
    rw [State.register_number hn hlen hplain, if_pos hok, State.putNumber_plain hrates htags]

/-! ### The objects that set one thing -/

/-- A command that writes a number of the object's type does what the object's rule says, and its answer is counted. -/
theorem exec_command {c : Instr} {s : State} {role : Role} {index sub v : Nat} {f : Nat → State → State × Nat}
    (hexec : exec c s = .next (s.command role index sub v f)) (h : MayWrite s role index sub) (hv : v < objLimit index sub)
    {t : State} {status : Nat} (hf : f v s = (t, status)) : exec c s = .next (t.counted status) := by
  rw [hexec, State.command_may f h hv, hf]

theorem State.counted_get_other (s : State) (status : Nat) {index sub : Nat} (h1 : objKey index sub ≠ objKey 0x1004 1)
    (h2 : objKey index sub ≠ objKey 0x1004 2) : (s.counted status).get index sub = s.get index sub := by
  unfold State.counted State.countIf
  split
  · rw [State.count, State.put_get_other _ _ _ _ h2, State.count, State.put_get_other _ _ _ _ h1]
  · rw [State.count, State.put_get_other _ _ _ _ h1]

/-- The metadata of a block are read from the memory alone. -/
theorem State.put_counted_blockMetadata (s : State) (index sub v b : Nat) :
    ((s.put index sub v).counted 0).blockMetadata b = s.blockMetadata b := rfl

/-- An address with the bit that names it reads as the address. -/
theorem bits_named {a : Nat} (h : a < 2 ^ 41) : bit (a + 2 ^ 63) 63 = true ∧ bits (a + 2 ^ 63) 40 0 = a := by
  constructor
  · rw [bit, Nat.add_comm, Nat.testBit_two_pow_add_eq, Nat.testBit_lt_two_pow (h.trans (by decide)), Bool.not_false]
  · simp only [bits]
    omega

theorem State.namedMetadata_named (s : State) {a : Nat} (h : a < 2 ^ 41) :
    ((s.put 0x4044 1 (a + 2 ^ 63)).counted 0).namedMetadata = s.blockMetadata (a / 512) := by
  obtain ⟨hbit, hbits⟩ := bits_named h
  rw [State.namedMetadata, State.counted_get_other _ _ (by decide) (by decide), State.put_get_same, if_pos hbit, hbits,
    State.put_counted_blockMetadata]

/-- A dump that a slot holds is marked as harvested (R363). -/
theorem harvestDump_held {k : Nat} {s : State} {x : List Byte × Nat × Nat} (hk : k < 3) (hx : s.faults.dumps[k]? = some x)
    (hheld : x.2.1 ≠ 0) : harvestDump k s =
      ({ s with faults := { s.faults with dumps := s.faults.dumps.set k (x.1, 2, x.2.2) } }, 0) := by
  have hget : s.faults.dumps.getD k ([], 0, 0) = x := by rw [List.getD_eq_getElem?_getD, hx]; rfl
  simp only [harvestDump, hget, if_neg hheld, if_neg (show ¬3 ≤ k by omega)]

/-! What one write does, object by object. -/

theorem exec_syncTrackingArm {role : Role} {s : State} (h : MayWrite s role 0x6002 1) :
    exec (.syncTrackingArm role 1) s = .next ((armTracking 1 s).1.counted (armTracking 1 s).2) :=
  exec_command (f := asBool armTracking) rfl h (by decide +kernel) rfl

theorem exec_clearFirstFault {role : Role} {s : State} (h : MayWrite s role 0x3001 3) :
    exec (.clearFirstFault role 1) s =
      .next (({ s with faults := { s.faults with record := none, overflow := false } } : State).counted 0) :=
  exec_command (f := asBool clearFault) rfl h (by decide +kernel) rfl

theorem exec_dumpHarvested {role : Role} {k : Nat} {s : State} {x : List Byte × Nat × Nat} (h : MayWrite s role 0x3060 5)
    (hk : k < 3) (hx : s.faults.dumps[k]? = some x) (hheld : x.2.1 ≠ 0) :
    exec (.dumpHarvested role k) s =
      .next (({ s with faults := { s.faults with dumps := s.faults.dumps.set k (x.1, 2, x.2.2) } } : State).counted 0) :=
  exec_command rfl h (hk.trans (by decide +kernel)) (harvestDump_held hk hx hheld)

theorem exec_holdStep {role : Role} {v : Nat} {s : State} (h : MayWrite s role 0x9002 1) (hv : v < 2 ^ 64) :
    exec (.holdStep role v) s = .next (({ s with commit := { s.commit with holdAt := some v } } : State).counted 0) :=
  exec_command rfl h (hv.trans_eq (by decide +kernel)) rfl

theorem exec_holdRelease {role : Role} {s : State} (h : MayWrite s role 0x9002 2) :
    exec (.holdRelease role 1) s =
      .next (({ s with commit := { s.commit with holdAt := none, holding := false } } : State).counted 0) :=
  exec_command (f := asBool holdRelease) rfl h (by decide +kernel) rfl

theorem exec_exportStep {role : Role} {v : Nat} {s : State} (h : MayWrite s role 0x8050 1) (hv : v < 2 ^ 64) :
    exec (.exportStep role v) s =
      .next ((({ s with commit := { s.commit with exportAt := some v } } : State).put 0x8050 2 1).counted 0) :=
  exec_command rfl h (hv.trans_eq (by decide +kernel)) rfl

theorem exec_exportDone {role : Role} {s : State} (h : MayWrite s role 0x8050 3) :
    exec (.exportDone role 1) s = .next ((exportDone 1 s).1.counted (exportDone 1 s).2) :=
  exec_command (f := asBool exportDone) rfl h (by decide +kernel) rfl

theorem exec_portRestore {role : Role} {p : Nat} {s : State} (h : MayWrite s role 0x5025 1) (hp : p ≤ 16) :
    exec (.portRestore role p) s = .next ((restorePort p s).1.counted (restorePort p s).2) :=
  exec_command rfl h ((show p < 17 by omega).trans (by decide +kernel)) rfl

theorem exec_configurationSwitchStep {role : Role} {v : Nat} {s : State} (h : MayWrite s role 0x5012 1)
    (hv : v < objLimit 0x5012 1) : exec (.configurationSwitchStep role v) s =
      .next (({ s.put 0x5012 3 1 with fabric := { s.fabric with switchAt := some v } } : State).counted 0) :=
  exec_command rfl h hv rfl

theorem exec_fenceRelease {role : Role} {s : State} (h : MayWrite s role 0x5040 3) :
    exec (.fenceRelease role 1) s = .next ((s.put 0x5040 5 0).counted 0) :=
  exec_command (f := asBool releaseFence) rfl h (by decide +kernel) rfl

theorem exec_metadataAddress {role : Role} {a : Nat} {s : State} (h : MayWrite s role 0x4044 1) (ha : a < 2 ^ 41)
    (hpop : populated a 1 = true) :
    exec (.metadataAddress role a) s = .next ((s.put 0x4044 1 (a + 2 ^ 63)).counted 0) :=
  exec_command rfl h (ha.trans (by decide +kernel)) (if_pos ⟨ha, hpop⟩)

theorem exec_translateAddress {role : Role} {a : Nat} {s : State} (h : MayWrite s role 0x4045 1) (ha : a < 2 ^ 41)
    (hpop : populated a 1 = true) :
    exec (.translateAddress role a) s = .next ((s.put 0x4045 2 (translation a)).counted 0) :=
  exec_command rfl h (ha.trans (by decide +kernel)) (if_pos ⟨ha, hpop⟩)

theorem armTracking_one (s : State) : armTracking 1 s =
    if s.program.tracked then ({ s with clock := { s.clock with arming := true } }, 0) else (s, 0) := by
  cases h : s.program.tracked <;> simp [armTracking, h]

theorem exportDone_one (s : State) : exportDone 1 s =
    if s.get 0x8050 2 = 2 then ({ s with commit := { s.commit with exportAt := none, exportRelease := true } }, 0)
    else (s, 7) := rfl

theorem restorePort_of_le {p : Nat} (hp : p ≤ 16) (s : State) : restorePort p s =
    if s.portState p = 2 ∨ s.portState p = 3 then (s.setPort p { s.port p with restoreAsked := true }, 0) else (s, 0) :=
  if_neg (by omega)

/-- Settles O49: each object by the rule of its write. -/
theorem controlWritesTakeEffect : Obligations.ControlWritesTakeEffect := by
  unfold Obligations.ControlWritesTakeEffect
  refine fun role s => ⟨fun hmay => ?arm, exec_clearFirstFault, fun k x hmay hk hx hheld => exec_dumpHarvested hmay hk hx hheld,
    fun v hmay hv => exec_holdStep hmay hv, exec_holdRelease, fun v hmay hv => exec_exportStep hmay hv, fun hmay => ?exporting,
    fun p hmay hp => ?restore, fun v hmay hv => exec_configurationSwitchStep hmay hv, exec_fenceRelease,
    fun a ha hpop => ⟨fun hmay => ⟨exec_metadataAddress hmay ha hpop, s.namedMetadata_named ha⟩,
      fun hmay => exec_translateAddress hmay ha hpop⟩⟩
  case arm =>
    rw [exec_syncTrackingArm hmay, armTracking_one]
    exact ⟨fun htracked => by rw [if_pos htracked], fun htracked => by rw [if_neg (by rw [htracked]; decide)]⟩
  case exporting =>
    rw [exec_exportDone hmay, exportDone_one]
    exact ⟨fun hheld => by rw [if_pos hheld], fun hheld => by rw [if_neg hheld]⟩
  case restore =>
    rw [exec_portRestore hmay hp, restorePort_of_le hp]
    exact ⟨fun hstate => by rw [if_pos hstate], fun h2 h3 => by rw [if_neg (not_or.2 ⟨h2, h3⟩)]⟩

end Sys2Proof.Machine
end

section
/-! START and STOP of a program (R33, R37, R45, R437). -/

namespace Sys2Proof.Machine

open Sys2Proof.Safety

/-! ### What the contexts of a START leave as it is -/

/-- Loading and stopping contexts changes cores, memories of their own, reports, the measurement log and object 0x6067, and nothing
that the program, the memories, the units, the commit or the records hold. -/
structure TakesContexts (s t : State) : Prop where
  program : t.program = s.program
  clock : t.clock = s.clock
  mem : t.mem = s.mem
  units : t.units = s.units
  arrays : t.arrays = s.arrays
  commit : t.commit = s.commit
  locket : t.locket = s.locket
  frequency : t.security.frequency = s.security.frequency
  get : ∀ index sub, objKey index sub / 256 ≠ 0x6067 → t.get index sub = s.get index sub

namespace TakesContexts

variable {s t u : State}

theorem refl (s : State) : TakesContexts s s := ⟨rfl, rfl, rfl, rfl, rfl, rfl, rfl, rfl, fun _ _ _ => rfl⟩

theorem trans (h : TakesContexts s t) (g : TakesContexts t u) : TakesContexts s u :=
  ⟨g.program.trans h.program, g.clock.trans h.clock, g.mem.trans h.mem, g.units.trans h.units, g.arrays.trans h.arrays,
    g.commit.trans h.commit, g.locket.trans h.locket, g.frequency.trans h.frequency,
    fun i j hk => (g.get i j hk).trans (h.get i j hk)⟩

theorem ite {c : Prop} [Decidable c] (h : TakesContexts s t) (g : TakesContexts s u) :
    TakesContexts s (if c then t else u) := by
  split <;> assumption

theorem foldl {α : Type} {f : State → α → State} (l : List α) (h : ∀ a ∈ l, ∀ s, TakesContexts s (f s a)) (s : State) :
    TakesContexts s (l.foldl f s) := by
  induction l generalizing s with
  | nil => exact refl s
  | cons a l ih =>
    exact (h a List.mem_cons_self s).trans (ih (fun b hb => h b (List.mem_cons_of_mem a hb)) (f s a))

theorem setCore (s : State) (k : Nat) (x : CoreState) : TakesContexts s (s.setCore k x) :=
  ⟨rfl, rfl, rfl, rfl, rfl, rfl, rfl, rfl, fun _ _ _ => rfl⟩

theorem setUctx (s : State) (c : Nat) (x : UserCtx) : TakesContexts s (s.setUctx c x) :=
  ⟨rfl, rfl, rfl, rfl, rfl, rfl, rfl, rfl, fun _ _ _ => rfl⟩

theorem measure (s : State) (type : Nat) (d : List Byte) : TakesContexts s (s.measure type d) :=
  ⟨rfl, rfl, rfl, rfl, rfl, rfl, rfl, rfl, fun _ _ _ => rfl⟩

theorem draw (s : State) : TakesContexts s s.draw.2 :=
  ⟨rfl, rfl, rfl, rfl, rfl, rfl, rfl, rfl, fun _ _ _ => rfl⟩

theorem raise (s : State) (code source die ctx detail : Nat) : TakesContexts s (s.raise code source die ctx detail) :=
  ⟨rfl, rfl, rfl, rfl, rfl, rfl, rfl, rfl, fun _ _ _ => rfl⟩

theorem setCtxState (s : State) {c : Nat} (hc : c < 255) (v : Nat) : TakesContexts s (s.setCtxState c v) := by
  refine ⟨rfl, rfl, rfl, rfl, rfl, rfl, rfl, rfl, fun index sub hk => s.put_get_other _ _ _ fun heq => hk ?_⟩
  rw [heq, objKey]
  omega

theorem switchCore (s : State) (k : Nat) : TakesContexts s (s.switchCore k) := setCore ..

theorem stopContext (s : State) {c : Nat} (hc : c < 255) (core state pc cause : Nat) :
    TakesContexts s (s.stopContext c core state pc cause) := by
  have hcores := (setCtxState s hc state).trans
    (foldl (((s.setCtxState c state).ctxCores c).filter fun k => ((s.setCtxState c state).core k).tctx == c)
      (fun k _ s => switchCore s k) _)
  exact .ite (hcores.trans (raise ..)) hcores

theorem loadContext (s : State) {c : Nat} (hc : c < 255) : TakesContexts s (s.loadContext c) := by
  unfold State.loadContext
  extract_lets a u t
  have ht : TakesContexts s t := setUctx ..
  exact .ite (ht.trans (setCtxState t hc 2)) ((ht.trans (draw t)).trans (stopContext _ hc ..))

theorem startContexts (s : State) : TakesContexts s s.startContexts := by
  unfold State.startContexts State.startCores
  refine trans (foldl userContexts (fun c hc s => ?_) s) (foldl _ (fun k _ s => setCore s k _) _)
  have hc : c < 255 := (show ∀ c ∈ userContexts, c < 255 by decide) c hc
  refine .ite ((setUctx s c {}).trans (setCtxState _ hc 0)) ?_
  exact ((measure s _ _).trans (setUctx _ c {})).trans (loadContext _ hc)

end TakesContexts

/-! ### START -/

theorem State.takeMaxima_eq (s : State) : ∃ d, s.takeMaxima = { s with power := { s.power with maxima := [] }, dict := d } := by
  suffices h : ∀ (l : List (Nat × Nat)) (t : State),
      ∃ d, l.foldl (fun (s : State) p => { s with dict := kset (objDefault p.1) s.dict p.1 p.2 }) t = { t with dict := d } from
    h s.power.maxima { s with power := { s.power with maxima := [] } }
  intro l
  induction l with
  | nil => exact fun t => ⟨t.dict, rfl⟩
  | cons p l ih => exact fun t => ih _

/-- What a START sets before it takes up the contexts. -/
def State.startSet (s : State) (tracking : Bool) : State :=
  let s := s.takeMaxima.freshLocket.freshCounters
  { s with
    commit := {}
    clock := { s.clock with tracking := tracking, placing := tracking, freeRun := false, arming := false, quiet := 0, syncPoint := none, tickIn := none }
    power := { s.power with learned := [] }
    mem := { s.mem with revert := [] }
    faults := { s.faults with replay := none, replayNext := none }
    security := { s.security with frequency := s.security.tables }
    fabric := { s.fabric with anchor := s.lowestLive }
    thallus := { s.thallus with stitching := [], late := false } }

theorem State.startAccepted_eq (s : State) (tracking : Bool) :
    s.startAccepted tracking = ((s.startSet tracking).startContexts.put 0x6010 3 1).put 0x6010 4 0 := rfl

/-- START opens no step and asks no unit: memories but the revert logs, units and arrays stay, and the program is the header's. -/
structure Starts (s t : State) (tracking : Bool) : Prop where
  program : t.program = s.program
  mem : t.mem = { s.mem with revert := [] }
  units : t.units = s.units
  arrays : t.arrays = s.arrays
  commit : t.commit = {}
  sealed : t.locket.ownSealed = {}
  frequency : t.security.frequency = s.security.tables
  tracking : t.clock.tracking = tracking
  frames : t.get 0x8021 1 = 0
  quarantine : t.get 0x3050 3 = 0

/-- Two states with the same everything but the values of objects. -/
def OnDict (s t : State) : Prop := ∃ d, t = { s with dict := d }

theorem OnDict.refl (s : State) : OnDict s s := ⟨s.dict, rfl⟩

theorem OnDict.put {s t : State} (h : OnDict s t) (index sub v : Nat) : OnDict s (t.put index sub v) := by
  obtain ⟨d, rfl⟩ := h
  exact ⟨_, rfl⟩

theorem State.freshCounters_onDict (s : State) : OnDict s s.freshCounters :=
  (((((((OnDict.refl s).put ..).put ..).put ..).put ..).put ..).put ..).put ..

theorem State.freshCounters_get (s : State) :
    s.freshCounters.get 0x8021 1 = 0 ∧ s.freshCounters.get 0x3050 3 = 0 := by
  unfold State.freshCounters
  constructor
  · rw [State.put_get_other _ _ _ _ (by decide), State.put_get_other _ _ _ _ (by decide),
      State.put_get_other _ _ _ _ (by decide), State.put_get_other _ _ _ _ (by decide),
      State.put_get_other _ _ _ _ (by decide), State.put_get_same]
  · rw [State.put_get_other _ _ _ _ (by decide), State.put_get_other _ _ _ _ (by decide),
      State.put_get_other _ _ _ _ (by decide), State.put_get_same]

theorem State.freshLocket_locket (s : State) : ∃ l, s.freshLocket = { s with locket := l } ∧ l.ownSealed = {} :=
  ⟨_, rfl, rfl⟩

theorem State.startSet_starts (s : State) (tracking : Bool) : Starts s (s.startSet tracking) tracking := by
  obtain ⟨d, hmaxima⟩ := s.takeMaxima_eq
  obtain ⟨l, hlocket, hsealed⟩ := s.takeMaxima.freshLocket_locket
  obtain ⟨e, hcounters⟩ := s.takeMaxima.freshLocket.freshCounters_onDict
  obtain ⟨hframes, hquarantine⟩ := s.takeMaxima.freshLocket.freshCounters_get
  have heq : s.takeMaxima.freshLocket.freshCounters =
      { s with power := { s.power with maxima := [] }, locket := l, dict := e } := by
    rw [hcounters, hlocket, hmaxima]
  unfold State.startSet
  generalize s.takeMaxima.freshLocket.freshCounters = x at heq hframes hquarantine
  subst heq
  exact ⟨rfl, rfl, rfl, rfl, rfl, hsealed, rfl, rfl, hframes, hquarantine⟩

theorem Starts.takesContexts {s t u : State} {tracking : Bool} (h : Starts s t tracking) (g : TakesContexts t u) :
    Starts s u tracking where
  program := g.program.trans h.program
  mem := g.mem.trans h.mem
  units := g.units.trans h.units
  arrays := g.arrays.trans h.arrays
  commit := g.commit.trans h.commit
  sealed := (congrArg Locket.ownSealed g.locket).trans h.sealed
  frequency := g.frequency.trans h.frequency
  tracking := (congrArg Clock.tracking g.clock).trans h.tracking
  frames := (g.get _ _ (by decide)).trans h.frames
  quarantine := (g.get _ _ (by decide)).trans h.quarantine

theorem Starts.put {s t : State} {tracking : Bool} (h : Starts s t tracking) {index sub : Nat} (v : Nat)
    (hframes : objKey 0x8021 1 ≠ objKey index sub) (hquarantine : objKey 0x3050 3 ≠ objKey index sub) :
    Starts s (t.put index sub v) tracking :=
  { h with
    frames := (t.put_get_other _ _ _ hframes).trans h.frames
    quarantine := (t.put_get_other _ _ _ hquarantine).trans h.quarantine }

theorem State.startAccepted_starts (s : State) (tracking : Bool) : Starts s (s.startAccepted tracking) tracking := by
  rw [State.startAccepted_eq]
  exact (((s.startSet_starts tracking).takesContexts (.startContexts _)).put 1 (by decide) (by decide)).put 0
    (by decide) (by decide)

theorem State.startAccepted_running (s : State) (tracking : Bool) :
    (s.startAccepted tracking).running = true ∧ (s.startAccepted tracking).get 0x6010 4 = 0 := by
  rw [State.startAccepted_eq, State.running, State.status, State.put_get_other _ _ _ _ (by decide), State.put_get_same,
    State.put_get_same]
  decide

theorem Starts.counted {s t : State} {tracking : Bool} (h : Starts s t tracking) : Starts s (t.counted 0) tracking :=
  h.put _ (by decide) (by decide)

/-- The state whose program is that of a header, on which the checks of START run. -/
def State.withHeader (s : State) (h : Nat) : State :=
  { s with program := { programOf h with clearing := s.program.clearing } }

theorem startProgram_running {s : State} (h : s.running = true) : startProgram s = (s, 0x0D) := if_pos h

theorem startProgram_refused {s : State} (h : s.running = false)
    (hreason : (s.withHeader (s.hbmLE (s.get 0x6010 1) 64)).startReason (s.hbmLE (s.get 0x6010 1) 64) ≠ 0) :
    startProgram s = ((s.put 0x6010 3 0x80).put 0x6010 4
      ((s.withHeader (s.hbmLE (s.get 0x6010 1) 64)).startReason (s.hbmLE (s.get 0x6010 1) 64)), 0x07) := by
  simp only [State.withHeader] at hreason ⊢
  simp only [startProgram, h, Bool.false_eq_true, if_false]

theorem startProgram_accepted {s : State} (h : s.running = false)
    (hreason : (s.withHeader (s.hbmLE (s.get 0x6010 1) 64)).startReason (s.hbmLE (s.get 0x6010 1) 64) = 0) :
    startProgram s = ((s.withHeader (s.hbmLE (s.get 0x6010 1) 64)).startAccepted
      (bit (s.hbmLE (s.get 0x6010 1) 64) 448), 0) := by
  simp only [State.withHeader] at hreason ⊢
  simp only [startProgram, h, Bool.false_eq_true, if_false, hreason]

theorem exec_programStart {role : Role} {s : State} (h : MayWrite s role 0x6010 2) :
    exec (.programStart role) s = .next ((startProgram s).1.counted (startProgram s).2) :=
  congrArg Host.Outcome.next (State.byRole_may startProgram h)

/-! ### STOP -/

theorem exec_programStop {role : Role} {s : State} (h : MayWrite s role 0x6010 2) :
    exec (.programStop role) s = .next ((stopCommand s).1.counted 0) :=
  congrArg Host.Outcome.next (State.byRole_may stopCommand h)

theorem stopCommand_running {s : State} (hrun : s.running = true) (hstop : s.program.stopping = none) :
    (stopCommand s).1 = { s with program := { s.program with stopping := some (0, false) } } := by
  simp [stopCommand, State.stopProgram, hrun, hstop]

theorem stopCommand_else {s : State} (h : s.running = false ∨ s.program.stopping.isSome = true) : (stopCommand s).1 = s := by
  obtain h | h := h
  · simp [stopCommand, State.stopProgram, h]
  · simp [stopCommand, h]

/-- Settles O47: START by the outcome of its checks, STOP by the program's state. -/
theorem programStartsAndStops : Obligations.ProgramStartsAndStops := by
  unfold Obligations.ProgramStartsAndStops
  refine ⟨fun role s n hmay hn => ?_, fun role s hmay => ⟨fun hrun hstop => ?stop, fun h => ?none⟩⟩
  · replace hn : n = s.withHeader (s.hbmLE (s.get 0x6010 1) 64) := hn
    subst hn
    rw [exec_programStart hmay]
    refine ⟨fun hrun => by rw [startProgram_running hrun], fun hidle hreason => ?_, fun hidle hreason => ?_⟩
    · rw [startProgram_refused hidle hreason]
    · rw [startProgram_accepted hidle hreason]
      obtain ⟨hrun, hnone⟩ := (s.withHeader (s.hbmLE (s.get 0x6010 1) 64)).startAccepted_running
        (bit (s.hbmLE (s.get 0x6010 1) 64) 448)
      have h := (State.startAccepted_starts (s.withHeader (s.hbmLE (s.get 0x6010 1) 64))
        (bit (s.hbmLE (s.get 0x6010 1) 64) 448)).counted
      refine ⟨_, rfl, ?_, ?_, h.program, h.commit, h.mem, h.units, h.arrays, h.sealed, h.frames, h.quarantine, h.frequency,
        h.tracking⟩
      · rw [State.running, State.status, State.counted_get_other _ _ (by decide) (by decide)]
        exact hrun
      · rw [State.counted_get_other _ _ (by decide) (by decide), hnone]
  case stop => rw [exec_programStop hmay, stopCommand_running hrun hstop]
  case none => rw [exec_programStop hmay, stopCommand_else h]

end Sys2Proof.Machine
end

section
/-! Post-package repairs: the request, a live repair phase by phase, and the end of one in maintenance mode (R267, R268). -/

namespace Sys2Proof.Machine

open Sys2Proof.Safety

/-! ### The request -/

theorem exec_repairRequest {role : Role} {request : List Byte} {s : State} (h : MayWrite s role 0x4040 1) :
    exec (.repairRequest role request) s =
      .next ((requestRepair request s).1.counted (requestRepair request s).2) :=
  congrArg Host.Outcome.next (State.byRole_may (requestRepair request) h)

section
variable {request : List Byte} {s : State} (hlen : request.length = 16)
include hlen

theorem requestRepair_busy (h : s.mem.repair.isSome = true) : requestRepair request s = (s, 0x0A) := by
  simp [requestRepair, hlen, h]

theorem requestRepair_illegal (hfree : s.mem.repair = none) (hlegal : repairLegal (leNat request) = false) :
    requestRepair request s = (s.put 0x4041 1 0x80, 0x07) := by
  simp [requestRepair, hlen, hfree, hlegal]

theorem requestRepair_live (hfree : s.mem.repair = none) (hlegal : repairLegal (leNat request) = true)
    (hlive : (repairOf (leNat request)).live = true) : requestRepair request s =
      ({ s with mem := { s.mem with repair := some (repairOf (leNat request)) } }.put 0x4041 1 1, 0) := by
  simp [requestRepair, hlen, hfree, hlegal, hlive]

theorem requestRepair_inService (hfree : s.mem.repair = none) (hlegal : repairLegal (leNat request) = true)
    (hlive : (repairOf (leNat request)).live = false) (hmode : s.maintenance = false) :
    requestRepair request s = (s.put 0x4041 1 0x80, 0x0D) := by
  simp [requestRepair, hlen, hfree, hlegal, hlive, hmode]

end

/-! ### A live repair -/

/-- The blocks of the range come to the evacuation buffer; no object changes. -/
theorem evacuated_live {s : State} {r : Repair} (hr : s.mem.repair = some r) (hlive : r.live = true)
    (hphase : s.get 0x4041 1 = 1) : (evacuated s).mem.hbm = s.mem.hbm ∧ (evacuated s).dict = s.dict ∧
      ∀ b, b ∈ (evacuated s).mem.evacuated ↔ b ∈ s.mem.evacuated ∨ b ∈ r.blocks := by
  have heq : evacuated s = { s with mem := { s.mem with
      evacuated := r.blocks.foldl (fun l b => insertNat b l) s.mem.evacuated } } := by
    simp [evacuated, hr, hlive, hphase]
  rw [heq]
  exact ⟨rfl, rfl, fun b => mem_foldl_insertNat⟩

theorem State.evacuationDone_iff (s : State) (r : Repair) :
    s.evacuationDone r = true ↔ ∀ b ∈ r.blocks, b ∈ s.mem.evacuated := by
  simp [State.evacuationDone, List.all_eq_true]

theorem softRepair_permitted {s : State} {r : Repair} (hr : s.mem.repair = some r) (hlive : r.live = true)
    (hphase : s.get 0x4041 1 = 1) (hdone : ∀ b ∈ r.blocks, b ∈ s.mem.evacuated) (hframe : s.repairFrame = true) :
    softRepair s = { s.put 0x4041 1 2 with mem := { s.mem with repairHold := some (r.stack, r.pc, 25000) } } := by
  simp [softRepair, hr, hlive, hphase, (s.evacuationDone_iff r).2 hdone, hframe]

/-- In a frame that does not permit it the repair waits. -/
theorem softRepair_waits {s : State} (h : s.repairFrame = false) : softRepair s = s := by
  unfold softRepair
  split
  · simp [h]
  · rfl

/-! ### The rows in force -/

/-- The rows of a soft repair are in force, those of a hard one are not: it replaces them by spares (R267). -/
theorem mem_recordRepair_repaired (s : State) (r : Repair) {x : Nat × Nat × Nat × Nat} (hx : x ∈ r.list) :
    x ∈ (s.recordRepair r).mem.repaired ↔ r.hard = false := by
  have heq : (s.recordRepair r).mem.repaired = if r.hard then s.mem.repaired.filter (fun y => !r.list.contains y)
      else s.mem.repaired.filter (fun y => !r.list.contains y) ++ r.list := by
    unfold State.recordRepair State.recountRepairs
    split <;> rfl
  rw [heq]
  cases r.hard <;> simp [hx]

/-- Recording a repair changes nothing of the memories but the rows in force. -/
theorem State.recordRepair_mem (s : State) (r : Repair) :
    (s.recordRepair r).mem = { s.mem with repaired := (s.recordRepair r).mem.repaired } := by
  unfold State.recordRepair State.recountRepairs
  split <;> rfl

theorem restored_live {s : State} {r : Repair} (hr : s.mem.repair = some r) (hlive : r.live = true)
    (hphase : s.get 0x4041 1 = 2 ∨ s.get 0x4041 1 = 3) : restored s =
      { (s.recordRepair r).put 0x4041 1 4 with mem := { (s.recordRepair r).mem with
        repair := none
        repairHold := none
        evacuated := (s.recordRepair r).mem.evacuated.filter fun b => !r.blocks.contains b } } := by
  simp only [restored, hr, hlive]
  rw [if_pos (by simpa using hphase)]
  rfl

/-! ### A repair in maintenance mode -/

section
variable {s : State} {r : Repair} (hr : s.mem.repair = some r) (hlive : r.live = false)
include hr hlive

theorem repairEnds_noSpare (repaired : Bool) :
    repairEnds false repaired s = { s with mem := { s.mem with repair := none } }.put 0x4041 1 0x81 := by
  simp [repairEnds, hr, hlive]

theorem repairEnds_failed :
    repairEnds true false s = { s with mem := { s.mem with repair := none } }.put 0x4041 1 0x82 := by
  simp [repairEnds, hr, hlive]

/-- Rows that spares replace hold free values; the repair is over (log 70). -/
theorem repairEnds_done : (repairEnds true true s).mem.repair = none ∧ (repairEnds true true s).get 0x4041 1 = 4 := by
  simp only [repairEnds, hr, hlive, Bool.not_true, Bool.false_eq_true, if_false]
  refine ⟨?_, State.put_get_same ..⟩
  rw [State.put_mem, State.recordRepair_mem]
  refine List.foldlRecOn (motive := fun t : State => t.mem.repair = none) _ _ rfl ?_
  exact fun _ h _ _ => h

end

/-- Settles O53: the request by its checks, a live repair by its phases, one in maintenance mode by its end. -/
theorem repairsGoThroughTheirPhases : Obligations.RepairsGoThroughTheirPhases := by
  unfold Obligations.RepairsGoThroughTheirPhases
  refine ⟨fun role request s hmay hlen => ?_, fun s r hr hlive => ⟨fun hphase => ⟨_, rfl, evacuated_live hr hlive hphase⟩,
    fun hphase hdone hframe => congrArg Host.Outcome.next (softRepair_permitted hr hlive hphase hdone hframe),
    fun hframe => congrArg Host.Outcome.next (softRepair_waits hframe), fun hphase => ?_⟩,
    fun s r spare repaired hr hlive => ?_⟩
  · rw [exec_repairRequest hmay]
    refine ⟨fun hbusy => ?busy, fun hfree hlegal => ?illegal, fun hfree hlegal hlive => ?live,
      fun hfree hlegal hlive hmode => ?inService⟩
    case busy => rw [requestRepair_busy hlen hbusy]
    case illegal => rw [requestRepair_illegal hlen hfree hlegal]
    case live =>
      rw [requestRepair_live hlen hfree hlegal hlive]
      refine ⟨_, rfl, by rw [State.counted_ok, State.count_mem, State.put_mem], ?_⟩
      rw [State.counted_get_other _ _ (by decide) (by decide), State.put_get_same]
    case inService => rw [requestRepair_inService hlen hfree hlegal hlive hmode]
  · refine ⟨restored s, rfl, ?_⟩
    rw [restored_live hr hlive hphase]
    refine ⟨State.put_get_same (s.recordRepair r) 0x4041 1 4, rfl, rfl, ?_, fun b => ?_,
      fun x hx => mem_recordRepair_repaired s r hx⟩
    · exact (congrArg (fun m : Memory => m.hbm) (s.recordRepair_mem r) :)
    · rw [s.recordRepair_mem r]
      simp
  · refine ⟨repairEnds spare repaired s, rfl, ?_⟩
    cases spare with
    | false =>
      rw [repairEnds_noSpare hr hlive]
      exact ⟨rfl, State.put_get_same .., fun _ => ⟨rfl, rfl⟩⟩
    | true =>
      cases repaired with
      | false =>
        rw [repairEnds_failed hr hlive]
        exact ⟨rfl, State.put_get_same .., fun _ => ⟨rfl, rfl⟩⟩
      | true =>
        obtain ⟨hover, hfour⟩ := repairEnds_done hr hlive
        exact ⟨hover, hfour, nofun⟩

end Sys2Proof.Machine
end

section
/-! A settings write that came by Stavlink: its answer joins port 16, which may send a flit again that it counts (R275, R390). -/

namespace Sys2Proof.Machine

open Sys2Proof.Safety

/-- Port 16 is up with a flit to send again, and a flash write has ended whose answer is owed in band. -/
def owingInBand : State := { State.reset with
  dict := [(objKey 0x5020 17, 1)]
  fabric := { State.reset.fabric with ports := [(16, { resend := [[]] })] }
  server := { State.reset.server with saving := some (none, some (true, 0, [0])) } }

theorem owingInBand_sends : owingInBand.server.saving = some (none, some (true, 0, [0])) ∧
    (owingInBand.counted 0).get 0x5021 17 = 0 ∧ (storeComplete owingInBand).get 0x5021 17 = 1 := by decide +kernel

/-- Refutes O52: the end of the flash write counts its answer in object 0x1004.01; the answer joins port 16, which sends the resend
before it and counts that in object 0x5021.17 as well. -/
theorem not_settingsQuotesAndFactoryMode : ¬ Obligations.SettingsQuotesAndFactoryMode := by
  unfold Obligations.SettingsQuotesAndFactoryMode
  intro h
  obtain ⟨hsaving, hbefore, hafter⟩ := owingInBand_sends
  obtain ⟨t, hexec, -, -, hdict, -⟩ := h.1.2.1 owingInBand none (some (true, 0, [0])) hsaving
  have ht : storeComplete owingInBand = t := Host.Outcome.next.inj hexec
  rw [← ht] at hdict
  rw [State.get_congr hdict, hbefore] at hafter
  cases hafter

end Sys2Proof.Machine
end

section
/-! Resets, dumps, a census and a decision on request, and the end of a fill (R298, R329, R331, R332, R351, R352, R359). -/

namespace Sys2Proof.Machine

open Sys2Proof.Safety

/-! ### What an abort of the step leaves to a reset -/

/-- Memories and the domains in reset are the same. -/
structure SameResets (s t : State) : Prop where
  mem : t.mem = s.mem
  frondReset : t.faults.frondReset = s.faults.frondReset
  clusterReset : t.faults.clusterReset = s.faults.clusterReset

namespace SameResets

variable {s t u : State}

theorem refl (s : State) : SameResets s s := ⟨rfl, rfl, rfl⟩

theorem trans (h : SameResets s t) (k : SameResets t u) : SameResets s u :=
  ⟨k.mem.trans h.mem, k.frondReset.trans h.frondReset, k.clusterReset.trans h.clusterReset⟩

theorem ite {c : Prop} [Decidable c] (h : SameResets s t) (k : SameResets s u) : SameResets s (if c then t else u) := by
  split <;> assumption

theorem foldl {α : Type} {f : State → α → State} (hf : ∀ x a, SameResets x (f x a)) (l : List α) (s : State) :
    SameResets s (l.foldl f s) := by
  induction l generalizing s with
  | nil => exact refl s
  | cons a l ih => exact (hf s a).trans (ih (f s a))

/-- Where neither memories nor faults change. -/
theorem of_eq (hmem : t.mem = s.mem) (hfaults : t.faults = s.faults) : SameResets s t :=
  ⟨hmem, congrArg Faults.frondReset hfaults, congrArg Faults.clusterReset hfaults⟩

theorem enqueue (s : State) (p : Nat) (r : List Byte) : SameResets s (s.enqueue p r) :=
  of_eq (OnPort.enqueue s p r).mem (OnPort.enqueue s p r).faults

theorem raise (s : State) (code source die ctx detail : Nat) : SameResets s (s.raise code source die ctx detail) :=
  ⟨rfl, rfl, rfl⟩

theorem originate (s : State) (u : Nat) (f : Flit) : SameResets s (s.originate u f) := by
  unfold State.originate
  exact ite (refl s) (ite ⟨rfl, rfl, rfl⟩ (ite (raise ..) (enqueue ..)))

theorem flood (s : State) (f : Flit) (except : Option Nat) : SameResets s (s.flood f except) :=
  foldl (fun x _ => enqueue x _ _) _ s

theorem tell (s : State) (unit : Nat) (ids : List Nat) (kind subject : Nat) (payload : List Byte) :
    SameResets s (s.tell unit ids kind subject payload) := foldl (fun x _ => originate x _ _) _ s

theorem setCommitUnit (s : State) (c : Commit) : SameResets s { s with commit := c } := ⟨rfl, rfl, rfl⟩

theorem onUnit (s : State) (u : Nat) (f : UnitState → UnitState) : SameResets s (s.onUnit u f) := ⟨rfl, rfl, rfl⟩

theorem setArray (s : State) (u : Nat) (x : ArrayRegs) : SameResets s (s.setArray u x) := ⟨rfl, rfl, rfl⟩

theorem setFabric (s : State) (x : Fabric) : SameResets s { s with fabric := x } := ⟨rfl, rfl, rfl⟩

theorem enterAborting (s : State) : SameResets s s.enterAborting :=
  of_eq s.enterAborting_aborts.mem s.enterAborting_aborts.faults

theorem sendPoison (s : State) (code : Nat) : SameResets s (s.sendPoison code) :=
  ite (refl s) ((setFabric s _).trans (flood ..))

theorem coordinatorAborts (s : State) (origin code : Nat) : SameResets s (s.coordinatorAborts origin code) := by
  unfold State.coordinatorAborts
  extract_lets _ x y
  have hx : SameResets s x := setCommitUnit s _
  have hy : SameResets s y := hx.trans (tell x _ _ _ _ _)
  exact ite (ite (hy.trans (enterAborting y)) hy) (refl s)

theorem stopProgram (s : State) (reason : Nat) (halt : Bool) : SameResets s (s.stopProgram reason halt) :=
  ite ⟨rfl, rfl, rfl⟩ (refl s)

theorem abortStep (s : State) (code : Nat) : SameResets s (s.abortStep code) := by
  unfold State.abortStep
  refine ite (refl s) (ite (ite (refl s) (stopProgram ..)) ?_)
  have hpoison := sendPoison s code
  split
  · exact (hpoison.trans (enterAborting _)).trans (coordinatorAborts ..)
  · exact (hpoison.trans (enterAborting _)).trans (coordinatorAborts ..)
  · exact (hpoison.trans (setCommitUnit _ _)).trans (coordinatorAborts ..)
  · exact setCommitUnit s _
  · exact refl s

theorem dump (s : State) (full : Bool) (trigger : Nat) (sources : List Nat) :
    SameResets s (s.dump full trigger sources) := by
  unfold State.dump
  extract_lets data k age x
  have hx : SameResets s x := ite ⟨rfl, rfl, rfl⟩ (refl s)
  exact hx.trans ⟨rfl, rfl, rfl⟩

end SameResets

/-! ### A Frond reset -/

/-- Units that are cleared one after the other are cleared, and stay so. -/
theorem clear_units (l : List Nat) (s : State) {u : Nat} (hu : u ∈ l ∨ ∃ x, s.unit u = UnitState.cleared x) :
    ∃ x, (l.foldl (fun (s : State) u => s.onUnit u UnitState.cleared) s).unit u = UnitState.cleared x := by
  induction l generalizing s with
  | nil => exact hu.resolve_left List.not_mem_nil
  | cons v l ih =>
    refine ih _ ?_
    by_cases huv : u = v
    · exact .inr ⟨s.unit v, by rw [huv, State.onUnit_unit_same]⟩
    · rw [List.mem_cons, or_assoc] at hu
      rw [State.onUnit_unit_other _ _ _ huv]
      exact hu.resolve_left huv

/-- The arrays that a Frond reset clears hold no tag. -/
theorem clear_arrays (l : List Nat) (s : State) {u : Nat}
    (hu : u ∈ l ∨ ((s.array u).active.tag = none ∧ (s.array u).shadow.tag = none)) :
    ((l.foldl (fun (s : State) u => s.setArray u { gatedRest := (s.array u).gatedRest }) s).array u).active.tag = none ∧
      ((l.foldl (fun (s : State) u => s.setArray u { gatedRest := (s.array u).gatedRest }) s).array u).shadow.tag = none := by
  induction l generalizing s with
  | nil => exact hu.resolve_left List.not_mem_nil
  | cons v l ih =>
    refine ih _ ?_
    by_cases huv : u = v
    · exact .inr (by rw [huv, State.setArray_array_same]; exact ⟨rfl, rfl⟩)
    · rw [List.mem_cons, or_assoc] at hu
      rw [State.setArray_array_other _ _ _ huv]
      exact hu.resolve_left huv

/-- Where the arrays are cleared at the end of a program, the tags that were gone stay gone. -/
theorem State.settle_tags {s : State} {u : Nat} (h : (s.array u).active.tag = none ∧ (s.array u).shadow.tag = none) :
    (s.settle.array u).active.tag = none ∧ (s.settle.array u).shadow.tag = none := by
  unfold State.settle
  generalize [0x10, 0x11, 0x12, 0x18, 0x19, 0x1A] = l
  split
  · extract_lets x
    have hx : (x.array u).active.tag = none ∧ (x.array u).shadow.tag = none := clear_arrays _ s (.inr h)
    clear_value x
    exact hx
  · exact h

/-- What a Frond reset leaves of its units, arrays and kernel memories (R93, R124, R193). -/
structure FrondCleared (d : Nat) (t : State) : Prop where
  units : ∀ u ∈ frondUnits d, ∃ x, t.unit u = UnitState.cleared x
  arrays : ∀ u, u = 0x10 + d ∨ u = 0x18 + d → (t.array u).active.tag = none ∧ (t.array u).shadow.tag = none
  filigree : t.filigree d = {}

/-- The Frond with its units and arrays cleared, its kernel memories still as they were. -/
def State.clearFrondUnits (s : State) (d : Nat) : State :=
  [0x10 + d, 0x18 + d].foldl (fun (s : State) u => s.setArray u { gatedRest := (s.array u).gatedRest })
    ((frondUnits d).foldl (fun (s : State) u => s.onUnit u UnitState.cleared) s)

theorem State.clearFrond_eq (s : State) (d : Nat) : s.clearFrond d =
    (((s.clearFrondUnits d).setFiligree d {}).setSorus d
      { serial := ((s.clearFrondUnits d).engine d).serial, cycles := ((s.clearFrondUnits d).engine d).cycles }).settle := rfl

/-- Writes to arrays leave the units. -/
theorem foldl_setArray_units (l : List Nat) (f : State → Nat → ArrayRegs) (s : State) :
    (l.foldl (fun (s : State) u => s.setArray u (f s u)) s).units = s.units := by
  induction l generalizing s with
  | nil => rfl
  | cons v l ih => exact ih _

theorem State.clearFrondUnits_unit (s : State) (d u : Nat) : (s.clearFrondUnits d).unit u =
    ((frondUnits d).foldl (fun (s : State) u => s.onUnit u UnitState.cleared) s).unit u := by
  rw [State.unit, State.clearFrondUnits, foldl_setArray_units, State.unit]

/-- Writes to arrays leave the kernel memories. -/
theorem foldl_setArray_filigrees (l : List Nat) (f : State → Nat → ArrayRegs) (s : State) :
    (l.foldl (fun (s : State) u => s.setArray u (f s u)) s).filigrees = s.filigrees := by
  induction l generalizing s with
  | nil => rfl
  | cons v l ih => exact ih _

theorem State.settle_filigree (s : State) (d : Nat) : s.settle.filigree d = s.filigree d := by
  rw [State.filigree, (Settles.settle s), State.filigree]

theorem State.clearFrond_cleared (s : State) (d : Nat) : FrondCleared d (s.clearFrond d) := by
  rw [State.clearFrond_eq]
  refine ⟨fun u hu => ?_, fun u hu => ?_, ?_⟩
  · rw [State.settle_unit, State.setSorus_unit, State.setFiligree_unit, State.clearFrondUnits_unit]
    exact clear_units (frondUnits d) s (.inl hu)
  · refine State.settle_tags ?_
    rw [State.setSorus_array, State.setFiligree_array]
    exact clear_arrays [0x10 + d, 0x18 + d] _ (.inl (by simpa using hu))
  · rw [State.settle_filigree, State.setSorus_filigree, State.setFiligree_filigree_same]

theorem FrondCleared.congr {d : Nat} {s t : State} (h : FrondCleared d s) (hunits : t.units = s.units)
    (harrays : t.arrays = s.arrays) (hfiligrees : t.filigrees = s.filigrees) : FrondCleared d t where
  units u hu := by
    rw [State.unit, hunits]
    exact h.units u hu
  arrays u hu := by
    rw [State.array, harrays]
    exact h.arrays u hu
  filigree := by
    rw [State.filigree, hfiligrees]
    exact h.filigree

theorem SameResets.clearFrond (s : State) (d : Nat) : SameResets s (s.clearFrond d) := by
  rw [State.clearFrond_eq]
  have hunits : SameResets s (s.clearFrondUnits d) :=
    (foldl (fun x u => onUnit x u _) _ s).trans (foldl (fun x u => setArray x u _) _ _)
  generalize s.clearFrondUnits d = x at hunits
  have hsorus : SameResets x ((x.setFiligree d {}).setSorus d
      { serial := (x.engine d).serial, cycles := (x.engine d).cycles }) := ⟨rfl, rfl, rfl⟩
  exact (hunits.trans hsorus).trans (of_eq (Settles.settle _).mem (Settles.settle _).faults)

/-- A reset of a Frond that is not in one begins: a dump, the Frond cleared, and the domain in reset (R351; log 49). -/
theorem State.beginFrondReset_begins {s : State} {d : Nat} (code : Nat) (h : s.faults.frondReset.contains d = false) :
    FrondCleared d (s.beginFrondReset d code) ∧ (s.beginFrondReset d code).mem = s.mem ∧
      (s.beginFrondReset d code).faults.frondReset.contains d = true := by
  unfold State.beginFrondReset
  rw [if_neg (by rw [h]; decide)]
  extract_lets x
  have hx : SameResets s x := (SameResets.dump s false code (frondUnits d)).trans (.clearFrond _ d)
  have hclear : FrondCleared d x := State.clearFrond_cleared _ d
  clear_value x
  exact ⟨hclear.congr rfl rfl rfl, hx.mem, List.contains_iff_mem.2 (mem_insertNat.2 (.inl rfl))⟩

theorem exec_frondResetRequest {role : Role} {d : Nat} {s : State} (h : MayWrite s role 0x3040 2) (hd : d < 3) :
    exec (.frondResetRequest role d) s = .next (((s.abortStep 0).beginFrondReset d 0).counted 0) :=
  exec_command rfl h (hd.trans (by decide +kernel)) (if_neg (by omega))

theorem frondResetRequest_begins {role : Role} {d : Nat} {s : State} (h : MayWrite s role 0x3040 2) (hd : d < 3)
    (hout : s.faults.frondReset.contains d = false) :
    ∃ t, exec (.frondResetRequest role d) s = .next t ∧ t.faults.frondReset.contains d = true ∧ t.mem = s.mem ∧
      (∀ u ∈ frondUnits d, (t.unit u).work = none ∧ (t.unit u).waiting = [] ∧ (t.unit u).tails = [] ∧ (t.unit u).inReset = true) ∧
      (∀ u, u = 0x10 + d ∨ u = 0x18 + d → (t.array u).active.tag = none ∧ (t.array u).shadow.tag = none) ∧
      t.filigree d = {} := by
  have habort := SameResets.abortStep s 0
  obtain ⟨hclear, hmem, hin⟩ := State.beginFrondReset_begins (s := s.abortStep 0) (d := d) 0 (by rw [habort.frondReset, hout])
  refine ⟨_, exec_frondResetRequest h hd, ?_⟩
  rw [State.counted_ok]
  generalize (s.abortStep 0).beginFrondReset d 0 = x at hclear hmem hin
  have hcount : FrondCleared d (x.count 0x1004 1 1) := hclear.congr (State.count_units ..) (State.count_arrays ..) (State.count_filigrees ..)
  refine ⟨by rw [State.count_faults, hin], by rw [State.count_mem, hmem, habort.mem], fun u hu => ?_, hcount.arrays, hcount.filigree⟩
  obtain ⟨y, hy⟩ := hcount.units u hu
  rw [hy]
  exact ⟨rfl, rfl, rfl, rfl⟩

/-! ### A cluster reset -/

/-- What a cluster reset leaves of its die (R240, R398). -/
structure ClusterCleared (d : Nat) (t : State) : Prop where
  core : ∀ c, c / 8 = d → t.core c = {}
  plic : kget 0 t.thallus.plic d = 0
  l1 : ∀ k ∈ t.thallus.l1, k.1 / 2048 ≠ d
  l2 : ∀ k ∈ t.thallus.l2, k.1 / 8192 ≠ d
  windows : ∀ w ∈ t.thallus.windows, w.1 / 4 ≠ d
  server : d = 1 → t.server.sessions = [] ∧ t.server.ring = []

theorem ClusterCleared.congr {d : Nat} {s t : State} (h : ClusterCleared d s) (hthallus : t.thallus = s.thallus)
    (hserver : t.server = s.server) : ClusterCleared d t := by
  obtain ⟨hcore, hplic, hl1, hl2, hwindows, hsrv⟩ := h
  exact ⟨fun c hc => by rw [State.core, hthallus]; exact hcore c hc, by rw [hthallus, hplic], by rw [hthallus]; exact hl1,
    by rw [hthallus]; exact hl2, by rw [hthallus]; exact hwindows, by rw [hserver]; exact hsrv⟩

theorem State.clearCluster_cleared (s : State) (d : Nat) : ClusterCleared d (s.clearCluster d) := by
  unfold State.clearCluster
  extract_lets t _ x _
  have hcore : ∀ c, c / 8 = d → x.core c = {} := fun c hc => kget_absent _ fun q hq heq => by
    have hne := (List.mem_filter.1 hq).2
    simp [heq, hc] at hne
  have hplic : kget 0 x.thallus.plic d = 0 := kget_kset_same 0 t.plic d 0
  have hl1 : ∀ k ∈ x.thallus.l1, k.1 / 2048 ≠ d := fun k hk => by simpa using (List.mem_filter.1 hk).2
  have hl2 : ∀ k ∈ x.thallus.l2, k.1 / 8192 ≠ d := fun k hk => by simpa using (List.mem_filter.1 hk).2
  have hwindows : ∀ w ∈ x.thallus.windows, w.1 / 4 ≠ d := fun w hw => by simpa using (List.mem_filter.1 hw).2
  clear_value x
  split
  next => exact ⟨hcore, hplic, hl1, hl2, hwindows, fun _ => ⟨rfl, rfl⟩⟩
  next hd => exact ⟨hcore, hplic, hl1, hl2, hwindows, fun h => absurd h hd⟩

theorem SameResets.clearCluster (s : State) (d : Nat) : SameResets s (s.clearCluster d) :=
  ite ⟨rfl, rfl, rfl⟩ ⟨rfl, rfl, rfl⟩

/-- A reset of a cluster that is not in one begins: perhaps an abort, a dump, and the cluster cleared (R240, R352). -/
theorem State.beginClusterReset_begins {s : State} {d : Nat} (code : Nat) (h : s.faults.clusterReset.contains d = false) :
    ClusterCleared d (s.beginClusterReset d code) ∧ (s.beginClusterReset d code).mem = s.mem ∧
      (s.beginClusterReset d code).faults.clusterReset.contains d = true := by
  unfold State.beginClusterReset
  rw [if_neg (by rw [h]; decide)]
  extract_lets x y
  have hx : SameResets s x := .ite (.abortStep s code) (.refl s)
  have hy : SameResets s y := hx.trans ((SameResets.dump x false code (clusterSources d)).trans (.clearCluster _ d))
  have hclear : ClusterCleared d y := State.clearCluster_cleared _ d
  clear_value y
  exact ⟨hclear.congr rfl rfl, hy.mem, List.contains_iff_mem.2 (mem_insertNat.2 (.inl rfl))⟩

theorem exec_clusterResetRequest {role : Role} {d : Nat} {s : State} (h : MayWrite s role 0x3040 3) (hd : d < 3) :
    exec (.clusterResetRequest role d) s = .next ((s.beginClusterReset d 0).counted 0) :=
  exec_command rfl h (hd.trans (by decide +kernel)) (if_neg (by omega))

theorem clusterResetRequest_begins {role : Role} {d : Nat} {s : State} (h : MayWrite s role 0x3040 3) (hd : d < 3)
    (hout : s.faults.clusterReset.contains d = false) :
    ∃ t, exec (.clusterResetRequest role d) s = .next t ∧ t.faults.clusterReset.contains d = true ∧ t.mem = s.mem ∧
      ClusterCleared d t := by
  obtain ⟨hclear, hmem, hin⟩ := State.beginClusterReset_begins (s := s) (d := d) 0 hout
  refine ⟨_, exec_clusterResetRequest h hd, ?_⟩
  rw [State.counted_ok]
  exact ⟨by rw [State.count_faults, hin], by rw [State.count_mem, hmem],
    hclear.congr (State.count_thallus ..) (State.count_server ..)⟩

/-! ### Dumps -/

theorem State.dump_dumps (s : State) (full : Bool) (trigger : Nat) (sources : List Nat) :
    (s.dump full trigger sources).faults.dumps = s.faults.dumps.set s.dumpSlot.1
      (s.dumpBytes full trigger sources, 1, s.faults.dumps.foldl (fun n x => max n x.2.2) 0 + 1) := by
  unfold State.dump
  extract_lets data k age x
  have hx : x.faults = s.faults := by
    unfold x
    split <;> rfl
  rw [hx]

theorem exec_dumpRequest {role : Role} {s : State} (h : MayWrite s role 0x3060 1) :
    exec (.dumpRequest role 1) s = .next ((requestDump 1 s).1.counted (requestDump 1 s).2) :=
  exec_command (f := asBool requestDump) rfl h (by decide +kernel) rfl

theorem requestDump_one (s : State) : requestDump 1 s =
    if s.running ∧ s.commitState ≠ 7 then (s, 0x07) else (s.dump true 0 allSources, 0) := rfl

theorem dumpRequest_dumps {role : Role} {s : State} (h : MayWrite s role 0x3060 1) :
    (s.running = false ∨ s.commitState = 7 →
      exec (.dumpRequest role 1) s = .next ((s.dump true 0 allSources).counted 0) ∧
      (s.dump true 0 allSources).faults.dumps =
        s.faults.dumps.set s.dumpSlot.1 (s.dumpBytes true 0 allSources, 1, s.faults.dumps.foldl (fun n x => max n x.2.2) 0 + 1)) ∧
    (s.running = true → s.commitState ≠ 7 → exec (.dumpRequest role 1) s = .next (s.counted 7)) := by
  rw [exec_dumpRequest h, requestDump_one]
  refine ⟨fun hmay => ⟨?_, State.dump_dumps ..⟩, fun hrun hstate => by rw [if_pos ⟨hrun, hstate⟩]⟩
  rw [if_neg]
  rintro ⟨hrun, hstate⟩
  exact hmay.elim (fun hidle => absurd hrun (by rw [hidle]; decide)) hstate

/-! ### A census -/

theorem State.requestCensus_one (s : State) : asBool requestCensus 1 s = (s.startCensus, 0) := by
  rw [asBool, if_pos (by decide), requestCensus, if_pos rfl]

theorem censusRequest_opens {role : Role} {s : State} (h : MayWrite s role 0x5040 4) :
    ∃ t, exec (.censusRequest role 1) s = .next t ∧ t.get 0x5040 1 = (s.get 0x5040 1 + 1) % 65536 ∧
      t.fabric.census = some s.clock.frame ∧ t.mem = s.mem ∧
      t.fabric.bitmap = (match s.memberIndex with | some j => [j] | none => []) := by
  obtain ⟨hnumber, hcensus, hbitmap, -, -, hmem⟩ := s.joinCensus_joins (s.get 0x5040 1 + 1) []
  refine ⟨_, exec_command rfl h (by decide +kernel) s.requestCensus_one, ?_⟩
  rw [State.startCensus]
  generalize s.joinCensus (s.get 0x5040 1 + 1) [] = x at hnumber hcensus hbitmap hmem
  rw [State.counted_get_other _ _ (by decide) (by decide), State.counted_ok, State.count_fabric, State.count_mem]
  exact ⟨hnumber, hcensus, hmem, hbitmap⟩

/-! ### A decision on request -/

theorem exec_resolve {role : Role} {v : Nat} {s : State} (h : MayWrite s role 0x8020 3) (hv : v < 256) :
    exec (.resolve role v) s = .next ((resolveStep v s).1.counted (resolveStep v s).2) :=
  exec_command rfl h (hv.trans_eq (by decide +kernel)) rfl

/-- The member has its decision: it is not unknown any more. -/
def State.decisionKnown (s : State) : State := { s with commit := { s.commit with unknown := false } }

theorem resolveStep_commits {s : State} (hstate : s.commitState = 7) (hunknown : s.commit.unknown = true) :
    resolveStep 1 s = (s.decisionKnown.commitUnasked, 0) := by
  simp [resolveStep, hstate, hunknown, State.decisionKnown]

theorem resolveStep_aborts {s : State} (hstate : s.commitState = 7) (hunknown : s.commit.unknown = true) :
    resolveStep 2 s = (s.decisionKnown.enterAborting, 0) := by
  simp [resolveStep, hstate, hunknown, State.decisionKnown]

theorem resolveStep_refused {v : Nat} {s : State} (h : s.commitState ≠ 7 ∨ s.commit.unknown = false) :
    resolveStep v s = (s, 7) := by
  refine if_neg ?_
  rintro ⟨hstate, hunknown, -⟩
  exact h.elim (fun hother => hother hstate) (fun hknown => absurd hunknown (by rw [hknown]; decide))

theorem State.counted_commitState (s : State) (status : Nat) : (s.counted status).commitState = s.commitState :=
  s.counted_get_other _ (by decide) (by decide)

theorem State.enterAborting_locket (s : State) : s.enterAborting.locket = s.locket := by
  unfold State.enterAborting
  extract_lets x y _
  obtain ⟨units, heq, -⟩ := discard_waiting unitIds x
  have hy : y = { x with units } := heq
  clear_value y
  rw [hy]
  rfl

theorem resolve_decides {role : Role} {s : State} (h : MayWrite s role 0x8020 3) (hstate : s.commitState = 7)
    (hunknown : s.commit.unknown = true) :
    (∃ t, exec (.resolve role 1) s = .next t ∧ t.commitState = 3 ∧ t.mem.revert = [] ∧ t.locket.ownSealed = {}) ∧
      ∃ t, exec (.resolve role 2) s = .next t ∧ t.commitState = 4 ∧ t.mem = s.mem ∧ t.locket = s.locket ∧
        t.commit.unknown = false := by
  rw [exec_resolve h (by decide), exec_resolve h (by decide), resolveStep_commits hstate hunknown,
    resolveStep_aborts hstate hunknown]
  constructor
  · have hcommits := s.decisionKnown.draw.2.commitStep_commits (s.decisionKnown.draw.1.getLsbD 0)
    refine ⟨_, rfl, ?_⟩
    rw [State.counted_commitState, State.counted_ok, State.count_mem, State.count_locket]
    exact ⟨hcommits.commitState, hcommits.revert, hcommits.ownSealed⟩
  · have haborts := s.decisionKnown.enterAborting_aborts
    refine ⟨_, rfl, ?_⟩
    rw [State.counted_commitState, State.counted_ok, State.count_mem, State.count_locket, State.count_commit, haborts.mem,
      haborts.commit, State.enterAborting_locket]
    exact ⟨haborts.commitState, rfl, rfl, rfl⟩

/-! ### The end of a fill -/

theorem exec_resume {role : Role} {s : State} (h : MayWrite s role 0x8041 1) :
    exec (.resume role 1) s = .next ((resumeFill 1 s).1.counted (resumeFill 1 s).2) :=
  exec_command (f := asBool resumeFill) rfl h (by decide +kernel) rfl

theorem resumeFill_outside {s : State} (h : s.commitState ≠ 6) : resumeFill 1 s = (s, 7) := by
  simp [resumeFill, h]

theorem resumeFill_passes {s : State} (h : s.commitState = 6) (hcheck : s.restoreCheck = none) :
    resumeFill 1 s = ({ s with commit := { s.commit with resumed := true } }, 0) := by
  simp [resumeFill, h, hcheck]

/-- The state of a member whose RESUME found a record or length that differs (R332). -/
def State.mismatched (s : State) (check expected found : Nat) : State :=
  { s.skew s.moduleId check expected found false with
    domains := { s.domains with mismatch := leBytes 8 expected ++ leBytes 8 found } }

theorem resumeFill_refused {s : State} {check expected found : Nat} (h : s.commitState = 6)
    (hcheck : s.restoreCheck = some (check, expected, found)) :
    resumeFill 1 s = (s.mismatched check expected found, 7) := by
  simp only [resumeFill, h, hcheck]
  rfl

theorem resume_refused {role : Role} {s : State} {check expected found : Nat} (h : MayWrite s role 0x8041 1)
    (hstate : s.commitState = 6) (hcheck : s.restoreCheck = some (check, expected, found)) :
    ∃ t r, exec (.resume role 1) s = .next t ∧ t.faults.inFlight = s.faults.inFlight ++ [r] ∧ r.2.code = 0x312 ∧
      t.domains.mismatch = leBytes 8 expected ++ leBytes 8 found ∧ t.commit = s.commit ∧ t.mem = s.mem ∧
      t.locket = s.locket := by
  obtain ⟨r, hr, hcode, -⟩ := s.skew_reports s.moduleId check expected found false
  refine ⟨_, r, by rw [exec_resume h, resumeFill_refused hstate hcheck], ?_⟩
  exact ⟨hr, hcode, rfl, rfl, rfl, rfl⟩

theorem exec_restoreRecord {role : Role} {record : List Byte} {s : State} (h : MayWrite s role 0x8041 3) :
    exec (.restoreRecord role record) s = .next ((restoreOwn record s).1.counted (restoreOwn record s).2) :=
  congrArg Host.Outcome.next (State.byRole_may (restoreOwn record) h)

/-! ### A re-encoding -/

/-- Operand stores, records and units are as before. -/
structure Rebuilds (s t : State) : Prop where
  ops : t.mem.ops = s.mem.ops
  locket : t.locket = s.locket
  units : t.units = s.units

namespace Rebuilds

variable {s t u : State}

theorem refl (s : State) : Rebuilds s s := ⟨rfl, rfl, rfl⟩

theorem trans (h : Rebuilds s t) (k : Rebuilds t u) : Rebuilds s u :=
  ⟨k.ops.trans h.ops, k.locket.trans h.locket, k.units.trans h.units⟩

theorem foldl {α : Type} {f : State → α → State} (hf : ∀ x a, Rebuilds x (f x a)) (l : List α) (s : State) :
    Rebuilds s (l.foldl f s) := by
  induction l generalizing s with
  | nil => exact refl s
  | cons a l ih => exact (hf s a).trans (ih (f s a))

theorem askFill (s : State) (x : Fill) : Rebuilds s (s.askFill x) := by
  unfold State.askFill
  extract_lets _ y
  have hy : Rebuilds s y := ⟨rfl, rfl, rfl⟩
  have hsend := Emits.originate y 0 (resilFlit x.source 9 y.moduleId y.step32
    (leBytes 16 (packFields [(32, x.tensor), (32, 0), (32, x.left / 512), (32, x.dest)])))
  exact hy.trans ⟨congrArg Memory.ops hsend.mem, hsend.locket, hsend.units⟩

theorem zeroFill (s : State) (a n : Nat) : Rebuilds s (s.zeroFill a n) :=
  ⟨(StoresHbm.writeThrough s _ _ _ _).ops, (SameRecords.writeThrough s _ _ _ _).1,
    (StoresHbm.writeThrough s _ _ _ _).stores.units⟩

theorem reEncodeParity (s : State) : Rebuilds s (reEncodeParity 1 s).1 := by
  refine foldl (fun x d => ?_) _ s
  split
  · exact refl x
  · exact (zeroFill x _ _).trans (foldl (fun y _ => askFill y _) _ _)

end Rebuilds

/-- A module with no parity tensor asks for nothing (R332). -/
theorem reEncodeParity_none {s : State} (h : ∀ j, j < s.dirCount 0 → bits (s.desc 0 j) 207 200 ≠ 5) :
    reEncodeParity 1 s = (s, 0) := by
  have hnone : (((List.range (s.dirCount 0)).map fun j => s.desc 0 j).filter fun d => bits d 207 200 == 5) = [] := by
    rw [List.filter_eq_nil_iff]
    intro d hd
    obtain ⟨j, hj, rfl⟩ := List.mem_map.1 hd
    simpa using h j (List.mem_range.1 hj)
  rw [reEncodeParity, if_neg (by decide), hnone]
  rfl

theorem reEncodeParity_ok (s : State) : reEncodeParity 1 s = ((reEncodeParity 1 s).1, 0) := rfl

theorem exec_reEncode {role : Role} {s : State} (h : MayWrite s role 0x8041 5) :
    exec (.reEncode role 1) s = .next ((reEncodeParity 1 s).1.counted 0) :=
  exec_command (f := asBool reEncodeParity) rfl h (by decide +kernel) rfl

/-- Settles O50: the requests, and then the end of a fill. -/
theorem requestsAndFills : Obligations.RequestsAndFills := by
  unfold Obligations.RequestsAndFills
  refine ⟨⟨fun role d s hmay hd hout => frondResetRequest_begins hmay hd hout, fun role d s hmay hd hout => ?cluster,
      fun role s hmay => dumpRequest_dumps hmay, fun role s hmay => censusRequest_opens hmay,
      fun role s hmay => ⟨fun ⟨hstate, hunknown⟩ => resolve_decides hmay hstate hunknown, fun hknown v hv => ?refused⟩⟩,
    fun role s hmay => ⟨fun hstate => ?outside, fun hstate hcheck => ?passes,
      fun check expected found hstate hcheck => resume_refused hmay hstate hcheck⟩,
    fun role record s hmay => ⟨fun hlen => ?restored, fun hlen => ?long⟩, fun role s hmay => ?reEncode⟩
  case cluster =>
    obtain ⟨t, hexec, hin, hmem, hcore, hplic, hl1, hl2, hwindows, hserver⟩ := clusterResetRequest_begins hmay hd hout
    exact ⟨t, hexec, hin, hmem, hcore, hplic, hl1, hl2, hwindows, hserver⟩
  case refused => rw [exec_resolve hmay hv, resolveStep_refused hknown]
  case outside => rw [exec_resume hmay, resumeFill_outside hstate]
  case passes => rw [exec_resume hmay, resumeFill_passes hstate hcheck]
  case restored =>
    refine ⟨_, by rw [exec_restoreRecord hmay, restoreOwn, if_neg (by omega)], ?_⟩
    exact ⟨rfl, rfl, rfl, rfl⟩
  case long => rw [exec_restoreRecord hmay, restoreOwn, if_pos hlen]
  case reEncode =>
    have hrebuilds := Rebuilds.reEncodeParity s
    refine ⟨_, exec_reEncode hmay, ?_, ?_, ?_, fun hnone => by rw [reEncodeParity_none hnone]⟩
    · rw [State.counted_ok, State.count_mem, hrebuilds.ops]
    · rw [State.counted_ok, State.count_locket, hrebuilds.locket]
    · rw [State.counted_ok, State.count_units, hrebuilds.units]

end Sys2Proof.Machine
end

section
/-! Clocks: FRAME_SYNC, REFCLK and the plan of a frame (R33, R36, R375, R378, R422, R423). -/

namespace Sys2Proof.Machine

open Sys2Proof.Safety

theorem OnDict.count {s t : State} (h : OnDict s t) (index sub n : Nat) : OnDict s (t.count index sub n) := h.put ..

theorem OnDict.countIf {s t : State} (h : OnDict s t) (c : Bool) (index sub : Nat) : OnDict s (t.countIf c index sub) := by
  unfold State.countIf
  split
  · exact h.count ..
  · exact h

theorem OnDict.foldl {α : Type} {f : State → α → State} {s t : State} (h : OnDict s t)
    (hf : ∀ x a, OnDict s x → OnDict s (f x a)) (l : List α) : OnDict s (l.foldl f t) := by
  induction l generalizing t with
  | nil => exact h
  | cons a l ih => exact ih (hf t a h)

/-! ### FRAME_SYNC -/

section
variable {s : State}

theorem frameSyncEdge_same (h : s.sameEdge = true) : frameSyncEdge s = s := by
  simp [frameSyncEdge, h]

variable (hedge : s.sameEdge = false) (hon : s.power.on = true)
include hedge hon

theorem frameSyncEdge_places (hplacing : s.clock.placing = true) :
    frameSyncEdge s = { s with clock := { s.clock with
      lastEdge := some (s.clock.frame, s.clock.cycle), placing := false, tickIn := some 64, syncPoint := none } } := by
  simp [frameSyncEdge, hedge, hon, hplacing]

theorem frameSyncEdge_begins (hplacing : s.clock.placing = false) (harming : s.clock.arming = true) :
    frameSyncEdge s = { s with clock := { s.clock with
      lastEdge := some (s.clock.frame, s.clock.cycle), arming := false, tracking := true, freeRun := false, quiet := 0
      syncPoint := some (s.clock.cycle + 64) } } := by
  simp [frameSyncEdge, hedge, hon, hplacing, harming]

theorem frameSyncEdge_marks (hplacing : s.clock.placing = false) (harming : s.clock.arming = false) :
    frameSyncEdge s = { s with clock := { s.clock with
      lastEdge := some (s.clock.frame, s.clock.cycle)
      syncPoint := if s.clock.tracking && !s.clock.freeRun then some (s.clock.cycle + 64) else s.clock.syncPoint } } := by
  simp only [frameSyncEdge, hedge, hon, hplacing, harming, Bool.not_true, Bool.or_false, Bool.false_eq_true, if_false]
  split <;> rfl

end

/-! ### The loss of FRAME_SYNC -/

theorem State.reportOffset_onDict (s : State) : OnDict s s.reportOffset := by
  unfold State.reportOffset
  split
  · exact (OnDict.refl s).put ..
  · exact .refl s

theorem State.reportOffset_some {s : State} {o : Int} (h : s.tickOffset = some o) :
    s.reportOffset = s.put 0x6002 2 (twos 32 o) := by
  simp only [State.reportOffset, h]

theorem State.reportOffset_none {s : State} (h : s.tickOffset = none) : s.reportOffset = s := by
  simp only [State.reportOffset, h]

theorem State.reportOffset_flen (s : State) : s.reportOffset.flen = s.flen := by
  unfold State.reportOffset
  split
  · exact s.put_get_other _ _ _ (by decide)
  · rfl

/-- SYNC_LOST is reported at the last cycle of the frame (R61). -/
theorem State.raiseTick_report (s : State) (code source die ctx detail : Nat) :
    ∃ r, (s.raiseTick code source die ctx detail).faults.inFlight = s.faults.inFlight ++ [r] ∧ r.2.code = code ∧
      r.2.frame = s.clock.frame ∧ r.2.cycle = s.flen - 1 := ⟨_, rfl, rfl, rfl, rfl⟩

theorem syncLost_gone {s : State} (h : s.syncGone = true) : syncLost s =
    { s.reportOffset.raiseTick 0x302 0 1 0 0 with clock := { s.clock with freeRun := true, syncPoint := none, quiet := 0 } } :=
  if_pos h

theorem syncLost_loses {s : State} (h : s.syncGone = true) :
    ∃ t r, exec .syncLost s = .next t ∧ t.clock = { s.clock with freeRun := true, syncPoint := none, quiet := 0 } ∧
      t.faults.inFlight = s.faults.inFlight ++ [r] ∧
      r.2.code = 0x302 ∧ r.2.frame = s.clock.frame ∧ r.2.cycle = s.flen - 1 ∧ t.mem = s.mem ∧ t.units = s.units ∧
      (∀ o, s.tickOffset = some o → t.get 0x6002 2 = twos 32 o) ∧ (s.tickOffset = none → t.dict = s.dict) := by
  obtain ⟨d, hd⟩ := s.reportOffset_onDict
  obtain ⟨r, hr, hcode, hframe, hcycle⟩ := s.reportOffset.raiseTick_report 0x302 0 1 0 0
  refine ⟨_, r, congrArg Host.Outcome.next (syncLost_gone h), rfl, ?_, hcode, ?_, ?_, ?_, ?_, fun o ho => ?_, fun hnone => ?_⟩
  · rw [hr, hd]
  · rw [hframe, hd]
  · rw [hcycle, State.reportOffset_flen]
  · rw [State.raiseTick_mem, hd]
  · rw [State.raiseTick_units, hd]
  · rw [State.reportOffset_some ho]
    exact State.put_get_same s 0x6002 2 (twos 32 o)
  · rw [State.raiseTick_dict, State.reportOffset_none hnone]

/-! ### REFCLK -/

theorem refclkLoss_first {s : State} (hon : s.power.on = true) (h : s.get 0x1005 1 ≠ 1) : refclkLoss s =
    { (s.put 0x1005 1 1).count 0x1005 2 1 with power := { s.power with returning := false, holdRest := 0 } } :=
  if_neg (by simp [h, hon])

theorem refclkReturn_now {s : State} (h : s.get 0x1005 1 ≠ 0) (hnow : (!s.running || s.waitFrame) = true) :
    refclkReturn s = s.relock := by
  rw [refclkReturn, if_neg h, if_pos hnow]

theorem refclkReturn_waits {s : State} (h : s.get 0x1005 1 ≠ 0) (hnow : (!s.running || s.waitFrame) = false) :
    refclkReturn s = { s with power := { s.power with returning := true } } := by
  rw [refclkReturn, if_neg h, if_neg (by rw [hnow]; decide)]

/-! ### The plan -/

/-- Raising Fronds keeps one step for each. -/
theorem State.raiseFronds_length (s : State) (f : Forecast) (throttled : List Nat) (budget n : Nat) (steps : List Nat) :
    (s.raiseFronds f throttled budget n steps).length = steps.length := by
  induction n generalizing steps with
  | zero => rfl
  | succ n ih =>
    unfold State.raiseFronds
    split
    · extract_lets up
      split
      · rw [ih]
        exact List.length_set
      · rfl
    · rfl

/-- The fixed plan: one clock for each Frond and each cluster, and the stretch that is the last one now; counts apart, nothing
but the controller's state changes (R378). -/
theorem State.fixPlan_fixes (s : State) : ∃ t p, s.fixPlan = t ∧ t.power.plan = some p ∧ p.2.2 = t.power.lastStretch ∧
    p.1.length = 3 ∧ p.2.1.length = 3 ∧ t.clock = s.clock ∧ t.mem = s.mem ∧ t.program = s.program := by
  unfold State.fixPlan
  extract_lets f k x budget shares throttling steps total clusters need wish stretch y z
  have hsteps : steps.length = 3 := by
    rw [show steps.length = _ from x.raiseFronds_length ..]
    rfl
  have hclusters : clusters.length = 3 := by simp [clusters]
  obtain ⟨d, hd⟩ : OnDict s z := by
    have hx : OnDict s x := (OnDict.refl s).put ..
    have hy : OnDict s y := hx.countIf ..
    exact hy.foldl (fun t _ ht => ht.count ..) _
  clear_value z steps clusters stretch throttling
  subst hd
  exact ⟨_, _, rfl, rfl, rfl, by simpa using hsteps, hclusters, rfl, rfl, rfl⟩

/-- The fallback: floors, 1,600 MHz and the last stretch (R375). -/
theorem State.fallback_fixes (s : State) : ∃ t p, s.fallback = t ∧ t.power.plan = some p ∧ p.2.1 = [1600, 1600, 1600] ∧
    p.2.2 = min s.power.lastStretch (s.nextLength / 8) ∧ t.dict = (s.count 0x2003 5 1).dict ∧ t.clock = s.clock ∧
    t.mem = s.mem := ⟨_, _, rfl, rfl, rfl, rfl, rfl, rfl, rfl⟩

theorem planFix_fixed {ready : Bool} {s : State} (h : s.power.plan.isSome = true) : planFix ready s = s := if_pos h

theorem planFix_open {ready : Bool} {s : State} (h : s.power.plan = none) : planFix ready s =
    if ready && !s.faults.clusterReset.contains 1 then s.fixPlan else s.fallback := by
  rw [planFix, h]
  rfl

/-- Settles O24: edges, losses and returns of the references, and the plan. -/
theorem clocksAndPlans : Obligations.ClocksAndPlans := by
  unfold Obligations.ClocksAndPlans
  refine ⟨fun s hon => ⟨fun hsame => congrArg Host.Outcome.next (frameSyncEdge_same hsame),
      fun hedge hplacing => congrArg Host.Outcome.next (frameSyncEdge_places hedge hon hplacing),
      fun hedge hplacing harming => congrArg Host.Outcome.next (frameSyncEdge_begins hedge hon hplacing harming),
      fun hedge hplacing harming => congrArg Host.Outcome.next (frameSyncEdge_marks hedge hon hplacing harming)⟩,
    ⟨fun s => ⟨syncLost_loses, fun hheld => congrArg Host.Outcome.next (if_neg (by rw [hheld]; decide))⟩,
      fun s hon hfirst => ⟨_, congrArg Host.Outcome.next (refclkLoss_first hon hfirst), rfl, rfl, rfl, rfl⟩,
      fun s hheld => ⟨fun hnow => ⟨_, congrArg Host.Outcome.next (refclkReturn_now hheld hnow), rfl, rfl⟩,
        fun hnow => congrArg Host.Outcome.next (refclkReturn_waits hheld hnow)⟩⟩,
    fun ready s => ⟨fun hfixed => congrArg Host.Outcome.next (planFix_fixed hfixed), fun hopen hready => ?_,
      fun hopen hready => ?_⟩⟩
  · obtain ⟨t, p, rfl, hplan⟩ := s.fixPlan_fixes
    refine ⟨s.fixPlan, p, congrArg Host.Outcome.next ?_, hplan⟩
    rw [planFix_open hopen, if_pos hready]
  · obtain ⟨t, p, rfl, hplan⟩ := s.fallback_fixes
    refine ⟨s.fallback, p, congrArg Host.Outcome.next ?_, hplan⟩
    rw [planFix_open hopen, if_neg (by rw [hready]; decide)]

end Sys2Proof.Machine
end

section
/-! The tick: what closes a frame and opens the next one leaves the frame number and the cycle counter to the turn itself (R32). -/

namespace Sys2Proof.Machine

open Sys2Proof.Safety

/-- The same frame number and cycle. -/
structure SameTime (s t : State) : Prop where
  frame : t.clock.frame = s.clock.frame
  cycle : t.clock.cycle = s.clock.cycle

namespace SameTime

variable {s t u : State}

/-! ### Rules of the relation -/

theorem refl (s : State) : SameTime s s := ⟨rfl, rfl⟩

theorem trans (h : SameTime s t) (k : SameTime t u) : SameTime s u := ⟨k.frame.trans h.frame, k.cycle.trans h.cycle⟩

theorem ite {c : Prop} [Decidable c] (h : SameTime s t) (k : SameTime s u) : SameTime s (if c then t else u) := by
  split <;> assumption

theorem foldl {α : Type} {f : State → α → State} (hf : ∀ x a, SameTime x (f x a)) (l : List α) (s : State) :
    SameTime s (l.foldl f s) := by
  induction l generalizing s with
  | nil => exact refl s
  | cons a l ih => exact (hf s a).trans (ih (f s a))

theorem of_clock (h : t.clock = s.clock) : SameTime s t := ⟨congrArg Clock.frame h, congrArg Clock.cycle h⟩

/-! ### Operations that other chapters share -/

theorem put (s : State) (index sub v : Nat) : SameTime s (s.put index sub v) := ⟨rfl, rfl⟩
theorem count (s : State) (index sub n : Nat) : SameTime s (s.count index sub n) := ⟨rfl, rfl⟩
theorem raise (s : State) (code source die ctx detail : Nat) : SameTime s (s.raise code source die ctx detail) := ⟨rfl, rfl⟩
theorem raiseTick (s : State) (code source die ctx detail : Nat) : SameTime s (s.raiseTick code source die ctx detail) := ⟨rfl, rfl⟩
theorem setUnit (s : State) (u : Nat) (x : UnitState) : SameTime s (s.setUnit u x) := ⟨rfl, rfl⟩
theorem onUnit (s : State) (u : Nat) (f : UnitState → UnitState) : SameTime s (s.onUnit u f) := ⟨rfl, rfl⟩
theorem setArray (s : State) (u : Nat) (x : ArrayRegs) : SameTime s (s.setArray u x) := ⟨rfl, rfl⟩
theorem setPort (s : State) (p : Nat) (x : Port) : SameTime s (s.setPort p x) := ⟨rfl, rfl⟩
theorem setUctx (s : State) (c : Nat) (x : UserCtx) : SameTime s (s.setUctx c x) := ⟨rfl, rfl⟩
theorem setCommit (s : State) (n : Nat) : SameTime s (s.setCommit n) := ⟨rfl, rfl⟩
theorem plicAll (s : State) (source : Nat) : SameTime s (s.plicAll source) := ⟨rfl, rfl⟩

theorem setProgram (s : State) (x : Program) : SameTime s { s with program := x } := ⟨rfl, rfl⟩
theorem setFaults (s : State) (x : Faults) : SameTime s { s with faults := x } := ⟨rfl, rfl⟩
theorem setCommitUnit (s : State) (x : Commit) : SameTime s { s with commit := x } := ⟨rfl, rfl⟩
theorem setPower (s : State) (x : Power) : SameTime s { s with power := x } := ⟨rfl, rfl⟩
theorem setThallus (s : State) (x : Thallus) : SameTime s { s with thallus := x } := ⟨rfl, rfl⟩
theorem setFabric (s : State) (x : Fabric) : SameTime s { s with fabric := x } := ⟨rfl, rfl⟩

theorem originate (s : State) (u : Nat) (f : Flit) : SameTime s (s.originate u f) := of_clock (Emits.originate s u f).clock

theorem writeThrough (s : State) (ctx a : Nat) (bytes : List Byte) (p : Bool) : SameTime s (s.writeThrough ctx a bytes p) :=
  of_clock (StoresHbm.writeThrough s ctx a bytes p).stores.clock

theorem settle (s : State) : SameTime s s.settle := of_clock (by rw [Settles.settle s])

/-! ### The frame that ends -/

theorem streamFetch (s : State) : SameTime s (streamFetch s) := by
  unfold Machine.streamFetch
  refine ite ?_ (refl s)
  extract_lets p r x _ y
  have hx : SameTime s x := foldl (fun z b => of_clock (Notes.readBlock (by decide) z 0 0 b 0).clock) _ s
  have hy : SameTime s y := hx.trans (setProgram x _)
  split
  · exact hy.trans (raise ..)
  · exact hy

theorem overrun (s : State) : SameTime s s.overrun := by
  unfold State.overrun
  split
  · exact refl s
  · extract_lets x
    have hx : SameTime s x := foldl (fun y _ => count y _ _ _) _ s
    exact ite hx (hx.trans (raiseTick ..))

theorem countTicks (s : State) : SameTime s s.countTicks := by
  unfold State.countTicks
  refine foldl (fun x u => ?_) _ s
  extract_lets y z w v
  have hz : SameTime x z := setUnit ..
  have hv : SameTime x v := setUnit ..
  exact ite (ite (hz.trans (setFaults z _)) hz) (ite (refl x) (hv.trans (setFaults v _)))

theorem keepSnapshots (s : State) : SameTime s s.keepSnapshots := setFaults ..

theorem takeWritten (s : State) : SameTime s s.takeWritten := by
  unfold State.takeWritten
  exact ⟨rfl, rfl⟩

theorem castVote (s : State) : SameTime s s.castVote := by
  unfold State.castVote
  split
  · exact ite ⟨rfl, rfl⟩ ⟨rfl, rfl⟩
  · exact refl s

theorem countFrames (s : State) : SameTime s s.countFrames := by
  unfold State.countFrames
  extract_lets x
  have hx : SameTime s x := ite (count ..) (refl s)
  exact ite (hx.trans (setCommitUnit x _)) hx

theorem reserveTick (s : State) : SameTime s s.reserveTick := by
  unfold State.reserveTick
  extract_lets shared n shares _ x
  have hx : SameTime s x := ite (refl s) ⟨rfl, rfl⟩
  exact hx.trans (foldl (fun y _ => ite (refl y) (onUnit ..)) _ x)

theorem injectionTick (s : State) : SameTime s s.injectionTick := by
  unfold State.injectionTick
  split
  · exact ⟨rfl, rfl⟩
  · exact refl s

theorem observe (s : State) (phases : List Nat) : SameTime s (s.observe phases) := by
  unfold State.observe
  refine foldl (fun x p => ?_) _ s
  extract_lets n learned
  clear_value learned
  exact ⟨rfl, rfl⟩

theorem powerTick (s : State) : SameTime s s.powerTick := by
  unfold State.powerTick
  extract_lets p history input rails x y
  have hx : SameTime s x := put ..
  have hy : SameTime s y := ite (hx.trans (put ..)) hx
  exact ite (refl s) (hy.trans (setPower y _))

theorem closeDebt (s : State) (u : Nat) : SameTime s (s.closeDebt u) := by
  unfold State.closeDebt
  split
  · exact ⟨rfl, rfl⟩
  · exact refl s

theorem closeFrame (s : State) : SameTime s s.closeFrame := by
  unfold State.closeFrame
  extract_lets quiet phases x y z
  have hx : SameTime s x := (((overrun s).trans (countTicks _)).trans ((keepSnapshots _).trans (castVote _))).trans
    ((countFrames _).trans ((takeWritten _).trans ((reserveTick _).trans (injectionTick _))))
  have hy : SameTime s y := hx.trans ((ite (observe x phases) (refl x)).trans (powerTick _))
  have hz : SameTime s z := hy.trans (foldl closeDebt _ y)
  exact hz.trans ⟨rfl, rfl⟩

/-! ### The frame that opens -/

theorem reportOffset (s : State) : SameTime s s.reportOffset := by
  unfold State.reportOffset
  split
  · exact put ..
  · exact refl s

theorem syncTick (s : State) (bundles : List Bundle) (l stretch : Nat) : SameTime s (s.syncTick bundles l stretch) := by
  unfold State.syncTick
  extract_lets c
  refine ite ⟨rfl, rfl⟩ ?_
  split <;> exact ⟨rfl, rfl⟩

theorem takePlan (s : State) : SameTime s s.takePlan := by
  unfold State.takePlan
  split
  · extract_lets x y
    have hx : SameTime s x := foldl (fun y _ => (put y _ _ _).trans (put _ _ _ _)) _ s
    have hy : SameTime s y := ite hx (hx.trans ((count x _ _ _).trans (count _ _ _ _)))
    exact hy.trans ⟨rfl, rfl⟩
  · exact refl s

theorem keepUp (s : State) (bundles : List Bundle) : SameTime s (s.keepUp bundles) :=
  ite (foldl (fun x _ => ite (put ..) (refl x)) _ s) (refl s)

theorem endProgram (s : State) (reason : Nat) (halt : Bool) : SameTime s (s.endProgram reason halt) := by
  unfold State.endProgram
  extract_lets x reverting y _ _ _ _ z
  have hx : SameTime s x := foldl (fun y u => onUnit y u _) _ s
  have hy : SameTime s y := hx.trans (((put x _ _ _).trans (put _ _ _ _)).trans (put _ _ _ _))
  have hz : SameTime s z := hy.trans ⟨rfl, rfl⟩
  exact (ite (hz.trans (setCommit z _)) (ite hz (hz.trans (setCommit z _)))).trans (settle _)

theorem openStream (s : State) (f : Fetched) (j frames : Nat) : SameTime s (s.openStream f j frames) := ⟨rfl, rfl⟩

theorem openWait (s : State) (f : Option Fetched) (keep : Bool) : SameTime s (s.openWait f keep) := ⟨rfl, rfl⟩

theorem openExps (s : State) : SameTime s s.openExps := by
  unfold State.openExps
  extract_lets dir cold x
  have hx : SameTime s x := ite (refl s) (count ..)
  exact hx.trans ⟨rfl, rfl⟩

theorem sendPoison (s : State) (code : Nat) : SameTime s (s.sendPoison code) :=
  ite (refl s) ((setFabric s _).trans (of_clock (Emits.flood _ _ _).clock))

theorem enterAborting (s : State) : SameTime s s.enterAborting := by
  unfold State.enterAborting
  extract_lets x y
  have hx : SameTime s x := (setCommit s 4).trans (count ..)
  have hy : SameTime s y := hx.trans (foldl (fun z u => ite (refl z) (onUnit z u _)) _ x)
  exact hy.trans (setProgram y _)

theorem coordinatorAborts (s : State) (origin code : Nat) : SameTime s (s.coordinatorAborts origin code) := by
  unfold State.coordinatorAborts
  extract_lets _ x y
  have hx : SameTime s x := setCommitUnit s _
  have hy : SameTime s y := hx.trans (of_clock (Emits.tell x _ _ _ _ _).clock)
  exact ite (ite (hy.trans (enterAborting y)) hy) (refl s)

theorem abortStep (s : State) (code : Nat) : SameTime s (s.abortStep code) := by
  unfold State.abortStep
  refine ite (refl s) (ite (ite (refl s) (ite (setProgram ..) (refl s))) ?_)
  have hpoison := sendPoison s code
  split
  · exact (hpoison.trans (enterAborting _)).trans (coordinatorAborts ..)
  · exact (hpoison.trans (enterAborting _)).trans (coordinatorAborts ..)
  · exact (hpoison.trans (setCommitUnit _ _)).trans (coordinatorAborts ..)
  · exact setCommitUnit s _
  · exact refl s

theorem openStep (s : State) : SameTime s s.openStep := by
  unfold State.openStep
  extract_lets before poison _ _ _ _ x y
  have hx : SameTime s x := ⟨rfl, rfl⟩
  have hy : SameTime s y := hx.trans (openExps x)
  clear_value poison
  cases poison with
  | some code => exact hy.trans (abortStep ..)
  | none => exact hy

theorem zeroFill (s : State) (a n : Nat) : SameTime s (s.zeroFill a n) := writeThrough ..

theorem askFill (s : State) (x : Fill) : SameTime s (s.askFill x) := by
  unfold State.askFill
  extract_lets _ y
  have hy : SameTime s y := setCommitUnit s _
  exact hy.trans (originate ..)

theorem fillGroup (s : State) (d : Nat) : SameTime s (s.fillGroup d) := by
  unfold State.fillGroup
  extract_lets tensor own x
  split
  · exact refl s
  · extract_lets sources
    have hx : SameTime s x := zeroFill ..
    exact ite (raise ..) (hx.trans (foldl (fun y _ => askFill y _) _ x))

theorem fillTensor (s : State) (d : Nat) : SameTime s (s.fillTensor d) := by
  unfold State.fillTensor
  extract_lets base n rec_ r0 r1 x
  split
  · exact fillGroup ..
  · exact (fillGroup s d).trans (zeroFill ..)
  · have hx : SameTime s x := zeroFill ..
    exact ite (hx.trans (askFill ..)) (ite (hx.trans (askFill ..)) (hx.trans (raise ..)))
  · exact (zeroFill s _ _).trans (zeroFill ..)
  · exact refl s
  · exact zeroFill ..

theorem fillRecords (s : State) : SameTime s s.fillRecords := by
  unfold State.fillRecords
  extract_lets ask
  split
  · exact (originate s _ _).trans (foldl (fun x _ => originate x _ _) _ _)
  · exact raise ..

theorem beginFill (s : State) : SameTime s s.beginFill := by
  unfold State.beginFill
  extract_lets _ _ x y
  have hx : SameTime s x := ⟨rfl, rfl⟩
  have hy : SameTime s y := hx.trans (foldl fillTensor _ x)
  exact hy.trans (fillRecords y)

theorem openProgram (s : State) (f : Fetched) : SameTime s (s.openProgram f) := by
  unfold State.openProgram
  extract_lets x start
  have hx : SameTime s x := put ..
  refine hx.trans (ite (ite ?_ ?_) ?_)
  · exact ((setProgram x _).trans (beginFill _)).trans (openWait ..)
  · exact (openStream x _ _ _).trans (openStep _)
  · exact ⟨rfl, rfl⟩

theorem poisonAhead (s : State) : SameTime s s.poisonAhead := by
  unfold State.poisonAhead
  split
  · exact ite (sendPoison ..) (refl s)
  · exact refl s

theorem openFrame (s : State) : SameTime s s.openFrame := by
  unfold State.openFrame
  extract_lets _ _ x
  have hx : SameTime s x := ite ⟨rfl, rfl⟩ (refl s)
  refine hx.trans ?_
  split
  · exact (ite (poisonAhead x) (refl x)).trans (endProgram ..)
  · refine ite (setProgram ..) ?_
    split
    · exact refl x
    · refine ite (ite (setProgram ..) (openProgram ..)) (ite ((openWait ..).trans (count ..)) ?_)
      split
      · exact openWait ..
      · exact ite ((openStream ..).trans (openStep _)) (openStream ..)
      · exact openStream ..

/-! ### What goes on from frame to frame -/

theorem clearForReplay (s : State) (d : Nat) : SameTime s (s.clearForReplay d) := by
  rw [State.clearForReplay, State.clearFrond_eq]
  have hunits : SameTime s (s.clearFrondUnits d) :=
    (foldl (fun x u => onUnit x u _) _ s).trans (foldl (fun x u => setArray x u _) _ _)
  generalize s.clearFrondUnits d = x at hunits
  have hsorus : SameTime x ((x.setFiligree d {}).setSorus d
      { serial := (x.engine d).serial, cycles := (x.engine d).cycles }) := ⟨rfl, rfl⟩
  exact ((hunits.trans hsorus).trans (settle _)).trans (foldl (fun y u => onUnit y u _) _ _)

theorem openReplay (s : State) : SameTime s s.openReplay := by
  unfold State.openReplay
  split
  · exact ite (ite (setFaults ..) ((clearForReplay ..).trans (setFaults _ _))) (refl s)
  · exact refl s

theorem tickReplay (s : State) : SameTime s s.tickReplay := by
  unfold State.tickReplay
  split
  · exact ite (refl s) (setFaults ..)
  · exact refl s

theorem setTableBit (s : State) (t n : Nat) (v : Bool) : SameTime s (s.setTableBit t n v) := writeThrough ..

theorem setTableBytes (s : State) (t off : Nat) (bytes : List Byte) : SameTime s (s.setTableBytes t off bytes) := writeThrough ..

theorem unpublish (s : State) (t : Nat) : SameTime s (s.unpublish t) := (setTableBit ..).trans (setTableBit ..)

theorem slotsBack (s : State) (tables : List Nat) : SameTime s (s.slotsBack tables) :=
  foldl (fun x c => setUctx x c _) _ s

theorem publish (s : State) (t n span : Nat) : SameTime s (s.publish t n span) := by
  unfold State.publish
  extract_lets altB x y z
  have hx : SameTime s x := setTableBytes ..
  have hy : SameTime s y := hx.trans (setTableBytes ..)
  have hz : SameTime s z := hy.trans ((setTableBit ..).trans (setTableBit ..))
  exact hz.trans (setThallus z _)

theorem restartStitch (s : State) : SameTime s s.restartStitch := by
  unfold State.restartStitch
  extract_lets l x
  have hx : SameTime s x := ite (refl s) ((foldl unpublish l s).trans (slotsBack ..))
  exact ite (refl s) (hx.trans ⟨rfl, rfl⟩)

theorem publishSlots (s : State) : SameTime s s.publishSlots := by
  unfold State.publishSlots
  refine ite (refl s) (foldl (fun x c => ?_) _ s)
  extract_lets u due y slots
  have hy : SameTime x y := foldl (fun z _ => publish z _ _ _) due x
  exact ite (refl x) (hy.trans (setUctx ..))

theorem restorePorts (s : State) : SameTime s s.restorePorts :=
  ite (refl s) (foldl (fun x _ => ite (setPort ..) (refl x)) _ s)

theorem relock (s : State) : SameTime s s.relock := ⟨rfl, rfl⟩

theorem sendHeartbeats (s : State) : SameTime s s.sendHeartbeats :=
  ite (foldl (fun x _ => originate x _ _) _ s) (refl s)

end SameTime

/-! ### FRAME_TICK -/

/-- The turn itself: the next frame number, from cycle 0 (R31, R32). -/
theorem State.turnFrame_turns (s : State) :
    s.turnFrame.clock.frame = (s.clock.frame + 1) % 2 ^ 48 ∧ s.turnFrame.clock.cycle = 0 := by
  unfold State.turnFrame
  extract_lets bundles l stretch x
  have hx : SameTime s x := (SameTime.syncTick ..).trans ((SameTime.takePlan _).trans (SameTime.keepUp ..))
  clear_value x
  exact ⟨congrArg (fun n => (n + 1) % 2 ^ 48) hx.frame, rfl⟩

theorem frameTick_turns {s : State} (h : s.power.on = true) :
    (frameTick s).clock.frame = (s.clock.frame + 1) % 2 ^ 48 ∧ (frameTick s).clock.cycle = 0 := by
  unfold frameTick
  rw [if_neg (by rw [h]; decide)]
  extract_lets a b c d e f g
  have hb : SameTime s b := (SameTime.streamFetch s).trans (.ite ⟨rfl, rfl⟩ (.refl a))
  have hturn := b.closeFrame.turnFrame_turns
  have hc : SameTime b.closeFrame.turnFrame c := .openFrame _
  have hd : SameTime c d := (SameTime.openReplay c).trans (.tickReplay _)
  have he : SameTime d e := ((SameTime.restartStitch d).trans (.publishSlots _)).trans (.plicAll ..)
  have hf : SameTime e f := .restorePorts e
  have hg : SameTime f g := .ite (.relock f) (.refl f)
  have h := ((((hc.trans hd).trans he).trans hf).trans hg).trans (.sendHeartbeats g)
  rw [h.frame, h.cycle, hturn.1, hturn.2, (SameTime.closeFrame b).frame, hb.frame]
  exact ⟨rfl, rfl⟩

/-! ### STREAM_FETCH -/

/-- A frame with a finding keeps none of its bundles (R60). -/
theorem State.readFrame_found {s : State} {index : Option Nat} {a seq : Nat} (h : (s.readFrame index a seq).2.isSome = true) :
    (s.readFrame index a seq).1.bundles = [] := by
  unfold State.readFrame at h ⊢
  exact if_pos h

/-- What reading a frame's blocks through the slices leaves of a state (R255). -/
def State.fetched (s : State) (f : Fetched) (a : Nat) : State :=
  let s := (s.fetchBlocks f a).foldl (fun (s : State) b => (s.readBlock 0 0 b 0 0).1) s
  { s with program := { s.program with fetched := some f } }

theorem streamFetch_reads {s : State} (h : s.fetchDue = true) :
    streamFetch s =
      match (s.readFrame s.nextIndex (s.nextPlace s.nextIndex).1 (s.nextPlace s.nextIndex).2).2 with
      | some x => (s.fetched (s.readFrame s.nextIndex (s.nextPlace s.nextIndex).1 (s.nextPlace s.nextIndex).2).1
          (s.nextPlace s.nextIndex).1).raise 0x303 0 1 x.1 x.2
      | none => s.fetched (s.readFrame s.nextIndex (s.nextPlace s.nextIndex).1 (s.nextPlace s.nextIndex).2).1
          (s.nextPlace s.nextIndex).1 := if_pos h

/-- The next frame as read; memories but marks and lines, units and time are as before. -/
structure Fetches (s t : State) (f : Fetched) : Prop where
  program : t.program = { s.program with fetched := some f }
  hbm : t.mem.hbm = s.mem.hbm
  ops : t.mem.ops = s.mem.ops
  units : t.units = s.units
  clock : t.clock = s.clock

theorem State.fetched_fetches (s : State) (f : Fetched) (a : Nat) : Fetches s (s.fetched f a) f := by
  unfold State.fetched
  extract_lets x
  have hx : Notes s x := Notes.foldl (fun z b => Notes.readBlock (by decide) z 0 0 b 0) _ s
  clear_value x
  exact ⟨congrArg (fun p : Program => { p with fetched := some f }) hx.program, hx.hbm, hx.ops, hx.units, hx.clock⟩

theorem State.raise_reports_in (s : State) (code source die ctx detail : Nat) :
    ∃ l r, (s.raise code source die ctx detail).faults.inFlight = l ++ [r] ∧ r.2.code = code ∧ r.2.source = source ∧
      r.2.ctx = ctx ∧ r.2.detail = detail := ⟨_, _, rfl, rfl, rfl, rfl, rfl⟩

theorem Fetches.raise {s t : State} {f : Fetched} (h : Fetches s t f) (code source die ctx detail : Nat) :
    Fetches s (t.raise code source die ctx detail) f := ⟨h.program, h.hbm, h.ops, h.units, h.clock⟩

theorem streamFetch_due {s : State} (h : s.fetchDue = true) :
    ∃ t f finding, s.readFrame s.nextIndex (s.nextPlace s.nextIndex).1 (s.nextPlace s.nextIndex).2 = (f, finding) ∧
      exec .streamFetch s = .next t ∧ t.program = { s.program with fetched := some f } ∧ t.mem.hbm = s.mem.hbm ∧
      t.mem.ops = s.mem.ops ∧ t.units = s.units ∧ t.clock = s.clock ∧
      ∀ x, finding = some x → f.bundles = [] ∧ ∃ l r, t.faults.inFlight = l ++ [r] ∧ r.2.code = 0x303 ∧ r.2.source = 0 ∧
        r.2.ctx = x.1 ∧ r.2.detail = x.2 := by
  have hexec : exec .streamFetch s = .next _ := congrArg Host.Outcome.next (streamFetch_reads h)
  have hfound := State.readFrame_found (s := s) (index := s.nextIndex) (a := (s.nextPlace s.nextIndex).1)
    (seq := (s.nextPlace s.nextIndex).2)
  generalize s.readFrame s.nextIndex (s.nextPlace s.nextIndex).1 (s.nextPlace s.nextIndex).2 = r at hexec hfound
  obtain ⟨f, finding⟩ := r
  have hfetches := s.fetched_fetches f (s.nextPlace s.nextIndex).1
  generalize s.fetched f (s.nextPlace s.nextIndex).1 = x at hexec hfetches
  cases finding with
  | none => exact ⟨x, f, none, rfl, hexec, hfetches.program, hfetches.hbm, hfetches.ops, hfetches.units, hfetches.clock, nofun⟩
  | some y =>
    obtain ⟨hprogram, hhbm, hops, hunits, hclock⟩ := hfetches.raise 0x303 0 1 y.1 y.2
    refine ⟨_, f, some y, rfl, hexec, hprogram, hhbm, hops, hunits, hclock, fun z hz => ?_⟩
    obtain rfl := Option.some.inj hz
    exact ⟨hfound rfl, x.raise_reports_in 0x303 0 1 y.1 y.2⟩

/-! ### The background reserve -/

/-- Frame control's reserve changes units, counts, requests and telemetry; what decides whether table 0xFF is called stays. -/
structure Reserves (s t : State) : Prop where
  clock : t.clock = s.clock
  program : t.program = s.program
  locket : t.locket = s.locket
  ops : t.mem.ops = s.mem.ops
  hbm : t.mem.hbm = s.mem.hbm
  flen : t.get 0x6001 1 = s.get 0x6001 1

/-- The scrub of `n` blocks of a stack from block `at_` on, of a stack of `total` blocks (R266). -/
def State.scrubAt (s : State) (k at_ total n : Nat) : State :=
  let s := (List.range n).foldl (fun (s : State) j =>
    s.ask { ask := .scrub (2 ^ 28 * k + at_ + j), packet := s.packet (0x40 + k) 2 3 (k / 4) (k / 4) [] false .landed }) s
  if at_ + n < total then s.put 0x4031 (k + 1) (at_ + n)
  else
    let s := (s.put 0x4031 (k + 1) 0).count 0x4032 1 1
    { s with mem := { s.mem with scrubTime := kset 0 s.mem.scrubTime k 0 } }

namespace Reserves

variable {s t u : State}

theorem refl (s : State) : Reserves s s := ⟨rfl, rfl, rfl, rfl, rfl, rfl⟩

theorem trans (h : Reserves s t) (k : Reserves t u) : Reserves s u :=
  ⟨k.clock.trans h.clock, k.program.trans h.program, k.locket.trans h.locket, k.ops.trans h.ops, k.hbm.trans h.hbm,
    k.flen.trans h.flen⟩

theorem ite {c : Prop} [Decidable c] (h : Reserves s t) (k : Reserves s u) : Reserves s (if c then t else u) := by
  split <;> assumption

theorem foldl {α : Type} {f : State → α → State} (l : List α) (hf : ∀ x, ∀ a ∈ l, Reserves x (f x a)) (s : State) :
    Reserves s (l.foldl f s) := by
  induction l generalizing s with
  | nil => exact refl s
  | cons a l ih => exact (hf s a List.mem_cons_self).trans (ih (fun x b hb => hf x b (List.mem_cons_of_mem _ hb)) (f s a))

theorem put (s : State) {index sub : Nat} (v : Nat) (h : objKey 0x6001 1 ≠ objKey index sub) : Reserves s (s.put index sub v) :=
  ⟨rfl, rfl, rfl, rfl, rfl, s.put_get_other _ _ _ h⟩

theorem count (s : State) {index sub : Nat} (n : Nat) (h : objKey 0x6001 1 ≠ objKey index sub) :
    Reserves s (s.count index sub n) := put s _ h

theorem raise (s : State) (code source die ctx detail : Nat) : Reserves s (s.raise code source die ctx detail) :=
  ⟨rfl, rfl, rfl, rfl, rfl, rfl⟩

theorem ask (s : State) (r : StackRequest) : Reserves s (s.ask r) := ⟨rfl, rfl, rfl, rfl, rfl, rfl⟩

theorem onUnit (s : State) (u : Nat) (f : UnitState → UnitState) : Reserves s (s.onUnit u f) := ⟨rfl, rfl, rfl, rfl, rfl, rfl⟩

theorem setMem (s : State) (m : Memory) (hops : m.ops = s.mem.ops) (hhbm : m.hbm = s.mem.hbm) :
    Reserves s { s with mem := m } := ⟨rfl, rfl, rfl, hops, hhbm, rfl⟩

theorem scrubAt (s : State) {k : Nat} (hk : k < 256) (at_ total n : Nat) : Reserves s (s.scrubAt k at_ total n) := by
  have hkey : objKey 0x6001 1 ≠ objKey 0x4031 (k + 1) := by
    simp only [objKey]
    omega
  unfold State.scrubAt
  extract_lets x y
  have hx : Reserves s x := foldl _ (fun z _ _ => ask z _) s
  have hy : Reserves s y := hx.trans ((put x _ hkey).trans (count _ _ (by decide)))
  exact ite (hx.trans (put x _ hkey)) (hy.trans (setMem y _ rfl rfl))

theorem scrub (s : State) {k : Nat} (hk : k < 256) : Reserves s (s.scrub k) := scrubAt s hk _ _ _

theorem retrain (s : State) (u : Nat) : Reserves s (s.retrain u) := by
  unfold State.retrain
  extract_lets _ x
  have hx : Reserves s x := ⟨rfl, rfl, rfl, rfl, rfl, rfl⟩
  exact ite (hx.trans ⟨rfl, rfl, rfl, rfl, rfl, rfl⟩) hx

theorem collect (s : State) : Reserves s s.collect := ⟨rfl, rfl, rfl, rfl, rfl, rfl⟩

theorem noteRoom (s : State) (r : Nat) : Reserves s (s.noteRoom r) := ite (refl s) ⟨rfl, rfl, rfl, rfl, rfl, rfl⟩

theorem runItem (s : State) {u : Nat} (hu : u < 128) (item : Nat) : Reserves s (s.runItem u item) := by
  unfold State.runItem
  split
  · exact retrain ..
  · exact scrub s (by omega)
  · exact ite (collect s) (refl s)
  · exact refl s

theorem reserveUnit (s : State) (r : Nat) {u : Nat} (hu : u < 128) : Reserves s (s.reserveUnit r u) := by
  unfold State.reserveUnit
  extract_lets n f x y
  have hx : Reserves s x := ite (refl s) (onUnit ..)
  have hy : Reserves s y := hx.trans (ite (refl x) (count x _ (by decide)))
  exact hy.trans (foldl _ (fun z item _ => runItem z hu item) y)

end Reserves

theorem unitIds_lt {u : Nat} (h : u ∈ unitIds) : u < 128 := List.mem_range.1 (List.mem_filter.1 h).1

theorem Reserves.tableEntry {s t : State} (h : Reserves s t) (n : Nat) : t.tableEntry n = s.tableEntry n := by
  rw [State.tableEntry, State.tableEntry, State.hbmLE, State.hbmLE, State.hbmRead, State.hbmRead, h.program, h.hbm]

theorem Reserves.hasBackground {s t : State} (h : Reserves s t) : t.hasBackground = s.hasBackground := by
  rw [State.hasBackground, State.hasBackground, h.program, h.tableEntry]

theorem Reserves.callOk {s t : State} (h : Reserves s t) (n c l : Nat) : t.callOk n c l = s.callOk n c l := by
  rw [State.callOk, State.callOk, h.tableEntry]

/-- A call changes the program alone, and the table is called then. -/
theorem State.callTable_calls (s : State) (n ctx seq : Nat) : (s.callTable n ctx seq).clock = s.clock ∧
    (s.callTable n ctx seq).mem = s.mem ∧ (s.callTable n ctx seq).locket = s.locket ∧
    (s.callTable n ctx seq).program.calls.contains (n, seq) = true := by
  unfold State.callTable
  split
  next h => exact ⟨rfl, rfl, rfl, h⟩
  next => exact ⟨rfl, rfl, rfl, by simp⟩

theorem backgroundReserveStart_calls {s : State} (h : s.power.on = true) :
    ∃ t, exec .backgroundReserveStart s = .next t ∧ t.clock = s.clock ∧ t.mem.ops = s.mem.ops ∧ t.locket = s.locket ∧
      (s.hasBackground = false → t.program = s.program) ∧
      ((s.hasBackground && s.callOk 0xFF s.clock.cycle s.flen) = true → t.program.calls.contains (0xFF, 0) = true) := by
  refine ⟨backgroundReserveStart s, rfl, ?_⟩
  unfold backgroundReserveStart
  rw [if_neg (by rw [h]; decide)]
  extract_lets x r y
  have hx : Reserves s x := .count s _ (by decide)
  have hy : Reserves s y := (hx.trans (.noteRoom x r)).trans (.foldl _ (fun z u hu => .reserveUnit z r (unitIds_lt hu)) _)
  clear_value y
  have hflen : y.flen = s.flen := hy.flen
  rw [hy.hasBackground, hy.callOk, hy.clock, hflen]
  obtain ⟨hclock, hmem, hlocket, hcalls⟩ := y.callTable_calls 0xFF 2 0
  split
  next hcall =>
    refine ⟨hclock.trans hy.clock, ?_, hlocket.trans hy.locket, fun hnone => ?_, fun _ => hcalls⟩
    · rw [hmem, hy.ops]
    · rw [hnone, Bool.false_and] at hcall
      cases hcall
  next hcall => exact ⟨hy.clock, hy.ops, hy.locket, fun _ => hy.program, fun h => absurd h hcall⟩

/-- Settles O23: the tick, the fetch and the reserve. -/
theorem ticksFetchesAndTheReserve : Obligations.TicksFetchesAndTheReserve := by
  unfold Obligations.TicksFetchesAndTheReserve
  refine ⟨fun s => ⟨fun hon => ⟨frameTick s, rfl, frameTick_turns hon⟩, fun hoff => congrArg Host.Outcome.next ?_⟩,
    fun s => ⟨streamFetch_due, fun hidle => congrArg Host.Outcome.next ?_⟩, fun s => backgroundReserveStart_calls⟩
  · exact if_pos (by rw [hoff]; decide)
  · exact if_neg (by rw [hidle]; decide)

end Sys2Proof.Machine
end

section
/-! Reports and the first fault, hangs, and bridges that fail (R17, R19, R25, R340–R350). -/

namespace Sys2Proof.Machine

open Sys2Proof.Safety

/-! ### A report at the collector -/

/-- The collector's own registers move; units, memories, program and commit are as before, and so is every counter of Table 13.2. -/
structure Collects (s t : State) : Prop where
  units : t.units = s.units
  mem : t.mem = s.mem
  program : t.program = s.program
  commit : t.commit = s.commit
  inFlight : t.faults.inFlight = s.faults.inFlight
  record : t.faults.record = s.faults.record
  competing : t.faults.competing = s.faults.competing
  get : ∀ index sub, 0x3003 ≤ index → t.get index sub = s.get index sub

namespace Collects

variable {s t u : State}

theorem refl (s : State) : Collects s s := ⟨rfl, rfl, rfl, rfl, rfl, rfl, rfl, fun _ _ _ => rfl⟩

theorem trans (h : Collects s t) (k : Collects t u) : Collects s u :=
  ⟨k.units.trans h.units, k.mem.trans h.mem, k.program.trans h.program, k.commit.trans h.commit, k.inFlight.trans h.inFlight,
    k.record.trans h.record, k.competing.trans h.competing, fun i j hi => (k.get i j hi).trans (h.get i j hi)⟩

theorem ite {c : Prop} [Decidable c] (h : Collects s t) (k : Collects s u) : Collects s (if c then t else u) := by
  split <;> assumption

theorem put (s : State) {sub : Nat} (v : Nat) (h : sub < 256) : Collects s (s.put 0x3002 sub v) := by
  refine ⟨rfl, rfl, rfl, rfl, rfl, rfl, rfl, fun i j hi => s.put_get_other _ _ _ ?_⟩
  simp only [objKey]
  omega

theorem count (s : State) {sub : Nat} (n : Nat) (h : sub < 256) : Collects s (s.count 0x3002 sub n) := put s _ h

theorem logReport (s : State) (r : Report) (a : Nat) : Collects s (s.logReport r a) := by
  unfold State.logReport
  extract_lets n f x y
  have hx : Collects s x := ite (refl s) (count s 1 (by decide))
  have hy : Collects s y := hx.trans (put x _ (by decide))
  have hlogged : Collects y { y with faults := { y.faults with
      log := (insertRecord (recordWord r a (y.stepCount % 2 ^ 24) false) f.log).take logSize
      perFrame := kset 0 f.perFrame r.code (n + 1) } } := ⟨rfl, rfl, rfl, rfl, rfl, rfl, rfl, fun _ _ _ => rfl⟩
  exact ite (count s 1 (by decide)) (hy.trans hlogged)

end Collects

/-- A report competes for the record, or sets OVERFLOW on a latched one (R346). -/
theorem State.compete_open {s : State} (r : Report) (a : Nat) (h : s.faults.record = none) :
    (∃ n, (s.compete r a).faults.competing = s.faults.competing ++ [(r, n)]) ∧
      (s.compete r a).faults.deadline.isSome = true := by
  have heq : s.compete r a = { s with faults := { s.faults with
      competing := s.faults.competing ++ [(r, a + 8 * (s.stepCount % 2 ^ 24))]
      deadline := if s.faults.deadline.isSome then s.faults.deadline else some 48 } } := by
    simp only [State.compete, h, Option.isSome_none, Bool.false_eq_true, if_false]
  rw [heq]
  refine ⟨⟨_, rfl⟩, ?_⟩
  dsimp only
  split
  next hset => exact hset
  next => rfl

theorem State.compete_latched {s : State} (r : Report) (a : Nat) (h : s.faults.record.isSome = true) :
    s.compete r a = { s with faults := { s.faults with overflow := true } } := if_pos h

/-- Whether it competes or not, a report changes nothing but the collector. -/
theorem State.compete_leaves (s : State) (r : Report) (a : Nat) : ∃ f, s.compete r a = { s with faults := f } ∧
    f.inFlight = s.faults.inFlight := by
  unfold State.compete
  extract_lets f
  split
  · exact ⟨_, rfl, rfl⟩
  · exact ⟨_, rfl, rfl⟩

/-- The report is off its way. -/
def State.arrived (s : State) (r : Report) : State :=
  { s with faults := { s.faults with inFlight := s.faults.inFlight.eraseP fun x => x.2 == r } }

/-- The report is counted under its code, where Table 13.2 has it. -/
def State.countReport (s : State) (r : Report) : State :=
  if (faultRow r.code).isSome then s.count (0x3020 + r.code / 256) (r.code % 256) 1 else s

theorem State.countReport_onDict (s : State) (r : Report) : OnDict s (s.countReport r) := by
  unfold State.countReport
  split
  · exact (OnDict.refl s).count ..
  · exact .refl s

theorem State.arrived_carried (s : State) (r : Report) : (s.arrived r).carried r = s.carried r := rfl

/-- A report with LOG as its action is counted, logged and competes (R342). -/
theorem faultReport_logs {r : Report} {s : State} (h : s.carried r = 0) :
    faultReport r s = (((s.arrived r).countReport r).logReport r 0).compete r 0 := by
  have heq : faultReport r s = ((((s.arrived r).countReport r).logReport r ((s.arrived r).carried r)).compete r
      ((s.arrived r).carried r)).act ((s.arrived r).carried r) r := rfl
  rw [heq, State.arrived_carried, h]
  rfl

theorem faultReport_collects {r : Report} {s : State} (h : s.carried r = 0) :
    ∃ t, exec (.faultReport r) s = .next t ∧ t.units = s.units ∧ t.mem = s.mem ∧ t.program = s.program ∧ t.commit = s.commit ∧
      t.faults.inFlight = (s.faults.inFlight.eraseP fun x => x.2 == r) ∧
      (s.faults.record = none → (∃ n, t.faults.competing = s.faults.competing ++ [(r, n)]) ∧ t.faults.deadline.isSome = true) ∧
      (s.faults.record.isSome = true → t.faults.record = s.faults.record ∧ t.faults.overflow = true ∧
        t.faults.competing = s.faults.competing) ∧
      ((faultRow r.code).isSome = true → r.code < 0x600 →
        t.get (0x3020 + r.code / 256) (r.code % 256) =
          (s.count (0x3020 + r.code / 256) (r.code % 256) 1).get (0x3020 + r.code / 256) (r.code % 256)) := by
  refine ⟨_, congrArg Host.Outcome.next (faultReport_logs h), ?_⟩
  obtain ⟨d, hd⟩ := (s.arrived r).countReport_onDict r
  have hlog := Collects.logReport ((s.arrived r).countReport r) r 0
  have hcount : (faultRow r.code).isSome = true → (s.arrived r).countReport r =
      (s.arrived r).count (0x3020 + r.code / 256) (r.code % 256) 1 := fun hrow => if_pos hrow
  generalize (s.arrived r).countReport r = x at hd hlog hcount
  generalize x.logReport r 0 = y at hlog
  have hrecord : y.faults.record = s.faults.record := by rw [hlog.record, hd]; rfl
  have hcompeting : y.faults.competing = s.faults.competing := by rw [hlog.competing, hd]; rfl
  obtain ⟨f, hf, hflight⟩ := y.compete_leaves r 0
  refine ⟨?_, ?_, ?_, ?_, ?_, fun hopen => ?_, fun hlatched => ?_, fun hrow hcode => ?_⟩
  · rw [hf, hlog.units, hd]
    rfl
  · rw [hf, hlog.mem, hd]
    rfl
  · rw [hf, hlog.program, hd]
    rfl
  · rw [hf, hlog.commit, hd]
    rfl
  · rw [hf, hflight, hlog.inFlight, hd]
    rfl
  · rw [← hcompeting]
    exact State.compete_open r 0 (hrecord.trans hopen)
  · rw [State.compete_latched r 0 (by rw [hrecord]; exact hlatched)]
    exact ⟨hrecord, rfl, hcompeting⟩
  · rw [hf]
    refine (hlog.get _ _ (by omega)).trans ?_
    rw [hcount hrow]
    exact State.count_get_congr 1 rfl

/-! ### The lowest stamp -/

theorem earlier_iff (a b : Report) : earlier a b = true ↔ a.frame < b.frame ∨ a.frame = b.frame ∧
    (a.cycle < b.cycle ∨ a.cycle = b.cycle ∧ (a.die < b.die ∨ a.die = b.die ∧ a.source < b.source)) := by
  simp [earlier]

/-- A report that is not before a second one, where the second is not before a third, is not before the third (R19). -/
theorem earlier_false_trans {a b c : Report} (hab : earlier a b = false) (hbc : earlier b c = false) : earlier a c = false := by
  rw [← Bool.not_eq_true, earlier_iff] at *
  omega

theorem earlier_asymm {a b : Report} (h : earlier a b = true) : earlier b a = false := by
  rw [← Bool.not_eq_true]
  rw [earlier_iff] at *
  omega

/-- The report that is latched is one of the competing ones, and none has a lower stamp (R25). -/
theorem firstReport_least {l : List (Report × Nat)} (h : l ≠ []) :
    ∃ x, firstReport l = some x ∧ x ∈ l ∧ ∀ y ∈ l, earlier y.1 x.1 = false := by
  induction l with
  | nil => exact absurd rfl h
  | cons a l ih =>
    by_cases hl : l = []
    · subst hl
      refine ⟨a, rfl, List.mem_cons_self, fun y hy => ?_⟩
      rw [List.mem_singleton.1 hy, ← Bool.not_eq_true, earlier_iff]
      omega
    · obtain ⟨x, hx, hmem, hleast⟩ := ih hl
      by_cases hbefore : earlier x.1 a.1 = true
      · refine ⟨x, by simp [firstReport, hx, hbefore], List.mem_cons_of_mem _ hmem, fun y hy => ?_⟩
        obtain rfl | hy := List.mem_cons.1 hy
        · exact earlier_asymm hbefore
        · exact hleast y hy
      · refine ⟨a, by simp [firstReport, hx, hbefore], List.mem_cons_self, fun y hy => ?_⟩
        rw [Bool.not_eq_true] at hbefore
        obtain rfl | hy := List.mem_cons.1 hy
        · rw [← Bool.not_eq_true, earlier_iff]
          omega
        · exact earlier_false_trans (hleast y hy) hbefore

/-! ### The first fault -/

/-- The record is latched with the action and the step of the report (R346). -/
def State.latch (s : State) (x : Report × Nat) : State :=
  { s with faults := { s.faults with
    record := some (x.1, x.2 % 8, x.2 / 8)
    overflow := decide (1 < s.faults.competing.length)
    competing := []
    deadline := none } }

theorem firstFaultLatch_latches {s : State} {x : Report × Nat} (hopen : s.faults.record = none)
    (hx : firstReport s.faults.competing = some x) : firstFaultLatch s = (s.latch x).plic 1 5 := by
  simp only [firstFaultLatch, hopen, hx]
  rfl

theorem firstFaultLatch_waits {s : State} (h : s.faults.record.isSome = true ∨ s.faults.competing = []) :
    firstFaultLatch s = s := by
  unfold firstFaultLatch
  extract_lets f
  split
  next r x hopen hfirst =>
    obtain hlatched | hnone := h
    · rw [hopen] at hlatched
      cases hlatched
    · rw [hnone] at hfirst
      cases hfirst
  next => rfl

/-- A source in service is held for its completion (R230). -/
theorem State.plic_held {s : State} {d source : Nat} (h : bit (kget 0 s.thallus.plicServing d) source = true) :
    bit (kget 0 (s.plic d source).thallus.plicHeld d) source = true := by
  simp only [State.plic, h, if_true, kget_kset_same]
  simp only [bit, Nat.testBit_or, Nat.testBit_two_pow_self, Bool.or_true]

theorem firstFaultLatch_least {s : State} (hopen : s.faults.record = none) (hsome : s.faults.competing ≠ []) :
    ∃ t x, exec .firstFaultLatch s = .next t ∧ x ∈ s.faults.competing ∧ t.faults.record = some (x.1, x.2 % 8, x.2 / 8) ∧
      (∀ y ∈ s.faults.competing, earlier y.1 x.1 = false) ∧ t.faults.overflow = decide (1 < s.faults.competing.length) ∧
      t.faults.competing = [] ∧
      (bit (kget 0 s.thallus.plicServing 1) 5 = false → bit (kget 0 t.thallus.plic 1) 5 = true) ∧
      (bit (kget 0 s.thallus.plicServing 1) 5 = true → bit (kget 0 t.thallus.plicHeld 1) 5 = true) ∧ t.mem = s.mem ∧
      t.units = s.units := by
  obtain ⟨x, hx, hmem, hleast⟩ := firstReport_least hsome
  exact ⟨_, x, congrArg Host.Outcome.next (firstFaultLatch_latches hopen hx), hmem, rfl, hleast, rfl, rfl,
    fun hfree => State.plic_raised (s := s.latch x) hfree, fun hserving => State.plic_held (s := s.latch x) hserving, rfl, rfl⟩

/-- Settles O40: a report with LOG as its action, and the latch. -/
theorem reportsAndTheFirstFault : Obligations.ReportsAndTheFirstFault := by
  unfold Obligations.ReportsAndTheFirstFault
  exact ⟨fun _ _ => faultReport_collects, fun _ => firstFaultLatch_least,
    fun _ h => congrArg Host.Outcome.next (firstFaultLatch_waits h)⟩

/-! ### Hangs -/

theorem frondHang_raises {u : Nat} {s : State} (h : (frondUnit u && s.hangs u) = true) :
    frondHang u s = (s.onUnit u fun x => { x with hung := true }).raiseFrondHang u := if_pos h

theorem State.raiseFrondHang_raises (s : State) (u : Nat) : ∃ r, (s.raiseFrondHang u).units = s.units ∧
    (s.raiseFrondHang u).mem = s.mem ∧ (s.raiseFrondHang u).faults.replayNext.isSome = true ∧
    (s.raiseFrondHang u).faults.inFlight = s.faults.inFlight ++ [r] ∧ r.2.code = 0x304 ∧ r.2.source = u :=
  ⟨_, rfl, rfl, rfl, rfl, rfl, rfl⟩

theorem frondHang_hangs {u : Nat} {s : State} (h : (frondUnit u && s.hangs u) = true) :
    ∃ t r, exec (.frondHang u) s = .next t ∧ (t.unit u).hung = true ∧
      t.faults.inFlight = s.faults.inFlight ++ [r] ∧ r.2.code = 0x304 ∧ r.2.source = u ∧ t.faults.replayNext.isSome = true ∧
      t.mem = s.mem ∧ ∀ v, v ≠ u → t.unit v = s.unit v := by
  have hexec : exec (.frondHang u) s = .next _ := congrArg Host.Outcome.next (frondHang_raises h)
  obtain ⟨r, hunits, hmem, hreplay, hflight, hcode, hsource⟩ :=
    (s.onUnit u fun x => { x with hung := true }).raiseFrondHang_raises u
  refine ⟨_, r, hexec, ?_, hflight, hcode, hsource, hreplay, hmem, fun v hv => ?_⟩
  · rw [State.unit, hunits]
    exact congrArg UnitState.hung (s.onUnit_unit_same u fun x => { x with hung := true })
  · rw [State.unit, hunits]
    exact s.onUnit_unit_other u _ hv

theorem unitHang_hangs {u : Nat} {s : State} (h : (!frondUnit u && s.hangs u) = true) :
    ∃ t r, exec (.unitHang u) s = .next t ∧ (t.unit u).hung = true ∧
      t.faults.inFlight = s.faults.inFlight ++ [r] ∧ r.2.code = 0x305 ∧ r.2.source = u ∧ t.dict = s.dict ∧
      t.mem = s.mem ∧ ∀ v, v ≠ u → t.unit v = s.unit v := by
  refine ⟨_, _, congrArg Host.Outcome.next (if_pos h), ?_, rfl, rfl, rfl, rfl, rfl, fun v hv => ?_⟩
  · exact congrArg UnitState.hung (s.onUnit_unit_same u fun x => { x with hung := true })
  · exact s.onUnit_unit_other u (fun x => { x with hung := true }) hv

/-- The detail of THALLUS_HANG names the program counter and the cause (Table 13.7). -/
theorem bits_packFields_core (c pc cause : Nat) (hpc : pc < 2 ^ 64) (hcause : cause < 2 ^ 64) :
    bits (packFields [(5, c), (64, pc), (64, cause)]) 68 5 = pc ∧
      bits (packFields [(5, c), (64, pc), (64, cause)]) 132 69 = cause := by
  simp only [bits, packFields, Nat.shiftRight_eq_div_pow]
  omega

theorem thallusHang_names (c : Nat) (pc cause : BitVec 64) (s : State) :
    ∃ t r, exec (.thallusHang c pc cause) s = .next t ∧ t.faults.inFlight = s.faults.inFlight ++ [r] ∧ r.2.code = 0x306 ∧
      r.2.source = 0x88 + c ∧ bits r.2.detail 68 5 = pc.toNat ∧ bits r.2.detail 132 69 = cause.toNat ∧ t.mem = s.mem ∧
      t.units = s.units := by
  obtain ⟨hpc, hcause⟩ := bits_packFields_core c pc.toNat cause.toNat pc.isLt cause.isLt
  exact ⟨thallusHang c pc.toNat cause.toNat s, _, rfl, rfl, rfl, rfl, hpc, hcause, rfl, rfl⟩

/-! ### A bridge that fails -/

/-- The packet that meets the failed resends comes poisoned and 256 cycles late (R17). -/
theorem BridgeLane.fail_wire {x : BridgeLane} {j n : Nat} {p : Packet} (h : x.wire[j]? = some (n, p)) :
    (x.fail j).wire[j]? = some (n + 256, { p with poison := true }) := by
  have hj : j < x.wire.length := (List.getElem?_eq_some_iff.1 h).1
  simp only [BridgeLane.fail, h]
  rw [List.append_assoc, List.getElem?_append_right (by rw [List.length_take]; omega), List.length_take,
    Nat.min_eq_left hj.le, Nat.sub_self]
  rfl

theorem BridgeLane.laneEnd_of (east eastward : Bool) : laneEnd (2 * b2n east + b2n (!eastward)) =
    if eastward then (if east then 2 else 1) else if east then 1 else 0 := by
  cases east <;> cases eastward <;> rfl

/-- The state that a failed transfer leaves before it is reported. -/
def State.failTransfer (s : State) (l address : Nat) : State :=
  match (s.lane l).wire.findIdx? fun p => p.2.landsOn address with
  | some j => s.setLane l ((s.lane l).fail j)
  | none => if bit address 63 then s.poisonOp (laneEnd l) (opOffset address) 64 else s.poisonHbm address 64

theorem bridgeFail_eq (east eastward : Bool) (units address : Nat) (s : State) : bridgeFail east eastward units address s =
    (s.failTransfer (2 * b2n east + b2n (!eastward)) address).raiseBridge east (!eastward) units := rfl

theorem State.raiseBridge_raises (s : State) (east west : Bool) (units : Nat) :
    ∃ r, (s.raiseBridge east west units).faults.inFlight = s.faults.inFlight ++ [r] ∧ r.2.code = 0x205 ∧
      r.2.source = (if east then 0x81 else 0x80) ∧ (s.raiseBridge east west units).mem = s.mem ∧
      (s.raiseBridge east west units).traffic = s.traffic := ⟨_, rfl, rfl, rfl, rfl, rfl⟩

theorem State.failTransfer_leaves (s : State) (l address : Nat) : (s.failTransfer l address).mem.hbm = s.mem.hbm ∧
    (s.failTransfer l address).mem.ops = s.mem.ops ∧ (s.failTransfer l address).faults = s.faults := by
  unfold State.failTransfer
  split
  · exact ⟨rfl, rfl, rfl⟩
  · split <;> exact ⟨rfl, rfl, rfl⟩

theorem State.failTransfer_inside {s : State} {l address j n : Nat} {q : Packet}
    (hj : ((s.lane l).wire.findIdx? fun p => p.2.landsOn address) = some j) (hq : (s.lane l).wire[j]? = some (n, q)) :
    ((s.failTransfer l address).lane l).wire[j]? = some (n + 256, { q with poison := true }) ∧
      (s.failTransfer l address).mem = s.mem := by
  have heq : s.failTransfer l address = s.setLane l ((s.lane l).fail j) := by simp only [State.failTransfer, hj]
  have hlane : (s.setLane l ((s.lane l).fail j)).lane l = (s.lane l).fail j := kget_kset_same _ _ _ _
  rw [heq, hlane]
  exact ⟨BridgeLane.fail_wire hq, rfl⟩

theorem State.failTransfer_outside {s : State} {l address : Nat}
    (h : ∀ q ∈ (s.lane l).wire, q.2.landsOn address = false) :
    (bit address 63 = false → s.failTransfer l address = s.poisonHbm address 64) ∧
      (bit address 63 = true → s.failTransfer l address = s.poisonOp (laneEnd l) (opOffset address) 64) := by
  have hnone : ((s.lane l).wire.findIdx? fun p => p.2.landsOn address) = none := List.findIdx?_eq_none_iff.2 h
  exact ⟨fun hbit => by simp [State.failTransfer, hnone, hbit], fun hbit => by simp [State.failTransfer, hnone, hbit]⟩

/-- Settles O41: hangs by unit and core, and the failure of a bridge by what its lane holds. -/
theorem hangsAndBridgeFailures : Obligations.HangsAndBridgeFailures := by
  unfold Obligations.HangsAndBridgeFailures
  refine ⟨⟨fun u s => ⟨frondHang_hangs, fun h => congrArg Host.Outcome.next (if_neg (by rw [h]; decide)), unitHang_hangs,
    fun h => congrArg Host.Outcome.next (if_neg (by rw [h]; decide))⟩, thallusHang_names⟩, fun east eastward units address s => ?_⟩
  have hexec : exec (.bridgeFail east eastward units address) s = .next _ :=
    congrArg Host.Outcome.next (bridgeFail_eq east eastward units address s)
  obtain ⟨hhbm, hops, hfaults⟩ := s.failTransfer_leaves (2 * b2n east + b2n (!eastward)) address
  have hinside := @State.failTransfer_inside s (2 * b2n east + b2n (!eastward)) address
  have houtside := @State.failTransfer_outside s (2 * b2n east + b2n (!eastward)) address
  rw [BridgeLane.laneEnd_of] at houtside
  generalize 2 * b2n east + b2n (!eastward) = l at hexec hhbm hops hfaults hinside houtside ⊢
  generalize s.failTransfer l address = x at hexec hhbm hops hfaults hinside houtside
  obtain ⟨r, hflight, hcode, hsource, hmem, htraffic⟩ := x.raiseBridge_raises east (!eastward) units
  refine ⟨_, r, hexec, by rw [hflight, hfaults], hcode, hsource, by rw [hmem, hhbm], by rw [hmem, hops], fun j n q hj hq => ?_,
    fun hnone => ⟨fun hbit => ?_, fun hbit => ?_⟩⟩
  · rw [State.lane, htraffic, hmem]
    exact hinside hj hq
  · rw [hmem, (houtside hnone).1 hbit]
    exact ⟨fun b => mem_foldl_insertNat, rfl⟩
  · rw [hmem, (houtside hnone).2 hbit]
    exact ⟨rfl, fun g => mem_foldl_insertPair⟩

end Sys2Proof.Machine
end

section
/-! Two more statements that fail: an atomic operation beyond the twelve stacks counts in the program status, and a write of the
mailbox status pops an entry besides clearing OVERFLOW (R228, R246, R261, R310). -/

namespace Sys2Proof.Machine

open Sys2Proof.Safety

/-! ### Atomic operations -/

/-- A descriptor directory with one tensor descriptor: four bytes of class 0x02 at an address whose counter is object 0x6010.03,
with their record plane at 4096. -/
def strayRecorded : Mem :=
  Mem.writeN {} 0 (leBytes 64 (64 + 2 ^ 64) ++
    leBytes 64 (aliasAddress (objKey 0x6010 3) * 2 ^ 64 + 4 * 2 ^ 128 + 2 * 2 ^ 200 + 4096 * 2 ^ 384))

/-- The program of a training run, which is not running. -/
def idleTraining : State := { State.reset with
  mem := { State.reset.mem with hbm := strayRecorded }
  program := { State.reset.program with kind := 1 } }

/-- The packet of an atomic operation. -/
def atomicPacket : Packet := idleTraining.packet 0x40 0 0 0 0 [] false .landed

theorem idleTraining_atomic :
    ((idleTraining.tensorDesc (idleTraining.landTensor (aliasAddress (objKey 0x6010 3)))) = none ∧
      overlaps (aliasAddress (objKey 0x6010 3)) 4 idleTraining.program.descDir 48 = false ∧
      overlaps (aliasAddress (objKey 0x6010 3)) 4 (idleTraining.dirBase 0) (64 * idleTraining.dirCount 0) = false) ∧
    (aliasAddress (objKey 0x6010 3) % 4 = 0 ∧ 4096 < aliasAddress (objKey 0x6010 3)) ∧
    (idleTraining.amoEffect atomicPacket (aliasAddress (objKey 0x6010 3)) 0 4 1).mem.hbm.read 4096 ≠
      idleTraining.mem.hbm.read 4096 := by decide +kernel

/-- Refutes O29: the read of an atomic operation beyond every stack counts the miss in object 0x6010.03, so that a training
program runs when its write lands; the write then reaches the record plane of the tensor, a byte outside the four. -/
theorem not_boardLoadsAndAtomics : ¬ Obligations.BoardLoadsAndAtomics := by
  unfold Obligations.BoardLoadsAndAtomics
  intro h
  obtain ⟨⟨hdesc, hdir, htable⟩, ⟨haligned, hbelow⟩, hchanged⟩ := idleTraining_atomic
  obtain ⟨-, -, -, -, hatomic⟩ := h
  have hplain : plainLanding idleTraining (idleTraining.landTensor (aliasAddress (objKey 0x6010 3)))
      (aliasAddress (objKey 0x6010 3)) 4 := ⟨fun d hd => absurd (hdesc.symm.trans hd) nofun, hdir, htable⟩
  exact hchanged ((hatomic idleTraining atomicPacket _ 0 4 1 hplain haligned (.inl rfl)).2.1 4096 (.inl hbelow))

/-! ### The mailbox status register -/

/-- An entry for user context 4 stands in the ring of die 0, and the thread of the context on core 2 waits for one, its buffer in a
writable mapping at address 0 of HBM. -/
def waitingMapped : State := { State.reset with
  dict := [(objKey 0x6063 5, 4), (objKey 0x6067 5, 2)]
  thallus := { State.reset.thallus with
    boxes := [(0, { ring := [4 * 2 ^ 28] })]
    ctxs := [(4, { grants := [(0, 4096, true)], maps := [(0, 0)], threads := [(2, { waiting := some (0, 1) })] })] } }

/-- The write of the status register: POP and a 1 that clears OVERFLOW. -/
def popAndClear : BitVec 64 := 0x101000000

theorem waitingMapped_pops :
    (waitingMapped.faults.clusterReset.contains (0 / 8) = false ∧ (waitingMapped.retire 0).caller 0 = none ∧
      (waitingMapped.core 0).mode ≠ 0 ∧ bit popAndClear.toNat 32 = true) ∧
    (boardSpaceAccess 0 0 (.device .mailStatus (some popAndClear)) waitingMapped).mem.hbm.read 3 ≠
      waitingMapped.mem.hbm.read 3 := by decide +kernel

/-- Refutes O30: the write that clears OVERFLOW also retires the oldest entry of the ring, which goes to the mapped buffer of the
thread that waits for it; so bytes of HBM change. -/
theorem not_boardAnswersAndCoreAccesses : ¬ Obligations.BoardAnswersAndCoreAccesses := by
  unfold Obligations.BoardAnswersAndCoreAccesses
  intro h
  obtain ⟨⟨hreset, hcaller, hmode, hclear⟩, hchanged⟩ := waitingMapped_pops
  obtain ⟨-, -, -, -, -, -, -, hdevice, -⟩ := h
  obtain ⟨t, hexec, -, hmem⟩ := (hdevice 0 0 popAndClear waitingMapped hreset hcaller hmode).1 hclear
  have ht : boardSpaceAccess 0 0 (.device .mailStatus (some popAndClear)) waitingMapped = t := Host.Outcome.next.inj hexec
  rw [ht, hmem] at hchanged
  exact hchanged rfl

end Sys2Proof.Machine
end

section
/-! The mailbox calls of user contexts, and the entries that reach them (R234–R236). -/

namespace Sys2Proof.Machine

open Sys2Proof.Safety

/-! ### Threads and their answers -/

theorem State.setThread_thread_same (s : State) (c core : Nat) (x : Thread) : (s.setThread c core x).thread c core = x := by
  rw [State.thread, State.setThread, State.setUctx_uctx_same, kget_kset_same]

theorem State.answerCall_a0 (s : State) (c core : Nat) (v : Int) :
    ((s.answerCall c core v).thread c core).a0 = BitVec.ofInt 64 v := by
  rw [State.answerCall, State.setThread_thread_same]

@[simp] theorem State.answerCall_mem (s : State) (c core : Nat) (v : Int) : (s.answerCall c core v).mem = s.mem := rfl

@[simp] theorem State.answerCall_dict (s : State) (c core : Nat) (v : Int) : (s.answerCall c core v).dict = s.dict := rfl

@[simp] theorem State.answerCall_box (s : State) (c core : Nat) (v : Int) (d : Nat) : (s.answerCall c core v).box d = s.box d := rfl

/-- An answer changes a thread, and of its context nothing else. -/
theorem State.answerCall_uctx (s : State) (c core : Nat) (v : Int) :
    ∃ l, (s.answerCall c core v).uctx c = { s.uctx c with threads := l } :=
  ⟨_, by rw [State.answerCall, State.setThread, State.setUctx_uctx_same]⟩

/-! ### Private memory -/

section
variable {s : State} {c va : Nat} (h : s.mappingAt c va = none)
include h

/-- Nothing keeps a context from reading its own memory, and its quota alone from writing it (log 51). -/
theorem State.userStop_unmapped (n : Nat) (write : Bool) : s.userStop c va n write =
    if write && decide (s.ctxObject 0x6064 c * 2 ^ 20 < (s.uctx c).used + 4096 * ((s.uctx c).newPages va n).length) then
      some overQuota else none := by
  rw [State.userStop, h]

theorem State.userStop_within {n : Nat}
    (hquota : (s.uctx c).used + 4096 * ((s.uctx c).newPages va n).length ≤ s.ctxObject 0x6064 c * 2 ^ 20) :
    s.userStop c va n true = none := by
  rw [State.userStop_unmapped h, Bool.true_and, if_neg (by simpa using hquota)]

theorem State.userWrite_unmapped (bytes : List Byte) : s.userWrite c va bytes = s.setUctx c { s.uctx c with
    priv := (s.uctx c).priv.writeN va bytes, pages := (s.uctx c).pages ++ (s.uctx c).newPages va bytes.length } := by
  rw [State.userWrite, h]

theorem State.userRead_unmapped (core n : Nat) : s.userRead c core va n = (s, (s.uctx c).priv.readN va n) := by
  rw [State.userRead, h]

theorem State.mappingAt_queue (l : List Nat) : (s.setUctx c { s.uctx c with queue := l }).mappingAt c va = none := by
  rw [← h, State.mappingAt, State.mappingAt, State.setUctx_uctx_same]

end

/-! ### MBOX_SEND -/

/-- The thread that a core's push names (Table 9.7). -/
theorem State.mailEntry_core (s : State) (msg ctx core die : Nat) : bits (s.mailEntry msg ctx (some core) die) 41 37 = core % 2 ^ 5 := by
  generalize hb : b2n (some core).isSome = b
  simp only [State.mailEntry, packFields, bits, Nat.shiftRight_eq_div_pow, hb, Option.getD_some]
  omega

section
variable {s : State} {d e : Nat}

/-- A push to a ring with room: the entry lands, and the thread it names is answered (R236). -/
theorem State.pushMail_joins (h : s.boxFull d = false) : s.pushMail d e =
    ((s.setBox d { s.box d with pushed := true }).mail d e).answerCall (bits e 35 32) (bits e 41 37) 0 := by
  simp [State.pushMail, h]

theorem State.pushMail_drops (h : s.boxFull d = true) : s.pushMail d e =
    ((s.setBox d { s.box d with pushed := false }).count 0x6068 (d + 1) 1).answerCall (bits e 35 32) (bits e 41 37) busyOrFull := by
  simp [State.pushMail, h]

end

section
variable {s : State} {core c : Nat} (h : CallsFrom s core c)
include h

theorem mailSend_call (d msg : Nat) : mailSend core d msg s =
    if bits msg 31 28 < 4 ∨ 3 ≤ d then s.answerCall c core badArgument
    else if d = core / 8 then s.pushMail d (s.mailEntry msg c (some core) (core / 8))
    else s.carry (s.packet (0x88 + core) c 5 (core / 8) d (leBytes 16 (s.mailEntry msg c (some core) (core / 8))) false
      (.mail d (s.mailEntry msg c (some core) (core / 8)))) := s.call_from _ h

theorem mailReceive_call (buffer timeout : Nat) : mailReceive core buffer timeout s =
    if (s.userStop c buffer 16 true).isSome then s.answerCall c core ((s.userStop c buffer 16 true).getD 0)
    else if !(s.uctx c).queue.isEmpty then s.takeEntry c core buffer
    else if timeout = 0 then s.answerCall c core timedOut
    else s.setThread c core { s.thread c core with waiting := some (buffer, timeout * 1250) } := s.call_from _ h

end

/-! ### MBOX_RECV -/

/-- The oldest entry of the queue goes to the memory of the context within the quota, and the call answers 0. -/
theorem State.takeEntry_stores {s : State} {c core buffer e : Nat} {rest : List Nat} (hqueue : (s.uctx c).queue = e :: rest)
    (hmap : s.mappingAt c buffer = none)
    (hquota : (s.uctx c).used + 4096 * ((s.uctx c).newPages buffer 16).length ≤ s.ctxObject 0x6064 c * 2 ^ 20) :
    ∃ u : UserCtx, s.takeEntry c core buffer = (s.setUctx c { s.uctx c with queue := rest } |>.setUctx c u).answerCall c core 0 ∧
      u.queue = rest ∧ u.priv = (s.uctx c).priv.writeN buffer (leBytes 16 e) := by
  have hgone := State.mappingAt_queue hmap rest
  have hfree : (s.setUctx c { s.uctx c with queue := rest }).userStop c buffer 16 true = none := by
    refine State.userStop_within hgone ?_
    rw [State.setUctx_uctx_same]
    exact hquota
  have htake : s.takeEntry c core buffer = (s.setUctx c { s.uctx c with queue := rest }).handEntry c core buffer e := by
    rw [State.takeEntry, hqueue]
  rw [htake, State.handEntry, hfree]
  dsimp only
  rw [State.userWrite_unmapped hgone, State.setUctx_uctx_same]
  exact ⟨_, rfl, rfl, rfl⟩

/-! ### Delivery -/

/-- The ring of a die without its oldest entry. -/
def State.retired (s : State) (d : Nat) (rest : List Nat) : State :=
  s.setBox d { s.box d with ring := rest, head := ((s.box d).head + 1) % 256 }

theorem State.retired_ring (s : State) (d : Nat) (rest : List Nat) : ((s.retired d rest).box d).ring = rest := by
  rw [State.retired, State.setBox_box_same]

theorem State.retired_agent (s : State) (d : Nat) (rest : List Nat) : (s.retired d rest).thallus.agent = s.thallus.agent := rfl

section
variable {s : State} {d e : Nat}

theorem mailPop_delivers {rest : List Nat} (h : (s.box d).ring = e :: rest) : mailPop d s = (s.retired d rest).deliver d e := by
  rw [mailPop, h]
  rfl

theorem mailPop_empty (h : (s.box d).ring = []) : mailPop d s = s := by
  rw [mailPop, h]

theorem State.deliver_agent (h : bits e 31 28 < 4) : s.deliver d e = { s with thallus := { s.thallus with
    agent := kset [] s.thallus.agent (4 * d + bits e 31 28) (e :: kget [] s.thallus.agent (4 * d + bits e 31 28)) } } :=
  if_pos h

variable (h : 4 ≤ bits e 31 28)
include h

theorem State.deliver_loses (hlost : s.ctxState (bits e 31 28) ≠ 2 ∨ 256 ≤ (s.uctx (bits e 31 28)).queue.length) :
    s.deliver d e = s.count 0x6068 (d + 1) 1 :=
  (if_neg (Nat.not_lt.2 h)).trans (if_pos hlost)

theorem State.deliver_queues (hstate : s.ctxState (bits e 31 28) = 2) (hroom : (s.uctx (bits e 31 28)).queue.length < 256)
    (hwaiter : s.waiter (bits e 31 28) = none) : s.deliver d e = s.setUctx (bits e 31 28) { s.uctx (bits e 31 28) with
      queue := (s.uctx (bits e 31 28)).queue ++ [e] } := by
  refine (if_neg (Nat.not_lt.2 h)).trans ((if_neg (by omega)).trans ?_)
  rw [hwaiter]

end

/-- Settles O56: MBOX_SEND, MBOX_RECV, its timeout and MAILBOX_POP. -/
theorem contextsUseTheMailboxes : Obligations.ContextsUseTheMailboxes := by
  unfold Obligations.ContextsUseTheMailboxes
  refine ⟨fun core c d message s h hcore hc => ?send, fun core c buffer timeout s h hmap => ⟨fun hover => ?quota, fun hquota => ?recv⟩,
    fun core c s h => ?expired, fun d e rest s h => ?pop, fun d s h => congrArg Host.Outcome.next (mailPop_empty h)⟩
  case send =>
    have hexec : exec (.mboxSend core d message) s = .next (mailSend core d message.toNat s) := rfl
    obtain ⟨hmsg, hctx, huser, -⟩ := s.mailEntry_fields message.toNat c (some core) (core / 8)
    have hthread := s.mailEntry_core message.toNat c core (core / 8)
    rw [hexec, mailSend_call h]
    generalize s.mailEntry message.toNat c (some core) (core / 8) = e at *
    rw [Nat.mod_eq_of_lt message.isLt] at hmsg
    replace hctx := hctx.trans (Nat.mod_eq_of_lt hc)
    replace hthread := hthread.trans (Nat.mod_eq_of_lt (show core < 2 ^ 5 by omega))
    refine ⟨fun hbad => ?bad, fun hdest hd hroom => ?joins, fun hdest hd hfull => ?full, fun hdest hd hother => ?other⟩
    case bad => rw [if_pos hbad]; rfl
    case joins =>
      rw [if_neg (by omega), if_pos hd, State.pushMail_joins hroom, hctx, hthread]
      refine ⟨_, e, rfl, ?_, ?_, hmsg, hctx, huser, ?_, State.answerCall_a0 .., ?_, ?_⟩
      · rw [State.answerCall_box, State.mail_box, State.setBox_box_same]
      · rw [State.answerCall_box, State.mail_box, State.setBox_box_same]
      · rw [State.answerCall_box, State.mail_box, State.setBox_box_same]
      · rw [State.answerCall_mem, State.mail, State.setBox_mem, State.setBox_mem]
      · rw [State.answerCall_dict, State.mail, State.setBox_dict, State.setBox_dict]
    case full =>
      rw [if_neg (by omega), if_pos hd, State.pushMail_drops hfull, hctx, hthread]
      refine ⟨_, rfl, ?_, ?_, ?_, State.answerCall_a0 .., ?_, ?_⟩
      · rw [State.answerCall_box, State.count_box, State.setBox_box_same]
      · rw [State.answerCall_box, State.count_box, State.setBox_box_same]
      · rw [State.answerCall_box, State.count_box, State.setBox_box_same]
      · rw [State.answerCall_dict]
        exact State.count_dict_congr rfl _ _ _
      · rw [State.answerCall_mem, State.count_mem, State.setBox_mem]
    case other =>
      rw [if_neg (by omega), if_neg hother]
      refine ⟨_, e, congrArg Host.Outcome.next (if_pos (Ne.symm hother)), rfl, rfl, rfl, leBytes_length _ _, hmsg, hctx, huser,
        fun u => rfl⟩
  case quota =>
    have hstop := State.userStop_unmapped hmap 16 true
    rw [Bool.true_and, if_pos (decide_eq_true hover)] at hstop
    refine congrArg Host.Outcome.next ((mailReceive_call h _ _).trans ?_)
    rw [hstop]
    rfl
  case recv =>
    have hstop := State.userStop_within hmap hquota
    refine ⟨fun e rest hqueue => ?takes, fun hqueue htimeout => ?once, fun hqueue htimeout => ?waits⟩
    case takes =>
      obtain ⟨u, htake, hrest, hpriv⟩ := State.takeEntry_stores (core := core) hqueue hmap hquota
      have hexec : exec (.mboxRecv core buffer timeout) s = .next (s.takeEntry c core buffer) := by
        refine congrArg Host.Outcome.next ((mailReceive_call h _ _).trans ?_)
        rw [hstop, hqueue]
        rfl
      rw [hexec, htake]
      obtain ⟨l, hl⟩ := ((s.setUctx c { s.uctx c with queue := rest }).setUctx c u).answerCall_uctx c core 0
      rw [State.setUctx_uctx_same] at hl
      refine ⟨_, rfl, ?_, ?_, State.answerCall_a0 .., ?_⟩
      · rw [hl, hrest]
      · have hsame := Mem.readN_writeN_same (s.uctx c).priv buffer (leBytes 16 e)
        rw [leBytes_length] at hsame
        rw [hl, hpriv, hsame]
      · rw [State.answerCall_mem, State.setUctx_mem, State.setUctx_mem]
    case once =>
      refine congrArg Host.Outcome.next ((mailReceive_call h _ _).trans ?_)
      rw [hstop, hqueue]
      rfl
    case waits =>
      refine ⟨_, congrArg Host.Outcome.next (mailReceive_call h _ _), ?_⟩
      simp only [hstop, hqueue, Option.isSome_none, Bool.false_eq_true, if_false, List.isEmpty_nil, Bool.not_true, htimeout,
        State.setThread_thread_same, State.setThread_mem, State.setThread_dict, and_self]
  case expired =>
    have hexec : exec (.mboxRecvTimeout core) s = .next (mailTimeout core s) := rfl
    rw [hexec, mailTimeout, h]
    refine ⟨_, rfl, ?_, ?_, State.setThread_mem .., State.setThread_dict ..⟩
    · rw [State.setThread_thread_same]
    · rw [State.setThread_thread_same]
      rfl
  case pop =>
    have hexec : exec (.mailboxPop d) s = .next (mailPop d s) := rfl
    rw [hexec, mailPop_delivers h]
    have hring := s.retired_ring d rest
    refine ⟨fun hagent => ?agent, fun huser hlost => ?lost, fun huser hstate hroom hwaiter => ?queued⟩
    case agent =>
      rw [State.deliver_agent hagent]
      exact ⟨_, rfl, hring, by rw [kget_kset_same, State.retired_agent], rfl, rfl⟩
    case lost =>
      rw [State.deliver_loses (s := s.retired d rest) huser hlost]
      refine ⟨_, rfl, ?_, State.count_dict_congr rfl _ _ _, ?_, ?_⟩
      · rw [State.count_box, hring]
      · rw [State.count_thallus]
        rfl
      · rw [State.count_mem, State.retired, State.setBox_mem]
    case queued =>
      rw [State.deliver_queues (s := s.retired d rest) huser hstate hroom hwaiter]
      refine ⟨_, rfl, hring, ?_, rfl, rfl⟩
      rw [State.setUctx_uctx_same]
      rfl

end Sys2Proof.Machine
end

section
/-! The other calls of user contexts, and the ends of a quantum and of a context (R231–R234, R237–R239). -/

namespace Sys2Proof.Machine

open Sys2Proof.Safety

/-! ### The answer beside a change of the context -/

theorem State.setUctx_answer (s : State) (c core : Nat) (x : UserCtx) (v : Int) :
    ∃ l, ((s.setUctx c x).answerCall c core v).uctx c = { x with threads := l } := by
  obtain ⟨l, h⟩ := (s.setUctx c x).answerCall_uctx c core v
  exact ⟨l, by rw [h, State.setUctx_uctx_same]⟩

/-! ### MAP and UNMAP -/

/-- A mapping of a context meets the range of a grant at an address. -/
def UserCtx.clashes (u : UserCtx) (va n : Nat) : Bool :=
  u.maps.any fun m => match u.grants[m.2]? with
    | some h => overlaps m.1 h.2.1 va n
    | none => false

theorem UserCtx.clashes_eq_false {u : UserCtx} {va n : Nat}
    (h : ∀ m ∈ u.maps, ∀ g, u.grants[m.2]? = some g → overlaps m.1 g.2.1 va n = false) : u.clashes va n = false := by
  refine List.any_eq_false.2 fun m hm => ?_
  split
  next g hg => rw [h m hm g hg]; exact Bool.false_ne_true
  next => exact Bool.false_ne_true

/-- A grant covers a page that the stream fetcher reads (R239). -/
def State.grantHeld (s : State) (g : Nat × Nat × Bool) : Bool :=
  match s.grantLocal g.1 with
  | some a => s.streamPage a g.2.1
  | none => false

theorem State.grantHeld_eq_false {s : State} {g : Nat × Nat × Bool}
    (h : ∀ a, s.grantLocal g.1 = some a → s.streamPage a g.2.1 = false) : s.grantHeld g = false := by
  unfold State.grantHeld
  split
  next a ha => exact h a ha
  next => rfl

theorem State.grantHeld_of_local {s : State} {g : Nat × Nat × Bool} {a : Nat} (h : s.grantLocal g.1 = some a) :
    s.grantHeld g = s.streamPage a g.2.1 := by
  rw [State.grantHeld, h]

section
variable {s : State} {core c : Nat} (h : CallsFrom s core c)
include h

theorem mapGrant_missing {grant : Nat} (va : Nat) (hgrant : (s.uctx c).grants[grant]? = none) :
    mapGrant core grant va s = s.answerCall c core badArgument := by
  refine (s.call_from _ h).trans ?_
  dsimp only
  rw [hgrant]

theorem mapGrant_call {grant : Nat} {g : Nat × Nat × Bool} (va : Nat) (hgrant : (s.uctx c).grants[grant]? = some g) :
    mapGrant core grant va s =
      if s.grantHeld g then s.answerCall c core notPermitted
      else if va % 4096 ≠ 0 ∨ g.1 % 4096 ≠ 0 ∨ g.2.1 % 4096 ≠ 0 ∨ g.2.1 = 0 ∨ (s.uctx c).clashes va g.2.1 then
        s.answerCall c core badArgument
      else (s.setUctx c { s.uctx c with maps := (s.uctx c).maps ++ [(va, grant)] }).answerCall c core 0 := by
  refine (s.call_from _ h).trans ?_
  dsimp only
  rw [hgrant]
  rfl

theorem unmapGrant_call (va : Nat) : unmapGrant core va s =
    if (s.uctx c).maps.any fun m => m.1 == va then
      (s.setUctx c { s.uctx c with maps := (s.uctx c).maps.filter fun m => m.1 != va }).answerCall c core 0
    else s.answerCall c core badArgument := s.call_from _ h

/-! ### Slots -/

/-- The bundles that stand at a buffer of a context that no mapping covers. -/
def State.rawSlot (s : State) (c buffer count : Nat) : List Nat :=
  (List.range count).map fun j => leNat ((((s.uctx c).priv.readN buffer (64 * count)).drop (64 * j)).take 64)

section
variable {t buffer count : Nat} {span : Nat} (hkind : s.program.kind ≠ 0) (hpending : s.slotPending t = false)
  (hmap : s.mappingAt c buffer = none) (hcount : count ≤ 4096)
include hkind hpending hmap hcount

/-- A slot that fails a check of Table 9.11. -/
theorem submitSlot_rejects {code : Nat} (hcheck : s.slotCheck c t count span (s.rawSlot c buffer count) = some code) :
    submitSlot core t buffer count span s = (s.count 0x606A (c + 1) 1).setThread c core
      { s.thread c core with a0 := BitVec.ofInt 64 rejected, a1 := BitVec.ofNat 64 code } := by
  rw [State.rawSlot] at hcheck
  refine (s.call_from _ h).trans ?_
  simp only [hkind, hpending, Bool.false_eq_true, or_self, if_false, hcount, if_true, State.userStop_unmapped hmap,
    Bool.false_and, State.userRead_unmapped hmap, hcheck]

/-- A context with a submission of a table that waits. -/
def UserCtx.submits (u : UserCtx) (t buffer count span : Nat) : UserCtx :=
  { u with slots := (u.slots.filter fun x => x.1 != t) ++ [(t, buffer, count, span, 1)] }

/-- A slot that passes, its alternate slot in populated memory. -/
theorem submitSlot_accepts {x : State} (hcheck : s.slotCheck c t count span (s.rawSlot c buffer count) = none)
    (hpop : populated (s.alternateBase t) (64 * count) = true)
    (hx : s.writeThrough 1 (s.alternateBase t) ((s.uctx c).priv.readN buffer (64 * count)) false = x) :
    submitSlot core t buffer count span s = (x.setUctx c ((x.uctx c).submits t buffer count span)).answerCall c core 0 := by
  rw [State.rawSlot] at hcheck
  refine (s.call_from _ h).trans ?_
  simp only [hkind, hpending, Bool.false_eq_true, or_self, if_false, hcount, if_true, State.userStop_unmapped hmap,
    Bool.false_and, State.userRead_unmapped hmap, hcheck, hpop, Bool.not_true, hx, UserCtx.submits]

end

/-! ### SLOT_STATUS, LOG, YIELD and the end of a quantum -/

theorem slotState_call (table : Nat) : slotState core table s = s.answerCall c core
    (((((s.uctx c).slots.find? fun x => x.1 == table).map fun x => x.2.2.2.2).getD 0 : Nat) : Int) := by
  rw [slotState, s.call_from _ h]
  cases (s.uctx c).slots.find? fun x => x.1 == table with
  | none => rfl
  | some x => rfl

theorem logRecord_long {length : Nat} (buffer : Nat) (hlength : 256 < length) :
    logRecord core buffer length s = s.answerCall c core badArgument := (s.call_from _ h).trans (if_pos hlength)

theorem logRecord_private {buffer length : Nat} (hlength : length ≤ 256) (hmap : s.mappingAt c buffer = none) :
    logRecord core buffer length s = ({ s with thallus := { s.thallus with
      telemetry := [2, s.clock.frame, s.clock.cycle, c, length, leNat ((s.uctx c).priv.readN buffer length)] ::
        s.thallus.telemetry } } : State).answerCall c core 0 := by
  refine (s.call_from _ h).trans ((if_neg (Nat.not_lt.2 hlength)).trans ?_)
  simp only [State.userStop_unmapped hmap, Bool.false_and, Bool.false_eq_true, if_false, State.userRead_unmapped hmap]

theorem yieldThread_call : yieldThread core s = (s.answerCall c core 0).switchCore core := s.call_from _ h

theorem quantumEnd_call : quantumEnd core s = s.switchCore core := s.call_from _ h

/-- The thread that calls is the one its core runs. -/
theorem CallsFrom.tctx : (s.core core).tctx = c := by
  simp only [CallsFrom, State.caller, Option.ite_none_right_eq_some, Option.some.injEq] at h
  exact h.2

end

theorem State.switchCore_core (s : State) (core : Nat) :
    ((s.switchCore core).core core).tctx = s.nextContext core (s.core core).tctx ∧ ((s.switchCore core).core core).quantum = 0 := by
  rw [State.switchCore, State.setCore_core_same]
  exact ⟨rfl, rfl⟩

/-! ### The stop of a context -/

/-- Two states with the same everything but the cores. -/
def OnCores (s t : State) : Prop := ∃ l, t = { s with thallus := { s.thallus with cores := l } }

theorem OnCores.switchCores (l : List Nat) (s : State) : OnCores s (l.foldl (fun (s : State) k => s.switchCore k) s) := by
  induction l generalizing s with
  | nil => exact ⟨_, rfl⟩
  | cons k l ih =>
    obtain ⟨m, hm⟩ := ih (s.switchCore k)
    rw [List.foldl_cons, hm]
    exact ⟨_, rfl⟩

/-- A context stops: its cores go to others, and its state is set (R233). -/
theorem State.stopContext_stops (s : State) (c core state pc cause : Nat) : ∃ x, OnCores (s.setCtxState c state) x ∧
    s.stopContext c core state pc cause = if s.ctxObject 0x6061 c = 1 then
      x.raise 0x308 (0x88 + core) (core / 8) c (packFields [(5, core), (64, pc), (64, cause)]) else x := by
  have hcores := OnCores.switchCores (((s.setCtxState c state).ctxCores c).filter fun k => ((s.setCtxState c state).core k).tctx == c)
    (s.setCtxState c state)
  unfold State.stopContext
  extract_lets t x
  have hcritical : x.ctxObject 0x6061 c = s.ctxObject 0x6061 c := by
    obtain ⟨l, hl⟩ := hcores
    have hx : x = { t with thallus := { t.thallus with cores := l } } := hl
    rw [hx]
    exact State.put_get_other _ _ _ _ (by simp only [objKey]; omega)
  exact ⟨x, hcores, by rw [hcritical]⟩

/-- What the stop of a context leaves. -/
structure StopsContext (s t : State) (c core state pc cause : Nat) : Prop where
  state : t.ctxState c = state
  mem : t.mem = s.mem
  uncritical : s.ctxObject 0x6061 c ≠ 1 → t.faults = s.faults
  critical : s.ctxObject 0x6061 c = 1 → ∃ r, t.faults.inFlight = s.faults.inFlight ++ [r] ∧ r.2.code = 0x308 ∧ r.2.ctx = c ∧
    r.2.detail = packFields [(5, core), (64, pc), (64, cause)]

theorem State.stopContext_leaves (s : State) (c core state pc cause : Nat) :
    StopsContext s (s.stopContext c core state pc cause) c core state pc cause := by
  obtain ⟨x, ⟨l, hx⟩, hstop⟩ := s.stopContext_stops c core state pc cause
  have hstate : x.ctxState c = state := by
    rw [hx]
    exact State.put_get_same _ _ _ _
  have hmem : x.mem = s.mem := by rw [hx]; rfl
  have hfaults : x.faults = s.faults := by rw [hx]; rfl
  rw [hstop]
  split
  next hcritical =>
    obtain ⟨r, hr, hcode, -, hctx, hdetail⟩ := x.raise_reports 0x308 (0x88 + core) (core / 8) c
      (packFields [(5, core), (64, pc), (64, cause)])
    exact ⟨hstate, hmem, fun hnot => absurd hcritical hnot, fun _ => ⟨r, by rw [hr, hfaults], hcode, hctx, hdetail⟩⟩
  next hnot => exact ⟨hstate, hmem, fun _ => hfaults, fun hcritical => absurd hcritical hnot⟩

/-- The program counter and the cause of CONTEXT_FAULT (Table 13.7). -/
theorem bits_packFields_stop (core : Nat) (pc cause : BitVec 64) :
    bits (packFields [(5, core), (64, pc.toNat), (64, cause.toNat)]) 68 5 = pc.toNat ∧
      bits (packFields [(5, core), (64, pc.toNat), (64, cause.toNat)]) 132 69 = cause.toNat := by
  have hpc := pc.isLt
  have hcause := cause.isLt
  simp only [packFields, bits, Nat.shiftRight_eq_div_pow]
  omega

theorem exitContext_call {s : State} {core c : Nat} (h : CallsFrom s core c) (code : Nat) :
    exitContext core code s = s.draw.2.stopContext c core 3 s.draw.1.toNat 8 := s.call_from _ h

theorem contextException_call {s : State} {core c : Nat} (h : CallsFrom s core c) (pc cause : Nat) :
    contextException core pc cause s = s.stopContext c core 4 pc cause := s.call_from _ h

/-- Settles O57: MAP and UNMAP, the slots, SLOT_STATUS, LOG, YIELD, the end of a quantum, EXIT and an exception. -/
theorem contextsMapSubmitAndEnd : Obligations.ContextsMapSubmitAndEnd := by
  unfold Obligations.ContextsMapSubmitAndEnd
  refine ⟨fun core c s h => ⟨fun grant va hgrant => ?missing, fun grant va g hgrant hva hbase hlen hnone hapart hfree => ?mapped,
      fun grant va g a hgrant hlocal hheld => ?held, fun grant va g hgrant hva hfree => ?misaligned, fun va hmapped => ?unmapped,
      fun va hnone => ?unknown⟩,
    fun core c table buffer count span s h hkind hpending hmap hcount => ⟨fun code hcheck => ?rejected, fun hcheck hpop => ?accepted⟩,
    fun core c s h => ⟨fun table => ?status, fun buffer length hlength hmap => ?log, fun buffer length hlength => ?long, ?yield,
      ?quantum, fun code => ?exit, fun pc cause => ?exception⟩⟩
  case missing => exact congrArg Host.Outcome.next (mapGrant_missing h va hgrant)
  case mapped =>
    have hcall := mapGrant_call h va hgrant
    rw [State.grantHeld_eq_false hfree, if_neg Bool.false_ne_true,
      if_neg (by simp [hva, hbase, hlen, hnone, UserCtx.clashes_eq_false hapart])] at hcall
    obtain ⟨l, hl⟩ := s.setUctx_answer c core { s.uctx c with maps := (s.uctx c).maps ++ [(va, grant)] } 0
    exact ⟨_, congrArg Host.Outcome.next hcall, by rw [hl], State.answerCall_a0 .., rfl, rfl⟩
  case held =>
    refine congrArg Host.Outcome.next ((mapGrant_call h va hgrant).trans (if_pos ?_))
    rw [State.grantHeld_of_local hlocal, hheld]
  case misaligned =>
    refine congrArg Host.Outcome.next ((mapGrant_call h va hgrant).trans ?_)
    rw [State.grantHeld_eq_false hfree, if_neg Bool.false_ne_true, if_pos (.inl hva)]
    rfl
  case unmapped =>
    obtain ⟨m, hm, hva⟩ := hmapped
    have hany : ((s.uctx c).maps.any fun m => m.1 == va) = true := List.any_eq_true.2 ⟨m, hm, beq_iff_eq.2 hva⟩
    have hcall := (unmapGrant_call h va).trans (if_pos hany)
    obtain ⟨l, hl⟩ := s.setUctx_answer c core { s.uctx c with maps := (s.uctx c).maps.filter fun m => m.1 != va } 0
    exact ⟨_, congrArg Host.Outcome.next hcall, by rw [hl], State.answerCall_a0 .., rfl, rfl⟩
  case unknown =>
    refine congrArg Host.Outcome.next ((unmapGrant_call h va).trans (if_neg fun hany => ?_))
    obtain ⟨m, hm, hva⟩ := List.any_eq_true.1 hany
    exact hnone m hm (beq_iff_eq.1 hva)
  case rejected =>
    have hcall := submitSlot_rejects h hkind hpending hmap hcount hcheck
    refine ⟨_, congrArg Host.Outcome.next hcall, ?_, ?_, ?_, ?_⟩
    · rw [State.setThread_thread_same]
      rfl
    · rw [State.setThread_thread_same]
    · rw [State.setThread_dict]
    · rw [State.setThread_mem, State.count_mem]
  case accepted =>
    have hcall := submitSlot_accepts h hkind hpending hmap hcount hcheck hpop rfl
    have hread := s.hbmRead_writeThrough_same 1 (s.alternateBase table) ((s.uctx c).priv.readN buffer (64 * count)) false
    rw [Mem.readN_length] at hread
    generalize s.writeThrough 1 (s.alternateBase table) ((s.uctx c).priv.readN buffer (64 * count)) false = x at hcall hread
    obtain ⟨l, hl⟩ := x.setUctx_answer c core ((x.uctx c).submits table buffer count span) 0
    refine ⟨_, congrArg Host.Outcome.next hcall, State.answerCall_a0 .., ?_, ?_⟩
    · rw [State.hbmRead, State.answerCall_mem, State.setUctx_mem]
      exact hread
    · rw [hl]
      exact List.mem_append_right _ List.mem_cons_self
  case status => exact congrArg Host.Outcome.next (slotState_call h table)
  case log => exact ⟨_, congrArg Host.Outcome.next (logRecord_private h hlength hmap), rfl, State.answerCall_a0 .., rfl, rfl⟩
  case long => exact congrArg Host.Outcome.next (logRecord_long h buffer hlength)
  case yield =>
    obtain ⟨hnext, hquantum⟩ := (s.answerCall c core 0).switchCore_core core
    refine ⟨_, congrArg Host.Outcome.next (yieldThread_call h), hnext.trans ?_, hquantum, ?_, rfl, rfl⟩
    · exact congrArg (s.nextContext core) (CallsFrom.tctx h)
    · exact s.answerCall_a0 c core 0
  case quantum =>
    obtain ⟨hnext, hquantum⟩ := s.switchCore_core core
    exact ⟨_, congrArg Host.Outcome.next (quantumEnd_call h), hnext.trans (congrArg (s.nextContext core) (CallsFrom.tctx h)), hquantum,
      rfl, rfl, rfl⟩
  case exit =>
    obtain ⟨hstate, hmem, huncritical, hcritical⟩ := s.draw.2.stopContext_leaves c core 3 s.draw.1.toNat 8
    refine ⟨_, congrArg Host.Outcome.next (exitContext_call h code), hstate, hmem, huncritical, fun hobject => ?_⟩
    obtain ⟨r, hr, hcode, hctx, -⟩ := hcritical hobject
    exact ⟨r, hr, hcode, hctx⟩
  case exception =>
    obtain ⟨hstate, hmem, huncritical, hcritical⟩ := s.stopContext_leaves c core 4 pc.toNat cause.toNat
    refine ⟨_, congrArg Host.Outcome.next (contextException_call h _ _), hstate, hmem, huncritical, fun hobject => ?_⟩
    obtain ⟨r, hr, hcode, hctx, hdetail⟩ := hcritical hobject
    obtain ⟨hpc, hcause⟩ := bits_packFields_stop core pc cause
    exact ⟨r, hr, hcode, by rw [hdetail, hpc], by rw [hdetail, hcause]⟩

end Sys2Proof.Machine
end

section
/-! Stores and reductions of the board space (R246, R262–R265, R286–R289). -/

namespace Sys2Proof.Machine

open Sys2Proof.Safety

/-! ### Writes that cross blocks -/

theorem Mem.writeN_append (m : Mem) (a : Nat) (l r : List Byte) : m.writeN a (l ++ r) = (m.writeN a l).writeN (a + l.length) r := by
  induction l generalizing m a with
  | nil => rfl
  | cons b l ih =>
    rw [List.cons_append, Mem.writeN, Mem.writeN, ih, List.length_cons, Nat.add_right_comm, Nat.add_assoc]

theorem StoresHbm.writeBlock (s : State) (ctx tensor a hint uses : Nat) (bytes : List Byte) (p : Bool) :
    StoresHbm s (s.writeBlock ctx tensor a hint uses bytes p) :=
  ((Notes.touchWrite s _ _ _ _ _).storesHbm.trans (.noteWritten _ _)).trans ((StoresHbm.recordWrite ..).trans (.hbmWrite ..))

theorem StoresHbm.writeBytes (s : State) (ctx tensor a hint uses : Nat) (bytes : List Byte) (p : Bool) :
    StoresHbm s (s.writeBytes ctx tensor a hint uses bytes p) := .foldl (fun x _ => .writeBlock x _ _ _ _ _ _ _) _ s

theorem overlaps_eq_false {a n b m : Nat} : overlaps a n b m = false ↔ b + m ≤ a ∨ a + n ≤ b := by
  simp only [overlaps, Bool.and_eq_false_iff, decide_eq_false_iff_not, Nat.not_lt]

/-- A range that is apart from the directory and its descriptors, and of no tensor with a record plane, stays so where only bytes of
the range change. -/
theorem plainLanding_of_outside {s t : State} {tensor a n : Nat} (h : plainLanding s tensor a n) (hprogram : t.program = s.program)
    (hout : ∀ c, c < a ∨ a + n ≤ c → t.mem.hbm.read c = s.mem.hbm.read c) : plainLanding t tensor a n := by
  obtain ⟨hclass, hdir, htable⟩ := h
  rw [overlaps_eq_false] at hdir htable
  have hread {b k : Nat} (hb : ∀ c, b ≤ c → c < b + k → c < a ∨ a + n ≤ c) : t.hbmLE b k = s.hbmLE b k :=
    congrArg leNat (Mem.readN_congr fun c h1 h2 => hout c (hb c h1 h2))
  have hbase : t.dirBase 0 = s.dirBase 0 := by
    rw [State.dirBase, hprogram, State.dirBase]
    exact hread fun c h1 h2 => by omega
  have hcount : t.dirCount 0 = s.dirCount 0 := by
    rw [State.dirCount, hprogram, State.dirCount]
    exact hread fun c h1 h2 => by omega
  have hdesc : t.tensorDesc tensor = s.tensorDesc tensor := by
    have htables : ((List.range (s.dirCount 0)).map fun j => t.desc 0 j) = (List.range (s.dirCount 0)).map fun j => s.desc 0 j := by
      refine List.map_congr_left fun j hj => ?_
      have hj := List.mem_range.1 hj
      rw [State.desc, State.desc, hbase]
      exact hread fun c h1 h2 => by omega
    rw [State.tensorDesc, State.tensorDesc, hcount, htables]
  refine ⟨fun d hd => hclass d (hdesc.symm.trans hd), ?_, ?_⟩
  · rw [overlaps_eq_false, hprogram]
    exact hdir
  · rw [overlaps_eq_false, hbase, hcount]
    exact htable

theorem plainLanding_part {s : State} {tensor a n b k : Nat} (h : plainLanding s tensor a n) (hlow : a ≤ b) (hhigh : b + k ≤ a + n) :
    plainLanding s tensor b k := by
  obtain ⟨hclass, hdir, htable⟩ := h
  rw [overlaps_eq_false] at hdir htable
  exact ⟨hclass, overlaps_eq_false.2 (by omega), overlaps_eq_false.2 (by omega)⟩

/-- A write within one block, to no tensor with a record plane: HBM takes its bytes. -/
theorem State.writeBlock_plain {s : State} {tensor a : Nat} {bytes : List Byte} (ctx hint uses : Nat) (p : Bool)
    (h : plainLanding s tensor a bytes.length) :
    (s.writeBlock ctx tensor a hint uses bytes p).mem.hbm = s.mem.hbm.writeN a bytes := by
  obtain ⟨x, hnotes, hwrite, -⟩ := s.writeBlock_hbm ctx tensor a hint uses bytes p
  have hx : (x.noteWritten tensor).mem.hbm = s.mem.hbm := (x.noteWritten_hbm tensor).trans hnotes.hbm
  have hdesc : (x.noteWritten tensor).tensorDesc tensor = s.tensorDesc tensor :=
    (x.noteWritten_tensorDesc tensor tensor).trans (State.tensorDesc_congr hnotes.hbm hnotes.program tensor)
  rw [hwrite, State.recordWrite_plain ctx a bytes (fun d hd => h.1 d (hdesc.symm.trans hd)), hx]

/-- The parts of a write, block by block. -/
theorem State.writeCut_plain (ctx hint uses : Nat) (p : Bool) {tensor : Nat} (fuel : Nat) : ∀ {s : State} {a : Nat} {bytes : List Byte},
    bytes.length ≤ fuel → plainLanding s tensor a bytes.length →
    ((cutBlocks 1 fuel a bytes).foldl (fun (s : State) q => s.writeBlock ctx tensor q.1 hint uses q.2 p) s).mem.hbm =
      s.mem.hbm.writeN a bytes := by
  induction fuel with
  | zero =>
    intro s a bytes hfuel _
    rw [List.length_eq_zero_iff.1 (Nat.le_zero.1 hfuel)]
    rfl
  | succ fuel ih =>
    intro s a bytes hfuel h
    rw [cutBlocks]
    split
    next hempty =>
      rw [List.isEmpty_iff.1 hempty]
      rfl
    next hempty =>
      have hsome : 0 < bytes.length := List.length_pos_iff.2 fun hnil => hempty (List.isEmpty_iff.2 hnil)
      extract_lets n
      have hn : 1 ≤ n := Nat.le_max_left ..
      clear_value n
      have hfirst := State.writeBlock_plain ctx hint uses p
        (plainLanding_part h (b := a) (k := (bytes.take n).length) (le_refl a) (by simp))
      have hprogram := (StoresHbm.writeBlock s ctx tensor a hint uses (bytes.take n) p).stores.program
      have hlater : plainLanding (s.writeBlock ctx tensor a hint uses (bytes.take n) p) tensor a bytes.length := by
        refine plainLanding_of_outside h hprogram fun c hc => ?_
        rw [hfirst]
        refine Mem.read_writeN_outside _ _ _ ?_
        have := List.length_take_le n bytes
        have := List.length_take_le' n bytes
        omega
      rw [List.foldl_cons]
      by_cases hall : bytes.length ≤ n
      · rw [List.drop_eq_nil_of_le hall]
        have hdone : cutBlocks 1 fuel (a + 1 * n) ([] : List Byte) = [] := by
          cases fuel <;> rfl
        rw [hdone, List.foldl_nil, hfirst, List.take_of_length_le hall]
      · have hlen : (bytes.drop n).length = bytes.length - n := List.length_drop
        rw [ih (by omega) (plainLanding_part hlater (by omega) (by omega)), hfirst, Nat.one_mul]
        calc (s.mem.hbm.writeN a (bytes.take n)).writeN (a + n) (bytes.drop n)
            = (s.mem.hbm.writeN a (bytes.take n)).writeN (a + (bytes.take n).length) (bytes.drop n) := by
              rw [List.length_take_of_le (by omega)]
          _ = s.mem.hbm.writeN a (bytes.take n ++ bytes.drop n) := (Mem.writeN_append ..).symm
          _ = s.mem.hbm.writeN a bytes := by rw [List.take_append_drop]

theorem State.creditIn_foreign {s : State} {p : Packet} (n : Nat) (h : p.own = false) : s.creditIn n p = s := by
  simp [State.creditIn, State.credit, h]

theorem State.putEffect_foreign {s : State} {q : Packet} {a tensor hint uses : Nat} (hdeed : q.deed = .write a tensor hint uses)
    (hown : q.own = false) : s.putEffect q = s.writeBytes q.ctx tensor a hint uses q.data q.poison := by
  simp only [State.putEffect, hdeed, State.creditIn_foreign _ hown]

/-! ### Deliveries -/

theorem State.boardDeliver_unknown {s : State} {p : Nat} {f : Flit} (act : State → State) (h : s.boardSource p f = false) :
    s.boardDeliver p f act = s.count 0x5023 (p + 1) 1 := by
  simp [State.boardDeliver, h]

theorem State.boardDeliver_fenced {s : State} {p : Nat} {f : Flit} (act : State → State) (h : s.boardSource p f = true)
    (hfenced : (s.fenced && p != 16) = true) : s.boardDeliver p f act = s := by
  rw [State.boardDeliver, h, hfenced]
  rfl

theorem State.boardDeliver_acts {s : State} {p : Nat} {f : Flit} (act : State → State) (h : s.boardSource p f = true)
    (hfenced : (s.fenced && p != 16) = false) : s.boardDeliver p f act = act s := by
  rw [State.boardDeliver, h, hfenced]
  rfl

theorem programArea_stack {a n : Nat} (h : programArea a n = true) : stackOf a < 12 := by
  simp only [programArea, populated, Bool.and_eq_true, decide_eq_true_eq] at h
  exact h.1.1

/-- The module's own local path is at the die of the stack. -/
theorem unitDie_landUnit {a : Nat} (h : stackOf a < 12) : unitDie (landUnit 17 a) = addressDie a := by
  rw [landUnit, if_pos rfl, addressDie, unitDie, if_neg (by omega), if_pos (by omega), Nat.add_sub_cancel_left]

theorem State.deliverIn_traffic (s : State) (p : Nat) (q : Packet) : ∃ x, s.deliverIn p q = { s with traffic := x } := by
  unfold State.deliverIn State.carry
  split_ifs
  all_goals exact ⟨_, rfl⟩

theorem State.deliverIn_delivers {s : State} {p : Nat} {q : Packet} (h : p = 17 → q.at_ = q.to_) : Delivers p s (s.deliverIn p q) q := by
  refine ⟨fun hp => ?_, fun hp hplace => ?_, fun hp a hplace => ?_⟩
  · rw [State.deliverIn, if_neg hp]
    rfl
  · rw [State.deliverIn, if_pos hp, State.carry, if_neg (not_not.2 (h hp)), hplace]
    rfl
  · rw [State.deliverIn, if_pos hp, State.carry, if_neg (not_not.2 (h hp)), hplace]
    simp only [Option.isSome_some, if_true, State.ask, State.setTraffic, StackRequest.stack, hplace, Option.getD_some, kget_kset_same]

theorem delivers_of_traffic {p : Nat} {s t u : State} {q : Packet} (h : Delivers p t u q) (htraffic : t.traffic = s.traffic) :
    Delivers p s u q := by
  unfold Delivers at *
  rw [htraffic] at h
  exact h

/-! ### BSTORE -/

theorem landStore_unknown {p : Nat} {f : Flit} {s : State} (hsource : s.boardSource p f = false) :
    landStore p f s = s.count 0x5023 (p + 1) 1 := by
  simp only [landStore, State.boardDeliver_unknown _ hsource]

theorem landStore_fenced {p : Nat} {f : Flit} {s : State} (hsource : s.boardSource p f = true)
    (hfenced : (s.fenced && p != 16) = true) : landStore p f s = s := by
  simp only [landStore, State.boardDeliver_fenced _ hsource hfenced]

section
variable {p : Nat} {f : Flit} {s : State} (hsource : s.boardSource p f = true) (hfenced : (s.fenced && p != 16) = false)
include hsource hfenced

theorem landStore_refused (harea : programArea (f.addr % 2 ^ 41) f.payload.length = false) :
    landStore p f s = s.landRefused p (f.addr % 2 ^ 41) := by
  simp only [landStore, State.boardDeliver_acts _ hsource hfenced]
  rw [harea]
  rfl

theorem landStore_delivers (harea : programArea (f.addr % 2 ^ 41) f.payload.length = true) :
    landStore p f s = s.deliverIn p (s.packet (landUnit p (f.addr % 2 ^ 41)) 0
      (if p = 16 then 4 else ((s.windowAt (f.addr % 2 ^ 41) f.payload.length).map fun w => w.cls).getD 1)
      (unitDie (landUnit p (f.addr % 2 ^ 41))) (addressDie (f.addr % 2 ^ 41)) f.payload f.poison
      (.write (f.addr % 2 ^ 41) (s.landTensor (f.addr % 2 ^ 41)) 0 0)) := by
  simp only [landStore, State.boardDeliver_acts _ hsource hfenced]
  rw [harea]
  rfl

/-! ### BREDUCE -/

/-- The bytes of HBM that a reduction reaches from its address (R252). -/
def State.reducedBytes (s : State) (f : Flit) : Nat :=
  ((s.windowAt (f.addr % 2 ^ 41) 1).map fun w => w.stored f.payload.length).getD f.payload.length

theorem landReduce_refused (harea : programArea (f.addr % 2 ^ 41) (s.reducedBytes f) = false) :
    landReduce p f s = s.landRefused p (f.addr % 2 ^ 41) := by
  simp only [landReduce, State.boardDeliver_acts _ hsource hfenced]
  rw [State.reducedBytes] at harea
  rw [harea]
  rfl

variable (harea : programArea (f.addr % 2 ^ 41) (s.reducedBytes f) = true)
include harea

theorem landReduce_unarmed (hwindow : s.windowFor (f.addr % 2 ^ 41) f.payload.length = none) :
    landReduce p f s = (s.count 0x4026 (stackOf (f.addr % 2 ^ 41) + 1) 1).raise 0x207 (0x40 + stackOf (f.addr % 2 ^ 41))
      (stackOf (f.addr % 2 ^ 41) / 4) 0 (packFields [(64, f.addr % 2 ^ 41), (32, s.tensorField (f.addr % 2 ^ 41))]) := by
  simp only [landReduce, State.boardDeliver_acts _ hsource hfenced]
  rw [State.reducedBytes] at harea
  rw [harea, hwindow]
  rfl

variable {w : Window} (hwindow : s.windowFor (f.addr % 2 ^ 41) f.payload.length = some w)
include hwindow

theorem landReduce_invalid (haligned : w.aligned (f.addr % 2 ^ 41) f.payload.length = false) :
    landReduce p f s = s.dropInvalid p f := by
  simp only [landReduce, State.boardDeliver_acts _ hsource hfenced]
  rw [State.reducedBytes] at harea
  rw [harea, hwindow]
  dsimp only
  rw [haligned]
  rfl

/-- Bytes of BREDUCE under way to an armed window. -/
def State.reducePacket (s : State) (p : Nat) (f : Flit) (w : Window) (poison : Bool) (deed : Deed) : Packet :=
  s.packet (landUnit p (f.addr % 2 ^ 41)) w.ctx w.cls (unitDie (landUnit p (f.addr % 2 ^ 41))) (addressDie (f.addr % 2 ^ 41))
    f.payload poison deed

/-- The byte of the transfer, of the source, that a reduction begins at (R252). -/
def Window.offset (w : Window) (a : Nat) : Nat :=
  if w.op = 1 ∨ w.op = 2 then (a - w.base) * fmtBits w.sfmt / 16 else a - w.base

variable (haligned : w.aligned (f.addr % 2 ^ 41) f.payload.length = true)
include haligned

theorem landReduce_stores (hop : w.op = 0) : landReduce p f s =
    s.deliverIn p (s.reducePacket p f w f.poison (.write (f.addr % 2 ^ 41) w.tensor w.hint w.uses)) := by
  simp only [landReduce, State.boardDeliver_acts _ hsource hfenced]
  rw [State.reducedBytes] at harea
  rw [harea, hwindow]
  dsimp only
  rw [haligned]
  exact if_pos hop

theorem landReduce_reduces (hop : w.op ≠ 0) : ∃ x poison, Notes s x ∧ landReduce p f s = x.deliverIn p
    (x.reducePacket p f w poison (.reduce (x.windowReducer w f.src) w.base (w.offset (f.addr % 2 ^ 41)))) := by
  refine ⟨s.touchTable (0x40 + stackOf (f.addr % 2 ^ 41)) w.ctx w.op w.coef w.coefTab f.src,
    f.poison || (s.touchTable (0x40 + stackOf (f.addr % 2 ^ 41)) w.ctx w.op w.coef w.coefTab f.src).tablePoisoned w.op w.coef
      w.coefTab f.src, Notes.touchTable .., ?_⟩
  simp only [landReduce, State.boardDeliver_acts _ hsource hfenced]
  rw [State.reducedBytes] at harea
  rw [harea, hwindow]
  dsimp only
  rw [haligned]
  exact if_neg hop

/-- An armed window: the bytes go to its stack, to be written or reduced there (R264). -/
theorem landReduce_delivers : ∃ x q, Notes s x ∧ landReduce p f s = x.deliverIn p q ∧
    (p = 17 → q.at_ = q.to_) ∧ q.cls = w.cls ∧ q.ctx = w.ctx ∧ q.data = f.payload ∧
    (w.op = 0 → q.deed = .write (f.addr % 2 ^ 41) w.tensor w.hint w.uses) ∧
    (w.op ≠ 0 → q.deed = .reduce (s.windowReducer w f.src) w.base (w.offset (f.addr % 2 ^ 41))) := by
  have hdie : p = 17 → unitDie (landUnit p (f.addr % 2 ^ 41)) = addressDie (f.addr % 2 ^ 41) := by
    rintro rfl
    exact unitDie_landUnit (programArea_stack harea)
  by_cases hop : w.op = 0
  · exact ⟨s, _, .refl s, landReduce_stores hsource hfenced harea hwindow haligned hop, hdie, rfl, rfl, rfl, fun _ => rfl,
      fun hnot => absurd hop hnot⟩
  · obtain ⟨x, poison, hnotes, hland⟩ := landReduce_reduces hsource hfenced harea hwindow haligned hop
    have hreducer : x.windowReducer w f.src = s.windowReducer w f.src := by
      simp only [State.windowReducer, State.coefficient, hnotes.hbm]
    rw [hreducer] at hland
    exact ⟨x, _, hnotes, hland, hdie, rfl, rfl, rfl, fun hzero => absurd hzero hop, fun _ => rfl⟩

end

/-! ### The statement -/

theorem State.landRefused_reports (s : State) (p a : Nat) : ∃ r, (s.landRefused p a).faults.inFlight = s.faults.inFlight ++ [r] ∧
    r.2.code = 0x204 ∧ (s.landRefused p a).mem = s.mem := by
  obtain ⟨r, hr, hcode, -⟩ := s.raise_reports 0x204 (landUnit p a) (unitDie (landUnit p a)) 0
    (packFields [(64, a), (32, s.tensorField a)])
  exact ⟨r, hr, hcode, State.raise_mem ..⟩

theorem exec_bstoreReceive {p : Nat} {raw : List Byte} {s t : State} {f : Flit} (h : Arrives p raw (ofType 2) s f t) :
    exec (.bstoreReceive p raw) s = .next (landStore p f t) := congrArg Host.Outcome.next (receive_arrives landStore h)

theorem exec_breduceReceive {p : Nat} {raw : List Byte} {s t : State} {f : Flit} (h : Arrives p raw (ofType 3) s f t) :
    exec (.breduceReceive p raw) s = .next (landReduce p f t) := congrArg Host.Outcome.next (receive_arrives landReduce h)

/-- Settles O28: BSTORE by source, fence and address, the write at its stack, and BREDUCE by its window. -/
theorem boardStoresAndReductions : Obligations.BoardStoresAndReductions := by
  unfold Obligations.BoardStoresAndReductions
  refine ⟨⟨fun p raw s t f h => ⟨fun hsource hfenced harea => ?store, fun hsource hfenced harea => ?refused, fun hsource => ?unknown,
    fun hsource hfenced => ?fenced⟩, fun s q a tensor hint uses hdeed hown hplain => ?effect⟩,
    fun p raw s t f h hsource hfenced => ⟨fun harea => ?outside, fun harea => ⟨fun hwindow => ?unarmed,
      fun w hwindow haligned => ?armed, fun w hwindow haligned => ?invalid⟩⟩⟩
  case store =>
    rw [exec_bstoreReceive h, landStore_delivers hsource hfenced harea]
    refine ⟨_, _, rfl, State.deliverIn_delivers ?_, ?_, rfl, rfl, rfl, rfl⟩
    · rintro rfl
      exact unitDie_landUnit (programArea_stack harea)
    · obtain ⟨x, hx⟩ := t.deliverIn_traffic p _
      rw [hx]
  case refused =>
    obtain ⟨r, hr, hcode, hmem⟩ := t.landRefused_reports p (f.addr % 2 ^ 41)
    exact ⟨_, r, (exec_bstoreReceive h).trans (congrArg Host.Outcome.next (landStore_refused hsource hfenced harea)), hr, hcode, hmem⟩
  case unknown =>
    exact (exec_bstoreReceive h).trans (congrArg Host.Outcome.next (landStore_unknown hsource))
  case fenced =>
    exact (exec_bstoreReceive h).trans (congrArg Host.Outcome.next (landStore_fenced hsource hfenced))
  case effect =>
    have hstores := StoresHbm.writeBytes s q.ctx tensor a hint uses q.data q.poison
    have hhbm : (s.writeBytes q.ctx tensor a hint uses q.data q.poison).mem.hbm = s.mem.hbm.writeN a q.data :=
      State.writeCut_plain q.ctx hint uses q.poison q.data.length (le_refl _) hplain
    rw [State.putEffect_foreign hdeed hown]
    refine ⟨?_, hstores.ops, hstores.stores.units, fun c hc => ?_⟩
    · rw [State.hbmRead, hhbm, Mem.readN_writeN_same]
    · rw [hhbm, Mem.read_writeN_outside _ _ _ hc]
  case outside =>
    obtain ⟨r, hr, hcode, hmem⟩ := t.landRefused_reports p (f.addr % 2 ^ 41)
    exact ⟨_, r, (exec_breduceReceive h).trans (congrArg Host.Outcome.next (landReduce_refused hsource hfenced harea)), hr, hcode, hmem⟩
  case unarmed =>
    rw [exec_breduceReceive h, landReduce_unarmed hsource hfenced harea hwindow]
    obtain ⟨r, hr, hcode, -⟩ := (t.count 0x4026 (stackOf (f.addr % 2 ^ 41) + 1) 1).raise_reports 0x207
      (0x40 + stackOf (f.addr % 2 ^ 41)) (stackOf (f.addr % 2 ^ 41) / 4) 0
      (packFields [(64, f.addr % 2 ^ 41), (32, t.tensorField (f.addr % 2 ^ 41))])
    refine ⟨_, r, rfl, ?_, ?_, hr, hcode⟩
    · rw [State.raise_mem, State.count_mem]
    · rw [State.raise_dict]
  case armed =>
    obtain ⟨x, q, hnotes, hland, hdie, hcls, hctx, hdata, hwrite, hreduce⟩ :=
      landReduce_delivers hsource hfenced harea hwindow haligned
    obtain ⟨y, hy⟩ := x.deliverIn_traffic p q
    refine ⟨_, q, (exec_breduceReceive h).trans (congrArg Host.Outcome.next hland),
      delivers_of_traffic (State.deliverIn_delivers hdie) hnotes.traffic, ?_, ?_, hcls, hctx, hdata, hwrite, hreduce⟩
    · rw [hy]
      exact hnotes.hbm
    · rw [hy]
      exact hnotes.ops
  case invalid =>
    rw [exec_breduceReceive h, landReduce_invalid hsource hfenced harea hwindow haligned]
    obtain ⟨r, hr, hcode, -⟩ := (t.count 0x5024 (p + 1) 1).raise_reports 0x209 (portUnit p) (unitDie (portUnit p)) 0 (portDetail p f)
    refine ⟨_, r, rfl, ?_, ?_, hr, hcode⟩
    · rw [State.dropInvalid, State.raise_dict]
    · rw [State.dropInvalid, State.raise_mem, State.count_mem]

end Sys2Proof.Machine
end
